-- ==== Sys2Proof/Word.lean ====
section
/-! DEFINITION. The word types: a register is 32 bits wide (R511), a byte of a page or an SRAM is 8. -/

namespace Sys2Proof

/-- A register word (R511). -/
abbrev Word := BitVec 32

/-- A byte. -/
abbrev Byte := BitVec 8

end Sys2Proof
end

