-- ==== Sys2Proof/Syntax.lean ====
section
/-! DEFINITION. The commands of the block, one constructor per row of the spec's table of operations and events.
Operands are what the occurrence itself brings from outside the part: the lane or slice it concerns, a register
master with the word it writes, the converter codes of a leaf slot, a measured value. The part's own state is never
an operand. -/

namespace Sys2Proof

/-- An optical lane L0–L7. -/
abbrev Lane := Fin 8
/-- A slice S0–S8. -/
abbrev Slice := Fin 9
/-- A mapping stream 0–15 (R57). -/
abbrev Stream := Fin 16
/-- A host lane H0–H15. -/
abbrev HostLane := Fin 16

/-- The masters of the register bus (R509). -/
inductive Master where
  | cpuM | cpuU | dma | debug | host | mesh
  deriving DecidableEq, Repr

/-- The width of a register access (R511, R513). -/
inductive Width where
  | byte | half | word
  deriving DecidableEq, Repr

/-- A software write that a master lands in the commit clock of an internal boundary (R171, R214). -/
structure SwWrite where
  master : Master
  addr   : Nat
  width  : Width
  value  : Word
  deriving DecidableEq, Repr

/-- What an internal quire boundary samples from outside the registers: the software writes of its commit clock, and
for each lane whether the converter PLL is locked (R173). -/
structure TickInput where
  writes   : List SwWrite
  convLock : BitVec 8
  deriving DecidableEq, Repr

/-- The raw converter codes of one leaf slot (R207, R209), and those of the symbols that follow it, which the
equaliser's later taps and the MLSE's look-ahead of R244 read. -/
structure RxLeaf where
  codes : List Byte
  ahead : List Byte
  deriving DecidableEq, Repr

/-- What R173 names as a queue fault's cause: a fill level, or loss of the converter PLL's lock. -/
inductive QueueCause where
  | fill (codes : Nat) | pllLost
  deriving DecidableEq, Repr

/-- The comparison of step 2 of R216 for one core: over 4,096 samples, the sum of the differences in 1/4 LSB and the
sum of their squares in 1/16 LSB². -/
structure MatchSums where
  sum   : Int
  sumSq : Nat
  deriving DecidableEq, Repr

/-- The offline check of R216: the measured offset error with the unit's trims and the offset total (1/16 LSB), the
gain error and the gain difference from the units in use (1/4096). -/
structure OfflineMeas where
  ofsErr   : Int
  ofs      : Int
  gainErr  : Int
  gainDiff : Int
  deriving DecidableEq, Repr

/-- Processor clocks of a load or store, which the performance bank counts (R679): stalled, and with a register-bus access
outstanding. -/
structure AccessClocks where
  stalled : Nat
  bus     : Nat
  deriving DecidableEq, Repr

/-- What a dozing lane's detector saw (R578), latest first: its levels, one a microsecond, in the units of R222; or the half-periods of
a signal, each with its level and its length in ns. -/
inductive WakeSource where
  | light (levels : List Int) | wakePattern (halves : List (Int × Nat))
  deriving DecidableEq, Repr

/-- What a self-test measured (R668): patterns or operations applied, whether every signature or compare matched, and
the failing words' byte offsets in the segment. -/
structure TestRun where
  count : Nat
  ok    : Bool
  words : List Nat
  deriving DecidableEq, Repr

/-- The domain names of R540, R541. -/
inductive Dom where
  | slc (s : Slice) | lfe (n : Lane) | hg (k : Fin 4) | msh | mgt | aon
  deriving DecidableEq, Repr

/-- One image slot of the boot store as it reads (R628): the 128-byte reads that did not complete within 1 ms, by their number in the
slot and once for each attempt (R624), the 256-byte header, the signature and the body. -/
structure ImageIn where
  late   : List Nat
  header : List Byte
  sig    : List Byte
  body   : List Byte
  deriving DecidableEq, Repr

/-- A provisioning record (R641, R642): the items Luhel programs in BLANK. -/
structure Provision where
  devId  : BitVec 64
  grade  : Bool
  devSec : List Byte
  fwKey  : BitVec 256
  deriving DecidableEq, Repr

/-- The boot store's content (R625): two headers of 256 bytes, and slots A and B of each kind, `none` where a slot holds
no image; and the provisioning record that a part in BLANK reads (R642), if any. -/
structure BootStore where
  hdr0 : List Byte
  hdr1 : List Byte
  fwA  : ImageIn
  fwB  : ImageIn
  extA : Option ImageIn
  extB : Option ImageIn
  cfgA : Option ImageIn
  cfgB : Option ImageIn
  prov : Option Provision
  deriving DecidableEq, Repr

inductive Instr where
  | quireTick (inp : TickInput)
  | receivedQuireBoundary (n : Lane) (clk : Fin 16384)
  | hostPllLock
  | hostPllLockLoss
  | tsrcLaneLoss
  | tsrcLaneRecovery
  | refRangeCheck (count : Nat)
  | loWordRead (m : Master) (addr : Nat)
  | hostLaneLost (h : HostLane)
  | hostLaneRestored (h : HostLane)
  | alignmentMarkerSet (s : Stream) (valid : Bool) (pos : List Nat)
  | hostCodewordDecode (s : Stream) (word : List (BitVec 10 × HostLane))
  | transmitLeaf (n : Lane) (ab : BitVec 544 × BitVec 544) (smp : Byte)
  | markerReceived (n : Lane) (rx : RxLeaf)
  | pilotLeafReceived (n : Lane) (rx : RxLeaf)
  | leafDecode (n : Lane) (rx : RxLeaf)
  | faultLeak (c : Fin 13) (inst : Nat)
  | queueFault (n : Lane) (cause : QueueCause)
  | swingMoveDone (n : Lane)
  | transmitterStart (n : Lane)
  | agcWindowEnd (n : Lane)
  | acqWindowEnd (n : Lane)
  | signalDetect (n : Lane)
  | signalLoss (n : Lane)
  | acqTimeout (n : Lane)
  | warmFallback (n : Lane)
  | updateIntervalEnd (n : Lane) (rx : RxLeaf)
  | reacq (m : Master) (n : Lane) (v : Word)
  | save (m : Master) (n : Lane) (v : Word)
  | eqFreezeWrite (m : Master) (n : Lane) (v : Word)
  | interpFreezeWrite (m : Master) (n : Lane) (v : Word)
  | rotationStepDue (n : Lane) (m0 m1 : MatchSums)
  | rotationSwitch (n : Lane)
  | offlineCheckDone (n : Lane) (c : Fin 2) (meas : OfflineMeas)
  | adcRetWrite (m : Master) (n : Lane) (v : Word)
  | captureStart (m : Master) (v : Word)
  | captureAbort (m : Master) (v : Word)
  | captureTrigger
  | captureDone
  | brlNextWrite (m : Master) (n : Lane) (v : Word)
  | ribbonLookupDone (n : Lane)
  | subwindowEnd (n : Lane) (front : List (Nat × Nat))
  | presetLoad (n : Lane)
  | ribbonFallback (n : Lane)
  | calRun (m : Master) (n : Lane) (v : Word)
  | calAbort (m : Master) (n : Lane) (v : Word)
  | calWindowEnd (n : Lane) (i : Fin 4) (w : Nat)
  | calTakeUp (n : Lane) (i : Fin 4)
  | rotationDue
  | swap (m : Master) (v : Word)
  | shadowStart
  | convergeTimeout
  | shadowMismatch
  | swapUndo
  | sprAbort (m : Master) (v : Word)
  | sprRetWrite (m : Master) (v : Word)
  | helloReceived (n : Lane)
  | helloTimeout (n : Lane)
  | timeLeafReceived (n : Lane)
  | stitchReceived (n : Lane)
  | remoteRegRead
  | remoteRegWrite
  | routeAdvertise
  | routeExpiry
  | stitchAged
  | addressSelfAssigned
  | arm (m : Master) (k : Fin 2) (clk : Fin 16384) (v : Word)
  | send (m : Master) (v : Word)
  | stitchSent
  | pop (m : Master) (v : Word)
  | subintervalStart
  | safeClr (m : Master) (v : Word)
  | conversionClose (mean : Int) (sat : Bool)
  | conversionFault
  | ureqGo (m : Master) (v : Word)
  | sequencerEnable (m : Master) (v : Word)
  | instructionFetch (stalled : Nat)
  | processorLoad (clk : AccessClocks)
  | processorStore (clk : AccessClocks)
  | memoryErrorInterrupt
  | quireInterrupt
  | machineExternalInterrupt
  | mret
  | done (m : Master) (v : Word)
  | wdtKick (m : Master) (v : Word)
  | watchdogExpiry
  | managementRestart
  | remapReq (m : Master) (v : Word)
  | ulogRead (m : Master)
  | scrubStart (m : Master) (v : Word)
  | scrubWord (clocks : Nat)
  | scrubAbort (m : Master) (v : Word)
  | dmaStart (m : Master) (c : Fin 8) (v : Word)
  | dmaNext (m : Master) (c : Fin 8) (v : Word)
  | dmaAbort (m : Master) (c : Fin 8) (v : Word)
  | dmaRequest (line : Fin 32)
  | dmaActivate
  | dmaBeat
  | dmaComplete
  | registerWrite (m : Master) (addr : Nat) (w : Width) (v : Word)
  | aliasWrite (m : Master) (addr : Nat) (v : Word)
  | eventQueueRead (m : Master) (blk : Fin 32) (w : Width)
  | clkPressWrite (m : Master) (v : Word)
  | domainWake (m : Master) (dom : Dom)
  | domainIdleOff (dom : Dom)
  | mgmtPortWrite (addr : BitVec 7 × Byte) (data : List Byte)
  | mgmtPortRead (addr : BitVec 7 × Byte) (len : Nat)
  | windowFetch
  | windowWrite
  | newnonce
  | submit
  | lock
  | refresh
  | popevq
  | sessionIdleTimeout
  | lockoutExpiry
  | setdasa (staticAddr dynAddr : BitVec 7)
  | entdaa (dynAddr : BitVec 7) (won : Bool)
  | rstdaa
  | getpid
  | getbcr
  | getdcr
  | getstatus
  | getmwl
  | getmrl
  | enec (mask : Byte)
  | disec (mask : Byte)
  | wctrlDone (m : Master) (v : Word)
  | ready (m : Master) (v : Word)
  | resetNLow
  | resetNRelease
  | lpmodeChange (level : Bool)
  | lowPowerRequestChange
  | standbyRetry
  | activeEntry
  | rest (m : Master) (v : Word)
  | suppliesValid
  | vbakPresent
  | vbakLoss
  | mainSupplyLoss
  | mainSupplyReturn
  | laneDozeEntry (n : Lane)
  | laneWake (n : Lane) (src : WakeSource)
  | wakeTx (m : Master) (v : Word)
  | wakePatternEnd (n : Lane)
  | rtcAlarm
  | load (m : Master) (v : Word)
  | rtcSubRead (m : Master)
  | avsVsetWrite (m : Master) (v : Word)
  | avsRequestAck
  | avsTimeout
  | thermalSample
  | thermalJudgement (readings : List Int)
  | throttleEnforce
  | bootSequence (store : BootStore) (chkFail : BitVec 4)
  | confirm (m : Master) (v : Word)
  | rollfwd (m : Master) (v : Word)
  | verifySlot (m : Master) (v : Word)
  | lcRequest (m : Master) (v : Word) (token : ImageIn)
  | enrol (m : Master) (v : Word)
  | attest (m : Master) (v : Word)
  | hashOpStart
  | hashOpDone (img : ImageIn)
  | journalCommit (m : Master) (v : Word)
  | journalCommitDone
  | nvmRead (m : Master) (v : Word)
  | nvmProgram (m : Master) (v : Word)
  | nvmErase (m : Master) (v : Word)
  | nvmAbort (m : Master) (v : Word)
  | nvmOpDone (data : List Byte)
  | nvmTimeout
  | rbuf31Read (m : Master)
  | wbuf31Write (m : Master) (v : Word)
  | budgetWindowEnd
  | selfTestStart
  | selfTestDone (r : TestRun)
  | mcmdGo (m : Master) (v : Word)
  | fullGo (m : Master) (v : Word)
  | fullTestDone
  | snap (m : Master) (v : Word)
  | freeze (m : Master) (v : Word)
  | pmcHiWrite (m : Master) (i : Fin 8) (v : Word)
  | pmcLoWrite (m : Master) (i : Fin 8) (v : Word)
  | pmcWrap (i : Fin 8)
  | sampleRecord (latency : Nat)
  | smpEnt2Read (m : Master)
  | compatLaneLock (n : Lane) (gained : Bool)
  | orderlyStopTimeout
  | attestationPublicKeyReady
  | otpProgrammingDone
  | tapInstruction (ir : Nat)
  deriving DecidableEq, Repr

end Sys2Proof
end

