-- ==== Sys2Proof/Machine/Slh.lean ====
section
/-! DEFINITION. SHAKE256 (FIPS 202) and SLH-DSA-SHAKE-256s (FIPS 205), which chapter 19 names: what it hashes with, verifies, signs
and generates its attestation key with (R629, R647). PRESUMED (log 52): the two standards stand outside the spec. -/

namespace Sys2Proof.Machine

/-! ### SHAKE256 -/

/-- The 24 round constants of Keccak-f[1600]. -/
def keccakRounds : List (BitVec 64) :=
  [0x0000000000000001, 0x0000000000008082, 0x800000000000808A, 0x8000000080008000, 0x000000000000808B, 0x0000000080000001,
   0x8000000080008081, 0x8000000000008009, 0x000000000000008A, 0x0000000000000088, 0x0000000080008009, 0x000000008000000A,
   0x000000008000808B, 0x800000000000008B, 0x8000000000008089, 0x8000000000008003, 0x8000000000008002, 0x8000000000000080,
   0x000000000000800A, 0x800000008000000A, 0x8000000080008081, 0x8000000000008080, 0x0000000080000001, 0x8000000080008008]

/-- The rotation of lane x + 5y. -/
def keccakRotations : List Nat :=
  [0, 1, 62, 28, 27, 36, 44, 6, 55, 20, 3, 10, 43, 25, 39, 41, 45, 15, 21, 8, 18, 2, 61, 56, 14]

/-- One round on the 25 lanes, lane x + 5y at that index. -/
def keccakRound (s : List (BitVec 64)) (rc : BitVec 64) : List (BitVec 64) :=
  let col (x : Nat) : BitVec 64 := (List.range 5).foldl (fun a y => a ^^^ s.getD (x % 5 + 5 * y) 0) 0
  let cols := (List.range 5).map col
  let theta := (List.range 5).map fun x => cols.getD ((x + 4) % 5) 0 ^^^ (cols.getD ((x + 1) % 5) 0).rotateLeft 1
  let a := (List.range 25).map fun i => (s.getD i 0 ^^^ theta.getD (i % 5) 0).rotateLeft (keccakRotations.getD i 0)
  let b := (List.range 25).map fun i => let (x, y) := (i % 5, i / 5); a.getD ((x + 3 * y) % 5 + 5 * x) 0
  let chi := (List.range 25).map fun i =>
    let (x, y) := (i % 5, i / 5)
    b.getD i 0 ^^^ (~~~(b.getD ((x + 1) % 5 + 5 * y) 0) &&& b.getD ((x + 2) % 5 + 5 * y) 0)
  chi.modify 0 (· ^^^ rc)

def keccakF (s : List (BitVec 64)) : List (BitVec 64) := keccakRounds.foldl keccakRound s

/-- Eight bytes as a lane, and a lane's eight bytes, the first least significant. -/
def laneOfBytes (l : List Byte) : BitVec 64 := BitVec.ofNat 64 (l.foldr (fun b a => a * 256 + b.toNat) 0)
def bytesOfLane (w : BitVec 64) : List Byte := (List.range 8).map fun i => (w >>> (8 * i)).setWidth 8

/-- Blocks of 136 bytes, `n` of them. -/
def rateBlocks : Nat → List Byte → List (List Byte)
  | 0, _ => []
  | n + 1, l => l.take 136 :: rateBlocks n (l.drop 136)

/-- A block is absorbed. -/
def absorb (s : List (BitVec 64)) (block : List Byte) : List (BitVec 64) :=
  keccakF ((List.range 25).map fun i => s.getD i 0 ^^^ if i < 17 then laneOfBytes ((block.drop (8 * i)).take 8) else 0)

/-- `n` blocks are squeezed. -/
def squeeze : Nat → List (BitVec 64) → List Byte
  | 0, _ => []
  | n + 1, s => (s.take 17).flatMap bytesOfLane ++ squeeze n (keccakF s)

/-- The first n bytes of SHAKE256. -/
def shake256 (msg : List Byte) (n : Nat) : List Byte :=
  let k := msg.length / 136 + 1
  let pad := 136 * k - msg.length
  let tail : List Byte := if pad = 1 then [0x9F] else 0x1F :: List.replicate (pad - 2) 0 ++ [0x80]
  let s := (rateBlocks k (msg ++ tail)).foldl absorb (List.replicate 25 0)
  (squeeze ((n + 135) / 136) s).take n

/-! ### SLH-DSA-SHAKE-256s -/

/-- An address: layer, tree, type, and the three words after them. -/
structure SlhAddr where
  layer : Nat
  tree  : Nat
  type  : Nat
  w1    : Nat
  w2    : Nat
  w3    : Nat

namespace Slh

/-- n bytes of a number, the first most significant; and the number of bytes. -/
def toBytes (n v : Nat) : List Byte := (List.range n).map fun i => BitVec.ofNat 8 (v / 2 ^ (8 * (n - 1 - i)))
def toNat (l : List Byte) : Nat := l.foldl (fun a b => 256 * a + b.toNat) 0

def addrBytes (a : SlhAddr) : List Byte :=
  toBytes 4 a.layer ++ toBytes 12 a.tree ++ toBytes 4 a.type ++ toBytes 4 a.w1 ++ toBytes 4 a.w2 ++ toBytes 4 a.w3

/-- The tweakable hash under PK.seed: F, H, T and PRF alike. -/
def hash (seed : List Byte) (a : SlhAddr) (m : List Byte) : List Byte := shake256 (seed ++ addrBytes a ++ m) 32

/-- The first n digits of b bits of a byte string, the most significant first. -/
def digits (b n : Nat) (l : List Byte) : List Nat :=
  let v := toNat l
  (List.range n).map fun i => v / 2 ^ (8 * l.length - b * (i + 1)) % 2 ^ b

/-- The i-th 32-byte part of a string. -/
def part (l : List Byte) (i : Nat) : List Byte := (l.drop (32 * i)).take 32

/-- s steps of a hash chain from step i. -/
def chain (seed : List Byte) (a : SlhAddr) (i : Nat) : Nat → List Byte → List Byte
  | 0, x => x
  | s + 1, x => chain seed a (i + 1) s (hash seed { a with w3 := i } x)

/-- The 67 chain lengths of a message: its digits and their checksum's. -/
def lengths (m : List Byte) : List Nat :=
  let ds := digits 4 64 m
  ds ++ digits 4 3 (toBytes 2 (16 * (ds.map fun x => 15 - x).sum))

/-- The secret of a chain. `a` is the address of the one-time key. -/
def wotsSecret (sk seed : List Byte) (a : SlhAddr) (i : Nat) : List Byte := hash seed { a with type := 5, w2 := i, w3 := 0 } sk

/-- The one-time public key of its 67 chain ends. -/
def wotsRoot (seed : List Byte) (a : SlhAddr) (ends : List (List Byte)) : List Byte :=
  hash seed { a with type := 1, w2 := 0, w3 := 0 } ends.flatten

def wotsKey (sk seed : List Byte) (a : SlhAddr) : List Byte :=
  wotsRoot seed a ((List.range 67).map fun i => chain seed { a with w2 := i } 0 15 (wotsSecret sk seed a i))

def wotsSign (m sk seed : List Byte) (a : SlhAddr) : List Byte :=
  (List.range 67).flatMap fun i => chain seed { a with w2 := i } 0 ((lengths m).getD i 0) (wotsSecret sk seed a i)

def wotsFromSig (sig m seed : List Byte) (a : SlhAddr) : List Byte :=
  wotsRoot seed a ((List.range 67).map fun i =>
    let x := (lengths m).getD i 0
    chain seed { a with w2 := i } x (15 - x) (part sig i))

/-- A node of height z of a Merkle tree: `leaf` gives its leaves, `a` its address but for height and index. -/
def treeNode (seed : List Byte) (a : SlhAddr) (leaf : Nat → List Byte) : Nat → Nat → List Byte
  | 0, i => leaf i
  | z + 1, i =>
    hash seed { a with w2 := z + 1, w3 := i } (treeNode seed a leaf z (2 * i) ++ treeNode seed a leaf z (2 * i + 1))

/-- The root that a node of index i and its authentication path of k nodes give, from height z. -/
def climb (seed : List Byte) (a : SlhAddr) (auth : List Byte) (i : Nat) : Nat → Nat → List Byte → List Byte
  | 0, _, x => x
  | k + 1, z, x =>
    let other := part auth z
    let pair := if i / 2 ^ z % 2 = 0 then x ++ other else other ++ x
    climb seed a auth i k (z + 1) (hash seed { a with w2 := z + 1, w3 := i / 2 ^ (z + 1) } pair)

/-- The one-time key's address in a tree of the hypertree. -/
def leafAddr (a : SlhAddr) (i : Nat) : SlhAddr := { a with type := 0, w1 := i, w2 := 0, w3 := 0 }
/-- The address of a tree's nodes. -/
def nodeAddr (a : SlhAddr) : SlhAddr := { a with type := 2, w1 := 0, w2 := 0, w3 := 0 }

def xmssNode (sk seed : List Byte) (a : SlhAddr) (z i : Nat) : List Byte :=
  treeNode seed (nodeAddr a) (fun j => wotsKey sk seed (leafAddr a j)) z i

def xmssSign (m sk seed : List Byte) (a : SlhAddr) (i : Nat) : List Byte :=
  wotsSign m sk seed (leafAddr a i) ++ (List.range 8).flatMap fun j => xmssNode sk seed a j (i / 2 ^ j ^^^ 1)

def xmssFromSig (sig m seed : List Byte) (a : SlhAddr) (i : Nat) : List Byte :=
  climb seed (nodeAddr a) (sig.drop (32 * 67)) i 8 0 (wotsFromSig sig m seed (leafAddr a i))

/-- The layers of the hypertree from `layer` on, k of them: a message's signature under tree `tree` and leaf `i`. -/
def hyperSign (sk seed : List Byte) (layer : Nat) : Nat → List Byte → Nat → Nat → List Byte
  | 0, _, _, _ => []
  | k + 1, m, tree, i =>
    let a : SlhAddr := ⟨layer, tree, 0, 0, 0, 0⟩
    let sig := xmssSign m sk seed a i
    sig ++ hyperSign sk seed (layer + 1) k (xmssFromSig sig m seed a i) (tree / 256) (tree % 256)

/-- The root that a hypertree signature gives. -/
def hyperRoot (seed : List Byte) (layer : Nat) : Nat → List Byte → List Byte → Nat → Nat → List Byte
  | 0, _, m, _, _ => m
  | k + 1, sig, m, tree, i =>
    hyperRoot seed (layer + 1) k (sig.drop (32 * 75)) (xmssFromSig sig m seed ⟨layer, tree, 0, 0, 0, 0⟩ i) (tree / 256) (tree % 256)

/-- A FORS secret and leaf. -/
def forsSecret (sk seed : List Byte) (a : SlhAddr) (i : Nat) : List Byte := hash seed { a with type := 6, w2 := 0, w3 := i } sk
def forsLeaf (sk seed : List Byte) (a : SlhAddr) (i : Nat) : List Byte :=
  hash seed { a with w2 := 0, w3 := i } (forsSecret sk seed a i)

def forsSign (md sk seed : List Byte) (a : SlhAddr) : List Byte :=
  ((digits 14 22 md).zip (List.range 22)).flatMap fun p =>
    forsSecret sk seed a (p.2 * 2 ^ 14 + p.1) ++ (List.range 14).flatMap fun j =>
      treeNode seed a (forsLeaf sk seed a) j (p.2 * 2 ^ (14 - j) + (p.1 / 2 ^ j ^^^ 1))

def forsFromSig (sig md seed : List Byte) (a : SlhAddr) : List Byte :=
  hash seed { a with type := 4, w2 := 0, w3 := 0 } (((digits 14 22 md).zip (List.range 22)).flatMap fun p =>
    let s := sig.drop (480 * p.2)
    let i := p.2 * 2 ^ 14 + p.1
    climb seed a (s.drop 32) i 14 0 (hash seed { a with w2 := 0, w3 := i } (part s 0)))

/-- What a digest selects: the FORS message, the tree and the leaf. -/
def select (digest : List Byte) : List Byte × Nat × Nat :=
  (digest.take 39, toNat ((digest.drop 39).take 7), toNat ((digest.drop 46).take 1))

/-- The address of the FORS key at a leaf. -/
def forsAddr (tree leaf : Nat) : SlhAddr := ⟨0, tree, 3, leaf, 0, 0⟩

/-- A message under a context, as the pure scheme signs it. -/
def framed (ctx msg : List Byte) : List Byte := 0 :: BitVec.ofNat 8 ctx.length :: ctx ++ msg

end Slh

/-- The root of the key pair of SK.seed and PK.seed. -/
def slhRoot (skSeed pkSeed : List Byte) : List Byte := Slh.xmssNode skSeed pkSeed ⟨7, 0, 0, 0, 0, 0⟩ 8 0

/-- The public key of three seeds. -/
def slhKey (skSeed pkSeed : List Byte) : List Byte := pkSeed ++ slhRoot skSeed pkSeed

/-- The signature of a message with a context; `rand` is the randomiser of the hedged scheme. -/
def slhSign (skSeed skPrf pkSeed rand ctx msg : List Byte) : List Byte :=
  let m := Slh.framed ctx msg
  let root := slhRoot skSeed pkSeed
  let r := shake256 (skPrf ++ rand ++ m) 32
  let (md, tree, leaf) := Slh.select (shake256 (r ++ pkSeed ++ root ++ m) 47)
  let a := Slh.forsAddr tree leaf
  let fors := Slh.forsSign md skSeed pkSeed a
  r ++ fors ++ Slh.hyperSign skSeed pkSeed 0 8 (Slh.forsFromSig fors md pkSeed a) tree leaf

/-- Verification of a signature under a public key and a context. -/
def slhVerify (pk msg sig ctx : List Byte) : Bool :=
  let m := Slh.framed ctx msg
  let seed := pk.take 32
  let root := pk.drop 32
  let r := sig.take 32
  let (md, tree, leaf) := Slh.select (shake256 (r ++ seed ++ root ++ m) 47)
  let fors := Slh.forsFromSig (sig.drop 32) md seed (Slh.forsAddr tree leaf)
  sig.length == 29792 && Slh.hyperRoot seed 0 8 (sig.drop (32 + 10560)) fors tree leaf == root

end Sys2Proof.Machine
end

