-- ==== Sys2Proof/Config.lean ====
section
/-! DEFINITION. What one part has and the spec does not fix: values read from OTP, functions defined outside the spec,
and the free values for results it leaves open. Nothing here has a body, so no proof can see a value (log entries
notes/assumptions). -/

namespace Sys2Proof.Config

/-- The 64-bit device ID of R381 as Luhel fused it (R641). Free: every part has its own. -/
opaque deviceId : BitVec 64
/-- The grade bit of R5 as Luhel fused it. -/
opaque grade : Bool
/-- A free value for each use: the n-th value the spec leaves open in a run. -/
opaque free : Nat → BitVec 32
/-- The choice of Hsiao columns of the SEC-DED code, which R470 leaves to the device: a number that `secdedColumns`
turns into one arrangement of weight-3 columns. -/
opaque hsiaoSeed : Nat
/-- The device secret of R647 as Luhel fused it, byte by byte. -/
opaque deviceSecret : List (BitVec 8)
/-- The randomiser of the n-th use, which FIPS 205 lets a signer choose for each signature. -/
opaque signRandom : Nat → BitVec 256
/-- The key hash FWKEY_H that Luhel fuses (R641). -/
opaque fwKeyHash : BitVec 256
/-- The random challenge drawn at the n-th request (R561). -/
opaque nonce : Nat → BitVec 64

/-- What a TAP instruction asks for (R646): the mandatory instructions of IEEE 1149.1, or debug access. -/
inductive TapOp where
  | bypass | sample | preload | extest | debug
  deriving DecidableEq, Repr, Inhabited

/-- The part's TAP instruction codes (R646), which its boundary-scan description gives. -/
opaque tapOp : Nat → TapOp

/-- Decoding of the 544 symbols of an RS(544,514) codeword (R71, defined by IEEE 802.3dj outside the spec): the positions of
the symbols it corrects, `none` when it cannot correct the codeword. -/
opaque rsDecode : List (BitVec 10) → Option (List Nat)
/-- One slice clock of the inner FEC sublayer's encoder (R122, defined by IEEE 802.3dj outside the spec): from its state and
the host bits of the clock, its next state and the 288 bits of the clock's 144 symbols, the first bit most significant. -/
opaque innerFecEncode : Nat → List Bool → Nat × BitVec 288
/-- One slice clock of the sublayer's decoder (R122): from its state and the clock's 288 bits with their reliabilities, its
next state and the host bits it delivers, in order. -/
opaque innerFecDecode : Nat → List Bool → List Nat → Nat × List Bool

/-- The identity CSRs of the processor (misa, mvendorid, marchid, mimpid, mconfigptr), which the spec does not give. -/
opaque csrId : Nat → BitVec 32

end Sys2Proof.Config
end

