-- ==== Sys2Proof/Machine/Crc.lean ====
section
/-! DEFINITION. Bit lists and the CRC-16 of R107, which the markers and the key fuses use (R107, R645). -/

namespace Sys2Proof.Machine

/-- Bits of `v`, most significant first. -/
def bitsOf (w : Nat) (v : Nat) : List Bool := (List.range w).map fun i => v.testBit (w - 1 - i)

/-- One step of the CRC-16 of R107. -/
def crc16Step (crc : Nat) (v : Bool) : Nat :=
  let fb := crc.testBit 15 != v
  let s := crc * 2 % 65536
  if fb then s ^^^ 0x1021 else s

def crc16 (bits : List Bool) : Nat := bits.foldl crc16Step 0xFFFF

/-- CRC-16 of a key under the polynomial of R107 (R645). -/
def keyCrc (key : BitVec 256) : BitVec 16 := BitVec.ofNat 16 (crc16 (bitsOf 256 key.toNat))

end Sys2Proof.Machine
end

