-- ==== Sys2Proof/Machine/RegMap.lean ====
section
/-! DEFINITION. The register map (spec 22_register_map.md, R696 to R700, and the field maps of the subject chapters):
an address for every register, a name for every field, and one table row per register array. -/

set_option maxRecDepth 4000

namespace Sys2Proof.Machine

/-- A bit field of a register word: the word's address, the field's lowest bit and its width (R10, R11). -/
structure Fld where
  addr : Nat
  lo   : Nat
  w    : Nat
  deriving DecidableEq, Repr

end Sys2Proof.Machine

/-! ### Addresses -/

namespace Sys2Proof.R

/-- `CLK.CFG` (01) -/
abbrev CLK_CFG : Nat := 0x10030000
/-- `CLK.STAT` (01) -/
abbrev CLK_STAT : Nat := 0x10030004
/-- `CLK.QNUM_LO` (01) -/
abbrev CLK_QNUM_LO : Nat := 0x10030008
/-- `CLK.QNUM_HI` (01) -/
abbrev CLK_QNUM_HI : Nat := 0x1003000C
/-- `SPR.ASSIGN` (01) -/
abbrev SPR_ASSIGN : Nat := 0x10140004
/-- `HST.POL` (02) -/
abbrev HST_POL : Nat := 0x10040000
/-- `HST.CFG` (02) -/
abbrev HST_CFG : Nat := 0x10040004
/-- `HST.LSTAT` (02) -/
abbrev HST_LSTAT : Nat := 0x10040008
/-- `MAP.MODE` (02) -/
abbrev MAP_MODE : Nat := 0x10050000
/-- `MAP.STAT` (02) -/
abbrev MAP_STAT : Nat := 0x10050004
/-- `MAP.REMAPn` (02) -/
abbrev MAP_REMAP (n : Nat) : Nat := 0x10050010 + n * 0x4
/-- `FEC.CFG` (02) -/
abbrev FEC_CFG : Nat := 0x10060000
/-- `FEC.STAT` (02) -/
abbrev FEC_STAT : Nat := 0x10060004
/-- `FEC.SYMh_LO` (02) -/
abbrev FEC_SYM_LO (h : Nat) : Nat := 0x10060100 + h * 0x8
/-- `FEC.SYMh_HI` (02) -/
abbrev FEC_SYM_HI (h : Nat) : Nat := 0x10060104 + h * 0x8
/-- `FEC.CWs_LO` (02) -/
abbrev FEC_CW_LO (s : Nat) : Nat := 0x10061000 + s * 0x80
/-- `FEC.CWs_HI` (02) -/
abbrev FEC_CW_HI (s : Nat) : Nat := 0x10061004 + s * 0x80
/-- `FEC.UNCORRs_LO` (02) -/
abbrev FEC_UNCORR_LO (s : Nat) : Nat := 0x10061008 + s * 0x80
/-- `FEC.UNCORRs_HI` (02) -/
abbrev FEC_UNCORR_HI (s : Nat) : Nat := 0x1006100C + s * 0x80
/-- `FEC.BINk_s` (02) -/
abbrev FEC_BIN (s : Nat) (k : Nat) : Nat := 0x10061010 + s * 0x80 + k * 0x4
/-- `MAP.TX_CW_INs_LO` (02) -/
abbrev MAP_TX_CW_IN_LO (s : Nat) : Nat := 0x10051000 + s * 0x40
/-- `MAP.TX_CW_INs_HI` (02) -/
abbrev MAP_TX_CW_IN_HI (s : Nat) : Nat := 0x10051004 + s * 0x40
/-- `MAP.TX_CW_SENTs_LO` (02) -/
abbrev MAP_TX_CW_SENT_LO (s : Nat) : Nat := 0x10051008 + s * 0x40
/-- `MAP.TX_CW_SENTs_HI` (02) -/
abbrev MAP_TX_CW_SENT_HI (s : Nat) : Nat := 0x1005100C + s * 0x40
/-- `MAP.TX_LEAF_OUTs_LO` (02) -/
abbrev MAP_TX_LEAF_OUT_LO (s : Nat) : Nat := 0x10051010 + s * 0x40
/-- `MAP.TX_LEAF_OUTs_HI` (02) -/
abbrev MAP_TX_LEAF_OUT_HI (s : Nat) : Nat := 0x10051014 + s * 0x40
/-- `MAP.TX_DISCs_LO` (02) -/
abbrev MAP_TX_DISC_LO (s : Nat) : Nat := 0x10051018 + s * 0x40
/-- `MAP.TX_DISCs_HI` (02) -/
abbrev MAP_TX_DISC_HI (s : Nat) : Nat := 0x1005101C + s * 0x40
/-- `MAP.RX_LEAF_INs_LO` (02) -/
abbrev MAP_RX_LEAF_IN_LO (s : Nat) : Nat := 0x10051020 + s * 0x40
/-- `MAP.RX_LEAF_INs_HI` (02) -/
abbrev MAP_RX_LEAF_IN_HI (s : Nat) : Nat := 0x10051024 + s * 0x40
/-- `MAP.RX_LEAF_DLVs_LO` (02) -/
abbrev MAP_RX_LEAF_DLV_LO (s : Nat) : Nat := 0x10051028 + s * 0x40
/-- `MAP.RX_LEAF_DLVs_HI` (02) -/
abbrev MAP_RX_LEAF_DLV_HI (s : Nat) : Nat := 0x1005102C + s * 0x40
/-- `MAP.RX_CW_OUTs_LO` (02) -/
abbrev MAP_RX_CW_OUT_LO (s : Nat) : Nat := 0x10051030 + s * 0x40
/-- `MAP.RX_CW_OUTs_HI` (02) -/
abbrev MAP_RX_CW_OUT_HI (s : Nat) : Nat := 0x10051034 + s * 0x40
/-- `MAP.RX_DISCs_LO` (02) -/
abbrev MAP_RX_DISC_LO (s : Nat) : Nat := 0x10051038 + s * 0x40
/-- `MAP.RX_DISCs_HI` (02) -/
abbrev MAP_RX_DISC_HI (s : Nat) : Nat := 0x1005103C + s * 0x40
/-- `MAP.INFLs` (02) -/
abbrev MAP_INFL (s : Nat) : Nat := 0x10051400 + s * 0x4
/-- `MAP.TXDISCs_c` (02) -/
abbrev MAP_TXDISC (s : Nat) (c : Nat) : Nat := 0x10051800 + s * 0x40 + c * 0x4
/-- `MAP.RXDISCs_c` (02) -/
abbrev MAP_RXDISC (s : Nat) (c : Nat) : Nat := 0x10051820 + s * 0x40 + c * 0x4
/-- `LANE.FMT_CFGn` (03) -/
abbrev LANE_FMT_CFG (n : Nat) : Nat := 0x10110100 + n * 0x1000
/-- `LANE.FMT_TXQn` (03) -/
abbrev LANE_FMT_TXQ (n : Nat) : Nat := 0x10110104 + n * 0x1000
/-- `LANE.FMT_STATn` (03) -/
abbrev LANE_FMT_STAT (n : Nat) : Nat := 0x10110108 + n * 0x1000
/-- `LANE.FMT_RXIDn` (03) -/
abbrev LANE_FMT_RXID (n : Nat) : Nat := 0x1011010C + n * 0x1000
/-- `LANE.FMT_RXQn` (03) -/
abbrev LANE_FMT_RXQ (n : Nat) : Nat := 0x10110110 + n * 0x1000
/-- `LANE.MK_STRONGn` (03) -/
abbrev LANE_MK_STRONG (n : Nat) : Nat := 0x10110120 + n * 0x1000
/-- `LANE.MK_WEAKn` (03) -/
abbrev LANE_MK_WEAK (n : Nat) : Nat := 0x10110124 + n * 0x1000
/-- `LANE.MK_MISSn` (03) -/
abbrev LANE_MK_MISS (n : Nat) : Nat := 0x10110128 + n * 0x1000
/-- `LANE.MK_OOSn` (03) -/
abbrev LANE_MK_OOS (n : Nat) : Nat := 0x1011012C + n * 0x1000
/-- `LANE.LOCK_LOSSn` (03) -/
abbrev LANE_LOCK_LOSS (n : Nat) : Nat := 0x10110130 + n * 0x1000
/-- `LANE.PILOT_SYMn_LO` (03) -/
abbrev LANE_PILOT_SYM_LO (n : Nat) : Nat := 0x10110138 + n * 0x1000
/-- `LANE.PILOT_SYMn_HI` (03) -/
abbrev LANE_PILOT_SYM_HI (n : Nat) : Nat := 0x1011013C + n * 0x1000
/-- `LANE.PILOT_ERRn_LO` (03) -/
abbrev LANE_PILOT_ERR_LO (n : Nat) : Nat := 0x10110140 + n * 0x1000
/-- `LANE.PILOT_ERRn_HI` (03) -/
abbrev LANE_PILOT_ERR_HI (n : Nat) : Nat := 0x10110144 + n * 0x1000
/-- `LANE.DEC_CFGn` (04) -/
abbrev LANE_DEC_CFG (n : Nat) : Nat := 0x10110200 + n * 0x1000
/-- `LANE.DEC_STATn` (04) -/
abbrev LANE_DEC_STAT (n : Nat) : Nat := 0x10110204 + n * 0x1000
/-- `LANE.FEC_INJn` (04) -/
abbrev LANE_FEC_INJ (n : Nat) : Nat := 0x10110208 + n * 0x1000
/-- `LANE.DEC_LEAVESn_LO` (04) -/
abbrev LANE_DEC_LEAVES_LO (n : Nat) : Nat := 0x10110210 + n * 0x1000
/-- `LANE.DEC_LEAVESn_HI` (04) -/
abbrev LANE_DEC_LEAVES_HI (n : Nat) : Nat := 0x10110214 + n * 0x1000
/-- `LANE.DEC_CLEANn_LO` (04) -/
abbrev LANE_DEC_CLEAN_LO (n : Nat) : Nat := 0x10110218 + n * 0x1000
/-- `LANE.DEC_CLEANn_HI` (04) -/
abbrev LANE_DEC_CLEAN_HI (n : Nat) : Nat := 0x1011021C + n * 0x1000
/-- `LANE.COR_BINkn_LO` (04) -/
abbrev LANE_COR_BIN_LO (n : Nat) (k : Nat) : Nat := 0x10110220 + n * 0x1000 + (k - 1) * 0x8
/-- `LANE.COR_BINkn_HI` (04) -/
abbrev LANE_COR_BIN_HI (n : Nat) (k : Nat) : Nat := 0x10110224 + n * 0x1000 + (k - 1) * 0x8
/-- `LANE.DEC_CHASEn_LO` (04) -/
abbrev LANE_DEC_CHASE_LO (n : Nat) : Nat := 0x10110248 + n * 0x1000
/-- `LANE.DEC_CHASEn_HI` (04) -/
abbrev LANE_DEC_CHASE_HI (n : Nat) : Nat := 0x1011024C + n * 0x1000
/-- `LANE.DEC_UNCORRn_LO` (04) -/
abbrev LANE_DEC_UNCORR_LO (n : Nat) : Nat := 0x10110250 + n * 0x1000
/-- `LANE.DEC_UNCORRn_HI` (04) -/
abbrev LANE_DEC_UNCORR_HI (n : Nat) : Nat := 0x10110254 + n * 0x1000
/-- `LANE.DEC_CRCREJn_LO` (04) -/
abbrev LANE_DEC_CRCREJ_LO (n : Nat) : Nat := 0x10110258 + n * 0x1000
/-- `LANE.DEC_CRCREJn_HI` (04) -/
abbrev LANE_DEC_CRCREJ_HI (n : Nat) : Nat := 0x1011025C + n * 0x1000
/-- `LANE.STITCH_UNCORRn` (04) -/
abbrev LANE_STITCH_UNCORR (n : Nat) : Nat := 0x10110260 + n * 0x1000
/-- `LANE.INJ_COUNTn` (04) -/
abbrev LANE_INJ_COUNT (n : Nat) : Nat := 0x10110264 + n * 0x1000
/-- `LANE.TX_CFGn` (05) -/
abbrev LANE_TX_CFG (n : Nat) : Nat := 0x10110300 + n * 0x1000
/-- `LANE.TX_FFE0n` (05) -/
abbrev LANE_TX_FFE0 (n : Nat) : Nat := 0x10110304 + n * 0x1000
/-- `LANE.TX_FFE1n` (05) -/
abbrev LANE_TX_FFE1 (n : Nat) : Nat := 0x10110308 + n * 0x1000
/-- `LANE.TX_FFE2n` (05) -/
abbrev LANE_TX_FFE2 (n : Nat) : Nat := 0x1011030C + n * 0x1000
/-- `LANE.TX_STATn` (05) -/
abbrev LANE_TX_STAT (n : Nat) : Nat := 0x10110310 + n * 0x1000
/-- `LANE.NLTn_w` (05) -/
abbrev LANE_NLT (n : Nat) (w : Nat) : Nat := 0x10110400 + n * 0x1000 + w * 0x4
/-- `LANE.TONE_CFGn` (05) -/
abbrev LANE_TONE_CFG (n : Nat) : Nat := 0x10110500 + n * 0x1000
/-- `LANE.TONE_FTWn` (05) -/
abbrev LANE_TONE_FTW (n : Nat) : Nat := 0x10110504 + n * 0x1000
/-- `LANE.TX_SATn` (05) -/
abbrev LANE_TX_SAT (n : Nat) : Nat := 0x10110320 + n * 0x1000
/-- `LANE.TX_QFLTn` (05) -/
abbrev LANE_TX_QFLT (n : Nat) : Nat := 0x10110324 + n * 0x1000
/-- `LANE.TX_MAJORn_LO` (05) -/
abbrev LANE_TX_MAJOR_LO (n : Nat) : Nat := 0x10110328 + n * 0x1000
/-- `LANE.TX_MAJORn_HI` (05) -/
abbrev LANE_TX_MAJOR_HI (n : Nat) : Nat := 0x1011032C + n * 0x1000
/-- `LANE.RX_AFEn` (06) -/
abbrev LANE_RX_AFE (n : Nat) : Nat := 0x10110600 + n * 0x1000
/-- `LANE.RX_AFE_STATn` (06) -/
abbrev LANE_RX_AFE_STAT (n : Nat) : Nat := 0x10110604 + n * 0x1000
/-- `LANE.RX_PHCFGn` (06) -/
abbrev LANE_RX_PHCFG (n : Nat) : Nat := 0x10110608 + n * 0x1000
/-- `LANE.RX_PHSTATn` (06) -/
abbrev LANE_RX_PHSTAT (n : Nat) : Nat := 0x1011060C + n * 0x1000
/-- `LANE.ADC_CFGn` (06) -/
abbrev LANE_ADC_CFG (n : Nat) : Nat := 0x10110610 + n * 0x1000
/-- `LANE.ADC_STATn` (06) -/
abbrev LANE_ADC_STAT (n : Nat) : Nat := 0x10110614 + n * 0x1000
/-- `LANE.RX_LVLn` (06) -/
abbrev LANE_RX_LVL (n : Nat) : Nat := 0x10110618 + n * 0x1000
/-- `LANE.ADC_CSKEWn` (06) -/
abbrev LANE_ADC_CSKEW (n : Nat) : Nat := 0x1011061C + n * 0x1000
/-- `LANE.ADC_RETn` (06) -/
abbrev LANE_ADC_RET (n : Nat) : Nat := 0x10110630 + n * 0x1000
/-- `LANE.ADC_TRIMn_c_u` (06) -/
abbrev LANE_ADC_TRIM (n : Nat) (c : Nat) (u : Nat) : Nat := 0x10110800 + n * 0x1000 + c * 0x200 + u * 0x4
/-- `LANE.ADC_CLIPn_LO` (06) -/
abbrev LANE_ADC_CLIP_LO (n : Nat) : Nat := 0x10110620 + n * 0x1000
/-- `LANE.ADC_CLIPn_HI` (06) -/
abbrev LANE_ADC_CLIP_HI (n : Nat) : Nat := 0x10110624 + n * 0x1000
/-- `LANE.ADC_ROTn` (06) -/
abbrev LANE_ADC_ROT (n : Nat) : Nat := 0x10110628 + n * 0x1000
/-- `LANE.ADC_UFLTn` (06) -/
abbrev LANE_ADC_UFLT (n : Nat) : Nat := 0x1011062C + n * 0x1000
/-- `CAL.CAP_CFG` (06) -/
abbrev CAL_CAP_CFG : Nat := 0x1013F000
/-- `CAL.CAP_QNUM` (06) -/
abbrev CAL_CAP_QNUM : Nat := 0x1013F004
/-- `CAL.CAP_POST` (06) -/
abbrev CAL_CAP_POST : Nat := 0x1013F008
/-- `CAL.CAP_CTRL` (06) -/
abbrev CAL_CAP_CTRL : Nat := 0x1013F00C
/-- `CAL.CAP_STAT` (06) -/
abbrev CAL_CAP_STAT : Nat := 0x1013F010
/-- `CAL.CAP_TQ` (06) -/
abbrev CAL_CAP_TQ : Nat := 0x1013F014
/-- `CAL.CAP_TPOS` (06) -/
abbrev CAL_CAP_TPOS : Nat := 0x1013F018
/-- `LANE.EQ_CFGn` (07) -/
abbrev LANE_EQ_CFG (n : Nat) : Nat := 0x10110700 + n * 0x1000
/-- `LANE.AGC_CFGn` (07) -/
abbrev LANE_AGC_CFG (n : Nat) : Nat := 0x10110704 + n * 0x1000
/-- `LANE.MLSE_CFGn` (07) -/
abbrev LANE_MLSE_CFG (n : Nat) : Nat := 0x10110708 + n * 0x1000
/-- `LANE.TR_CFGn` (07) -/
abbrev LANE_TR_CFG (n : Nat) : Nat := 0x1011070C + n * 0x1000
/-- `LANE.ACQ_CFGn` (07) -/
abbrev LANE_ACQ_CFG (n : Nat) : Nat := 0x10110710 + n * 0x1000
/-- `LANE.EQ_CTRLn` (07) -/
abbrev LANE_EQ_CTRL (n : Nat) : Nat := 0x10110714 + n * 0x1000
/-- `LANE.EQ_STATn` (07) -/
abbrev LANE_EQ_STAT (n : Nat) : Nat := 0x10110718 + n * 0x1000
/-- `LANE.EQ_MSEn` (07) -/
abbrev LANE_EQ_MSE (n : Nat) : Nat := 0x1011071C + n * 0x1000
/-- `LANE.ACQ_LASTn` (07) -/
abbrev LANE_ACQ_LAST (n : Nat) : Nat := 0x10110720 + n * 0x1000
/-- `LANE.EQ_PREn_k` (07) -/
abbrev LANE_EQ_PRE (n : Nat) (k : Nat) : Nat := 0x10110C00 + n * 0x1000 + k * 0x4
/-- `LANE.EQ_PRE_MLSEn` (07) -/
abbrev LANE_EQ_PRE_MLSE (n : Nat) : Nat := 0x10110CC0 + n * 0x1000
/-- `LANE.EQ_PRE_TRn` (07) -/
abbrev LANE_EQ_PRE_TR (n : Nat) : Nat := 0x10110CC4 + n * 0x1000
/-- `LANE.ACQ_STARTn` (07) -/
abbrev LANE_ACQ_START (n : Nat) : Nat := 0x10110724 + n * 0x1000
/-- `LANE.ACQ_DONEn` (07) -/
abbrev LANE_ACQ_DONE (n : Nat) : Nat := 0x10110728 + n * 0x1000
/-- `LANE.ACQ_TOn` (07) -/
abbrev LANE_ACQ_TO (n : Nat) : Nat := 0x1011072C + n * 0x1000
/-- `LANE.AGC_STEPn` (07) -/
abbrev LANE_AGC_STEP (n : Nat) : Nat := 0x10110730 + n * 0x1000
/-- `LANE.SIG_LOSSn` (07) -/
abbrev LANE_SIG_LOSS (n : Nat) : Nat := 0x10110734 + n * 0x1000
/-- `BRL.CFGn` (08) -/
abbrev BRL_CFG (n : Nat) : Nat := 0x10120000 + n * 0x100
/-- `BRL.NEXTn` (08) -/
abbrev BRL_NEXT (n : Nat) : Nat := 0x10120004 + n * 0x100
/-- `BRL.CURn` (08) -/
abbrev BRL_CUR (n : Nat) : Nat := 0x10120008 + n * 0x100
/-- `BRL.STATn` (08) -/
abbrev BRL_STAT (n : Nat) : Nat := 0x1012000C + n * 0x100
/-- `BRL.RB_IDXn` (08) -/
abbrev BRL_RB_IDX (n : Nat) : Nat := 0x10120010 + n * 0x100
/-- `BRL.LAST_RLn` (08) -/
abbrev BRL_LAST_RL (n : Nat) : Nat := 0x10120014 + n * 0x100
/-- `BRL.RB_HDRn` (08) -/
abbrev BRL_RB_HDR (n : Nat) : Nat := 0x10120040 + n * 0x100
/-- `BRL.RB_MLSEn` (08) -/
abbrev BRL_RB_MLSE (n : Nat) : Nat := 0x10120044 + n * 0x100
/-- `BRL.RB_TAPn_j` (08) -/
abbrev BRL_RB_TAP (n : Nat) (j : Nat) : Nat := 0x10120048 + n * 0x100 + j * 0x4
/-- `BRL.RELOCKn` (08) -/
abbrev BRL_RELOCK (n : Nat) : Nat := 0x10120020 + n * 0x100
/-- `BRL.HITn` (08) -/
abbrev BRL_HIT (n : Nat) : Nat := 0x10120024 + n * 0x100
/-- `BRL.MISSn` (08) -/
abbrev BRL_MISS (n : Nat) : Nat := 0x10120028 + n * 0x100
/-- `BRL.FALLBACKn` (08) -/
abbrev BRL_FALLBACK (n : Nat) : Nat := 0x1012002C + n * 0x100
/-- `BRL.RESTARTn` (08) -/
abbrev BRL_RESTART (n : Nat) : Nat := 0x10120030 + n * 0x100
/-- `BRL.COLLn` (08) -/
abbrev BRL_COLL (n : Nat) : Nat := 0x10120034 + n * 0x100
/-- `BRL.SRC_MISn` (08) -/
abbrev BRL_SRC_MIS (n : Nat) : Nat := 0x10120038 + n * 0x100
/-- `BRL.DARKn` (08) -/
abbrev BRL_DARK (n : Nat) : Nat := 0x1012003C + n * 0x100
/-- `BRL.LEARNn` (08) -/
abbrev BRL_LEARN (n : Nat) : Nat := 0x10120090 + n * 0x100
/-- `CAL.CFGn` (09) -/
abbrev CAL_CFG (n : Nat) : Nat := 0x10130000 + n * 0x100
/-- `CAL.TOLn` (09) -/
abbrev CAL_TOL (n : Nat) : Nat := 0x10130004 + n * 0x100
/-- `CAL.CMDn` (09) -/
abbrev CAL_CMD (n : Nat) : Nat := 0x10130008 + n * 0x100
/-- `CAL.CTRLn` (09) -/
abbrev CAL_CTRL (n : Nat) : Nat := 0x1013000C + n * 0x100
/-- `CAL.STATn` (09) -/
abbrev CAL_STAT (n : Nat) : Nat := 0x10130010 + n * 0x100
/-- `CAL.TEMPn` (09) -/
abbrev CAL_TEMP (n : Nat) : Nat := 0x10130014 + n * 0x100
/-- `CAL.TGTn` (09) -/
abbrev CAL_TGT (n : Nat) : Nat := 0x10130018 + n * 0x100
/-- `CAL.TREFn_i` (09) -/
abbrev CAL_TREF (n : Nat) (i : Nat) : Nat := 0x10130060 + n * 0x100 + i * 0x4
/-- `LANE.DAC_TRIMn` (09) -/
abbrev LANE_DAC_TRIM (n : Nat) : Nat := 0x10110340 + n * 0x1000
/-- `CAL.LASTQn_i_LO` (09) -/
abbrev CAL_LASTQ_LO (n : Nat) (i : Nat) : Nat := 0x10130020 + n * 0x100 + i * 0x8
/-- `CAL.LASTQn_i_HI` (09) -/
abbrev CAL_LASTQ_HI (n : Nat) (i : Nat) : Nat := 0x10130024 + n * 0x100 + i * 0x8
/-- `CAL.RUNSn_i` (09) -/
abbrev CAL_RUNS (n : Nat) (i : Nat) : Nat := 0x10130040 + n * 0x100 + i * 0x4
/-- `CAL.REJn_i` (09) -/
abbrev CAL_REJ (n : Nat) (i : Nat) : Nat := 0x10130050 + n * 0x100 + i * 0x4
/-- `SPR.CFG` (10) -/
abbrev SPR_CFG : Nat := 0x10140000
/-- `SPR.CTRL` (10) -/
abbrev SPR_CTRL : Nat := 0x10140008
/-- `SPR.STAT` (10) -/
abbrev SPR_STAT : Nat := 0x1014000C
/-- `SPR.DEG` (10) -/
abbrev SPR_DEG : Nat := 0x10140010
/-- `SPR.RET` (10) -/
abbrev SPR_RET : Nat := 0x10140014
/-- `SPR.ROTQ` (10) -/
abbrev SPR_ROTQ : Nat := 0x10140018
/-- `SPR.SWAPS` (10) -/
abbrev SPR_SWAPS : Nat := 0x10140020
/-- `SPR.ROTS` (10) -/
abbrev SPR_ROTS : Nat := 0x10140024
/-- `SPR.ABORTS` (10) -/
abbrev SPR_ABORTS : Nat := 0x10140028
/-- `SPR.UNDOS` (10) -/
abbrev SPR_UNDOS : Nat := 0x1014002C
/-- `SPR.MISMATCHES` (10) -/
abbrev SPR_MISMATCHES : Nat := 0x10140030
/-- `SPR.FORCED` (10) -/
abbrev SPR_FORCED : Nat := 0x10140034
/-- `MSH.CFG` (11) -/
abbrev MSH_CFG : Nat := 0x10150000
/-- `MSH.ADDR` (11) -/
abbrev MSH_ADDR : Nat := 0x10150004
/-- `MSH.ADDR_STAT` (11) -/
abbrev MSH_ADDR_STAT : Nat := 0x10150008
/-- `MSH.DEVID_LO` (11) -/
abbrev MSH_DEVID_LO : Nat := 0x1015000C
/-- `MSH.DEVID_HI` (11) -/
abbrev MSH_DEVID_HI : Nat := 0x10150010
/-- `MSH.TSTAT` (11) -/
abbrev MSH_TSTAT : Nat := 0x10150014
/-- `MSH.ROOT_LO` (11) -/
abbrev MSH_ROOT_LO : Nat := 0x10150018
/-- `MSH.ROOT_HI` (11) -/
abbrev MSH_ROOT_HI : Nat := 0x1015001C
/-- `MSH.TERR` (11) -/
abbrev MSH_TERR : Nat := 0x10150020
/-- `MSH.SCHEDk_Q_LO` (11) -/
abbrev MSH_SCHED_Q_LO (k : Nat) : Nat := 0x10150040 + k * 0x10
/-- `MSH.SCHEDk_Q_HI` (11) -/
abbrev MSH_SCHED_Q_HI (k : Nat) : Nat := 0x10150044 + k * 0x10
/-- `MSH.SCHEDk_CTRL` (11) -/
abbrev MSH_SCHED_CTRL (k : Nat) : Nat := 0x10150048 + k * 0x10
/-- `MSH.RA_CFG` (11) -/
abbrev MSH_RA_CFG : Nat := 0x10150060
/-- `MSH.RA_WMASK` (11) -/
abbrev MSH_RA_WMASK : Nat := 0x10150064
/-- `MSH.NBRn_STAT` (11) -/
abbrev MSH_NBR_STAT (n : Nat) : Nat := 0x10150100 + n * 0x10
/-- `MSH.NBRn_DEVID_LO` (11) -/
abbrev MSH_NBR_DEVID_LO (n : Nat) : Nat := 0x10150104 + n * 0x10
/-- `MSH.NBRn_DEVID_HI` (11) -/
abbrev MSH_NBR_DEVID_HI (n : Nat) : Nat := 0x10150108 + n * 0x10
/-- `MSH.RT_IDX` (11) -/
abbrev MSH_RT_IDX : Nat := 0x10150200
/-- `MSH.RT_ENT` (11) -/
abbrev MSH_RT_ENT : Nat := 0x10150204
/-- `MSH.RT_DEVID_LO` (11) -/
abbrev MSH_RT_DEVID_LO : Nat := 0x10150208
/-- `MSH.RT_DEVID_HI` (11) -/
abbrev MSH_RT_DEVID_HI : Nat := 0x1015020C
/-- `MSH.TX_HDR` (11) -/
abbrev MSH_TX_HDR : Nat := 0x10150300
/-- `MSH.TX_CTRL` (11) -/
abbrev MSH_TX_CTRL : Nat := 0x10150304
/-- `MSH.TX_STAT` (11) -/
abbrev MSH_TX_STAT : Nat := 0x10150308
/-- `MSH.RX_STAT` (11) -/
abbrev MSH_RX_STAT : Nat := 0x10150310
/-- `MSH.RX_CTRL` (11) -/
abbrev MSH_RX_CTRL : Nat := 0x10150314
/-- `MSH.TXB_w` (11) -/
abbrev MSH_TXB (w : Nat) : Nat := 0x10150400 + w * 0x4
/-- `MSH.RXs_HDR` (11) -/
abbrev MSH_RX_HDR (s : Nat) : Nat := 0x10151000 + s * 0x100
/-- `MSH.RXs_w` (11) -/
abbrev MSH_RXW (s : Nat) (w : Nat) : Nat := 0x10151004 + s * 0x100 + w * 0x4
/-- `MSH.TX_STn` (11) -/
abbrev MSH_TX_ST (n : Nat) : Nat := 0x10150800 + n * 0x20
/-- `MSH.RX_OKn` (11) -/
abbrev MSH_RX_OK (n : Nat) : Nat := 0x10150804 + n * 0x20
/-- `MSH.RX_LOSTn` (11) -/
abbrev MSH_RX_LOST (n : Nat) : Nat := 0x10150808 + n * 0x20
/-- `MSH.RX_BADn` (11) -/
abbrev MSH_RX_BAD (n : Nat) : Nat := 0x1015080C + n * 0x20
/-- `MSH.RX_DUPn` (11) -/
abbrev MSH_RX_DUP (n : Nat) : Nat := 0x10150810 + n * 0x20
/-- `MSH.RX_OVFn` (11) -/
abbrev MSH_RX_OVF (n : Nat) : Nat := 0x10150814 + n * 0x20
/-- `MSH.LOCAL` (11) -/
abbrev MSH_LOCAL : Nat := 0x10150900
/-- `MSH.FWD` (11) -/
abbrev MSH_FWD : Nat := 0x10150904
/-- `MSH.NOROUTE` (11) -/
abbrev MSH_NOROUTE : Nat := 0x10150908
/-- `MSH.HOPLIM` (11) -/
abbrev MSH_HOPLIM : Nat := 0x1015090C
/-- `MSH.AGED` (11) -/
abbrev MSH_AGED : Nat := 0x10150910
/-- `MSH.RA_SERVED` (11) -/
abbrev MSH_RA_SERVED : Nat := 0x10150914
/-- `MSH.RA_BUSY` (11) -/
abbrev MSH_RA_BUSY : Nat := 0x10150918
/-- `MSH.RT_FULL` (11) -/
abbrev MSH_RT_FULL : Nat := 0x1015091C
/-- `HKP.BTGTd` (12) -/
abbrev HKP_BTGT (d : Nat) : Nat := 0x10160000 + d * 0x10
/-- `HKP.BCFGd` (12) -/
abbrev HKP_BCFG (d : Nat) : Nat := 0x10160004 + d * 0x10
/-- `HKP.BDITd` (12) -/
abbrev HKP_BDIT (d : Nat) : Nat := 0x10160008 + d * 0x10
/-- `HKP.BSTATd` (12) -/
abbrev HKP_BSTAT (d : Nat) : Nat := 0x1016000C + d * 0x10
/-- `HKP.BCTRL` (12) -/
abbrev HKP_BCTRL : Nat := 0x10160200
/-- `HKP.SYNC` (12) -/
abbrev HKP_SYNC : Nat := 0x10160204
/-- `HKP.SEQ_CFG` (12) -/
abbrev HKP_SEQ_CFG : Nat := 0x10160300
/-- `HKP.SEQ_STAT` (12) -/
abbrev HKP_SEQ_STAT : Nat := 0x10160304
/-- `HKP.UREQ` (12) -/
abbrev HKP_UREQ : Nat := 0x10160308
/-- `HKP.URES` (12) -/
abbrev HKP_URES : Nat := 0x1016030C
/-- `HKP.SEQe` (12) -/
abbrev HKP_SEQ (e : Nat) : Nat := 0x10160400 + e * 0x4
/-- `HKP.RESn` (12) -/
abbrev HKP_RES (n : Nat) : Nat := 0x10160500 + n * 0x4
/-- `HKP.LIMn` (12) -/
abbrev HKP_LIM (n : Nat) : Nat := 0x10160600 + n * 0x4
/-- `HKP.LIMSTAT` (12) -/
abbrev HKP_LIMSTAT : Nat := 0x10160680
/-- `HKP.CONV` (12) -/
abbrev HKP_CONV : Nat := 0x10160700
/-- `HKP.URGN` (12) -/
abbrev HKP_URGN : Nat := 0x10160704
/-- `HKP.CFAULT` (12) -/
abbrev HKP_CFAULT : Nat := 0x10160708
/-- `SYS.IRQ_PEND` (13) -/
abbrev SYS_IRQ_PEND : Nat := 0x10000040
/-- `SYS.IRQ_EN` (13) -/
abbrev SYS_IRQ_EN : Nat := 0x10000044
/-- `SYS.RT` (13) -/
abbrev SYS_RT : Nat := 0x10000048
/-- `SYS.WDT_CFG` (13) -/
abbrev SYS_WDT_CFG : Nat := 0x1000004C
/-- `SYS.WDT_KICK` (13) -/
abbrev SYS_WDT_KICK : Nat := 0x10000050
/-- `SYS.MRST` (13) -/
abbrev SYS_MRST : Nat := 0x10000054
/-- `ECC.STAT` (13) -/
abbrev ECC_STAT : Nat := 0x10180000
/-- `ECC.ULOG` (13) -/
abbrev ECC_ULOG : Nat := 0x10180004
/-- `ECC.ULOG_LOST` (13) -/
abbrev ECC_ULOG_LOST : Nat := 0x10180008
/-- `ECC.REMAP_REQ` (13) -/
abbrev ECC_REMAP_REQ : Nat := 0x1018000C
/-- `ECC.INJ` (13) -/
abbrev ECC_INJ : Nat := 0x10180010
/-- `ECC.SCRUB_CFG` (13) -/
abbrev ECC_SCRUB_CFG : Nat := 0x10180020
/-- `ECC.SCRUB_BASE` (13) -/
abbrev ECC_SCRUB_BASE : Nat := 0x10180024
/-- `ECC.SCRUB_END` (13) -/
abbrev ECC_SCRUB_END : Nat := 0x10180028
/-- `ECC.SCRUB_CTRL` (13) -/
abbrev ECC_SCRUB_CTRL : Nat := 0x1018002C
/-- `ECC.SCRUB_STAT` (13) -/
abbrev ECC_SCRUB_STAT : Nat := 0x10180030
/-- `ECC.SCRUB_READ` (13) -/
abbrev ECC_SCRUB_READ : Nat := 0x10180034
/-- `ECC.SCRUB_FIXED` (13) -/
abbrev ECC_SCRUB_FIXED : Nat := 0x10180038
/-- `ECC.SCRUB_UNC` (13) -/
abbrev ECC_SCRUB_UNC : Nat := 0x1018003C
/-- `ECC.SCRUB_FIRST` (13) -/
abbrev ECC_SCRUB_FIRST : Nat := 0x10180040
/-- `ECC.SCRUB_LAST` (13) -/
abbrev ECC_SCRUB_LAST : Nat := 0x10180044
/-- `ECC.SCRUB_CYC` (13) -/
abbrev ECC_SCRUB_CYC : Nat := 0x10180048
/-- `ECC.CORRm` (13) -/
abbrev ECC_CORR (m : Nat) : Nat := 0x10180100 + m * 0x10
/-- `ECC.UNCm` (13) -/
abbrev ECC_UNC (m : Nat) : Nat := 0x10180104 + m * 0x10
/-- `ECC.REMAPm` (13) -/
abbrev ECC_REMAP (m : Nat) : Nat := 0x10180108 + m * 0x10
/-- `DMA.SRCc` (14) -/
abbrev DMA_SRC (c : Nat) : Nat := 0x10170000 + c * 0x40
/-- `DMA.DSTc` (14) -/
abbrev DMA_DST (c : Nat) : Nat := 0x10170004 + c * 0x40
/-- `DMA.COUNTc` (14) -/
abbrev DMA_COUNT (c : Nat) : Nat := 0x10170008 + c * 0x40
/-- `DMA.CFGc` (14) -/
abbrev DMA_CFG (c : Nat) : Nat := 0x1017000C + c * 0x40
/-- `DMA.CTRLc` (14) -/
abbrev DMA_CTRL (c : Nat) : Nat := 0x10170010 + c * 0x40
/-- `DMA.STATc` (14) -/
abbrev DMA_STAT (c : Nat) : Nat := 0x10170014 + c * 0x40
/-- `DMA.NSRCc` (14) -/
abbrev DMA_NSRC (c : Nat) : Nat := 0x10170018 + c * 0x40
/-- `DMA.NDSTc` (14) -/
abbrev DMA_NDST (c : Nat) : Nat := 0x1017001C + c * 0x40
/-- `DMA.NCOUNTc` (14) -/
abbrev DMA_NCOUNT (c : Nat) : Nat := 0x10170020 + c * 0x40
/-- `DMA.ERR_ADDRc` (14) -/
abbrev DMA_ERR_ADDR (c : Nat) : Nat := 0x10170024 + c * 0x40
/-- `DMA.ACTIVE` (14) -/
abbrev DMA_ACTIVE : Nat := 0x10170400
/-- `DMA.DONEc` (14) -/
abbrev DMA_DONE (c : Nat) : Nat := 0x10170500 + c * 0x10
/-- `DMA.ERRc` (14) -/
abbrev DMA_ERR (c : Nat) : Nat := 0x10170504 + c * 0x10
/-- `DMA.REQ_LOSTc` (14) -/
abbrev DMA_REQ_LOST (c : Nat) : Nat := 0x10170508 + c * 0x10
/-- `CLK.PRESS` (15) -/
abbrev CLK_PRESS : Nat := 0x10030010
/-- `CLK.PRESS_STAT` (15) -/
abbrev CLK_PRESS_STAT : Nat := 0x10030014
/-- `SYS.DENY_USER` (15) -/
abbrev SYS_DENY_USER : Nat := 0x10000060
/-- `SYS.DENY_DMA` (15) -/
abbrev SYS_DENY_DMA : Nat := 0x10000064
/-- `SYS.DENY_DBG` (15) -/
abbrev SYS_DENY_DBG : Nat := 0x10000068
/-- `SYS.DENY_HOST` (15) -/
abbrev SYS_DENY_HOST : Nat := 0x1000006C
/-- `SYS.DENY_MESH` (15) -/
abbrev SYS_DENY_MESH : Nat := 0x10000070
/-- `SYS.DENY_ADDR` (15) -/
abbrev SYS_DENY_ADDR : Nat := 0x10000074
/-- `SYS.BADACC` (15) -/
abbrev SYS_BADACC : Nat := 0x10000078
/-- `SYS.BAD_ADDR` (15) -/
abbrev SYS_BAD_ADDR : Nat := 0x1000007C
/-- `MGT.STAT` (16) -/
abbrev MGT_STAT : Nat := 0x101B0000
/-- `MGT.WCTRL` (16) -/
abbrev MGT_WCTRL : Nat := 0x101B0004
/-- `MGT.WPEND` (16) -/
abbrev MGT_WPEND : Nat := 0x101B0008
/-- `MGT.CFG` (16) -/
abbrev MGT_CFG : Nat := 0x101B000C
/-- `PWR.STAT` (17) -/
abbrev PWR_STAT : Nat := 0x10010000
/-- `PWR.DOM` (17) -/
abbrev PWR_DOM : Nat := 0x10010004
/-- `PWR.CTRL` (17) -/
abbrev PWR_CTRL : Nat := 0x10010008
/-- `PWR.SBY_CFG` (17) -/
abbrev PWR_SBY_CFG : Nat := 0x1001000C
/-- `PWR.SBY_STAT` (17) -/
abbrev PWR_SBY_STAT : Nat := 0x10010010
/-- `PWR.WAKE_TX` (17) -/
abbrev PWR_WAKE_TX : Nat := 0x10010014
/-- `PWR.LANE_STAT` (17) -/
abbrev PWR_LANE_STAT : Nat := 0x10010018
/-- `PWR.LANE_CFGn` (17) -/
abbrev PWR_LANE_CFG (n : Nat) : Nat := 0x10010020 + n * 0x4
/-- `PWR.RTC_SUB` (17) -/
abbrev PWR_RTC_SUB : Nat := 0x10010040
/-- `PWR.RTC_SEC_LO` (17) -/
abbrev PWR_RTC_SEC_LO : Nat := 0x10010044
/-- `PWR.RTC_SEC_HI` (17) -/
abbrev PWR_RTC_SEC_HI : Nat := 0x10010048
/-- `PWR.RTC_SET_LO` (17) -/
abbrev PWR_RTC_SET_LO : Nat := 0x1001004C
/-- `PWR.RTC_SET_HI` (17) -/
abbrev PWR_RTC_SET_HI : Nat := 0x10010050
/-- `PWR.RTC_CTRL` (17) -/
abbrev PWR_RTC_CTRL : Nat := 0x10010054
/-- `PWR.RTC_ALM_LO` (17) -/
abbrev PWR_RTC_ALM_LO : Nat := 0x10010058
/-- `PWR.RTC_ALM_HI` (17) -/
abbrev PWR_RTC_ALM_HI : Nat := 0x1001005C
/-- `PWR.AVS_CFG` (17) -/
abbrev PWR_AVS_CFG : Nat := 0x10010060
/-- `PWR.AVS_VSET` (17) -/
abbrev PWR_AVS_VSET : Nat := 0x10010064
/-- `PWR.AVS_STAT` (17) -/
abbrev PWR_AVS_STAT : Nat := 0x10010068
/-- `PWR.SBY_REFUSE` (17) -/
abbrev PWR_SBY_REFUSE : Nat := 0x10010080
/-- `PWR.SBY_FORCED` (17) -/
abbrev PWR_SBY_FORCED : Nat := 0x10010084
/-- `PWR.DOZES` (17) -/
abbrev PWR_DOZES : Nat := 0x10010088
/-- `PWR.WAKES` (17) -/
abbrev PWR_WAKES : Nat := 0x1001008C
/-- `PWR.AVS_TO` (17) -/
abbrev PWR_AVS_TO : Nat := 0x10010090
/-- `PWR.MAIN_LOSS` (17) -/
abbrev PWR_MAIN_LOSS : Nat := 0x10010094
/-- `THM.CFG` (18) -/
abbrev THM_CFG : Nat := 0x10020000
/-- `THM.GRACE` (18) -/
abbrev THM_GRACE : Nat := 0x10020004
/-- `THM.STAT` (18) -/
abbrev THM_STAT : Nat := 0x10020008
/-- `THM.EXCL` (18) -/
abbrev THM_EXCL : Nat := 0x1002000C
/-- `THM.Tk` (18) -/
abbrev THM_T (k : Nat) : Nat := 0x10020040 + k * 0x4
/-- `THM.WARNS` (18) -/
abbrev THM_WARNS : Nat := 0x10020100
/-- `THM.REQS` (18) -/
abbrev THM_REQS : Nat := 0x10020104
/-- `THM.ENFS` (18) -/
abbrev THM_ENFS : Nat := 0x10020108
/-- `THM.SHUTS` (18) -/
abbrev THM_SHUTS : Nat := 0x1002010C
/-- `THM.SBAD` (18) -/
abbrev THM_SBAD : Nat := 0x10020110
/-- `SYS.ID` (19) -/
abbrev SYS_ID : Nat := 0x10000000
/-- `SEC.LC` (19) -/
abbrev SEC_LC : Nat := 0x101C0000
/-- `SEC.LC_REQ` (19) -/
abbrev SEC_LC_REQ : Nat := 0x101C0004
/-- `SEC.BOOTSTAT` (19) -/
abbrev SEC_BOOTSTAT : Nat := 0x101C0008
/-- `SEC.CTRL` (19) -/
abbrev SEC_CTRL : Nat := 0x101C000C
/-- `SEC.ROLL` (19) -/
abbrev SEC_ROLL : Nat := 0x101C0010
/-- `SEC.CFGREC` (19) -/
abbrev SEC_CFGREC : Nat := 0x101C0014
/-- `SEC.CFGERR` (19) -/
abbrev SEC_CFGERR : Nat := 0x101C0018
/-- `SEC.VCMD` (19) -/
abbrev SEC_VCMD : Nat := 0x101C0020
/-- `SEC.VSTAT` (19) -/
abbrev SEC_VSTAT : Nat := 0x101C0024
/-- `SEC.KEYSTAT` (19) -/
abbrev SEC_KEYSTAT : Nat := 0x101C0028
/-- `SEC.ENROL` (19) -/
abbrev SEC_ENROL : Nat := 0x101C002C
/-- `SEC.KEYBUFw` (19) -/
abbrev SEC_KEYBUF (w : Nat) : Nat := 0x101C0030 + w * 0x4
/-- `SEC.ATT_CTRL` (19) -/
abbrev SEC_ATT_CTRL : Nat := 0x101C0060
/-- `SEC.ATT_ADDR` (19) -/
abbrev SEC_ATT_ADDR : Nat := 0x101C0064
/-- `SEC.ATT_STAT` (19) -/
abbrev SEC_ATT_STAT : Nat := 0x101C0068
/-- `SEC.ATT_NONCEw` (19) -/
abbrev SEC_ATT_NONCE (w : Nat) : Nat := 0x101C0070 + w * 0x4
/-- `SEC.ATT_PKw` (19) -/
abbrev SEC_ATT_PK (w : Nat) : Nat := 0x101C0090 + w * 0x4
/-- `SEC.JNL_Wk` (19) -/
abbrev SEC_JNL_W (k : Nat) : Nat := 0x101C0100 + k * 0x4
/-- `SEC.JNL_PAGE` (19) -/
abbrev SEC_JNL_PAGE : Nat := 0x101C0200
/-- `SEC.JNL_CMD` (19) -/
abbrev SEC_JNL_CMD : Nat := 0x101C0204
/-- `SEC.JNL_STAT` (19) -/
abbrev SEC_JNL_STAT : Nat := 0x101C0208
/-- `NVM.ADDR_LO` (19) -/
abbrev NVM_ADDR_LO : Nat := 0x101D0000
/-- `NVM.ADDR_HI` (19) -/
abbrev NVM_ADDR_HI : Nat := 0x101D0004
/-- `NVM.LEN` (19) -/
abbrev NVM_LEN : Nat := 0x101D0008
/-- `NVM.CMD` (19) -/
abbrev NVM_CMD : Nat := 0x101D000C
/-- `NVM.STAT` (19) -/
abbrev NVM_STAT : Nat := 0x101D0010
/-- `NVM.BUDGET` (19) -/
abbrev NVM_BUDGET : Nat := 0x101D0014
/-- `NVM.USED` (19) -/
abbrev NVM_USED : Nat := 0x101D0018
/-- `NVM.WIN_LEFT` (19) -/
abbrev NVM_WIN_LEFT : Nat := 0x101D001C
/-- `NVM.RBUFw` (19) -/
abbrev NVM_RBUF (w : Nat) : Nat := 0x101D0100 + w * 0x4
/-- `NVM.RBUF31` (19) -/
abbrev NVM_RBUF31 : Nat := 0x101D017C
/-- `NVM.WBUFw` (19) -/
abbrev NVM_WBUF (w : Nat) : Nat := 0x101D0200 + w * 0x4
/-- `BST.CFG` (20) -/
abbrev BST_CFG : Nat := 0x10190000
/-- `BST.STAT` (20) -/
abbrev BST_STAT : Nat := 0x10190004
/-- `BST.MCMD` (20) -/
abbrev BST_MCMD : Nat := 0x10190008
/-- `BST.MSTAT` (20) -/
abbrev BST_MSTAT : Nat := 0x1019000C
/-- `BST.LEXP` (20) -/
abbrev BST_LEXP : Nat := 0x10190010
/-- `BST.SRESs` (20) -/
abbrev BST_SRES (s : Nat) : Nat := 0x10190020 + s * 0x4
/-- `BST.MRES` (20) -/
abbrev BST_MRES : Nat := 0x10190050
/-- `BST.FULL` (20) -/
abbrev BST_FULL : Nat := 0x10190060
/-- `BST.FULLRES` (20) -/
abbrev BST_FULLRES : Nat := 0x10190064
/-- `FLT.CLSc` (20) -/
abbrev FLT_CLS (c : Nat) : Nat := 0x101E0000 + c * 0x4
/-- `FLT.SEL` (20) -/
abbrev FLT_SEL : Nat := 0x101E0080
/-- `FLT.LVL` (20) -/
abbrev FLT_LVL : Nat := 0x101E0084
/-- `FLT.LSUM` (20) -/
abbrev FLT_LSUM : Nat := 0x101E0088
/-- `FLT.LASTID` (20) -/
abbrev FLT_LASTID : Nat := 0x101E008C
/-- `CNT.SNAP` (21) -/
abbrev CNT_SNAP : Nat := 0x101A0000
/-- `CNT.SNAP_STAT` (21) -/
abbrev CNT_SNAP_STAT : Nat := 0x101A0004
/-- `CNT.SNAP_Q` (21) -/
abbrev CNT_SNAP_Q : Nat := 0x101A0008
/-- `CNT.FRZ` (21) -/
abbrev CNT_FRZ : Nat := 0x101A0010
/-- `CNT.OVF` (21) -/
abbrev CNT_OVF : Nat := 0x101A0014
/-- `CNT.CYC_LO` (21) -/
abbrev CNT_CYC_LO : Nat := 0x101A0020
/-- `CNT.CYC_HI` (21) -/
abbrev CNT_CYC_HI : Nat := 0x101A0024
/-- `CNT.PMCi_CFG` (21) -/
abbrev CNT_PMC_CFG (i : Nat) : Nat := 0x101A0040 + i * 0x10
/-- `CNT.PMCi_LO` (21) -/
abbrev CNT_PMC_LO (i : Nat) : Nat := 0x101A0044 + i * 0x10
/-- `CNT.PMCi_HI` (21) -/
abbrev CNT_PMC_HI (i : Nat) : Nat := 0x101A0048 + i * 0x10
/-- `CNT.SMP_CFG` (21) -/
abbrev CNT_SMP_CFG : Nat := 0x101A0100
/-- `CNT.SMP_STAT` (21) -/
abbrev CNT_SMP_STAT : Nat := 0x101A0104
/-- `CNT.SMP_ENT0` (21) -/
abbrev CNT_SMP_ENT0 : Nat := 0x101A0108
/-- `CNT.SMP_ENT1` (21) -/
abbrev CNT_SMP_ENT1 : Nat := 0x101A010C
/-- `CNT.SMP_ENT2` (21) -/
abbrev CNT_SMP_ENT2 : Nat := 0x101A0110
/-- `SLCs.PM_CFG` (21) -/
abbrev SLC_PM_CFG (s : Nat) : Nat := 0x10080000 + s * 0x10000
/-- `SLCs.PM_OVF` (21) -/
abbrev SLC_PM_OVF (s : Nat) : Nat := 0x10080004 + s * 0x10000
/-- `SLCs.PMCk` (21) -/
abbrev SLC_PMC (s : Nat) (k : Nat) : Nat := 0x10080010 + s * 0x10000 + k * 0x4
/-- `FLT.LASTc` (20) -/
abbrev FLT_LAST (c : Nat) : Nat := 0x101E0100 + c * 0x4

end Sys2Proof.R

/-! ### Fields -/

namespace Sys2Proof.F
open Sys2Proof.Machine

abbrev CLK_CFG_TSRC_LANE : Fld := ⟨R.CLK_CFG, 4, 4⟩
abbrev CLK_CFG_TSRC : Fld := ⟨R.CLK_CFG, 0, 1⟩
abbrev CLK_STAT_TSRC_WAIT : Fld := ⟨R.CLK_STAT, 6, 1⟩
abbrev CLK_STAT_HOLDOVER : Fld := ⟨R.CLK_STAT, 5, 1⟩
abbrev CLK_STAT_REF_RANGE : Fld := ⟨R.CLK_STAT, 4, 1⟩
abbrev CLK_STAT_COMPAT_LOCK : Fld := ⟨R.CLK_STAT, 3, 1⟩
abbrev CLK_STAT_LINE_LOCK : Fld := ⟨R.CLK_STAT, 2, 1⟩
abbrev CLK_STAT_HOST_LOCK : Fld := ⟨R.CLK_STAT, 1, 1⟩
abbrev CLK_STAT_TICK_RUN : Fld := ⟨R.CLK_STAT, 0, 1⟩
abbrev CLK_QNUM_HI_QNUM : Fld := ⟨R.CLK_QNUM_HI, 0, 16⟩
abbrev SPR_ASSIGN_L7 : Fld := ⟨R.SPR_ASSIGN, 28, 4⟩
abbrev SPR_ASSIGN_L6 : Fld := ⟨R.SPR_ASSIGN, 24, 4⟩
abbrev SPR_ASSIGN_L5 : Fld := ⟨R.SPR_ASSIGN, 20, 4⟩
abbrev SPR_ASSIGN_L4 : Fld := ⟨R.SPR_ASSIGN, 16, 4⟩
abbrev SPR_ASSIGN_L3 : Fld := ⟨R.SPR_ASSIGN, 12, 4⟩
abbrev SPR_ASSIGN_L2 : Fld := ⟨R.SPR_ASSIGN, 8, 4⟩
abbrev SPR_ASSIGN_L1 : Fld := ⟨R.SPR_ASSIGN, 4, 4⟩
abbrev SPR_ASSIGN_L0 : Fld := ⟨R.SPR_ASSIGN, 0, 4⟩
abbrev HST_POL_TXINV : Fld := ⟨R.HST_POL, 16, 16⟩
abbrev HST_POL_RXINV : Fld := ⟨R.HST_POL, 0, 16⟩
abbrev HST_CFG_LOSS_ACT : Fld := ⟨R.HST_CFG, 0, 1⟩
abbrev HST_LSTAT_DEGRADED : Fld := ⟨R.HST_LSTAT, 16, 16⟩
abbrev HST_LSTAT_LOST : Fld := ⟨R.HST_LSTAT, 0, 16⟩
abbrev MAP_MODE_CWIDTH : Fld := ⟨R.MAP_MODE, 4, 2⟩
abbrev MAP_MODE_MODE : Fld := ⟨R.MAP_MODE, 0, 3⟩
abbrev MAP_STAT_CFG_ERR : Fld := ⟨R.MAP_STAT, 16, 1⟩
abbrev MAP_STAT_UP : Fld := ⟨R.MAP_STAT, 0, 16⟩
abbrev MAP_REMAP_TXB (n : Nat) : Fld := ⟨R.MAP_REMAP n, 12, 4⟩
abbrev MAP_REMAP_TXA (n : Nat) : Fld := ⟨R.MAP_REMAP n, 8, 4⟩
abbrev MAP_REMAP_RXB (n : Nat) : Fld := ⟨R.MAP_REMAP n, 4, 4⟩
abbrev MAP_REMAP_RXA (n : Nat) : Fld := ⟨R.MAP_REMAP n, 0, 4⟩
abbrev FEC_CFG_MON_EN : Fld := ⟨R.FEC_CFG, 0, 16⟩
abbrev FEC_STAT_LOCK : Fld := ⟨R.FEC_STAT, 0, 16⟩
abbrev MAP_INFL_RX (s : Nat) : Fld := ⟨R.MAP_INFL s, 16, 16⟩
abbrev MAP_INFL_TX (s : Nat) : Fld := ⟨R.MAP_INFL s, 0, 16⟩
abbrev LANE_FMT_CFG_TX_SRC (n : Nat) : Fld := ⟨R.LANE_FMT_CFG n, 16, 16⟩
abbrev LANE_FMT_CFG_TX_LANE (n : Nat) : Fld := ⟨R.LANE_FMT_CFG n, 8, 3⟩
abbrev LANE_FMT_CFG_PRE_RX (n : Nat) : Fld := ⟨R.LANE_FMT_CFG n, 1, 1⟩
abbrev LANE_FMT_CFG_PRE_TX (n : Nat) : Fld := ⟨R.LANE_FMT_CFG n, 0, 1⟩
abbrev LANE_FMT_TXQ_LQN (n : Nat) : Fld := ⟨R.LANE_FMT_TXQ n, 0, 24⟩
abbrev LANE_FMT_STAT_RX_VER (n : Nat) : Fld := ⟨R.LANE_FMT_STAT n, 8, 4⟩
abbrev LANE_FMT_STAT_RX_LANE (n : Nat) : Fld := ⟨R.LANE_FMT_STAT n, 5, 3⟩
abbrev LANE_FMT_STAT_PRE_MISMATCH (n : Nat) : Fld := ⟨R.LANE_FMT_STAT n, 3, 1⟩
abbrev LANE_FMT_STAT_VER_MISMATCH (n : Nat) : Fld := ⟨R.LANE_FMT_STAT n, 2, 1⟩
abbrev LANE_FMT_STAT_MK_LOCK (n : Nat) : Fld := ⟨R.LANE_FMT_STAT n, 0, 1⟩
abbrev LANE_FMT_RXID_RX_MESH (n : Nat) : Fld := ⟨R.LANE_FMT_RXID n, 16, 16⟩
abbrev LANE_FMT_RXID_RX_SRC (n : Nat) : Fld := ⟨R.LANE_FMT_RXID n, 0, 16⟩
abbrev LANE_FMT_RXQ_RX_LQN (n : Nat) : Fld := ⟨R.LANE_FMT_RXQ n, 0, 24⟩
abbrev LANE_DEC_CFG_LIMIT (n : Nat) : Fld := ⟨R.LANE_DEC_CFG n, 0, 2⟩
abbrev LANE_DEC_STAT_DEGRADED (n : Nat) : Fld := ⟨R.LANE_DEC_STAT n, 4, 1⟩
abbrev LANE_DEC_STAT_MODE (n : Nat) : Fld := ⟨R.LANE_DEC_STAT n, 0, 2⟩
abbrev LANE_FEC_INJ_EN (n : Nat) : Fld := ⟨R.LANE_FEC_INJ n, 31, 1⟩
abbrev LANE_FEC_INJ_WEIGHT (n : Nat) : Fld := ⟨R.LANE_FEC_INJ n, 26, 2⟩
abbrev LANE_FEC_INJ_POS (n : Nat) : Fld := ⟨R.LANE_FEC_INJ n, 16, 9⟩
abbrev LANE_FEC_INJ_PERIOD (n : Nat) : Fld := ⟨R.LANE_FEC_INJ n, 0, 16⟩
abbrev LANE_TX_CFG_THRESH (n : Nat) : Fld := ⟨R.LANE_TX_CFG n, 24, 8⟩
abbrev LANE_TX_CFG_HOLD (n : Nat) : Fld := ⟨R.LANE_TX_CFG n, 20, 3⟩
abbrev LANE_TX_CFG_SWING (n : Nat) : Fld := ⟨R.LANE_TX_CFG n, 12, 6⟩
abbrev LANE_TX_CFG_NLT_BYP (n : Nat) : Fld := ⟨R.LANE_TX_CFG n, 4, 1⟩
abbrev LANE_TX_CFG_CAL_EN (n : Nat) : Fld := ⟨R.LANE_TX_CFG n, 3, 1⟩
abbrev LANE_TX_CFG_NLT_HOLD (n : Nat) : Fld := ⟨R.LANE_TX_CFG n, 2, 1⟩
abbrev LANE_TX_CFG_SQUELCH (n : Nat) : Fld := ⟨R.LANE_TX_CFG n, 0, 1⟩
abbrev LANE_TX_FFE0_C3 (n : Nat) : Fld := ⟨R.LANE_TX_FFE0 n, 24, 8⟩
abbrev LANE_TX_FFE0_C2 (n : Nat) : Fld := ⟨R.LANE_TX_FFE0 n, 16, 8⟩
abbrev LANE_TX_FFE0_C1 (n : Nat) : Fld := ⟨R.LANE_TX_FFE0 n, 8, 8⟩
abbrev LANE_TX_FFE0_C0 (n : Nat) : Fld := ⟨R.LANE_TX_FFE0 n, 0, 8⟩
abbrev LANE_TX_FFE1_C7 (n : Nat) : Fld := ⟨R.LANE_TX_FFE1 n, 24, 8⟩
abbrev LANE_TX_FFE1_C6 (n : Nat) : Fld := ⟨R.LANE_TX_FFE1 n, 16, 8⟩
abbrev LANE_TX_FFE1_C5 (n : Nat) : Fld := ⟨R.LANE_TX_FFE1 n, 8, 8⟩
abbrev LANE_TX_FFE1_C4 (n : Nat) : Fld := ⟨R.LANE_TX_FFE1 n, 0, 8⟩
abbrev LANE_TX_FFE2_MAIN (n : Nat) : Fld := ⟨R.LANE_TX_FFE2 n, 8, 4⟩
abbrev LANE_TX_FFE2_C8 (n : Nat) : Fld := ⟨R.LANE_TX_FFE2 n, 0, 8⟩
abbrev LANE_TX_STAT_SWING_BUSY (n : Nat) : Fld := ⟨R.LANE_TX_STAT n, 7, 1⟩
abbrev LANE_TX_STAT_CFG_ERR (n : Nat) : Fld := ⟨R.LANE_TX_STAT n, 6, 1⟩
abbrev LANE_TX_STAT_Q_FAULT (n : Nat) : Fld := ⟨R.LANE_TX_STAT n, 5, 1⟩
abbrev LANE_TX_STAT_SQ_HW (n : Nat) : Fld := ⟨R.LANE_TX_STAT n, 4, 1⟩
abbrev LANE_TX_STAT_SQUELCHED (n : Nat) : Fld := ⟨R.LANE_TX_STAT n, 3, 1⟩
abbrev LANE_TX_STAT_TONE (n : Nat) : Fld := ⟨R.LANE_TX_STAT n, 1, 2⟩
abbrev LANE_TX_STAT_TX_RUN (n : Nat) : Fld := ⟨R.LANE_TX_STAT n, 0, 1⟩
abbrev LANE_NLT_E3 (n : Nat) (w : Nat) : Fld := ⟨R.LANE_NLT n w, 24, 8⟩
abbrev LANE_NLT_E2 (n : Nat) (w : Nat) : Fld := ⟨R.LANE_NLT n w, 16, 8⟩
abbrev LANE_NLT_E1 (n : Nat) (w : Nat) : Fld := ⟨R.LANE_NLT n w, 8, 8⟩
abbrev LANE_NLT_E0 (n : Nat) (w : Nat) : Fld := ⟨R.LANE_NLT n w, 0, 8⟩
abbrev LANE_TONE_CFG_PHASE (n : Nat) : Fld := ⟨R.LANE_TONE_CFG n, 16, 16⟩
abbrev LANE_TONE_CFG_AMP (n : Nat) : Fld := ⟨R.LANE_TONE_CFG n, 8, 7⟩
abbrev LANE_TONE_CFG_MODE (n : Nat) : Fld := ⟨R.LANE_TONE_CFG n, 0, 2⟩
abbrev LANE_RX_AFE_GAIN_SET (n : Nat) : Fld := ⟨R.LANE_RX_AFE n, 16, 4⟩
abbrev LANE_RX_AFE_PEAK (n : Nat) : Fld := ⟨R.LANE_RX_AFE n, 8, 3⟩
abbrev LANE_RX_AFE_AGC_EN (n : Nat) : Fld := ⟨R.LANE_RX_AFE n, 0, 1⟩
abbrev LANE_RX_AFE_STAT_GAIN (n : Nat) : Fld := ⟨R.LANE_RX_AFE_STAT n, 8, 4⟩
abbrev LANE_RX_AFE_STAT_PEAK (n : Nat) : Fld := ⟨R.LANE_RX_AFE_STAT n, 4, 3⟩
abbrev LANE_RX_AFE_STAT_STEP_PEND (n : Nat) : Fld := ⟨R.LANE_RX_AFE_STAT n, 0, 1⟩
abbrev LANE_RX_PHCFG_FREEZE (n : Nat) : Fld := ⟨R.LANE_RX_PHCFG n, 8, 1⟩
abbrev LANE_RX_PHCFG_PHASE_SET (n : Nat) : Fld := ⟨R.LANE_RX_PHCFG n, 0, 6⟩
abbrev LANE_RX_PHSTAT_FOFF (n : Nat) : Fld := ⟨R.LANE_RX_PHSTAT n, 12, 20⟩
abbrev LANE_RX_PHSTAT_PHASE (n : Nat) : Fld := ⟨R.LANE_RX_PHSTAT n, 0, 6⟩
abbrev LANE_ADC_CFG_ROT_Q (n : Nat) : Fld := ⟨R.LANE_ADC_CFG n, 16, 8⟩
abbrev LANE_ADC_CFG_CAL_EN (n : Nat) : Fld := ⟨R.LANE_ADC_CFG n, 8, 1⟩
abbrev LANE_ADC_CFG_TRIM_HOLD (n : Nat) : Fld := ⟨R.LANE_ADC_CFG n, 1, 1⟩
abbrev LANE_ADC_CFG_TRIM_BYP (n : Nat) : Fld := ⟨R.LANE_ADC_CFG n, 0, 1⟩
abbrev LANE_ADC_STAT_CU1 (n : Nat) : Fld := ⟨R.LANE_ADC_STAT n, 24, 7⟩
abbrev LANE_ADC_STAT_CU0 (n : Nat) : Fld := ⟨R.LANE_ADC_STAT n, 16, 7⟩
abbrev LANE_ADC_STAT_DEGRADED (n : Nat) : Fld := ⟨R.LANE_ADC_STAT n, 5, 1⟩
abbrev LANE_ADC_STAT_RSTOP1 (n : Nat) : Fld := ⟨R.LANE_ADC_STAT n, 4, 1⟩
abbrev LANE_ADC_STAT_RSTOP0 (n : Nat) : Fld := ⟨R.LANE_ADC_STAT n, 3, 1⟩
abbrev LANE_ADC_STAT_ROT_BUSY (n : Nat) : Fld := ⟨R.LANE_ADC_STAT n, 2, 1⟩
abbrev LANE_ADC_STAT_ADC_RUN (n : Nat) : Fld := ⟨R.LANE_ADC_STAT n, 0, 1⟩
abbrev LANE_RX_LVL_VALID (n : Nat) : Fld := ⟨R.LANE_RX_LVL n, 12, 1⟩
abbrev LANE_RX_LVL_LVL (n : Nat) : Fld := ⟨R.LANE_RX_LVL n, 0, 12⟩
abbrev LANE_ADC_CSKEW_CSKEW (n : Nat) : Fld := ⟨R.LANE_ADC_CSKEW n, 0, 8⟩
abbrev LANE_ADC_RET_RET1 (n : Nat) : Fld := ⟨R.LANE_ADC_RET n, 8, 7⟩
abbrev LANE_ADC_RET_RET0 (n : Nat) : Fld := ⟨R.LANE_ADC_RET n, 0, 7⟩
abbrev LANE_ADC_TRIM_SKEW (n : Nat) (c : Nat) (u : Nat) : Fld := ⟨R.LANE_ADC_TRIM n c u, 24, 6⟩
abbrev LANE_ADC_TRIM_GAIN (n : Nat) (c : Nat) (u : Nat) : Fld := ⟨R.LANE_ADC_TRIM n c u, 8, 10⟩
abbrev LANE_ADC_TRIM_OFS (n : Nat) (c : Nat) (u : Nat) : Fld := ⟨R.LANE_ADC_TRIM n c u, 0, 8⟩
abbrev CAL_CAP_CFG_TRIG : Fld := ⟨R.CAL_CAP_CFG, 30, 2⟩
abbrev CAL_CAP_CFG_SRC : Fld := ⟨R.CAL_CAP_CFG, 28, 2⟩
abbrev CAL_CAP_CFG_LANE : Fld := ⟨R.CAL_CAP_CFG, 24, 3⟩
abbrev CAL_CAP_CFG_DEC : Fld := ⟨R.CAL_CAP_CFG, 20, 4⟩
abbrev CAL_CAP_CFG_LEN : Fld := ⟨R.CAL_CAP_CFG, 10, 10⟩
abbrev CAL_CAP_CFG_BASE : Fld := ⟨R.CAL_CAP_CFG, 0, 10⟩
abbrev CAL_CAP_POST_POST : Fld := ⟨R.CAL_CAP_POST, 0, 10⟩
abbrev CAL_CAP_CTRL_ABORT : Fld := ⟨R.CAL_CAP_CTRL, 1, 1⟩
abbrev CAL_CAP_CTRL_START : Fld := ⟨R.CAL_CAP_CTRL, 0, 1⟩
abbrev CAL_CAP_STAT_STATE : Fld := ⟨R.CAL_CAP_STAT, 29, 3⟩
abbrev CAL_CAP_STAT_ERR : Fld := ⟨R.CAL_CAP_STAT, 26, 3⟩
abbrev CAL_CAP_STAT_WRAPPED : Fld := ⟨R.CAL_CAP_STAT, 25, 1⟩
abbrev CAL_CAP_STAT_WPTR : Fld := ⟨R.CAL_CAP_STAT, 0, 23⟩
abbrev CAL_CAP_TPOS_TPOS : Fld := ⟨R.CAL_CAP_TPOS, 0, 23⟩
abbrev LANE_EQ_CFG_MU_ACQ (n : Nat) : Fld := ⟨R.LANE_EQ_CFG n, 28, 4⟩
abbrev LANE_EQ_CFG_MU_TRK (n : Nat) : Fld := ⟨R.LANE_EQ_CFG n, 24, 4⟩
abbrev LANE_EQ_CFG_MAIN (n : Nat) : Fld := ⟨R.LANE_EQ_CFG n, 16, 6⟩
abbrev LANE_EQ_CFG_PROFILE (n : Nat) : Fld := ⟨R.LANE_EQ_CFG n, 0, 2⟩
abbrev LANE_AGC_CFG_HI (n : Nat) : Fld := ⟨R.LANE_AGC_CFG n, 24, 8⟩
abbrev LANE_AGC_CFG_LO (n : Nat) : Fld := ⟨R.LANE_AGC_CFG n, 16, 8⟩
abbrev LANE_AGC_CFG_UP_Q (n : Nat) : Fld := ⟨R.LANE_AGC_CFG n, 12, 4⟩
abbrev LANE_AGC_CFG_DN_Q (n : Nat) : Fld := ⟨R.LANE_AGC_CFG n, 8, 4⟩
abbrev LANE_AGC_CFG_CLIPX (n : Nat) : Fld := ⟨R.LANE_AGC_CFG n, 0, 4⟩
abbrev LANE_MLSE_CFG_RSCALE (n : Nat) : Fld := ⟨R.LANE_MLSE_CFG n, 24, 8⟩
abbrev LANE_MLSE_CFG_HMAX (n : Nat) : Fld := ⟨R.LANE_MLSE_CFG n, 16, 8⟩
abbrev LANE_MLSE_CFG_MU_H (n : Nat) : Fld := ⟨R.LANE_MLSE_CFG n, 12, 4⟩
abbrev LANE_MLSE_CFG_MU_L (n : Nat) : Fld := ⟨R.LANE_MLSE_CFG n, 8, 4⟩
abbrev LANE_TR_CFG_KP (n : Nat) : Fld := ⟨R.LANE_TR_CFG n, 12, 4⟩
abbrev LANE_TR_CFG_KI (n : Nat) : Fld := ⟨R.LANE_TR_CFG n, 8, 4⟩
abbrev LANE_ACQ_CFG_SD_LVL (n : Nat) : Fld := ⟨R.LANE_ACQ_CFG n, 16, 12⟩
abbrev LANE_ACQ_CFG_MSE_LK (n : Nat) : Fld := ⟨R.LANE_ACQ_CFG n, 8, 8⟩
abbrev LANE_ACQ_CFG_MSE_DD (n : Nat) : Fld := ⟨R.LANE_ACQ_CFG n, 0, 8⟩
abbrev LANE_EQ_CTRL_PRE_VALID (n : Nat) : Fld := ⟨R.LANE_EQ_CTRL n, 8, 1⟩
abbrev LANE_EQ_CTRL_SAVE (n : Nat) : Fld := ⟨R.LANE_EQ_CTRL n, 4, 1⟩
abbrev LANE_EQ_CTRL_FREEZE (n : Nat) : Fld := ⟨R.LANE_EQ_CTRL n, 1, 1⟩
abbrev LANE_EQ_CTRL_REACQ (n : Nat) : Fld := ⟨R.LANE_EQ_CTRL n, 0, 1⟩
abbrev LANE_EQ_STAT_ACQ (n : Nat) : Fld := ⟨R.LANE_EQ_STAT n, 28, 4⟩
abbrev LANE_EQ_STAT_PROFILE (n : Nat) : Fld := ⟨R.LANE_EQ_STAT n, 24, 2⟩
abbrev LANE_EQ_STAT_DEGRADED (n : Nat) : Fld := ⟨R.LANE_EQ_STAT n, 9, 1⟩
abbrev LANE_EQ_STAT_SAVE_BUSY (n : Nat) : Fld := ⟨R.LANE_EQ_STAT n, 8, 1⟩
abbrev LANE_EQ_STAT_CFG_ERR (n : Nat) : Fld := ⟨R.LANE_EQ_STAT n, 7, 1⟩
abbrev LANE_EQ_STAT_AGC_SAT (n : Nat) : Fld := ⟨R.LANE_EQ_STAT n, 6, 1⟩
abbrev LANE_EQ_STAT_WARM (n : Nat) : Fld := ⟨R.LANE_EQ_STAT n, 5, 1⟩
abbrev LANE_EQ_STAT_MLSE_ON (n : Nat) : Fld := ⟨R.LANE_EQ_STAT n, 4, 1⟩
abbrev LANE_EQ_STAT_TIM_LOCK (n : Nat) : Fld := ⟨R.LANE_EQ_STAT n, 3, 1⟩
abbrev LANE_EQ_STAT_SIG (n : Nat) : Fld := ⟨R.LANE_EQ_STAT n, 2, 1⟩
abbrev LANE_EQ_STAT_FROZEN (n : Nat) : Fld := ⟨R.LANE_EQ_STAT n, 1, 1⟩
abbrev LANE_EQ_STAT_DATA_VALID (n : Nat) : Fld := ⟨R.LANE_EQ_STAT n, 0, 1⟩
abbrev LANE_EQ_MSE_MSE (n : Nat) : Fld := ⟨R.LANE_EQ_MSE n, 0, 16⟩
abbrev LANE_EQ_PRE_TAP (n : Nat) (k : Nat) : Fld := ⟨R.LANE_EQ_PRE n k, 0, 10⟩
abbrev LANE_EQ_PRE_MLSE_L2 (n : Nat) : Fld := ⟨R.LANE_EQ_PRE_MLSE n, 24, 8⟩
abbrev LANE_EQ_PRE_MLSE_L1 (n : Nat) : Fld := ⟨R.LANE_EQ_PRE_MLSE n, 16, 8⟩
abbrev LANE_EQ_PRE_MLSE_H1 (n : Nat) : Fld := ⟨R.LANE_EQ_PRE_MLSE n, 0, 8⟩
abbrev LANE_EQ_PRE_TR_FINT (n : Nat) : Fld := ⟨R.LANE_EQ_PRE_TR n, 16, 16⟩
abbrev LANE_EQ_PRE_TR_GAIN (n : Nat) : Fld := ⟨R.LANE_EQ_PRE_TR n, 8, 4⟩
abbrev LANE_EQ_PRE_TR_PHASE (n : Nat) : Fld := ⟨R.LANE_EQ_PRE_TR n, 0, 6⟩
abbrev BRL_CFG_SP_EN (n : Nat) : Fld := ⟨R.BRL_CFG n, 31, 1⟩
abbrev BRL_CFG_DET_LVL (n : Nat) : Fld := ⟨R.BRL_CFG n, 16, 12⟩
abbrev BRL_CFG_LEARN (n : Nat) : Fld := ⟨R.BRL_CFG n, 0, 1⟩
abbrev BRL_NEXT_ANY (n : Nat) : Fld := ⟨R.BRL_NEXT n, 17, 1⟩
abbrev BRL_NEXT_VALID (n : Nat) : Fld := ⟨R.BRL_NEXT n, 16, 1⟩
abbrev BRL_NEXT_SRC (n : Nat) : Fld := ⟨R.BRL_NEXT n, 0, 16⟩
abbrev BRL_CUR_HELD (n : Nat) : Fld := ⟨R.BRL_CUR n, 17, 1⟩
abbrev BRL_CUR_QUAL (n : Nat) : Fld := ⟨R.BRL_CUR n, 16, 1⟩
abbrev BRL_CUR_SRC (n : Nat) : Fld := ⟨R.BRL_CUR n, 0, 16⟩
abbrev BRL_STAT_STATE (n : Nat) : Fld := ⟨R.BRL_STAT n, 28, 4⟩
abbrev BRL_STAT_COLL_DEG (n : Nat) : Fld := ⟨R.BRL_STAT n, 27, 1⟩
abbrev BRL_STAT_STAGED (n : Nat) : Fld := ⟨R.BRL_STAT n, 26, 1⟩
abbrev BRL_STAT_HIT_IDX (n : Nat) : Fld := ⟨R.BRL_STAT n, 20, 6⟩
abbrev BRL_STAT_LREF (n : Nat) : Fld := ⟨R.BRL_STAT n, 8, 12⟩
abbrev BRL_STAT_RPTR (n : Nat) : Fld := ⟨R.BRL_STAT n, 0, 6⟩
abbrev BRL_RB_IDX_IDX (n : Nat) : Fld := ⟨R.BRL_RB_IDX n, 0, 6⟩
abbrev BRL_RB_HDR_VALID (n : Nat) : Fld := ⟨R.BRL_RB_HDR n, 31, 1⟩
abbrev BRL_RB_HDR_PIN (n : Nat) : Fld := ⟨R.BRL_RB_HDR n, 30, 1⟩
abbrev BRL_RB_HDR_GAIN (n : Nat) : Fld := ⟨R.BRL_RB_HDR n, 26, 4⟩
abbrev BRL_RB_HDR_PHASE (n : Nat) : Fld := ⟨R.BRL_RB_HDR n, 20, 6⟩
abbrev BRL_RB_HDR_SRC (n : Nat) : Fld := ⟨R.BRL_RB_HDR n, 0, 16⟩
abbrev BRL_RB_MLSE_L2 (n : Nat) : Fld := ⟨R.BRL_RB_MLSE n, 24, 8⟩
abbrev BRL_RB_MLSE_L1 (n : Nat) : Fld := ⟨R.BRL_RB_MLSE n, 16, 8⟩
abbrev BRL_RB_MLSE_H1 (n : Nat) : Fld := ⟨R.BRL_RB_MLSE n, 0, 8⟩
abbrev BRL_RB_TAP_T2 (n : Nat) (j : Nat) : Fld := ⟨R.BRL_RB_TAP n j, 20, 10⟩
abbrev BRL_RB_TAP_T1 (n : Nat) (j : Nat) : Fld := ⟨R.BRL_RB_TAP n j, 10, 10⟩
abbrev BRL_RB_TAP_T0 (n : Nat) (j : Nat) : Fld := ⟨R.BRL_RB_TAP n j, 0, 10⟩
abbrev CAL_CFG_BG_WIN (n : Nat) : Fld := ⟨R.CAL_CFG n, 28, 4⟩
abbrev CAL_CFG_FG_WIN (n : Nat) : Fld := ⟨R.CAL_CFG n, 24, 4⟩
abbrev CAL_CFG_FG_MAX (n : Nat) : Fld := ⟨R.CAL_CFG n, 19, 5⟩
abbrev CAL_CFG_RETRY (n : Nat) : Fld := ⟨R.CAL_CFG n, 16, 3⟩
abbrev CAL_CFG_TDELTA (n : Nat) : Fld := ⟨R.CAL_CFG n, 8, 8⟩
abbrev CAL_CFG_ITEM_EN (n : Nat) : Fld := ⟨R.CAL_CFG n, 0, 4⟩
abbrev CAL_TOL_TOL_O (n : Nat) : Fld := ⟨R.CAL_TOL n, 24, 8⟩
abbrev CAL_TOL_TOL_G (n : Nat) : Fld := ⟨R.CAL_TOL n, 16, 8⟩
abbrev CAL_TOL_TOL_S (n : Nat) : Fld := ⟨R.CAL_TOL n, 12, 4⟩
abbrev CAL_TOL_TOL_D (n : Nat) : Fld := ⟨R.CAL_TOL n, 8, 4⟩
abbrev CAL_TOL_TOL_N (n : Nat) : Fld := ⟨R.CAL_TOL n, 4, 4⟩
abbrev CAL_CMD_ABORT (n : Nat) : Fld := ⟨R.CAL_CMD n, 4, 1⟩
abbrev CAL_CMD_RUN (n : Nat) : Fld := ⟨R.CAL_CMD n, 0, 4⟩
abbrev CAL_CTRL_HIST_TX (n : Nat) : Fld := ⟨R.CAL_CTRL n, 1, 1⟩
abbrev CAL_CTRL_HIST_RX (n : Nat) : Fld := ⟨R.CAL_CTRL n, 0, 1⟩
abbrev CAL_STAT_REASON3 (n : Nat) : Fld := ⟨R.CAL_STAT n, 28, 4⟩
abbrev CAL_STAT_REASON2 (n : Nat) : Fld := ⟨R.CAL_STAT n, 24, 4⟩
abbrev CAL_STAT_REASON1 (n : Nat) : Fld := ⟨R.CAL_STAT n, 20, 4⟩
abbrev CAL_STAT_REASON0 (n : Nat) : Fld := ⟨R.CAL_STAT n, 16, 4⟩
abbrev CAL_STAT_PEND (n : Nat) : Fld := ⟨R.CAL_STAT n, 12, 4⟩
abbrev CAL_STAT_BUSY (n : Nat) : Fld := ⟨R.CAL_STAT n, 8, 4⟩
abbrev CAL_STAT_FG (n : Nat) : Fld := ⟨R.CAL_STAT n, 4, 4⟩
abbrev CAL_STAT_DEGRADED (n : Nat) : Fld := ⟨R.CAL_STAT n, 1, 1⟩
abbrev CAL_STAT_EST (n : Nat) : Fld := ⟨R.CAL_STAT n, 0, 1⟩
abbrev CAL_TEMP_TEMP (n : Nat) : Fld := ⟨R.CAL_TEMP n, 0, 11⟩
abbrev CAL_TGT_INNER (n : Nat) : Fld := ⟨R.CAL_TGT n, 0, 8⟩
abbrev CAL_TREF_TREF (n : Nat) (i : Nat) : Fld := ⟨R.CAL_TREF n i, 0, 11⟩
abbrev LANE_DAC_TRIM_BSKEW (n : Nat) : Fld := ⟨R.LANE_DAC_TRIM n, 24, 6⟩
abbrev LANE_DAC_TRIM_BGAIN (n : Nat) : Fld := ⟨R.LANE_DAC_TRIM n, 8, 10⟩
abbrev LANE_DAC_TRIM_BOFS (n : Nat) : Fld := ⟨R.LANE_DAC_TRIM n, 0, 8⟩
abbrev SPR_CFG_ROT_EN : Fld := ⟨R.SPR_CFG, 8, 1⟩
abbrev SPR_CFG_ROT_EXP : Fld := ⟨R.SPR_CFG, 0, 5⟩
abbrev SPR_CTRL_ABORT : Fld := ⟨R.SPR_CTRL, 5, 1⟩
abbrev SPR_CTRL_SWAP : Fld := ⟨R.SPR_CTRL, 4, 1⟩
abbrev SPR_CTRL_LANE : Fld := ⟨R.SPR_CTRL, 0, 3⟩
abbrev SPR_STAT_PHASE : Fld := ⟨R.SPR_STAT, 28, 4⟩
abbrev SPR_STAT_TLANE : Fld := ⟨R.SPR_STAT, 24, 3⟩
abbrev SPR_STAT_KIND : Fld := ⟨R.SPR_STAT, 22, 2⟩
abbrev SPR_STAT_FLY : Fld := ⟨R.SPR_STAT, 16, 4⟩
abbrev SPR_STAT_TESTING : Fld := ⟨R.SPR_STAT, 12, 4⟩
abbrev SPR_STAT_EXHAUSTED : Fld := ⟨R.SPR_STAT, 11, 1⟩
abbrev SPR_STAT_REPAIR_PEND : Fld := ⟨R.SPR_STAT, 10, 1⟩
abbrev SPR_STAT_ROT_DUE : Fld := ⟨R.SPR_STAT, 9, 1⟩
abbrev SPR_STAT_PAUSED : Fld := ⟨R.SPR_STAT, 8, 1⟩
abbrev SPR_STAT_RPTR : Fld := ⟨R.SPR_STAT, 5, 3⟩
abbrev SPR_STAT_ABORT : Fld := ⟨R.SPR_STAT, 0, 4⟩
abbrev SPR_DEG_DEGRADED : Fld := ⟨R.SPR_DEG, 0, 9⟩
abbrev SPR_RET_RET : Fld := ⟨R.SPR_RET, 0, 4⟩
abbrev MSH_CFG_LANE_EN : Fld := ⟨R.MSH_CFG, 24, 8⟩
abbrev MSH_CFG_KT : Fld := ⟨R.MSH_CFG, 20, 4⟩
abbrev MSH_CFG_RT_EXP : Fld := ⟨R.MSH_CFG, 16, 4⟩
abbrev MSH_CFG_AGE_EXP : Fld := ⟨R.MSH_CFG, 12, 4⟩
abbrev MSH_ADDR_MODE : Fld := ⟨R.MSH_ADDR, 31, 1⟩
abbrev MSH_ADDR_CADDR : Fld := ⟨R.MSH_ADDR, 0, 16⟩
abbrev MSH_ADDR_STAT_ASTATE : Fld := ⟨R.MSH_ADDR_STAT, 30, 2⟩
abbrev MSH_ADDR_STAT_CONFLICT : Fld := ⟨R.MSH_ADDR_STAT, 29, 1⟩
abbrev MSH_ADDR_STAT_CFG_ERR : Fld := ⟨R.MSH_ADDR_STAT, 28, 1⟩
abbrev MSH_ADDR_STAT_MADDR : Fld := ⟨R.MSH_ADDR_STAT, 0, 16⟩
abbrev MSH_TSTAT_TSTATE : Fld := ⟨R.MSH_TSTAT, 30, 2⟩
abbrev MSH_TSTAT_RDIST : Fld := ⟨R.MSH_TSTAT, 24, 6⟩
abbrev MSH_TSTAT_PARENT : Fld := ⟨R.MSH_TSTAT, 20, 4⟩
abbrev MSH_TSTAT_FRAC : Fld := ⟨R.MSH_TSTAT, 0, 16⟩
abbrev MSH_SCHED_Q_HI_N (k : Nat) : Fld := ⟨R.MSH_SCHED_Q_HI k, 0, 16⟩
abbrev MSH_SCHED_CTRL_ARM (k : Nat) : Fld := ⟨R.MSH_SCHED_CTRL k, 31, 1⟩
abbrev MSH_SCHED_CTRL_STATE (k : Nat) : Fld := ⟨R.MSH_SCHED_CTRL k, 29, 2⟩
abbrev MSH_SCHED_CTRL_SNAP (k : Nat) : Fld := ⟨R.MSH_SCHED_CTRL k, 16, 1⟩
abbrev MSH_SCHED_CTRL_PRESS (k : Nat) : Fld := ⟨R.MSH_SCHED_CTRL k, 0, 16⟩
abbrev MSH_RA_CFG_WR_EN : Fld := ⟨R.MSH_RA_CFG, 1, 1⟩
abbrev MSH_RA_CFG_RD_EN : Fld := ⟨R.MSH_RA_CFG, 0, 1⟩
abbrev MSH_NBR_STAT_LSTATE (n : Nat) : Fld := ⟨R.MSH_NBR_STAT n, 30, 2⟩
abbrev MSH_NBR_STAT_GASP (n : Nat) : Fld := ⟨R.MSH_NBR_STAT n, 29, 1⟩
abbrev MSH_NBR_STAT_LEAVE (n : Nat) : Fld := ⟨R.MSH_NBR_STAT n, 28, 1⟩
abbrev MSH_NBR_STAT_LOOP (n : Nat) : Fld := ⟨R.MSH_NBR_STAT n, 27, 1⟩
abbrev MSH_NBR_STAT_FAR_LANE (n : Nat) : Fld := ⟨R.MSH_NBR_STAT n, 24, 3⟩
abbrev MSH_NBR_STAT_MADDR (n : Nat) : Fld := ⟨R.MSH_NBR_STAT n, 0, 16⟩
abbrev MSH_RT_IDX_IDX : Fld := ⟨R.MSH_RT_IDX, 0, 10⟩
abbrev MSH_RT_ENT_VALID : Fld := ⟨R.MSH_RT_ENT, 31, 1⟩
abbrev MSH_RT_ENT_CFG : Fld := ⟨R.MSH_RT_ENT, 30, 1⟩
abbrev MSH_RT_ENT_DIST : Fld := ⟨R.MSH_RT_ENT, 24, 6⟩
abbrev MSH_RT_ENT_LANE : Fld := ⟨R.MSH_RT_ENT, 20, 4⟩
abbrev MSH_RT_ENT_TENT : Fld := ⟨R.MSH_RT_ENT, 19, 1⟩
abbrev MSH_RT_ENT_ADDR : Fld := ⟨R.MSH_RT_ENT, 0, 16⟩
abbrev MSH_TX_HDR_DST : Fld := ⟨R.MSH_TX_HDR, 16, 16⟩
abbrev MSH_TX_HDR_TYPE : Fld := ⟨R.MSH_TX_HDR, 12, 4⟩
abbrev MSH_TX_HDR_VC : Fld := ⟨R.MSH_TX_HDR, 11, 1⟩
abbrev MSH_TX_HDR_PLEN : Fld := ⟨R.MSH_TX_HDR, 0, 8⟩
abbrev MSH_TX_CTRL_SEND : Fld := ⟨R.MSH_TX_CTRL, 0, 1⟩
abbrev MSH_TX_STAT_STATE : Fld := ⟨R.MSH_TX_STAT, 0, 2⟩
abbrev MSH_RX_STAT_COUNT : Fld := ⟨R.MSH_RX_STAT, 4, 4⟩
abbrev MSH_RX_STAT_HEAD : Fld := ⟨R.MSH_RX_STAT, 0, 3⟩
abbrev MSH_RX_CTRL_POP : Fld := ⟨R.MSH_RX_CTRL, 0, 1⟩
abbrev MSH_RX_HDR_SRC (s : Nat) : Fld := ⟨R.MSH_RX_HDR s, 16, 16⟩
abbrev MSH_RX_HDR_TYPE (s : Nat) : Fld := ⟨R.MSH_RX_HDR s, 12, 4⟩
abbrev MSH_RX_HDR_VC (s : Nat) : Fld := ⟨R.MSH_RX_HDR s, 11, 1⟩
abbrev MSH_RX_HDR_LANE (s : Nat) : Fld := ⟨R.MSH_RX_HDR s, 8, 3⟩
abbrev MSH_RX_HDR_PLEN (s : Nat) : Fld := ⟨R.MSH_RX_HDR s, 0, 8⟩
abbrev HKP_BTGT_TARGET (d : Nat) : Fld := ⟨R.HKP_BTGT d, 0, 14⟩
abbrev HKP_BCFG_SAFE_EN (d : Nat) : Fld := ⟨R.HKP_BCFG d, 31, 1⟩
abbrev HKP_BCFG_SAFE (d : Nat) : Fld := ⟨R.HKP_BCFG d, 16, 14⟩
abbrev HKP_BCFG_RATE (d : Nat) : Fld := ⟨R.HKP_BCFG d, 12, 4⟩
abbrev HKP_BCFG_STEP (d : Nat) : Fld := ⟨R.HKP_BCFG d, 0, 12⟩
abbrev HKP_BDIT_DEN (d : Nat) : Fld := ⟨R.HKP_BDIT d, 31, 1⟩
abbrev HKP_BDIT_DLANE (d : Nat) : Fld := ⟨R.HKP_BDIT d, 24, 3⟩
abbrev HKP_BDIT_DAMP (d : Nat) : Fld := ⟨R.HKP_BDIT d, 0, 8⟩
abbrev HKP_BSTAT_BUSY (d : Nat) : Fld := ⟨R.HKP_BSTAT d, 31, 1⟩
abbrev HKP_BSTAT_SAFE (d : Nat) : Fld := ⟨R.HKP_BSTAT d, 30, 1⟩
abbrev HKP_BSTAT_OUT (d : Nat) : Fld := ⟨R.HKP_BSTAT d, 0, 14⟩
abbrev HKP_BCTRL_SAFE_CLR : Fld := ⟨R.HKP_BCTRL, 0, 1⟩
abbrev HKP_SYNC_EN : Fld := ⟨R.HKP_SYNC, 0, 1⟩
abbrev HKP_SEQ_CFG_EN : Fld := ⟨R.HKP_SEQ_CFG, 31, 1⟩
abbrev HKP_SEQ_CFG_LAST : Fld := ⟨R.HKP_SEQ_CFG, 0, 5⟩
abbrev HKP_SEQ_STAT_DEGRADED : Fld := ⟨R.HKP_SEQ_STAT, 16, 1⟩
abbrev HKP_SEQ_STAT_URG : Fld := ⟨R.HKP_SEQ_STAT, 15, 1⟩
abbrev HKP_SEQ_STAT_UPEND : Fld := ⟨R.HKP_SEQ_STAT, 14, 1⟩
abbrev HKP_SEQ_STAT_ENTRY : Fld := ⟨R.HKP_SEQ_STAT, 8, 5⟩
abbrev HKP_SEQ_STAT_CH : Fld := ⟨R.HKP_SEQ_STAT, 0, 5⟩
abbrev HKP_UREQ_GO : Fld := ⟨R.HKP_UREQ, 31, 1⟩
abbrev HKP_UREQ_NQ : Fld := ⟨R.HKP_UREQ, 8, 3⟩
abbrev HKP_UREQ_RANGE : Fld := ⟨R.HKP_UREQ, 5, 1⟩
abbrev HKP_UREQ_CH : Fld := ⟨R.HKP_UREQ, 0, 5⟩
abbrev HKP_URES_TAG : Fld := ⟨R.HKP_URES, 24, 8⟩
abbrev HKP_URES_OVR : Fld := ⟨R.HKP_URES, 21, 1⟩
abbrev HKP_URES_VALID : Fld := ⟨R.HKP_URES, 20, 1⟩
abbrev HKP_URES_VALUE : Fld := ⟨R.HKP_URES, 0, 20⟩
abbrev HKP_SEQ_NQ (e : Nat) : Fld := ⟨R.HKP_SEQ e, 8, 3⟩
abbrev HKP_SEQ_RANGE (e : Nat) : Fld := ⟨R.HKP_SEQ e, 5, 1⟩
abbrev HKP_SEQ_CH (e : Nat) : Fld := ⟨R.HKP_SEQ e, 0, 5⟩
abbrev HKP_RES_TAG (n : Nat) : Fld := ⟨R.HKP_RES n, 24, 8⟩
abbrev HKP_RES_OVR (n : Nat) : Fld := ⟨R.HKP_RES n, 21, 1⟩
abbrev HKP_RES_VALID (n : Nat) : Fld := ⟨R.HKP_RES n, 20, 1⟩
abbrev HKP_RES_VALUE (n : Nat) : Fld := ⟨R.HKP_RES n, 0, 20⟩
abbrev HKP_LIM_HI (n : Nat) : Fld := ⟨R.HKP_LIM n, 16, 16⟩
abbrev HKP_LIM_LO (n : Nat) : Fld := ⟨R.HKP_LIM n, 0, 16⟩
abbrev SYS_RT_OVR : Fld := ⟨R.SYS_RT, 16, 16⟩
abbrev SYS_RT_DONE : Fld := ⟨R.SYS_RT, 0, 1⟩
abbrev SYS_WDT_CFG_EN : Fld := ⟨R.SYS_WDT_CFG, 31, 1⟩
abbrev SYS_WDT_CFG_PERIOD : Fld := ⟨R.SYS_WDT_CFG, 0, 16⟩
abbrev SYS_MRST_COUNT : Fld := ⟨R.SYS_MRST, 8, 16⟩
abbrev SYS_MRST_CAUSE : Fld := ⟨R.SYS_MRST, 0, 4⟩
abbrev ECC_STAT_CHK_FAIL : Fld := ⟨R.ECC_STAT, 8, 4⟩
abbrev ECC_STAT_SPARE_OUT : Fld := ⟨R.ECC_STAT, 0, 4⟩
abbrev ECC_ULOG_VALID : Fld := ⟨R.ECC_ULOG, 31, 1⟩
abbrev ECC_ULOG_MEM : Fld := ⟨R.ECC_ULOG, 29, 2⟩
abbrev ECC_ULOG_SRC : Fld := ⟨R.ECC_ULOG, 26, 3⟩
abbrev ECC_ULOG_POISON : Fld := ⟨R.ECC_ULOG, 25, 1⟩
abbrev ECC_ULOG_OFFSET : Fld := ⟨R.ECC_ULOG, 0, 22⟩
abbrev ECC_REMAP_REQ_MEM : Fld := ⟨R.ECC_REMAP_REQ, 14, 2⟩
abbrev ECC_REMAP_REQ_ROW : Fld := ⟨R.ECC_REMAP_REQ, 0, 14⟩
abbrev ECC_INJ_EN : Fld := ⟨R.ECC_INJ, 31, 1⟩
abbrev ECC_INJ_TWO : Fld := ⟨R.ECC_INJ, 30, 1⟩
abbrev ECC_INJ_MEM : Fld := ⟨R.ECC_INJ, 14, 2⟩
abbrev ECC_INJ_POS_B : Fld := ⟨R.ECC_INJ, 8, 6⟩
abbrev ECC_INJ_POS_A : Fld := ⟨R.ECC_INJ, 0, 6⟩
abbrev ECC_SCRUB_CFG_MEM : Fld := ⟨R.ECC_SCRUB_CFG, 30, 2⟩
abbrev ECC_SCRUB_CTRL_ABORT : Fld := ⟨R.ECC_SCRUB_CTRL, 1, 1⟩
abbrev ECC_SCRUB_CTRL_START : Fld := ⟨R.ECC_SCRUB_CTRL, 0, 1⟩
abbrev ECC_SCRUB_STAT_STATE : Fld := ⟨R.ECC_SCRUB_STAT, 29, 3⟩
abbrev DMA_COUNT_COUNT (c : Nat) : Fld := ⟨R.DMA_COUNT c, 0, 24⟩
abbrev DMA_CFG_REQ (c : Nat) : Fld := ⟨R.DMA_CFG c, 16, 5⟩
abbrev DMA_CFG_BURST (c : Nat) : Fld := ⟨R.DMA_CFG c, 12, 2⟩
abbrev DMA_CFG_SFIX (c : Nat) : Fld := ⟨R.DMA_CFG c, 9, 1⟩
abbrev DMA_CFG_DFIX (c : Nat) : Fld := ⟨R.DMA_CFG c, 8, 1⟩
abbrev DMA_CFG_EVT_EN (c : Nat) : Fld := ⟨R.DMA_CFG c, 7, 1⟩
abbrev DMA_CFG_EVL (c : Nat) : Fld := ⟨R.DMA_CFG c, 0, 4⟩
abbrev DMA_CTRL_NEXT (c : Nat) : Fld := ⟨R.DMA_CTRL c, 2, 1⟩
abbrev DMA_CTRL_ABORT (c : Nat) : Fld := ⟨R.DMA_CTRL c, 1, 1⟩
abbrev DMA_CTRL_START (c : Nat) : Fld := ⟨R.DMA_CTRL c, 0, 1⟩
abbrev DMA_STAT_STATE (c : Nat) : Fld := ⟨R.DMA_STAT c, 29, 3⟩
abbrev DMA_STAT_ERR (c : Nat) : Fld := ⟨R.DMA_STAT c, 26, 3⟩
abbrev DMA_STAT_SH_VALID (c : Nat) : Fld := ⟨R.DMA_STAT c, 25, 1⟩
abbrev DMA_STAT_SH_ERR (c : Nat) : Fld := ⟨R.DMA_STAT c, 22, 3⟩
abbrev DMA_STAT_PEND (c : Nat) : Fld := ⟨R.DMA_STAT c, 8, 8⟩
abbrev DMA_NCOUNT_NCOUNT (c : Nat) : Fld := ⟨R.DMA_NCOUNT c, 0, 24⟩
abbrev DMA_ACTIVE_CH : Fld := ⟨R.DMA_ACTIVE, 0, 4⟩
abbrev CLK_PRESS_GROUPS : Fld := ⟨R.CLK_PRESS, 0, 16⟩
abbrev CLK_PRESS_STAT_LAST : Fld := ⟨R.CLK_PRESS_STAT, 16, 16⟩
abbrev CLK_PRESS_STAT_PEND : Fld := ⟨R.CLK_PRESS_STAT, 0, 16⟩
abbrev MGT_STAT_CSTATE : Fld := ⟨R.MGT_STAT, 29, 3⟩
abbrev MGT_STAT_UNLOCKED : Fld := ⟨R.MGT_STAT, 28, 1⟩
abbrev MGT_STAT_LOCKOUT : Fld := ⟨R.MGT_STAT, 27, 1⟩
abbrev MGT_STAT_BUSY : Fld := ⟨R.MGT_STAT, 26, 1⟩
abbrev MGT_STAT_RB : Fld := ⟨R.MGT_STAT, 25, 1⟩
abbrev MGT_STAT_INT : Fld := ⟨R.MGT_STAT, 24, 1⟩
abbrev MGT_STAT_LPREQ : Fld := ⟨R.MGT_STAT, 23, 1⟩
abbrev MGT_STAT_I3C : Fld := ⟨R.MGT_STAT, 22, 1⟩
abbrev MGT_STAT_DADDR : Fld := ⟨R.MGT_STAT, 0, 7⟩
abbrev MGT_WCTRL_READY : Fld := ⟨R.MGT_WCTRL, 1, 1⟩
abbrev MGT_WCTRL_DONE : Fld := ⟨R.MGT_WCTRL, 0, 1⟩
abbrev MGT_WPEND_PAGE : Fld := ⟨R.MGT_WPEND, 8, 8⟩
abbrev MGT_WPEND_BANK : Fld := ⟨R.MGT_WPEND, 7, 1⟩
abbrev MGT_WPEND_OFFSET : Fld := ⟨R.MGT_WPEND, 0, 7⟩
abbrev MGT_CFG_SESS_EXP : Fld := ⟨R.MGT_CFG, 0, 5⟩
abbrev PWR_STAT_DSTATE : Fld := ⟨R.PWR_STAT, 29, 3⟩
abbrev PWR_STAT_VBAK_OK : Fld := ⟨R.PWR_STAT, 28, 1⟩
abbrev PWR_DOM_AON : Fld := ⟨R.PWR_DOM, 23, 1⟩
abbrev PWR_DOM_MGT : Fld := ⟨R.PWR_DOM, 22, 1⟩
abbrev PWR_DOM_MSH : Fld := ⟨R.PWR_DOM, 21, 1⟩
abbrev PWR_DOM_HG : Fld := ⟨R.PWR_DOM, 17, 4⟩
abbrev PWR_DOM_LFE : Fld := ⟨R.PWR_DOM, 9, 8⟩
abbrev PWR_DOM_SLC : Fld := ⟨R.PWR_DOM, 0, 9⟩
abbrev PWR_CTRL_REST : Fld := ⟨R.PWR_CTRL, 0, 1⟩
abbrev PWR_SBY_CFG_BSAFE : Fld := ⟨R.PWR_SBY_CFG, 16, 1⟩
abbrev PWR_SBY_CFG_RETRY_EXP : Fld := ⟨R.PWR_SBY_CFG, 8, 4⟩
abbrev PWR_SBY_CFG_RETRY : Fld := ⟨R.PWR_SBY_CFG, 0, 4⟩
abbrev PWR_SBY_STAT_ATTEMPT : Fld := ⟨R.PWR_SBY_STAT, 20, 4⟩
abbrev PWR_SBY_STAT_STAGE : Fld := ⟨R.PWR_SBY_STAT, 18, 2⟩
abbrev PWR_SBY_STAT_REASON : Fld := ⟨R.PWR_SBY_STAT, 16, 2⟩
abbrev PWR_SBY_STAT_DOM : Fld := ⟨R.PWR_SBY_STAT, 8, 5⟩
abbrev PWR_SBY_STAT_FORCED : Fld := ⟨R.PWR_SBY_STAT, 0, 1⟩
abbrev PWR_WAKE_TX_LANES : Fld := ⟨R.PWR_WAKE_TX, 0, 8⟩
abbrev PWR_LANE_STAT_STATE : Fld := ⟨R.PWR_LANE_STAT, 0, 16⟩
abbrev PWR_LANE_CFG_DOZE_LVL (n : Nat) : Fld := ⟨R.PWR_LANE_CFG n, 16, 12⟩
abbrev PWR_LANE_CFG_DOZE_EXP (n : Nat) : Fld := ⟨R.PWR_LANE_CFG n, 8, 5⟩
abbrev PWR_LANE_CFG_WAKE (n : Nat) : Fld := ⟨R.PWR_LANE_CFG n, 4, 2⟩
abbrev PWR_LANE_CFG_MODE (n : Nat) : Fld := ⟨R.PWR_LANE_CFG n, 0, 2⟩
abbrev PWR_RTC_SUB_SUB : Fld := ⟨R.PWR_RTC_SUB, 0, 15⟩
abbrev PWR_RTC_SEC_HI_SEC : Fld := ⟨R.PWR_RTC_SEC_HI, 0, 16⟩
abbrev PWR_RTC_SET_HI_SEC : Fld := ⟨R.PWR_RTC_SET_HI, 0, 16⟩
abbrev PWR_RTC_CTRL_ALM_EN : Fld := ⟨R.PWR_RTC_CTRL, 1, 1⟩
abbrev PWR_RTC_CTRL_LOAD : Fld := ⟨R.PWR_RTC_CTRL, 0, 1⟩
abbrev PWR_RTC_ALM_HI_SEC : Fld := ⟨R.PWR_RTC_ALM_HI, 0, 16⟩
abbrev PWR_AVS_CFG_RAIL : Fld := ⟨R.PWR_AVS_CFG, 0, 4⟩
abbrev PWR_AVS_VSET_MV : Fld := ⟨R.PWR_AVS_VSET, 0, 10⟩
abbrev PWR_AVS_STAT_BUSY : Fld := ⟨R.PWR_AVS_STAT, 31, 1⟩
abbrev PWR_AVS_STAT_RANGE_ERR : Fld := ⟨R.PWR_AVS_STAT, 30, 1⟩
abbrev PWR_AVS_STAT_DEGRADED : Fld := ⟨R.PWR_AVS_STAT, 29, 1⟩
abbrev PWR_AVS_STAT_VNOW : Fld := ⟨R.PWR_AVS_STAT, 0, 10⟩
abbrev THM_CFG_SHUT : Fld := ⟨R.THM_CFG, 24, 8⟩
abbrev THM_CFG_THROT : Fld := ⟨R.THM_CFG, 16, 8⟩
abbrev THM_CFG_WARN : Fld := ⟨R.THM_CFG, 8, 8⟩
abbrev THM_CFG_HYST : Fld := ⟨R.THM_CFG, 4, 4⟩
abbrev THM_CFG_NBR_LIM : Fld := ⟨R.THM_CFG, 0, 4⟩
abbrev THM_GRACE_GRACE : Fld := ⟨R.THM_GRACE, 0, 16⟩
abbrev THM_STAT_LEVEL : Fld := ⟨R.THM_STAT, 30, 2⟩
abbrev THM_STAT_REQ : Fld := ⟨R.THM_STAT, 29, 1⟩
abbrev THM_STAT_ENF : Fld := ⟨R.THM_STAT, 28, 1⟩
abbrev THM_STAT_SAFE : Fld := ⟨R.THM_STAT, 27, 1⟩
abbrev THM_STAT_FAST : Fld := ⟨R.THM_STAT, 26, 1⟩
abbrev THM_STAT_CFG_ERR : Fld := ⟨R.THM_STAT, 25, 1⟩
abbrev THM_STAT_VCNT : Fld := ⟨R.THM_STAT, 20, 5⟩
abbrev THM_STAT_TJ : Fld := ⟨R.THM_STAT, 0, 11⟩
abbrev THM_EXCL_EXCL : Fld := ⟨R.THM_EXCL, 0, 16⟩
abbrev THM_T_BAD (k : Nat) : Fld := ⟨R.THM_T k, 12, 1⟩
abbrev THM_T_TEMP (k : Nat) : Fld := ⟨R.THM_T k, 0, 11⟩
abbrev SYS_ID_GRADE : Fld := ⟨R.SYS_ID, 8, 1⟩
abbrev SYS_ID_REV : Fld := ⟨R.SYS_ID, 0, 8⟩
abbrev SEC_LC_PEND : Fld := ⟨R.SEC_LC, 8, 1⟩
abbrev SEC_LC_STATE : Fld := ⟨R.SEC_LC, 0, 3⟩
abbrev SEC_LC_REQ_GO : Fld := ⟨R.SEC_LC_REQ, 31, 1⟩
abbrev SEC_LC_REQ_TARGET : Fld := ⟨R.SEC_LC_REQ, 0, 3⟩
abbrev SEC_BOOTSTAT_FAILB : Fld := ⟨R.SEC_BOOTSTAT, 28, 4⟩
abbrev SEC_BOOTSTAT_FAILA : Fld := ⟨R.SEC_BOOTSTAT, 24, 4⟩
abbrev SEC_BOOTSTAT_UNSIGNED : Fld := ⟨R.SEC_BOOTSTAT, 21, 1⟩
abbrev SEC_BOOTSTAT_FELLBACK : Fld := ⟨R.SEC_BOOTSTAT, 20, 1⟩
abbrev SEC_BOOTSTAT_TRIES : Fld := ⟨R.SEC_BOOTSTAT, 18, 2⟩
abbrev SEC_BOOTSTAT_HDR : Fld := ⟨R.SEC_BOOTSTAT, 17, 1⟩
abbrev SEC_BOOTSTAT_FW : Fld := ⟨R.SEC_BOOTSTAT, 16, 1⟩
abbrev SEC_BOOTSTAT_EXT : Fld := ⟨R.SEC_BOOTSTAT, 14, 2⟩
abbrev SEC_BOOTSTAT_CFG : Fld := ⟨R.SEC_BOOTSTAT, 12, 2⟩
abbrev SEC_CTRL_ROLLFWD : Fld := ⟨R.SEC_CTRL, 2, 1⟩
abbrev SEC_CTRL_RESTART : Fld := ⟨R.SEC_CTRL, 1, 1⟩
abbrev SEC_CTRL_CONFIRM : Fld := ⟨R.SEC_CTRL, 0, 1⟩
abbrev SEC_ROLL_SVN : Fld := ⟨R.SEC_ROLL, 8, 8⟩
abbrev SEC_ROLL_COUNT : Fld := ⟨R.SEC_ROLL, 0, 8⟩
abbrev SEC_CFGREC_REJ : Fld := ⟨R.SEC_CFGREC, 16, 16⟩
abbrev SEC_CFGREC_APPLIED : Fld := ⟨R.SEC_CFGREC, 0, 16⟩
abbrev SEC_CFGERR_REASON : Fld := ⟨R.SEC_CFGERR, 28, 4⟩
abbrev SEC_CFGERR_OFFSET : Fld := ⟨R.SEC_CFGERR, 0, 16⟩
abbrev SEC_VCMD_GO : Fld := ⟨R.SEC_VCMD, 31, 1⟩
abbrev SEC_VCMD_KIND : Fld := ⟨R.SEC_VCMD, 4, 2⟩
abbrev SEC_VCMD_SLOT : Fld := ⟨R.SEC_VCMD, 0, 1⟩
abbrev SEC_VSTAT_STATE : Fld := ⟨R.SEC_VSTAT, 30, 2⟩
abbrev SEC_VSTAT_RESULT : Fld := ⟨R.SEC_VSTAT, 24, 4⟩
abbrev SEC_VSTAT_SVN : Fld := ⟨R.SEC_VSTAT, 0, 8⟩
abbrev SEC_KEYSTAT_ENRES : Fld := ⟨R.SEC_KEYSTAT, 4, 2⟩
abbrev SEC_KEYSTAT_ENBUSY : Fld := ⟨R.SEC_KEYSTAT, 3, 1⟩
abbrev SEC_KEYSTAT_FWKEY : Fld := ⟨R.SEC_KEYSTAT, 2, 1⟩
abbrev SEC_KEYSTAT_MAINT : Fld := ⟨R.SEC_KEYSTAT, 1, 1⟩
abbrev SEC_KEYSTAT_MMKEY : Fld := ⟨R.SEC_KEYSTAT, 0, 1⟩
abbrev SEC_ENROL_GO : Fld := ⟨R.SEC_ENROL, 31, 1⟩
abbrev SEC_ENROL_SLOT : Fld := ⟨R.SEC_ENROL, 0, 2⟩
abbrev SEC_ATT_CTRL_GO : Fld := ⟨R.SEC_ATT_CTRL, 0, 1⟩
abbrev SEC_ATT_STAT_STATE : Fld := ⟨R.SEC_ATT_STAT, 30, 2⟩
abbrev SEC_ATT_STAT_PKV : Fld := ⟨R.SEC_ATT_STAT, 29, 1⟩
abbrev SEC_JNL_PAGE_PAGE : Fld := ⟨R.SEC_JNL_PAGE, 0, 5⟩
abbrev SEC_JNL_CMD_COMMIT : Fld := ⟨R.SEC_JNL_CMD, 0, 1⟩
abbrev SEC_JNL_STAT_VALID : Fld := ⟨R.SEC_JNL_STAT, 31, 1⟩
abbrev SEC_JNL_STAT_BUSY : Fld := ⟨R.SEC_JNL_STAT, 30, 1⟩
abbrev SEC_JNL_STAT_DIRTY : Fld := ⟨R.SEC_JNL_STAT, 29, 1⟩
abbrev SEC_JNL_STAT_CAUSE : Fld := ⟨R.SEC_JNL_STAT, 24, 4⟩
abbrev SEC_JNL_STAT_SEQ : Fld := ⟨R.SEC_JNL_STAT, 0, 16⟩
abbrev NVM_ADDR_HI_CS : Fld := ⟨R.NVM_ADDR_HI, 8, 1⟩
abbrev NVM_ADDR_HI_ADDR : Fld := ⟨R.NVM_ADDR_HI, 0, 5⟩
abbrev NVM_LEN_LEN : Fld := ⟨R.NVM_LEN, 0, 24⟩
abbrev NVM_CMD_GO : Fld := ⟨R.NVM_CMD, 31, 1⟩
abbrev NVM_CMD_ABORT : Fld := ⟨R.NVM_CMD, 30, 1⟩
abbrev NVM_CMD_AUTO : Fld := ⟨R.NVM_CMD, 4, 1⟩
abbrev NVM_CMD_OP : Fld := ⟨R.NVM_CMD, 0, 2⟩
abbrev NVM_STAT_STATE : Fld := ⟨R.NVM_STAT, 30, 2⟩
abbrev NVM_STAT_ERR : Fld := ⟨R.NVM_STAT, 26, 4⟩
abbrev NVM_STAT_DEGRADED : Fld := ⟨R.NVM_STAT, 25, 1⟩
abbrev NVM_STAT_REMAIN : Fld := ⟨R.NVM_STAT, 0, 24⟩
abbrev NVM_BUDGET_CLASS : Fld := ⟨R.NVM_BUDGET, 0, 2⟩
abbrev BST_CFG_BUDGET : Fld := ⟨R.BST_CFG, 0, 8⟩
abbrev BST_STAT_STATE : Fld := ⟨R.BST_STAT, 30, 2⟩
abbrev BST_STAT_TGT : Fld := ⟨R.BST_STAT, 26, 4⟩
abbrev BST_STAT_SEG : Fld := ⟨R.BST_STAT, 16, 10⟩
abbrev BST_STAT_PART : Fld := ⟨R.BST_STAT, 3, 2⟩
abbrev BST_STAT_WAIT : Fld := ⟨R.BST_STAT, 0, 3⟩
abbrev BST_MCMD_GO : Fld := ⟨R.BST_MCMD, 31, 1⟩
abbrev BST_MCMD_MEM : Fld := ⟨R.BST_MCMD, 28, 2⟩
abbrev BST_MCMD_COUNT : Fld := ⟨R.BST_MCMD, 16, 10⟩
abbrev BST_MCMD_FIRST : Fld := ⟨R.BST_MCMD, 0, 10⟩
abbrev BST_MSTAT_ERR : Fld := ⟨R.BST_MSTAT, 31, 1⟩
abbrev BST_MSTAT_LEFT : Fld := ⟨R.BST_MSTAT, 0, 11⟩
abbrev BST_LEXP_COUNT : Fld := ⟨R.BST_LEXP, 0, 24⟩
abbrev BST_SRES_RESULT (s : Nat) : Fld := ⟨R.BST_SRES s, 30, 2⟩
abbrev BST_SRES_COUNT (s : Nat) : Fld := ⟨R.BST_SRES s, 0, 24⟩
abbrev BST_MRES_RESULT : Fld := ⟨R.BST_MRES, 30, 2⟩
abbrev BST_MRES_MEM : Fld := ⟨R.BST_MRES, 28, 2⟩
abbrev BST_MRES_SEG : Fld := ⟨R.BST_MRES, 16, 10⟩
abbrev BST_MRES_FAILS : Fld := ⟨R.BST_MRES, 0, 11⟩
abbrev BST_FULL_GO : Fld := ⟨R.BST_FULL, 31, 1⟩
abbrev BST_FULL_STATE : Fld := ⟨R.BST_FULL, 0, 2⟩
abbrev BST_FULLRES_MEMS : Fld := ⟨R.BST_FULLRES, 30, 2⟩
abbrev BST_FULLRES_FE : Fld := ⟨R.BST_FULLRES, 24, 2⟩
abbrev BST_FULLRES_SLC : Fld := ⟨R.BST_FULLRES, 0, 18⟩
abbrev FLT_CLS_WEXP (c : Nat) : Fld := ⟨R.FLT_CLS c, 24, 5⟩
abbrev FLT_CLS_T (c : Nat) : Fld := ⟨R.FLT_CLS c, 0, 16⟩
abbrev FLT_SEL_CLS : Fld := ⟨R.FLT_SEL, 16, 5⟩
abbrev FLT_SEL_INST : Fld := ⟨R.FLT_SEL, 0, 11⟩
abbrev FLT_LVL_LASTING : Fld := ⟨R.FLT_LVL, 31, 1⟩
abbrev FLT_LVL_LEVEL : Fld := ⟨R.FLT_LVL, 0, 16⟩
abbrev FLT_LSUM_CLS : Fld := ⟨R.FLT_LSUM, 0, 13⟩
abbrev FLT_LASTID_CLS : Fld := ⟨R.FLT_LASTID, 16, 5⟩
abbrev FLT_LASTID_INST : Fld := ⟨R.FLT_LASTID, 0, 11⟩
abbrev CNT_SNAP_SNAP : Fld := ⟨R.CNT_SNAP, 0, 1⟩
abbrev CNT_SNAP_STAT_TAG : Fld := ⟨R.CNT_SNAP_STAT, 16, 16⟩
abbrev CNT_SNAP_STAT_PART : Fld := ⟨R.CNT_SNAP_STAT, 3, 1⟩
abbrev CNT_SNAP_STAT_DEFER : Fld := ⟨R.CNT_SNAP_STAT, 2, 1⟩
abbrev CNT_SNAP_STAT_PEND : Fld := ⟨R.CNT_SNAP_STAT, 1, 1⟩
abbrev CNT_SNAP_STAT_DONE : Fld := ⟨R.CNT_SNAP_STAT, 0, 1⟩
abbrev CNT_FRZ_FREEZE : Fld := ⟨R.CNT_FRZ, 0, 1⟩
abbrev CNT_OVF_OVF : Fld := ⟨R.CNT_OVF, 0, 8⟩
abbrev CNT_PMC_CFG_OVF_EVT (i : Nat) : Fld := ⟨R.CNT_PMC_CFG i, 31, 1⟩
abbrev CNT_PMC_CFG_U (i : Nat) : Fld := ⟨R.CNT_PMC_CFG i, 9, 1⟩
abbrev CNT_PMC_CFG_M (i : Nat) : Fld := ⟨R.CNT_PMC_CFG i, 8, 1⟩
abbrev CNT_PMC_CFG_EVT (i : Nat) : Fld := ⟨R.CNT_PMC_CFG i, 0, 5⟩
abbrev CNT_PMC_HI_COUNT (i : Nat) : Fld := ⟨R.CNT_PMC_HI i, 0, 16⟩
abbrev CNT_SMP_CFG_EN : Fld := ⟨R.CNT_SMP_CFG, 31, 1⟩
abbrev CNT_SMP_CFG_JIT : Fld := ⟨R.CNT_SMP_CFG, 24, 4⟩
abbrev CNT_SMP_CFG_N : Fld := ⟨R.CNT_SMP_CFG, 0, 24⟩
abbrev CNT_SMP_STAT_LOST : Fld := ⟨R.CNT_SMP_STAT, 16, 16⟩
abbrev CNT_SMP_STAT_COUNT : Fld := ⟨R.CNT_SMP_STAT, 0, 8⟩
abbrev CNT_SMP_ENT2_VALID : Fld := ⟨R.CNT_SMP_ENT2, 31, 1⟩
abbrev CNT_SMP_ENT2_MODE : Fld := ⟨R.CNT_SMP_ENT2, 30, 1⟩
abbrev CNT_SMP_ENT2_LAT : Fld := ⟨R.CNT_SMP_ENT2, 0, 16⟩
abbrev SLC_PM_CFG_CH23 (s : Nat) : Fld := ⟨R.SLC_PM_CFG s, 17, 1⟩
abbrev SLC_PM_CFG_CH01 (s : Nat) : Fld := ⟨R.SLC_PM_CFG s, 16, 1⟩
abbrev SLC_PM_CFG_EV3 (s : Nat) : Fld := ⟨R.SLC_PM_CFG s, 12, 4⟩
abbrev SLC_PM_CFG_EV2 (s : Nat) : Fld := ⟨R.SLC_PM_CFG s, 8, 4⟩
abbrev SLC_PM_CFG_EV1 (s : Nat) : Fld := ⟨R.SLC_PM_CFG s, 4, 4⟩
abbrev SLC_PM_CFG_EV0 (s : Nat) : Fld := ⟨R.SLC_PM_CFG s, 0, 4⟩
abbrev SLC_PM_OVF_OVF (s : Nat) : Fld := ⟨R.SLC_PM_OVF s, 0, 4⟩

end Sys2Proof.F

namespace Sys2Proof.Machine

/-! ### The table -/

/-- When a counter's holding copy is captured: never, at the internal boundary, at the lane's received boundary (R44),
with the receive side of a mapping stream (R82), or one half each (`MAP.INFLs`). -/
inductive Capture where
  | none | internal | received | mapRx | split
  deriving DecidableEq, Repr

/-- One register array: base address, two index strides with their counts, the reset word as a linear form in the two
indices, and the masks of its RW, RB, WT and RQ bits (every other bit is RO or reserved). -/
structure RegRow where
  name  : String
  base  : Nat
  s1    : Nat
  n1    : Nat
  s2    : Nat
  n2    : Nat
  reset : Nat
  r1    : Nat
  r2    : Nat
  rw    : Nat
  rb    : Nat
  wt    : Nat
  rq    : Nat
  guarded : Bool
  aon   : Bool
  cap   : Capture
  deriving DecidableEq, Repr

/-- Registers of block CLK. -/
def rowsCLK : List RegRow := [
  ⟨"CLK.CFG", 0x10030000, 0x0, 1, 0x0, 1, 0x00000000, 0x0, 0x0, 0x000000F1, 0x00000000, 0x00000000, 0x00000000, true, false, .none⟩,
  ⟨"CLK.STAT", 0x10030004, 0x0, 1, 0x0, 1, 0x00000000, 0x0, 0x0, 0x00000000, 0x00000000, 0x00000000, 0x00000000, false, false, .none⟩,
  ⟨"CLK.QNUM_LO", 0x10030008, 0x0, 1, 0x0, 1, 0x00000000, 0x0, 0x0, 0x00000000, 0x00000000, 0x00000000, 0x00000000, false, false, .none⟩,
  ⟨"CLK.QNUM_HI", 0x1003000C, 0x0, 1, 0x0, 1, 0x00000000, 0x0, 0x0, 0x00000000, 0x00000000, 0x00000000, 0x00000000, false, false, .none⟩,
  ⟨"CLK.PRESS", 0x10030010, 0x0, 1, 0x0, 1, 0x00000000, 0x0, 0x0, 0x00000000, 0x00000000, 0x0000FFFF, 0x00000000, false, false, .none⟩,
  ⟨"CLK.PRESS_STAT", 0x10030014, 0x0, 1, 0x0, 1, 0x00000000, 0x0, 0x0, 0x00000000, 0x00000000, 0x00000000, 0x00000000, false, false, .none⟩]

/-- Registers of block SPR. -/
def rowsSPR : List RegRow := [
  ⟨"SPR.ASSIGN", 0x10140004, 0x0, 1, 0x0, 1, 0x76543210, 0x0, 0x0, 0x00000000, 0x00000000, 0x00000000, 0x00000000, false, false, .none⟩,
  ⟨"SPR.CFG", 0x10140000, 0x0, 1, 0x0, 1, 0x00000114, 0x0, 0x0, 0x0000011F, 0x00000000, 0x00000000, 0x00000000, true, false, .none⟩,
  ⟨"SPR.CTRL", 0x10140008, 0x0, 1, 0x0, 1, 0x00000000, 0x0, 0x0, 0x00000007, 0x00000000, 0x00000030, 0x00000000, true, false, .none⟩,
  ⟨"SPR.STAT", 0x1014000C, 0x0, 1, 0x0, 1, 0x0008F0E0, 0x0, 0x0, 0x00000000, 0x00000000, 0x00000000, 0x00000000, false, false, .none⟩,
  ⟨"SPR.DEG", 0x10140010, 0x0, 1, 0x0, 1, 0x00000000, 0x0, 0x0, 0x00000000, 0x00000000, 0x00000000, 0x00000000, false, false, .none⟩,
  ⟨"SPR.RET", 0x10140014, 0x0, 1, 0x0, 1, 0x0000000F, 0x0, 0x0, 0x0000000F, 0x00000000, 0x00000000, 0x00000000, true, true, .none⟩,
  ⟨"SPR.ROTQ", 0x10140018, 0x0, 1, 0x0, 1, 0x00000000, 0x0, 0x0, 0x00000000, 0x00000000, 0x00000000, 0x00000000, false, false, .none⟩,
  ⟨"SPR.SWAPS", 0x10140020, 0x0, 1, 0x0, 1, 0x00000000, 0x0, 0x0, 0x00000000, 0x00000000, 0x00000000, 0x00000000, false, false, .internal⟩,
  ⟨"SPR.ROTS", 0x10140024, 0x0, 1, 0x0, 1, 0x00000000, 0x0, 0x0, 0x00000000, 0x00000000, 0x00000000, 0x00000000, false, false, .internal⟩,
  ⟨"SPR.ABORTS", 0x10140028, 0x0, 1, 0x0, 1, 0x00000000, 0x0, 0x0, 0x00000000, 0x00000000, 0x00000000, 0x00000000, false, false, .internal⟩,
  ⟨"SPR.UNDOS", 0x1014002C, 0x0, 1, 0x0, 1, 0x00000000, 0x0, 0x0, 0x00000000, 0x00000000, 0x00000000, 0x00000000, false, false, .internal⟩,
  ⟨"SPR.MISMATCHES", 0x10140030, 0x0, 1, 0x0, 1, 0x00000000, 0x0, 0x0, 0x00000000, 0x00000000, 0x00000000, 0x00000000, false, false, .internal⟩,
  ⟨"SPR.FORCED", 0x10140034, 0x0, 1, 0x0, 1, 0x00000000, 0x0, 0x0, 0x00000000, 0x00000000, 0x00000000, 0x00000000, false, false, .internal⟩]

/-- Registers of block HST. -/
def rowsHST : List RegRow := [
  ⟨"HST.POL", 0x10040000, 0x0, 1, 0x0, 1, 0x00000000, 0x0, 0x0, 0x00000000, 0xFFFFFFFF, 0x00000000, 0x00000000, false, false, .none⟩,
  ⟨"HST.CFG", 0x10040004, 0x0, 1, 0x0, 1, 0x00000000, 0x0, 0x0, 0x00000001, 0x00000000, 0x00000000, 0x00000000, false, false, .none⟩,
  ⟨"HST.LSTAT", 0x10040008, 0x0, 1, 0x0, 1, 0x00000000, 0x0, 0x0, 0x00000000, 0x00000000, 0x00000000, 0x00000000, false, false, .none⟩]

/-- Registers of block MAP. -/
def rowsMAP : List RegRow := [
  ⟨"MAP.MODE", 0x10050000, 0x0, 1, 0x0, 1, 0x00000002, 0x0, 0x0, 0x00000000, 0x00000037, 0x00000000, 0x00000000, false, false, .none⟩,
  ⟨"MAP.STAT", 0x10050004, 0x0, 1, 0x0, 1, 0x00000000, 0x0, 0x0, 0x00000000, 0x00000000, 0x00000000, 0x00000000, false, false, .none⟩,
  ⟨"MAP.REMAPn", 0x10050010, 0x4, 8, 0x0, 1, 0x00001010, 0x2222, 0x0, 0x00000000, 0x0000FFFF, 0x00000000, 0x00000000, false, false, .none⟩,
  ⟨"MAP.TX_CW_INs_LO", 0x10051000, 0x40, 16, 0x0, 1, 0x00000000, 0x0, 0x0, 0x00000000, 0x00000000, 0x00000000, 0x00000000, false, false, .internal⟩,
  ⟨"MAP.TX_CW_INs_HI", 0x10051004, 0x40, 16, 0x0, 1, 0x00000000, 0x0, 0x0, 0x00000000, 0x00000000, 0x00000000, 0x00000000, false, false, .internal⟩,
  ⟨"MAP.TX_CW_SENTs_LO", 0x10051008, 0x40, 16, 0x0, 1, 0x00000000, 0x0, 0x0, 0x00000000, 0x00000000, 0x00000000, 0x00000000, false, false, .internal⟩,
  ⟨"MAP.TX_CW_SENTs_HI", 0x1005100C, 0x40, 16, 0x0, 1, 0x00000000, 0x0, 0x0, 0x00000000, 0x00000000, 0x00000000, 0x00000000, false, false, .internal⟩,
  ⟨"MAP.TX_LEAF_OUTs_LO", 0x10051010, 0x40, 16, 0x0, 1, 0x00000000, 0x0, 0x0, 0x00000000, 0x00000000, 0x00000000, 0x00000000, false, false, .internal⟩,
  ⟨"MAP.TX_LEAF_OUTs_HI", 0x10051014, 0x40, 16, 0x0, 1, 0x00000000, 0x0, 0x0, 0x00000000, 0x00000000, 0x00000000, 0x00000000, false, false, .internal⟩,
  ⟨"MAP.TX_DISCs_LO", 0x10051018, 0x40, 16, 0x0, 1, 0x00000000, 0x0, 0x0, 0x00000000, 0x00000000, 0x00000000, 0x00000000, false, false, .internal⟩,
  ⟨"MAP.TX_DISCs_HI", 0x1005101C, 0x40, 16, 0x0, 1, 0x00000000, 0x0, 0x0, 0x00000000, 0x00000000, 0x00000000, 0x00000000, false, false, .internal⟩,
  ⟨"MAP.RX_LEAF_INs_LO", 0x10051020, 0x40, 16, 0x0, 1, 0x00000000, 0x0, 0x0, 0x00000000, 0x00000000, 0x00000000, 0x00000000, false, false, .mapRx⟩,
  ⟨"MAP.RX_LEAF_INs_HI", 0x10051024, 0x40, 16, 0x0, 1, 0x00000000, 0x0, 0x0, 0x00000000, 0x00000000, 0x00000000, 0x00000000, false, false, .mapRx⟩,
  ⟨"MAP.RX_LEAF_DLVs_LO", 0x10051028, 0x40, 16, 0x0, 1, 0x00000000, 0x0, 0x0, 0x00000000, 0x00000000, 0x00000000, 0x00000000, false, false, .mapRx⟩,
  ⟨"MAP.RX_LEAF_DLVs_HI", 0x1005102C, 0x40, 16, 0x0, 1, 0x00000000, 0x0, 0x0, 0x00000000, 0x00000000, 0x00000000, 0x00000000, false, false, .mapRx⟩,
  ⟨"MAP.RX_CW_OUTs_LO", 0x10051030, 0x40, 16, 0x0, 1, 0x00000000, 0x0, 0x0, 0x00000000, 0x00000000, 0x00000000, 0x00000000, false, false, .mapRx⟩,
  ⟨"MAP.RX_CW_OUTs_HI", 0x10051034, 0x40, 16, 0x0, 1, 0x00000000, 0x0, 0x0, 0x00000000, 0x00000000, 0x00000000, 0x00000000, false, false, .mapRx⟩,
  ⟨"MAP.RX_DISCs_LO", 0x10051038, 0x40, 16, 0x0, 1, 0x00000000, 0x0, 0x0, 0x00000000, 0x00000000, 0x00000000, 0x00000000, false, false, .mapRx⟩,
  ⟨"MAP.RX_DISCs_HI", 0x1005103C, 0x40, 16, 0x0, 1, 0x00000000, 0x0, 0x0, 0x00000000, 0x00000000, 0x00000000, 0x00000000, false, false, .mapRx⟩,
  ⟨"MAP.INFLs", 0x10051400, 0x4, 16, 0x0, 1, 0x00000000, 0x0, 0x0, 0x00000000, 0x00000000, 0x00000000, 0x00000000, false, false, .split⟩,
  ⟨"MAP.TXDISCs_c", 0x10051800, 0x40, 16, 0x4, 8, 0x00000000, 0x0, 0x0, 0x00000000, 0x00000000, 0x00000000, 0x00000000, false, false, .internal⟩,
  ⟨"MAP.RXDISCs_c", 0x10051820, 0x40, 16, 0x4, 8, 0x00000000, 0x0, 0x0, 0x00000000, 0x00000000, 0x00000000, 0x00000000, false, false, .mapRx⟩]

/-- Registers of block FEC. -/
def rowsFEC : List RegRow := [
  ⟨"FEC.CFG", 0x10060000, 0x0, 1, 0x0, 1, 0x00000000, 0x0, 0x0, 0x00000000, 0x0000FFFF, 0x00000000, 0x00000000, false, false, .none⟩,
  ⟨"FEC.STAT", 0x10060004, 0x0, 1, 0x0, 1, 0x00000000, 0x0, 0x0, 0x00000000, 0x00000000, 0x00000000, 0x00000000, false, false, .none⟩,
  ⟨"FEC.SYMh_LO", 0x10060100, 0x8, 16, 0x0, 1, 0x00000000, 0x0, 0x0, 0x00000000, 0x00000000, 0x00000000, 0x00000000, false, false, .internal⟩,
  ⟨"FEC.SYMh_HI", 0x10060104, 0x8, 16, 0x0, 1, 0x00000000, 0x0, 0x0, 0x00000000, 0x00000000, 0x00000000, 0x00000000, false, false, .internal⟩,
  ⟨"FEC.CWs_LO", 0x10061000, 0x80, 16, 0x0, 1, 0x00000000, 0x0, 0x0, 0x00000000, 0x00000000, 0x00000000, 0x00000000, false, false, .internal⟩,
  ⟨"FEC.CWs_HI", 0x10061004, 0x80, 16, 0x0, 1, 0x00000000, 0x0, 0x0, 0x00000000, 0x00000000, 0x00000000, 0x00000000, false, false, .internal⟩,
  ⟨"FEC.UNCORRs_LO", 0x10061008, 0x80, 16, 0x0, 1, 0x00000000, 0x0, 0x0, 0x00000000, 0x00000000, 0x00000000, 0x00000000, false, false, .internal⟩,
  ⟨"FEC.UNCORRs_HI", 0x1006100C, 0x80, 16, 0x0, 1, 0x00000000, 0x0, 0x0, 0x00000000, 0x00000000, 0x00000000, 0x00000000, false, false, .internal⟩,
  ⟨"FEC.BINk_s", 0x10061010, 0x80, 16, 0x4, 16, 0x00000000, 0x0, 0x0, 0x00000000, 0x00000000, 0x00000000, 0x00000000, false, false, .internal⟩]

/-- Registers of block LANE. -/
def rowsLANE : List RegRow := [
  ⟨"LANE.FMT_CFGn", 0x10110100, 0x1000, 8, 0x0, 1, 0x00000000, 0x100, 0x0, 0x00000000, 0xFFFF0703, 0x00000000, 0x00000000, false, false, .none⟩,
  ⟨"LANE.FMT_TXQn", 0x10110104, 0x1000, 8, 0x0, 1, 0x00000000, 0x0, 0x0, 0x00000000, 0x00000000, 0x00000000, 0x00000000, false, false, .none⟩,
  ⟨"LANE.FMT_STATn", 0x10110108, 0x1000, 8, 0x0, 1, 0x00000000, 0x0, 0x0, 0x00000000, 0x00000000, 0x00000000, 0x00000000, false, false, .none⟩,
  ⟨"LANE.FMT_RXIDn", 0x1011010C, 0x1000, 8, 0x0, 1, 0x00000000, 0x0, 0x0, 0x00000000, 0x00000000, 0x00000000, 0x00000000, false, false, .none⟩,
  ⟨"LANE.FMT_RXQn", 0x10110110, 0x1000, 8, 0x0, 1, 0x00000000, 0x0, 0x0, 0x00000000, 0x00000000, 0x00000000, 0x00000000, false, false, .none⟩,
  ⟨"LANE.MK_STRONGn", 0x10110120, 0x1000, 8, 0x0, 1, 0x00000000, 0x0, 0x0, 0x00000000, 0x00000000, 0x00000000, 0x00000000, false, false, .received⟩,
  ⟨"LANE.MK_WEAKn", 0x10110124, 0x1000, 8, 0x0, 1, 0x00000000, 0x0, 0x0, 0x00000000, 0x00000000, 0x00000000, 0x00000000, false, false, .received⟩,
  ⟨"LANE.MK_MISSn", 0x10110128, 0x1000, 8, 0x0, 1, 0x00000000, 0x0, 0x0, 0x00000000, 0x00000000, 0x00000000, 0x00000000, false, false, .received⟩,
  ⟨"LANE.MK_OOSn", 0x1011012C, 0x1000, 8, 0x0, 1, 0x00000000, 0x0, 0x0, 0x00000000, 0x00000000, 0x00000000, 0x00000000, false, false, .received⟩,
  ⟨"LANE.LOCK_LOSSn", 0x10110130, 0x1000, 8, 0x0, 1, 0x00000000, 0x0, 0x0, 0x00000000, 0x00000000, 0x00000000, 0x00000000, false, false, .received⟩,
  ⟨"LANE.PILOT_SYMn_LO", 0x10110138, 0x1000, 8, 0x0, 1, 0x00000000, 0x0, 0x0, 0x00000000, 0x00000000, 0x00000000, 0x00000000, false, false, .received⟩,
  ⟨"LANE.PILOT_SYMn_HI", 0x1011013C, 0x1000, 8, 0x0, 1, 0x00000000, 0x0, 0x0, 0x00000000, 0x00000000, 0x00000000, 0x00000000, false, false, .received⟩,
  ⟨"LANE.PILOT_ERRn_LO", 0x10110140, 0x1000, 8, 0x0, 1, 0x00000000, 0x0, 0x0, 0x00000000, 0x00000000, 0x00000000, 0x00000000, false, false, .received⟩,
  ⟨"LANE.PILOT_ERRn_HI", 0x10110144, 0x1000, 8, 0x0, 1, 0x00000000, 0x0, 0x0, 0x00000000, 0x00000000, 0x00000000, 0x00000000, false, false, .received⟩,
  ⟨"LANE.DEC_CFGn", 0x10110200, 0x1000, 8, 0x0, 1, 0x00000000, 0x0, 0x0, 0x00000000, 0x00000003, 0x00000000, 0x00000000, false, false, .none⟩,
  ⟨"LANE.DEC_STATn", 0x10110204, 0x1000, 8, 0x0, 1, 0x00000000, 0x0, 0x0, 0x00000000, 0x00000000, 0x00000000, 0x00000000, false, false, .none⟩,
  ⟨"LANE.FEC_INJn", 0x10110208, 0x1000, 8, 0x0, 1, 0x00000000, 0x0, 0x0, 0x00000000, 0x8DFFFFFF, 0x00000000, 0x00000000, true, false, .none⟩,
  ⟨"LANE.DEC_LEAVESn_LO", 0x10110210, 0x1000, 8, 0x0, 1, 0x00000000, 0x0, 0x0, 0x00000000, 0x00000000, 0x00000000, 0x00000000, false, false, .received⟩,
  ⟨"LANE.DEC_LEAVESn_HI", 0x10110214, 0x1000, 8, 0x0, 1, 0x00000000, 0x0, 0x0, 0x00000000, 0x00000000, 0x00000000, 0x00000000, false, false, .received⟩,
  ⟨"LANE.DEC_CLEANn_LO", 0x10110218, 0x1000, 8, 0x0, 1, 0x00000000, 0x0, 0x0, 0x00000000, 0x00000000, 0x00000000, 0x00000000, false, false, .received⟩,
  ⟨"LANE.DEC_CLEANn_HI", 0x1011021C, 0x1000, 8, 0x0, 1, 0x00000000, 0x0, 0x0, 0x00000000, 0x00000000, 0x00000000, 0x00000000, false, false, .received⟩,
  ⟨"LANE.COR_BINkn_LO", 0x10110220, 0x1000, 8, 0x8, 5, 0x00000000, 0x0, 0x0, 0x00000000, 0x00000000, 0x00000000, 0x00000000, false, false, .received⟩,
  ⟨"LANE.COR_BINkn_HI", 0x10110224, 0x1000, 8, 0x8, 5, 0x00000000, 0x0, 0x0, 0x00000000, 0x00000000, 0x00000000, 0x00000000, false, false, .received⟩,
  ⟨"LANE.DEC_CHASEn_LO", 0x10110248, 0x1000, 8, 0x0, 1, 0x00000000, 0x0, 0x0, 0x00000000, 0x00000000, 0x00000000, 0x00000000, false, false, .received⟩,
  ⟨"LANE.DEC_CHASEn_HI", 0x1011024C, 0x1000, 8, 0x0, 1, 0x00000000, 0x0, 0x0, 0x00000000, 0x00000000, 0x00000000, 0x00000000, false, false, .received⟩]

/-- Registers of block LANE. -/
def rowsLANE1 : List RegRow := [
  ⟨"LANE.DEC_UNCORRn_LO", 0x10110250, 0x1000, 8, 0x0, 1, 0x00000000, 0x0, 0x0, 0x00000000, 0x00000000, 0x00000000, 0x00000000, false, false, .received⟩,
  ⟨"LANE.DEC_UNCORRn_HI", 0x10110254, 0x1000, 8, 0x0, 1, 0x00000000, 0x0, 0x0, 0x00000000, 0x00000000, 0x00000000, 0x00000000, false, false, .received⟩,
  ⟨"LANE.DEC_CRCREJn_LO", 0x10110258, 0x1000, 8, 0x0, 1, 0x00000000, 0x0, 0x0, 0x00000000, 0x00000000, 0x00000000, 0x00000000, false, false, .received⟩,
  ⟨"LANE.DEC_CRCREJn_HI", 0x1011025C, 0x1000, 8, 0x0, 1, 0x00000000, 0x0, 0x0, 0x00000000, 0x00000000, 0x00000000, 0x00000000, false, false, .received⟩,
  ⟨"LANE.STITCH_UNCORRn", 0x10110260, 0x1000, 8, 0x0, 1, 0x00000000, 0x0, 0x0, 0x00000000, 0x00000000, 0x00000000, 0x00000000, false, false, .received⟩,
  ⟨"LANE.INJ_COUNTn", 0x10110264, 0x1000, 8, 0x0, 1, 0x00000000, 0x0, 0x0, 0x00000000, 0x00000000, 0x00000000, 0x00000000, false, false, .received⟩,
  ⟨"LANE.TX_CFGn", 0x10110300, 0x1000, 8, 0x0, 1, 0x60128008, 0x0, 0x0, 0x00000005, 0xFF73F018, 0x00000000, 0x00000000, false, false, .none⟩,
  ⟨"LANE.TX_FFE0n", 0x10110304, 0x1000, 8, 0x0, 1, 0x00400000, 0x0, 0x0, 0x00000000, 0xFFFFFFFF, 0x00000000, 0x00000000, false, false, .none⟩,
  ⟨"LANE.TX_FFE1n", 0x10110308, 0x1000, 8, 0x0, 1, 0x00000000, 0x0, 0x0, 0x00000000, 0xFFFFFFFF, 0x00000000, 0x00000000, false, false, .none⟩,
  ⟨"LANE.TX_FFE2n", 0x1011030C, 0x1000, 8, 0x0, 1, 0x00000200, 0x0, 0x0, 0x00000000, 0x00000FFF, 0x00000000, 0x00000000, false, false, .none⟩,
  ⟨"LANE.TX_STATn", 0x10110310, 0x1000, 8, 0x0, 1, 0x00000008, 0x0, 0x0, 0x00000000, 0x00000000, 0x00000000, 0x00000000, false, false, .none⟩,
  ⟨"LANE.NLTn_w", 0x10110400, 0x1000, 8, 0x4, 64, 0x03020100, 0x0, 0x4040404, 0xFFFFFFFF, 0x00000000, 0x00000000, 0x00000000, false, false, .none⟩,
  ⟨"LANE.TONE_CFGn", 0x10110500, 0x1000, 8, 0x0, 1, 0x00000000, 0x0, 0x0, 0x00000000, 0xFFFF7F03, 0x00000000, 0x00000000, false, false, .none⟩,
  ⟨"LANE.TONE_FTWn", 0x10110504, 0x1000, 8, 0x0, 1, 0x00000000, 0x0, 0x0, 0x00000000, 0xFFFFFFFF, 0x00000000, 0x00000000, false, false, .none⟩,
  ⟨"LANE.TX_SATn", 0x10110320, 0x1000, 8, 0x0, 1, 0x00000000, 0x0, 0x0, 0x00000000, 0x00000000, 0x00000000, 0x00000000, false, false, .internal⟩,
  ⟨"LANE.TX_QFLTn", 0x10110324, 0x1000, 8, 0x0, 1, 0x00000000, 0x0, 0x0, 0x00000000, 0x00000000, 0x00000000, 0x00000000, false, false, .internal⟩,
  ⟨"LANE.TX_MAJORn_LO", 0x10110328, 0x1000, 8, 0x0, 1, 0x00000000, 0x0, 0x0, 0x00000000, 0x00000000, 0x00000000, 0x00000000, false, false, .internal⟩,
  ⟨"LANE.TX_MAJORn_HI", 0x1011032C, 0x1000, 8, 0x0, 1, 0x00000000, 0x0, 0x0, 0x00000000, 0x00000000, 0x00000000, 0x00000000, false, false, .internal⟩,
  ⟨"LANE.RX_AFEn", 0x10110600, 0x1000, 8, 0x0, 1, 0x00080301, 0x0, 0x0, 0x00000000, 0x000F0701, 0x00000000, 0x00000000, false, false, .none⟩,
  ⟨"LANE.RX_AFE_STATn", 0x10110604, 0x1000, 8, 0x0, 1, 0x00000830, 0x0, 0x0, 0x00000000, 0x00000000, 0x00000000, 0x00000000, false, false, .none⟩,
  ⟨"LANE.RX_PHCFGn", 0x10110608, 0x1000, 8, 0x0, 1, 0x00000000, 0x0, 0x0, 0x00000100, 0x0000003F, 0x00000000, 0x00000000, false, false, .none⟩,
  ⟨"LANE.RX_PHSTATn", 0x1011060C, 0x1000, 8, 0x0, 1, 0x00000000, 0x0, 0x0, 0x00000000, 0x00000000, 0x00000000, 0x00000000, false, false, .none⟩,
  ⟨"LANE.ADC_CFGn", 0x10110610, 0x1000, 8, 0x0, 1, 0x00100100, 0x0, 0x0, 0x00000002, 0x00FF0101, 0x00000000, 0x00000000, false, false, .none⟩,
  ⟨"LANE.ADC_STATn", 0x10110614, 0x1000, 8, 0x0, 1, 0x40400000, 0x0, 0x0, 0x00000000, 0x00000000, 0x00000000, 0x00000000, false, false, .none⟩,
  ⟨"LANE.RX_LVLn", 0x10110618, 0x1000, 8, 0x0, 1, 0x00000000, 0x0, 0x0, 0x00000000, 0x00000000, 0x00000000, 0x00000000, false, false, .none⟩]

/-- Registers of block LANE. -/
def rowsLANE2 : List RegRow := [
  ⟨"LANE.ADC_CSKEWn", 0x1011061C, 0x1000, 8, 0x0, 1, 0x00000000, 0x0, 0x0, 0x000000FF, 0x00000000, 0x00000000, 0x00000000, false, false, .none⟩,
  ⟨"LANE.ADC_RETn", 0x10110630, 0x1000, 8, 0x0, 1, 0x00007F7F, 0x0, 0x0, 0x00007F7F, 0x00000000, 0x00000000, 0x00000000, true, true, .none⟩,
  ⟨"LANE.ADC_TRIMn_c_u", 0x10110800, 0x1000, 8, 0x4, 65, 0x00000000, 0x0, 0x0, 0x3F03FFFF, 0x00000000, 0x00000000, 0x00000000, false, false, .none⟩,
  ⟨"LANE.ADC_TRIMn_c_u", 0x10110A00, 0x1000, 8, 0x4, 65, 0x00000000, 0x0, 0x0, 0x3F03FFFF, 0x00000000, 0x00000000, 0x00000000, false, false, .none⟩,
  ⟨"LANE.ADC_CLIPn_LO", 0x10110620, 0x1000, 8, 0x0, 1, 0x00000000, 0x0, 0x0, 0x00000000, 0x00000000, 0x00000000, 0x00000000, false, false, .received⟩,
  ⟨"LANE.ADC_CLIPn_HI", 0x10110624, 0x1000, 8, 0x0, 1, 0x00000000, 0x0, 0x0, 0x00000000, 0x00000000, 0x00000000, 0x00000000, false, false, .received⟩,
  ⟨"LANE.ADC_ROTn", 0x10110628, 0x1000, 8, 0x0, 1, 0x00000000, 0x0, 0x0, 0x00000000, 0x00000000, 0x00000000, 0x00000000, false, false, .received⟩,
  ⟨"LANE.ADC_UFLTn", 0x1011062C, 0x1000, 8, 0x0, 1, 0x00000000, 0x0, 0x0, 0x00000000, 0x00000000, 0x00000000, 0x00000000, false, false, .received⟩,
  ⟨"LANE.EQ_CFGn", 0x10110700, 0x1000, 8, 0x0, 1, 0x6A0C0003, 0x0, 0x0, 0x00000000, 0xFF3F0003, 0x00000000, 0x00000000, false, false, .none⟩,
  ⟨"LANE.AGC_CFGn", 0x10110704, 0x1000, 8, 0x0, 1, 0x7868410B, 0x0, 0x0, 0x00000000, 0xFFFFFF0F, 0x00000000, 0x00000000, false, false, .none⟩,
  ⟨"LANE.MLSE_CFGn", 0x10110708, 0x1000, 8, 0x0, 1, 0x20608A00, 0x0, 0x0, 0x00000000, 0xFFFFFF00, 0x00000000, 0x00000000, false, false, .none⟩,
  ⟨"LANE.TR_CFGn", 0x1011070C, 0x1000, 8, 0x0, 1, 0x00008E00, 0x0, 0x0, 0x00000000, 0x0000FF00, 0x00000000, 0x00000000, false, false, .none⟩,
  ⟨"LANE.ACQ_CFGn", 0x10110710, 0x1000, 8, 0x0, 1, 0x00A02440, 0x0, 0x0, 0x00000000, 0x0FFFFFFF, 0x00000000, 0x00000000, false, false, .none⟩,
  ⟨"LANE.EQ_CTRLn", 0x10110714, 0x1000, 8, 0x0, 1, 0x00000000, 0x0, 0x0, 0x00000102, 0x00000000, 0x00000011, 0x00000000, false, false, .none⟩,
  ⟨"LANE.EQ_STATn", 0x10110718, 0x1000, 8, 0x0, 1, 0x03000000, 0x0, 0x0, 0x00000000, 0x00000000, 0x00000000, 0x00000000, false, false, .none⟩,
  ⟨"LANE.EQ_MSEn", 0x1011071C, 0x1000, 8, 0x0, 1, 0x00000000, 0x0, 0x0, 0x00000000, 0x00000000, 0x00000000, 0x00000000, false, false, .none⟩,
  ⟨"LANE.ACQ_LASTn", 0x10110720, 0x1000, 8, 0x0, 1, 0x00000000, 0x0, 0x0, 0x00000000, 0x00000000, 0x00000000, 0x00000000, false, false, .none⟩,
  ⟨"LANE.EQ_PREn_k", 0x10110C00, 0x1000, 8, 0x4, 12, 0x00000000, 0x0, 0x0, 0x000003FF, 0x00000000, 0x00000000, 0x00000000, false, false, .none⟩,
  ⟨"LANE.EQ_PREn_k", 0x10110C30, 0x1000, 8, 0x4, 1, 0x00000180, 0x0, 0x0, 0x000003FF, 0x00000000, 0x00000000, 0x00000000, false, false, .none⟩,
  ⟨"LANE.EQ_PREn_k", 0x10110C34, 0x1000, 8, 0x4, 35, 0x00000000, 0x0, 0x0, 0x000003FF, 0x00000000, 0x00000000, 0x00000000, false, false, .none⟩,
  ⟨"LANE.EQ_PRE_MLSEn", 0x10110CC0, 0x1000, 8, 0x0, 1, 0x10F00000, 0x0, 0x0, 0xFFFF00FF, 0x00000000, 0x00000000, 0x00000000, false, false, .none⟩,
  ⟨"LANE.EQ_PRE_TRn", 0x10110CC4, 0x1000, 8, 0x0, 1, 0x00000800, 0x0, 0x0, 0xFFFF0F3F, 0x00000000, 0x00000000, 0x00000000, false, false, .none⟩,
  ⟨"LANE.ACQ_STARTn", 0x10110724, 0x1000, 8, 0x0, 1, 0x00000000, 0x0, 0x0, 0x00000000, 0x00000000, 0x00000000, 0x00000000, false, false, .received⟩,
  ⟨"LANE.ACQ_DONEn", 0x10110728, 0x1000, 8, 0x0, 1, 0x00000000, 0x0, 0x0, 0x00000000, 0x00000000, 0x00000000, 0x00000000, false, false, .received⟩,
  ⟨"LANE.ACQ_TOn", 0x1011072C, 0x1000, 8, 0x0, 1, 0x00000000, 0x0, 0x0, 0x00000000, 0x00000000, 0x00000000, 0x00000000, false, false, .received⟩]

/-- Registers of block LANE. -/
def rowsLANE3 : List RegRow := [
  ⟨"LANE.AGC_STEPn", 0x10110730, 0x1000, 8, 0x0, 1, 0x00000000, 0x0, 0x0, 0x00000000, 0x00000000, 0x00000000, 0x00000000, false, false, .received⟩,
  ⟨"LANE.SIG_LOSSn", 0x10110734, 0x1000, 8, 0x0, 1, 0x00000000, 0x0, 0x0, 0x00000000, 0x00000000, 0x00000000, 0x00000000, false, false, .received⟩,
  ⟨"LANE.DAC_TRIMn", 0x10110340, 0x1000, 8, 0x0, 1, 0x00000000, 0x0, 0x0, 0x3F03FFFF, 0x00000000, 0x00000000, 0x00000000, false, false, .none⟩]

/-- Registers of block CAL. -/
def rowsCAL : List RegRow := [
  ⟨"CAL.CAP_CFG", 0x1013F000, 0x0, 1, 0x0, 1, 0x00000000, 0x0, 0x0, 0xF7FFFFFF, 0x00000000, 0x00000000, 0x00000000, false, false, .none⟩,
  ⟨"CAL.CAP_QNUM", 0x1013F004, 0x0, 1, 0x0, 1, 0x00000000, 0x0, 0x0, 0xFFFFFFFF, 0x00000000, 0x00000000, 0x00000000, false, false, .none⟩,
  ⟨"CAL.CAP_POST", 0x1013F008, 0x0, 1, 0x0, 1, 0x00000000, 0x0, 0x0, 0x000003FF, 0x00000000, 0x00000000, 0x00000000, false, false, .none⟩,
  ⟨"CAL.CAP_CTRL", 0x1013F00C, 0x0, 1, 0x0, 1, 0x00000000, 0x0, 0x0, 0x00000000, 0x00000000, 0x00000003, 0x00000000, false, false, .none⟩,
  ⟨"CAL.CAP_STAT", 0x1013F010, 0x0, 1, 0x0, 1, 0x00000000, 0x0, 0x0, 0x00000000, 0x00000000, 0x00000000, 0x00000000, false, false, .none⟩,
  ⟨"CAL.CAP_TQ", 0x1013F014, 0x0, 1, 0x0, 1, 0x00000000, 0x0, 0x0, 0x00000000, 0x00000000, 0x00000000, 0x00000000, false, false, .none⟩,
  ⟨"CAL.CAP_TPOS", 0x1013F018, 0x0, 1, 0x0, 1, 0x00000000, 0x0, 0x0, 0x00000000, 0x00000000, 0x00000000, 0x00000000, false, false, .none⟩,
  ⟨"CAL.CFGn", 0x10130000, 0x100, 8, 0x0, 1, 0xA893100F, 0x0, 0x0, 0x00000000, 0xFFFFFF0F, 0x00000000, 0x00000000, false, false, .none⟩,
  ⟨"CAL.TOLn", 0x10130004, 0x100, 8, 0x0, 1, 0x04082220, 0x0, 0x0, 0x00000000, 0xFFFFFFF0, 0x00000000, 0x00000000, false, false, .none⟩,
  ⟨"CAL.CMDn", 0x10130008, 0x100, 8, 0x0, 1, 0x00000000, 0x0, 0x0, 0x00000000, 0x00000000, 0x0000001F, 0x00000000, false, false, .none⟩,
  ⟨"CAL.CTRLn", 0x1013000C, 0x100, 8, 0x0, 1, 0x00000000, 0x0, 0x0, 0x00000003, 0x00000000, 0x00000000, 0x00000000, false, false, .none⟩,
  ⟨"CAL.STATn", 0x10130010, 0x100, 8, 0x0, 1, 0x00000000, 0x0, 0x0, 0x00000000, 0x00000000, 0x00000000, 0x00000000, false, false, .none⟩,
  ⟨"CAL.TEMPn", 0x10130014, 0x100, 8, 0x0, 1, 0x00000000, 0x0, 0x0, 0x00000000, 0x00000000, 0x00000000, 0x00000000, false, false, .none⟩,
  ⟨"CAL.TGTn", 0x10130018, 0x100, 8, 0x0, 1, 0x00000055, 0x0, 0x0, 0x00000000, 0x000000FF, 0x00000000, 0x00000000, false, false, .none⟩,
  ⟨"CAL.TREFn_i", 0x10130060, 0x100, 8, 0x4, 4, 0x00000000, 0x0, 0x0, 0x000007FF, 0x00000000, 0x00000000, 0x00000000, false, false, .none⟩,
  ⟨"CAL.LASTQn_i_LO", 0x10130020, 0x100, 8, 0x8, 4, 0x00000000, 0x0, 0x0, 0x00000000, 0x00000000, 0x00000000, 0x00000000, false, false, .internal⟩,
  ⟨"CAL.LASTQn_i_HI", 0x10130024, 0x100, 8, 0x8, 4, 0x00000000, 0x0, 0x0, 0x00000000, 0x00000000, 0x00000000, 0x00000000, false, false, .internal⟩,
  ⟨"CAL.RUNSn_i", 0x10130040, 0x100, 8, 0x4, 4, 0x00000000, 0x0, 0x0, 0x00000000, 0x00000000, 0x00000000, 0x00000000, false, false, .internal⟩,
  ⟨"CAL.REJn_i", 0x10130050, 0x100, 8, 0x4, 4, 0x00000000, 0x0, 0x0, 0x00000000, 0x00000000, 0x00000000, 0x00000000, false, false, .internal⟩]

/-- Registers of block BRL. -/
def rowsBRL : List RegRow := [
  ⟨"BRL.CFGn", 0x10120000, 0x100, 8, 0x0, 1, 0x00A00001, 0x0, 0x0, 0x00000000, 0x8FFF0001, 0x00000000, 0x00000000, false, false, .none⟩,
  ⟨"BRL.NEXTn", 0x10120004, 0x100, 8, 0x0, 1, 0x00000000, 0x0, 0x0, 0x0003FFFF, 0x00000000, 0x00000000, 0x00000000, false, false, .none⟩,
  ⟨"BRL.CURn", 0x10120008, 0x100, 8, 0x0, 1, 0x00000000, 0x0, 0x0, 0x00000000, 0x00000000, 0x00000000, 0x00000000, false, false, .none⟩,
  ⟨"BRL.STATn", 0x1012000C, 0x100, 8, 0x0, 1, 0x00000000, 0x0, 0x0, 0x00000000, 0x00000000, 0x00000000, 0x00000000, false, false, .none⟩,
  ⟨"BRL.RB_IDXn", 0x10120010, 0x100, 8, 0x0, 1, 0x00000000, 0x0, 0x0, 0x0000003F, 0x00000000, 0x00000000, 0x00000000, false, false, .none⟩,
  ⟨"BRL.LAST_RLn", 0x10120014, 0x100, 8, 0x0, 1, 0x00000000, 0x0, 0x0, 0x00000000, 0x00000000, 0x00000000, 0x00000000, false, false, .none⟩,
  ⟨"BRL.RB_HDRn", 0x10120040, 0x100, 8, 0x0, 1, 0x00000000, 0x0, 0x0, 0xFFF0FFFF, 0x00000000, 0x00000000, 0x00000000, false, false, .none⟩,
  ⟨"BRL.RB_MLSEn", 0x10120044, 0x100, 8, 0x0, 1, 0x00000000, 0x0, 0x0, 0xFFFF00FF, 0x00000000, 0x00000000, 0x00000000, false, false, .none⟩,
  ⟨"BRL.RB_TAPn_j", 0x10120048, 0x100, 8, 0x4, 16, 0x00000000, 0x0, 0x0, 0x3FFFFFFF, 0x00000000, 0x00000000, 0x00000000, false, false, .none⟩,
  ⟨"BRL.RELOCKn", 0x10120020, 0x100, 8, 0x0, 1, 0x00000000, 0x0, 0x0, 0x00000000, 0x00000000, 0x00000000, 0x00000000, false, false, .received⟩,
  ⟨"BRL.HITn", 0x10120024, 0x100, 8, 0x0, 1, 0x00000000, 0x0, 0x0, 0x00000000, 0x00000000, 0x00000000, 0x00000000, false, false, .received⟩,
  ⟨"BRL.MISSn", 0x10120028, 0x100, 8, 0x0, 1, 0x00000000, 0x0, 0x0, 0x00000000, 0x00000000, 0x00000000, 0x00000000, false, false, .received⟩,
  ⟨"BRL.FALLBACKn", 0x1012002C, 0x100, 8, 0x0, 1, 0x00000000, 0x0, 0x0, 0x00000000, 0x00000000, 0x00000000, 0x00000000, false, false, .received⟩,
  ⟨"BRL.RESTARTn", 0x10120030, 0x100, 8, 0x0, 1, 0x00000000, 0x0, 0x0, 0x00000000, 0x00000000, 0x00000000, 0x00000000, false, false, .received⟩,
  ⟨"BRL.COLLn", 0x10120034, 0x100, 8, 0x0, 1, 0x00000000, 0x0, 0x0, 0x00000000, 0x00000000, 0x00000000, 0x00000000, false, false, .received⟩,
  ⟨"BRL.SRC_MISn", 0x10120038, 0x100, 8, 0x0, 1, 0x00000000, 0x0, 0x0, 0x00000000, 0x00000000, 0x00000000, 0x00000000, false, false, .received⟩,
  ⟨"BRL.DARKn", 0x1012003C, 0x100, 8, 0x0, 1, 0x00000000, 0x0, 0x0, 0x00000000, 0x00000000, 0x00000000, 0x00000000, false, false, .received⟩,
  ⟨"BRL.LEARNn", 0x10120090, 0x100, 8, 0x0, 1, 0x00000000, 0x0, 0x0, 0x00000000, 0x00000000, 0x00000000, 0x00000000, false, false, .received⟩]

/-- Registers of block MSH. -/
def rowsMSH : List RegRow := [
  ⟨"MSH.CFG", 0x10150000, 0x0, 1, 0x0, 1, 0xFF4AA000, 0x0, 0x0, 0xFFFFF000, 0x00000000, 0x00000000, 0x00000000, false, false, .none⟩,
  ⟨"MSH.ADDR", 0x10150004, 0x0, 1, 0x0, 1, 0x00000000, 0x0, 0x0, 0x8000FFFF, 0x00000000, 0x00000000, 0x00000000, true, false, .none⟩,
  ⟨"MSH.ADDR_STAT", 0x10150008, 0x0, 1, 0x0, 1, 0x00000000, 0x0, 0x0, 0x00000000, 0x00000000, 0x00000000, 0x00000000, false, false, .none⟩,
  ⟨"MSH.DEVID_LO", 0x1015000C, 0x0, 1, 0x0, 1, 0x00000000, 0x0, 0x0, 0x00000000, 0x00000000, 0x00000000, 0x00000000, false, false, .none⟩,
  ⟨"MSH.DEVID_HI", 0x10150010, 0x0, 1, 0x0, 1, 0x00000000, 0x0, 0x0, 0x00000000, 0x00000000, 0x00000000, 0x00000000, false, false, .none⟩,
  ⟨"MSH.TSTAT", 0x10150014, 0x0, 1, 0x0, 1, 0xC0F00000, 0x0, 0x0, 0x00000000, 0x00000000, 0x00000000, 0x00000000, false, false, .none⟩,
  ⟨"MSH.ROOT_LO", 0x10150018, 0x0, 1, 0x0, 1, 0x00000000, 0x0, 0x0, 0x00000000, 0x00000000, 0x00000000, 0x00000000, false, false, .none⟩,
  ⟨"MSH.ROOT_HI", 0x1015001C, 0x0, 1, 0x0, 1, 0x00000000, 0x0, 0x0, 0x00000000, 0x00000000, 0x00000000, 0x00000000, false, false, .none⟩,
  ⟨"MSH.TERR", 0x10150020, 0x0, 1, 0x0, 1, 0x00000000, 0x0, 0x0, 0x00000000, 0x00000000, 0x00000000, 0x00000000, false, false, .none⟩,
  ⟨"MSH.SCHEDk_Q_LO", 0x10150040, 0x10, 2, 0x0, 1, 0x00000000, 0x0, 0x0, 0xFFFFFFFF, 0x00000000, 0x00000000, 0x00000000, false, false, .none⟩,
  ⟨"MSH.SCHEDk_Q_HI", 0x10150044, 0x10, 2, 0x0, 1, 0x00000000, 0x0, 0x0, 0x0000FFFF, 0x00000000, 0x00000000, 0x00000000, false, false, .none⟩,
  ⟨"MSH.SCHEDk_CTRL", 0x10150048, 0x10, 2, 0x0, 1, 0x00000000, 0x0, 0x0, 0x0001FFFF, 0x00000000, 0x80000000, 0x00000000, false, false, .none⟩,
  ⟨"MSH.RA_CFG", 0x10150060, 0x0, 1, 0x0, 1, 0x00000001, 0x0, 0x0, 0x00000003, 0x00000000, 0x00000000, 0x00000000, true, false, .none⟩,
  ⟨"MSH.RA_WMASK", 0x10150064, 0x0, 1, 0x0, 1, 0x00000000, 0x0, 0x0, 0xFFFFFFFF, 0x00000000, 0x00000000, 0x00000000, true, false, .none⟩,
  ⟨"MSH.NBRn_STAT", 0x10150100, 0x10, 8, 0x0, 1, 0x00000000, 0x0, 0x0, 0x00000000, 0x00000000, 0x00000000, 0x00000000, false, false, .none⟩,
  ⟨"MSH.NBRn_DEVID_LO", 0x10150104, 0x10, 8, 0x0, 1, 0x00000000, 0x0, 0x0, 0x00000000, 0x00000000, 0x00000000, 0x00000000, false, false, .none⟩,
  ⟨"MSH.NBRn_DEVID_HI", 0x10150108, 0x10, 8, 0x0, 1, 0x00000000, 0x0, 0x0, 0x00000000, 0x00000000, 0x00000000, 0x00000000, false, false, .none⟩,
  ⟨"MSH.RT_IDX", 0x10150200, 0x0, 1, 0x0, 1, 0x00000000, 0x0, 0x0, 0x000003FF, 0x00000000, 0x00000000, 0x00000000, false, false, .none⟩,
  ⟨"MSH.RT_ENT", 0x10150204, 0x0, 1, 0x0, 1, 0x00000000, 0x0, 0x0, 0x00000000, 0x00000000, 0x00000000, 0x00000000, false, false, .none⟩,
  ⟨"MSH.RT_DEVID_LO", 0x10150208, 0x0, 1, 0x0, 1, 0x00000000, 0x0, 0x0, 0x00000000, 0x00000000, 0x00000000, 0x00000000, false, false, .none⟩,
  ⟨"MSH.RT_DEVID_HI", 0x1015020C, 0x0, 1, 0x0, 1, 0x00000000, 0x0, 0x0, 0x00000000, 0x00000000, 0x00000000, 0x00000000, false, false, .none⟩,
  ⟨"MSH.TX_HDR", 0x10150300, 0x0, 1, 0x0, 1, 0x00000000, 0x0, 0x0, 0xFFFFF8FF, 0x00000000, 0x00000000, 0x00000000, false, false, .none⟩,
  ⟨"MSH.TX_CTRL", 0x10150304, 0x0, 1, 0x0, 1, 0x00000000, 0x0, 0x0, 0x00000000, 0x00000000, 0x00000001, 0x00000000, false, false, .none⟩,
  ⟨"MSH.TX_STAT", 0x10150308, 0x0, 1, 0x0, 1, 0x00000000, 0x0, 0x0, 0x00000000, 0x00000000, 0x00000000, 0x00000000, false, false, .none⟩,
  ⟨"MSH.RX_STAT", 0x10150310, 0x0, 1, 0x0, 1, 0x00000000, 0x0, 0x0, 0x00000000, 0x00000000, 0x00000000, 0x00000000, false, false, .none⟩]

/-- Registers of block MSH. -/
def rowsMSH1 : List RegRow := [
  ⟨"MSH.RX_CTRL", 0x10150314, 0x0, 1, 0x0, 1, 0x00000000, 0x0, 0x0, 0x00000000, 0x00000000, 0x00000001, 0x00000000, false, false, .none⟩,
  ⟨"MSH.TXB_w", 0x10150400, 0x4, 63, 0x0, 1, 0x00000000, 0x0, 0x0, 0xFFFFFFFF, 0x00000000, 0x00000000, 0x00000000, false, false, .none⟩,
  ⟨"MSH.RXs_HDR", 0x10151000, 0x100, 8, 0x0, 1, 0x00000000, 0x0, 0x0, 0x00000000, 0x00000000, 0x00000000, 0x00000000, false, false, .none⟩,
  ⟨"MSH.RXs_w", 0x10151004, 0x100, 8, 0x4, 63, 0x00000000, 0x0, 0x0, 0x00000000, 0x00000000, 0x00000000, 0x00000000, false, false, .none⟩,
  ⟨"MSH.TX_STn", 0x10150800, 0x20, 8, 0x0, 1, 0x00000000, 0x0, 0x0, 0x00000000, 0x00000000, 0x00000000, 0x00000000, false, false, .internal⟩,
  ⟨"MSH.RX_OKn", 0x10150804, 0x20, 8, 0x0, 1, 0x00000000, 0x0, 0x0, 0x00000000, 0x00000000, 0x00000000, 0x00000000, false, false, .internal⟩,
  ⟨"MSH.RX_LOSTn", 0x10150808, 0x20, 8, 0x0, 1, 0x00000000, 0x0, 0x0, 0x00000000, 0x00000000, 0x00000000, 0x00000000, false, false, .internal⟩,
  ⟨"MSH.RX_BADn", 0x1015080C, 0x20, 8, 0x0, 1, 0x00000000, 0x0, 0x0, 0x00000000, 0x00000000, 0x00000000, 0x00000000, false, false, .internal⟩,
  ⟨"MSH.RX_DUPn", 0x10150810, 0x20, 8, 0x0, 1, 0x00000000, 0x0, 0x0, 0x00000000, 0x00000000, 0x00000000, 0x00000000, false, false, .internal⟩,
  ⟨"MSH.RX_OVFn", 0x10150814, 0x20, 8, 0x0, 1, 0x00000000, 0x0, 0x0, 0x00000000, 0x00000000, 0x00000000, 0x00000000, false, false, .internal⟩,
  ⟨"MSH.LOCAL", 0x10150900, 0x0, 1, 0x0, 1, 0x00000000, 0x0, 0x0, 0x00000000, 0x00000000, 0x00000000, 0x00000000, false, false, .internal⟩,
  ⟨"MSH.FWD", 0x10150904, 0x0, 1, 0x0, 1, 0x00000000, 0x0, 0x0, 0x00000000, 0x00000000, 0x00000000, 0x00000000, false, false, .internal⟩,
  ⟨"MSH.NOROUTE", 0x10150908, 0x0, 1, 0x0, 1, 0x00000000, 0x0, 0x0, 0x00000000, 0x00000000, 0x00000000, 0x00000000, false, false, .internal⟩,
  ⟨"MSH.HOPLIM", 0x1015090C, 0x0, 1, 0x0, 1, 0x00000000, 0x0, 0x0, 0x00000000, 0x00000000, 0x00000000, 0x00000000, false, false, .internal⟩,
  ⟨"MSH.AGED", 0x10150910, 0x0, 1, 0x0, 1, 0x00000000, 0x0, 0x0, 0x00000000, 0x00000000, 0x00000000, 0x00000000, false, false, .internal⟩,
  ⟨"MSH.RA_SERVED", 0x10150914, 0x0, 1, 0x0, 1, 0x00000000, 0x0, 0x0, 0x00000000, 0x00000000, 0x00000000, 0x00000000, false, false, .internal⟩,
  ⟨"MSH.RA_BUSY", 0x10150918, 0x0, 1, 0x0, 1, 0x00000000, 0x0, 0x0, 0x00000000, 0x00000000, 0x00000000, 0x00000000, false, false, .internal⟩,
  ⟨"MSH.RT_FULL", 0x1015091C, 0x0, 1, 0x0, 1, 0x00000000, 0x0, 0x0, 0x00000000, 0x00000000, 0x00000000, 0x00000000, false, false, .internal⟩]

/-- Registers of block HKP. -/
def rowsHKP : List RegRow := [
  ⟨"HKP.BTGTd", 0x10160000, 0x10, 24, 0x0, 1, 0x00000000, 0x0, 0x0, 0x00003FFF, 0x00000000, 0x00000000, 0x00000000, true, false, .none⟩,
  ⟨"HKP.BCFGd", 0x10160004, 0x10, 24, 0x0, 1, 0x80000001, 0x0, 0x0, 0xBFFFFFFF, 0x00000000, 0x00000000, 0x00000000, true, false, .none⟩,
  ⟨"HKP.BDITd", 0x10160008, 0x10, 24, 0x0, 1, 0x00000000, 0x0, 0x0, 0x870000FF, 0x00000000, 0x00000000, 0x00000000, true, false, .none⟩,
  ⟨"HKP.BSTATd", 0x1016000C, 0x10, 24, 0x0, 1, 0x00000000, 0x0, 0x0, 0x00000000, 0x00000000, 0x00000000, 0x00000000, true, false, .none⟩,
  ⟨"HKP.BCTRL", 0x10160200, 0x0, 1, 0x0, 1, 0x00000000, 0x0, 0x0, 0x00000000, 0x00000000, 0x00000001, 0x00000000, true, false, .none⟩,
  ⟨"HKP.SYNC", 0x10160204, 0x0, 1, 0x0, 1, 0x00000001, 0x0, 0x0, 0x00000001, 0x00000000, 0x00000000, 0x00000000, false, false, .none⟩,
  ⟨"HKP.SEQ_CFG", 0x10160300, 0x0, 1, 0x0, 1, 0x00000000, 0x0, 0x0, 0x8000001F, 0x00000000, 0x00000000, 0x00000000, false, false, .none⟩,
  ⟨"HKP.SEQ_STAT", 0x10160304, 0x0, 1, 0x0, 1, 0x00000000, 0x0, 0x0, 0x00000000, 0x00000000, 0x00000000, 0x00000000, false, false, .none⟩,
  ⟨"HKP.UREQ", 0x10160308, 0x0, 1, 0x0, 1, 0x00000000, 0x0, 0x0, 0x0000073F, 0x00000000, 0x80000000, 0x00000000, false, false, .none⟩,
  ⟨"HKP.URES", 0x1016030C, 0x0, 1, 0x0, 1, 0x00000000, 0x0, 0x0, 0x00000000, 0x00000000, 0x00000000, 0x00000000, false, false, .none⟩,
  ⟨"HKP.SEQe", 0x10160400, 0x4, 32, 0x0, 1, 0x00000000, 0x1, 0x0, 0x0000073F, 0x00000000, 0x00000000, 0x00000000, false, false, .none⟩,
  ⟨"HKP.RESn", 0x10160500, 0x4, 32, 0x0, 1, 0x00000000, 0x0, 0x0, 0x00000000, 0x00000000, 0x00000000, 0x00000000, false, false, .none⟩,
  ⟨"HKP.LIMn", 0x10160600, 0x4, 32, 0x0, 1, 0xFFFF0000, 0x0, 0x0, 0xFFFFFFFF, 0x00000000, 0x00000000, 0x00000000, false, false, .none⟩,
  ⟨"HKP.LIMSTAT", 0x10160680, 0x0, 1, 0x0, 1, 0x00000000, 0x0, 0x0, 0x00000000, 0x00000000, 0x00000000, 0x00000000, false, false, .none⟩,
  ⟨"HKP.CONV", 0x10160700, 0x0, 1, 0x0, 1, 0x00000000, 0x0, 0x0, 0x00000000, 0x00000000, 0x00000000, 0x00000000, false, false, .internal⟩,
  ⟨"HKP.URGN", 0x10160704, 0x0, 1, 0x0, 1, 0x00000000, 0x0, 0x0, 0x00000000, 0x00000000, 0x00000000, 0x00000000, false, false, .internal⟩,
  ⟨"HKP.CFAULT", 0x10160708, 0x0, 1, 0x0, 1, 0x00000000, 0x0, 0x0, 0x00000000, 0x00000000, 0x00000000, 0x00000000, false, false, .internal⟩]

/-- Registers of block SYS. -/
def rowsSYS : List RegRow := [
  ⟨"SYS.IRQ_PEND", 0x10000040, 0x0, 1, 0x0, 1, 0x00000000, 0x0, 0x0, 0x00000000, 0x00000000, 0x00000000, 0x00000000, false, false, .none⟩,
  ⟨"SYS.IRQ_EN", 0x10000044, 0x0, 1, 0x0, 1, 0x00000000, 0x0, 0x0, 0xFFFFFFFF, 0x00000000, 0x00000000, 0x00000000, true, false, .none⟩,
  ⟨"SYS.RT", 0x10000048, 0x0, 1, 0x0, 1, 0x00000000, 0x0, 0x0, 0x00000000, 0x00000000, 0x00000001, 0x00000000, true, false, .none⟩,
  ⟨"SYS.WDT_CFG", 0x1000004C, 0x0, 1, 0x0, 1, 0x80000040, 0x0, 0x0, 0x8000FFFF, 0x00000000, 0x00000000, 0x00000000, true, true, .none⟩,
  ⟨"SYS.WDT_KICK", 0x10000050, 0x0, 1, 0x0, 1, 0x00000000, 0x0, 0x0, 0x00000000, 0x00000000, 0xFFFFFFFF, 0x00000000, true, false, .none⟩,
  ⟨"SYS.MRST", 0x10000054, 0x0, 1, 0x0, 1, 0x00000000, 0x0, 0x0, 0x00000000, 0x00000000, 0x00000000, 0x00000000, false, true, .none⟩,
  ⟨"SYS.DENY_USER", 0x10000060, 0x0, 1, 0x0, 1, 0x00000000, 0x0, 0x0, 0x00000000, 0x00000000, 0x00000000, 0x00000000, false, false, .internal⟩,
  ⟨"SYS.DENY_DMA", 0x10000064, 0x0, 1, 0x0, 1, 0x00000000, 0x0, 0x0, 0x00000000, 0x00000000, 0x00000000, 0x00000000, false, false, .internal⟩,
  ⟨"SYS.DENY_DBG", 0x10000068, 0x0, 1, 0x0, 1, 0x00000000, 0x0, 0x0, 0x00000000, 0x00000000, 0x00000000, 0x00000000, false, false, .internal⟩,
  ⟨"SYS.DENY_HOST", 0x1000006C, 0x0, 1, 0x0, 1, 0x00000000, 0x0, 0x0, 0x00000000, 0x00000000, 0x00000000, 0x00000000, false, false, .internal⟩,
  ⟨"SYS.DENY_MESH", 0x10000070, 0x0, 1, 0x0, 1, 0x00000000, 0x0, 0x0, 0x00000000, 0x00000000, 0x00000000, 0x00000000, false, false, .internal⟩,
  ⟨"SYS.DENY_ADDR", 0x10000074, 0x0, 1, 0x0, 1, 0x00000000, 0x0, 0x0, 0x00000000, 0x00000000, 0x00000000, 0x00000000, false, false, .none⟩,
  ⟨"SYS.BADACC", 0x10000078, 0x0, 1, 0x0, 1, 0x00000000, 0x0, 0x0, 0x00000000, 0x00000000, 0x00000000, 0x00000000, false, false, .internal⟩,
  ⟨"SYS.BAD_ADDR", 0x1000007C, 0x0, 1, 0x0, 1, 0x00000000, 0x0, 0x0, 0x00000000, 0x00000000, 0x00000000, 0x00000000, false, false, .none⟩,
  ⟨"SYS.ID", 0x10000000, 0x0, 1, 0x0, 1, 0x000000A1, 0x0, 0x0, 0x00000000, 0x00000000, 0x00000000, 0x00000000, false, false, .none⟩]

/-- Registers of block ECC. -/
def rowsECC : List RegRow := [
  ⟨"ECC.STAT", 0x10180000, 0x0, 1, 0x0, 1, 0x00000000, 0x0, 0x0, 0x00000000, 0x00000000, 0x00000000, 0x00000000, true, false, .none⟩,
  ⟨"ECC.ULOG", 0x10180004, 0x0, 1, 0x0, 1, 0x00000000, 0x0, 0x0, 0x00000000, 0x00000000, 0x00000000, 0xFE3FFFFF, true, false, .none⟩,
  ⟨"ECC.ULOG_LOST", 0x10180008, 0x0, 1, 0x0, 1, 0x00000000, 0x0, 0x0, 0x00000000, 0x00000000, 0x00000000, 0x00000000, true, false, .none⟩,
  ⟨"ECC.REMAP_REQ", 0x1018000C, 0x0, 1, 0x0, 1, 0x00000000, 0x0, 0x0, 0x00000000, 0x00000000, 0x0000FFFF, 0x00000000, true, false, .none⟩,
  ⟨"ECC.INJ", 0x10180010, 0x0, 1, 0x0, 1, 0x00000000, 0x0, 0x0, 0xC000FF3F, 0x00000000, 0x00000000, 0x00000000, true, false, .none⟩,
  ⟨"ECC.SCRUB_CFG", 0x10180020, 0x0, 1, 0x0, 1, 0x00000000, 0x0, 0x0, 0xC0000000, 0x00000000, 0x00000000, 0x00000000, true, false, .none⟩,
  ⟨"ECC.SCRUB_BASE", 0x10180024, 0x0, 1, 0x0, 1, 0x00000000, 0x0, 0x0, 0xFFFFFFFF, 0x00000000, 0x00000000, 0x00000000, true, false, .none⟩,
  ⟨"ECC.SCRUB_END", 0x10180028, 0x0, 1, 0x0, 1, 0x00000000, 0x0, 0x0, 0xFFFFFFFF, 0x00000000, 0x00000000, 0x00000000, true, false, .none⟩,
  ⟨"ECC.SCRUB_CTRL", 0x1018002C, 0x0, 1, 0x0, 1, 0x00000000, 0x0, 0x0, 0x00000000, 0x00000000, 0x00000003, 0x00000000, true, false, .none⟩,
  ⟨"ECC.SCRUB_STAT", 0x10180030, 0x0, 1, 0x0, 1, 0x00000000, 0x0, 0x0, 0x00000000, 0x00000000, 0x00000000, 0x00000000, true, false, .none⟩,
  ⟨"ECC.SCRUB_READ", 0x10180034, 0x0, 1, 0x0, 1, 0x00000000, 0x0, 0x0, 0x00000000, 0x00000000, 0x00000000, 0x00000000, true, false, .none⟩,
  ⟨"ECC.SCRUB_FIXED", 0x10180038, 0x0, 1, 0x0, 1, 0x00000000, 0x0, 0x0, 0x00000000, 0x00000000, 0x00000000, 0x00000000, true, false, .none⟩,
  ⟨"ECC.SCRUB_UNC", 0x1018003C, 0x0, 1, 0x0, 1, 0x00000000, 0x0, 0x0, 0x00000000, 0x00000000, 0x00000000, 0x00000000, true, false, .none⟩,
  ⟨"ECC.SCRUB_FIRST", 0x10180040, 0x0, 1, 0x0, 1, 0x00000000, 0x0, 0x0, 0x00000000, 0x00000000, 0x00000000, 0x00000000, true, false, .none⟩,
  ⟨"ECC.SCRUB_LAST", 0x10180044, 0x0, 1, 0x0, 1, 0x00000000, 0x0, 0x0, 0x00000000, 0x00000000, 0x00000000, 0x00000000, true, false, .none⟩,
  ⟨"ECC.SCRUB_CYC", 0x10180048, 0x0, 1, 0x0, 1, 0x00000000, 0x0, 0x0, 0x00000000, 0x00000000, 0x00000000, 0x00000000, true, false, .none⟩,
  ⟨"ECC.CORRm", 0x10180100, 0x10, 4, 0x0, 1, 0x00000000, 0x0, 0x0, 0x00000000, 0x00000000, 0x00000000, 0x00000000, true, false, .internal⟩,
  ⟨"ECC.UNCm", 0x10180104, 0x10, 4, 0x0, 1, 0x00000000, 0x0, 0x0, 0x00000000, 0x00000000, 0x00000000, 0x00000000, true, false, .internal⟩,
  ⟨"ECC.REMAPm", 0x10180108, 0x10, 4, 0x0, 1, 0x00000000, 0x0, 0x0, 0x00000000, 0x00000000, 0x00000000, 0x00000000, true, false, .internal⟩]

/-- Registers of block DMA. -/
def rowsDMA : List RegRow := [
  ⟨"DMA.SRCc", 0x10170000, 0x40, 8, 0x0, 1, 0x00000000, 0x0, 0x0, 0xFFFFFFFF, 0x00000000, 0x00000000, 0x00000000, false, false, .none⟩,
  ⟨"DMA.DSTc", 0x10170004, 0x40, 8, 0x0, 1, 0x00000000, 0x0, 0x0, 0xFFFFFFFF, 0x00000000, 0x00000000, 0x00000000, false, false, .none⟩,
  ⟨"DMA.COUNTc", 0x10170008, 0x40, 8, 0x0, 1, 0x00000000, 0x0, 0x0, 0x00FFFFFF, 0x00000000, 0x00000000, 0x00000000, false, false, .none⟩,
  ⟨"DMA.CFGc", 0x1017000C, 0x40, 8, 0x0, 1, 0x00000000, 0x0, 0x0, 0x001F338F, 0x00000000, 0x00000000, 0x00000000, false, false, .none⟩,
  ⟨"DMA.CTRLc", 0x10170010, 0x40, 8, 0x0, 1, 0x00000000, 0x0, 0x0, 0x00000000, 0x00000000, 0x00000007, 0x00000000, false, false, .none⟩,
  ⟨"DMA.STATc", 0x10170014, 0x40, 8, 0x0, 1, 0x00000000, 0x0, 0x0, 0x00000000, 0x00000000, 0x00000000, 0x00000000, false, false, .none⟩,
  ⟨"DMA.NSRCc", 0x10170018, 0x40, 8, 0x0, 1, 0x00000000, 0x0, 0x0, 0xFFFFFFFF, 0x00000000, 0x00000000, 0x00000000, false, false, .none⟩,
  ⟨"DMA.NDSTc", 0x1017001C, 0x40, 8, 0x0, 1, 0x00000000, 0x0, 0x0, 0xFFFFFFFF, 0x00000000, 0x00000000, 0x00000000, false, false, .none⟩,
  ⟨"DMA.NCOUNTc", 0x10170020, 0x40, 8, 0x0, 1, 0x00000000, 0x0, 0x0, 0x00FFFFFF, 0x00000000, 0x00000000, 0x00000000, false, false, .none⟩,
  ⟨"DMA.ERR_ADDRc", 0x10170024, 0x40, 8, 0x0, 1, 0x00000000, 0x0, 0x0, 0x00000000, 0x00000000, 0x00000000, 0x00000000, false, false, .none⟩,
  ⟨"DMA.ACTIVE", 0x10170400, 0x0, 1, 0x0, 1, 0x0000000F, 0x0, 0x0, 0x00000000, 0x00000000, 0x00000000, 0x00000000, false, false, .none⟩,
  ⟨"DMA.DONEc", 0x10170500, 0x10, 8, 0x0, 1, 0x00000000, 0x0, 0x0, 0x00000000, 0x00000000, 0x00000000, 0x00000000, false, false, .internal⟩,
  ⟨"DMA.ERRc", 0x10170504, 0x10, 8, 0x0, 1, 0x00000000, 0x0, 0x0, 0x00000000, 0x00000000, 0x00000000, 0x00000000, false, false, .internal⟩,
  ⟨"DMA.REQ_LOSTc", 0x10170508, 0x10, 8, 0x0, 1, 0x00000000, 0x0, 0x0, 0x00000000, 0x00000000, 0x00000000, 0x00000000, false, false, .internal⟩]

/-- Registers of block MGT. -/
def rowsMGT : List RegRow := [
  ⟨"MGT.STAT", 0x101B0000, 0x0, 1, 0x0, 1, 0x00000000, 0x0, 0x0, 0x00000000, 0x00000000, 0x00000000, 0x00000000, false, false, .none⟩,
  ⟨"MGT.WCTRL", 0x101B0004, 0x0, 1, 0x0, 1, 0x00000000, 0x0, 0x0, 0x00000000, 0x00000000, 0x00000003, 0x00000000, true, false, .none⟩,
  ⟨"MGT.WPEND", 0x101B0008, 0x0, 1, 0x0, 1, 0x00000000, 0x0, 0x0, 0x00000000, 0x00000000, 0x00000000, 0x00000000, false, false, .none⟩,
  ⟨"MGT.CFG", 0x101B000C, 0x0, 1, 0x0, 1, 0x00000016, 0x0, 0x0, 0x0000001F, 0x00000000, 0x00000000, 0x00000000, true, false, .none⟩]

/-- Registers of block PWR. -/
def rowsPWR : List RegRow := [
  ⟨"PWR.STAT", 0x10010000, 0x0, 1, 0x0, 1, 0x60000000, 0x0, 0x0, 0x00000000, 0x00000000, 0x00000000, 0x00000000, false, false, .none⟩,
  ⟨"PWR.DOM", 0x10010004, 0x0, 1, 0x0, 1, 0x00C00000, 0x0, 0x0, 0x00000000, 0x00000000, 0x00000000, 0x00000000, false, false, .none⟩,
  ⟨"PWR.CTRL", 0x10010008, 0x0, 1, 0x0, 1, 0x00000000, 0x0, 0x0, 0x00000000, 0x00000000, 0x00000001, 0x00000000, true, false, .none⟩,
  ⟨"PWR.SBY_CFG", 0x1001000C, 0x0, 1, 0x0, 1, 0x00010403, 0x0, 0x0, 0x00010F0F, 0x00000000, 0x00000000, 0x00000000, true, false, .none⟩,
  ⟨"PWR.SBY_STAT", 0x10010010, 0x0, 1, 0x0, 1, 0x00000000, 0x0, 0x0, 0x00000000, 0x00000000, 0x00000000, 0x00000000, false, false, .none⟩,
  ⟨"PWR.WAKE_TX", 0x10010014, 0x0, 1, 0x0, 1, 0x00000000, 0x0, 0x0, 0x00000000, 0x00000000, 0x000000FF, 0x00000000, false, false, .none⟩,
  ⟨"PWR.LANE_STAT", 0x10010018, 0x0, 1, 0x0, 1, 0x00000000, 0x0, 0x0, 0x00000000, 0x00000000, 0x00000000, 0x00000000, false, false, .none⟩,
  ⟨"PWR.LANE_CFGn", 0x10010020, 0x4, 8, 0x0, 1, 0x00A01401, 0x0, 0x0, 0x00000000, 0x0FFF1F33, 0x00000000, 0x00000000, false, false, .none⟩,
  ⟨"PWR.RTC_SUB", 0x10010040, 0x0, 1, 0x0, 1, 0x00000000, 0x0, 0x0, 0x00000000, 0x00000000, 0x00000000, 0x00000000, false, true, .none⟩,
  ⟨"PWR.RTC_SEC_LO", 0x10010044, 0x0, 1, 0x0, 1, 0x00000000, 0x0, 0x0, 0x00000000, 0x00000000, 0x00000000, 0x00000000, false, true, .none⟩,
  ⟨"PWR.RTC_SEC_HI", 0x10010048, 0x0, 1, 0x0, 1, 0x00000000, 0x0, 0x0, 0x00000000, 0x00000000, 0x00000000, 0x00000000, false, true, .none⟩,
  ⟨"PWR.RTC_SET_LO", 0x1001004C, 0x0, 1, 0x0, 1, 0x00000000, 0x0, 0x0, 0xFFFFFFFF, 0x00000000, 0x00000000, 0x00000000, true, true, .none⟩,
  ⟨"PWR.RTC_SET_HI", 0x10010050, 0x0, 1, 0x0, 1, 0x00000000, 0x0, 0x0, 0x0000FFFF, 0x00000000, 0x00000000, 0x00000000, true, true, .none⟩,
  ⟨"PWR.RTC_CTRL", 0x10010054, 0x0, 1, 0x0, 1, 0x00000000, 0x0, 0x0, 0x00000002, 0x00000000, 0x00000001, 0x00000000, true, true, .none⟩,
  ⟨"PWR.RTC_ALM_LO", 0x10010058, 0x0, 1, 0x0, 1, 0x00000000, 0x0, 0x0, 0xFFFFFFFF, 0x00000000, 0x00000000, 0x00000000, false, true, .none⟩,
  ⟨"PWR.RTC_ALM_HI", 0x1001005C, 0x0, 1, 0x0, 1, 0x00000000, 0x0, 0x0, 0x0000FFFF, 0x00000000, 0x00000000, 0x00000000, false, true, .none⟩,
  ⟨"PWR.AVS_CFG", 0x10010060, 0x0, 1, 0x0, 1, 0x00000000, 0x0, 0x0, 0x0000000F, 0x00000000, 0x00000000, 0x00000000, true, false, .none⟩,
  ⟨"PWR.AVS_VSET", 0x10010064, 0x0, 1, 0x0, 1, 0x000002EE, 0x0, 0x0, 0x000003FF, 0x00000000, 0x00000000, 0x00000000, true, false, .none⟩,
  ⟨"PWR.AVS_STAT", 0x10010068, 0x0, 1, 0x0, 1, 0x000002EE, 0x0, 0x0, 0x00000000, 0x00000000, 0x00000000, 0x00000000, false, false, .none⟩,
  ⟨"PWR.SBY_REFUSE", 0x10010080, 0x0, 1, 0x0, 1, 0x00000000, 0x0, 0x0, 0x00000000, 0x00000000, 0x00000000, 0x00000000, false, false, .internal⟩,
  ⟨"PWR.SBY_FORCED", 0x10010084, 0x0, 1, 0x0, 1, 0x00000000, 0x0, 0x0, 0x00000000, 0x00000000, 0x00000000, 0x00000000, false, false, .internal⟩,
  ⟨"PWR.DOZES", 0x10010088, 0x0, 1, 0x0, 1, 0x00000000, 0x0, 0x0, 0x00000000, 0x00000000, 0x00000000, 0x00000000, false, false, .internal⟩,
  ⟨"PWR.WAKES", 0x1001008C, 0x0, 1, 0x0, 1, 0x00000000, 0x0, 0x0, 0x00000000, 0x00000000, 0x00000000, 0x00000000, false, false, .internal⟩,
  ⟨"PWR.AVS_TO", 0x10010090, 0x0, 1, 0x0, 1, 0x00000000, 0x0, 0x0, 0x00000000, 0x00000000, 0x00000000, 0x00000000, false, false, .internal⟩,
  ⟨"PWR.MAIN_LOSS", 0x10010094, 0x0, 1, 0x0, 1, 0x00000000, 0x0, 0x0, 0x00000000, 0x00000000, 0x00000000, 0x00000000, false, true, .internal⟩]

/-- Registers of block THM. -/
def rowsTHM : List RegRow := [
  ⟨"THM.CFG", 0x10020000, 0x0, 1, 0x0, 1, 0x766C6438, 0x0, 0x0, 0x00000000, 0xFFFFFFFF, 0x00000000, 0x00000000, true, false, .none⟩,
  ⟨"THM.GRACE", 0x10020004, 0x0, 1, 0x0, 1, 0x000000BA, 0x0, 0x0, 0x00000000, 0x0000FFFF, 0x00000000, 0x00000000, true, false, .none⟩,
  ⟨"THM.STAT", 0x10020008, 0x0, 1, 0x0, 1, 0x00000000, 0x0, 0x0, 0x00000000, 0x00000000, 0x00000000, 0x00000000, false, false, .none⟩,
  ⟨"THM.EXCL", 0x1002000C, 0x0, 1, 0x0, 1, 0x00000000, 0x0, 0x0, 0x00000000, 0x00000000, 0x00000000, 0x00000000, false, false, .none⟩,
  ⟨"THM.Tk", 0x10020040, 0x4, 16, 0x0, 1, 0x00000000, 0x0, 0x0, 0x00000000, 0x00000000, 0x00000000, 0x00000000, false, false, .none⟩,
  ⟨"THM.WARNS", 0x10020100, 0x0, 1, 0x0, 1, 0x00000000, 0x0, 0x0, 0x00000000, 0x00000000, 0x00000000, 0x00000000, false, false, .internal⟩,
  ⟨"THM.REQS", 0x10020104, 0x0, 1, 0x0, 1, 0x00000000, 0x0, 0x0, 0x00000000, 0x00000000, 0x00000000, 0x00000000, false, false, .internal⟩,
  ⟨"THM.ENFS", 0x10020108, 0x0, 1, 0x0, 1, 0x00000000, 0x0, 0x0, 0x00000000, 0x00000000, 0x00000000, 0x00000000, false, false, .internal⟩,
  ⟨"THM.SHUTS", 0x1002010C, 0x0, 1, 0x0, 1, 0x00000000, 0x0, 0x0, 0x00000000, 0x00000000, 0x00000000, 0x00000000, false, false, .internal⟩,
  ⟨"THM.SBAD", 0x10020110, 0x0, 1, 0x0, 1, 0x00000000, 0x0, 0x0, 0x00000000, 0x00000000, 0x00000000, 0x00000000, false, false, .internal⟩]

/-- Registers of block SEC. -/
def rowsSEC : List RegRow := [
  ⟨"SEC.LC", 0x101C0000, 0x0, 1, 0x0, 1, 0x00000000, 0x0, 0x0, 0x00000000, 0x00000000, 0x00000000, 0x00000000, true, false, .none⟩,
  ⟨"SEC.LC_REQ", 0x101C0004, 0x0, 1, 0x0, 1, 0x00000000, 0x0, 0x0, 0x00000007, 0x00000000, 0x80000000, 0x00000000, true, false, .none⟩,
  ⟨"SEC.BOOTSTAT", 0x101C0008, 0x0, 1, 0x0, 1, 0x00000000, 0x0, 0x0, 0x00000000, 0x00000000, 0x00000000, 0x00000000, true, false, .none⟩,
  ⟨"SEC.CTRL", 0x101C000C, 0x0, 1, 0x0, 1, 0x00000000, 0x0, 0x0, 0x00000000, 0x00000000, 0x00000007, 0x00000000, true, false, .none⟩,
  ⟨"SEC.ROLL", 0x101C0010, 0x0, 1, 0x0, 1, 0x00000000, 0x0, 0x0, 0x00000000, 0x00000000, 0x00000000, 0x00000000, true, false, .none⟩,
  ⟨"SEC.CFGREC", 0x101C0014, 0x0, 1, 0x0, 1, 0x00000000, 0x0, 0x0, 0x00000000, 0x00000000, 0x00000000, 0x00000000, true, false, .none⟩,
  ⟨"SEC.CFGERR", 0x101C0018, 0x0, 1, 0x0, 1, 0x00000000, 0x0, 0x0, 0x00000000, 0x00000000, 0x00000000, 0x00000000, true, false, .none⟩,
  ⟨"SEC.VCMD", 0x101C0020, 0x0, 1, 0x0, 1, 0x00000010, 0x0, 0x0, 0x00000031, 0x00000000, 0x80000000, 0x00000000, true, false, .none⟩,
  ⟨"SEC.VSTAT", 0x101C0024, 0x0, 1, 0x0, 1, 0x00000000, 0x0, 0x0, 0x00000000, 0x00000000, 0x00000000, 0x00000000, true, false, .none⟩,
  ⟨"SEC.KEYSTAT", 0x101C0028, 0x0, 1, 0x0, 1, 0x00000000, 0x0, 0x0, 0x00000000, 0x00000000, 0x00000000, 0x00000000, true, false, .none⟩,
  ⟨"SEC.ENROL", 0x101C002C, 0x0, 1, 0x0, 1, 0x00000000, 0x0, 0x0, 0x00000003, 0x00000000, 0x80000000, 0x00000000, true, false, .none⟩,
  ⟨"SEC.KEYBUFw", 0x101C0030, 0x4, 8, 0x0, 1, 0x00000000, 0x0, 0x0, 0xFFFFFFFF, 0x00000000, 0x00000000, 0x00000000, true, false, .none⟩,
  ⟨"SEC.ATT_CTRL", 0x101C0060, 0x0, 1, 0x0, 1, 0x00000000, 0x0, 0x0, 0x00000000, 0x00000000, 0x00000001, 0x00000000, true, false, .none⟩,
  ⟨"SEC.ATT_ADDR", 0x101C0064, 0x0, 1, 0x0, 1, 0x00000000, 0x0, 0x0, 0xFFFFFFFF, 0x00000000, 0x00000000, 0x00000000, true, false, .none⟩,
  ⟨"SEC.ATT_STAT", 0x101C0068, 0x0, 1, 0x0, 1, 0x00000000, 0x0, 0x0, 0x00000000, 0x00000000, 0x00000000, 0x00000000, true, false, .none⟩,
  ⟨"SEC.ATT_NONCEw", 0x101C0070, 0x4, 8, 0x0, 1, 0x00000000, 0x0, 0x0, 0xFFFFFFFF, 0x00000000, 0x00000000, 0x00000000, true, false, .none⟩,
  ⟨"SEC.ATT_PKw", 0x101C0090, 0x4, 16, 0x0, 1, 0x00000000, 0x0, 0x0, 0x00000000, 0x00000000, 0x00000000, 0x00000000, true, false, .none⟩,
  ⟨"SEC.JNL_Wk", 0x101C0100, 0x4, 64, 0x0, 1, 0x00000000, 0x0, 0x0, 0xFFFFFFFF, 0x00000000, 0x00000000, 0x00000000, true, false, .none⟩,
  ⟨"SEC.JNL_PAGE", 0x101C0200, 0x0, 1, 0x0, 1, 0x00000000, 0x0, 0x0, 0x0000001F, 0x00000000, 0x00000000, 0x00000000, true, false, .none⟩,
  ⟨"SEC.JNL_CMD", 0x101C0204, 0x0, 1, 0x0, 1, 0x00000000, 0x0, 0x0, 0x00000000, 0x00000000, 0x00000001, 0x00000000, true, false, .none⟩,
  ⟨"SEC.JNL_STAT", 0x101C0208, 0x0, 1, 0x0, 1, 0x00000000, 0x0, 0x0, 0x00000000, 0x00000000, 0x00000000, 0x00000000, true, true, .none⟩]

/-- Registers of block NVM. -/
def rowsNVM : List RegRow := [
  ⟨"NVM.ADDR_LO", 0x101D0000, 0x0, 1, 0x0, 1, 0x00000000, 0x0, 0x0, 0xFFFFFFFF, 0x00000000, 0x00000000, 0x00000000, true, false, .none⟩,
  ⟨"NVM.ADDR_HI", 0x101D0004, 0x0, 1, 0x0, 1, 0x00000100, 0x0, 0x0, 0x0000011F, 0x00000000, 0x00000000, 0x00000000, true, false, .none⟩,
  ⟨"NVM.LEN", 0x101D0008, 0x0, 1, 0x0, 1, 0x00000000, 0x0, 0x0, 0x00FFFFFF, 0x00000000, 0x00000000, 0x00000000, true, false, .none⟩,
  ⟨"NVM.CMD", 0x101D000C, 0x0, 1, 0x0, 1, 0x00000000, 0x0, 0x0, 0x00000013, 0x00000000, 0xC0000000, 0x00000000, true, false, .none⟩,
  ⟨"NVM.STAT", 0x101D0010, 0x0, 1, 0x0, 1, 0x00000000, 0x0, 0x0, 0x00000000, 0x00000000, 0x00000000, 0x00000000, true, false, .none⟩,
  ⟨"NVM.BUDGET", 0x101D0014, 0x0, 1, 0x0, 1, 0x00000000, 0x0, 0x0, 0x00000000, 0x00000000, 0x00000000, 0x00000000, true, false, .none⟩,
  ⟨"NVM.USED", 0x101D0018, 0x0, 1, 0x0, 1, 0x00000000, 0x0, 0x0, 0x00000000, 0x00000000, 0x00000000, 0x00000000, true, false, .none⟩,
  ⟨"NVM.WIN_LEFT", 0x101D001C, 0x0, 1, 0x0, 1, 0x00015180, 0x0, 0x0, 0x00000000, 0x00000000, 0x00000000, 0x00000000, true, false, .none⟩,
  ⟨"NVM.RBUFw", 0x101D0100, 0x4, 31, 0x0, 1, 0x00000000, 0x0, 0x0, 0x00000000, 0x00000000, 0x00000000, 0x00000000, true, false, .none⟩,
  ⟨"NVM.RBUF31", 0x101D017C, 0x0, 1, 0x0, 1, 0x00000000, 0x0, 0x0, 0x00000000, 0x00000000, 0x00000000, 0xFFFFFFFF, true, false, .none⟩,
  ⟨"NVM.WBUFw", 0x101D0200, 0x4, 32, 0x0, 1, 0x00000000, 0x0, 0x0, 0xFFFFFFFF, 0x00000000, 0x00000000, 0x00000000, true, false, .none⟩]

/-- Registers of block BST. -/
def rowsBST : List RegRow := [
  ⟨"BST.CFG", 0x10190000, 0x0, 1, 0x0, 1, 0x0000000F, 0x0, 0x0, 0x000000FF, 0x00000000, 0x00000000, 0x00000000, true, false, .none⟩,
  ⟨"BST.STAT", 0x10190004, 0x0, 1, 0x0, 1, 0x00000000, 0x0, 0x0, 0x00000000, 0x00000000, 0x00000000, 0x00000000, true, false, .none⟩,
  ⟨"BST.MCMD", 0x10190008, 0x0, 1, 0x0, 1, 0x00000000, 0x0, 0x0, 0x33FF03FF, 0x00000000, 0x80000000, 0x00000000, true, false, .none⟩,
  ⟨"BST.MSTAT", 0x1019000C, 0x0, 1, 0x0, 1, 0x00000000, 0x0, 0x0, 0x00000000, 0x00000000, 0x00000000, 0x00000000, true, false, .none⟩,
  ⟨"BST.LEXP", 0x10190010, 0x0, 1, 0x0, 1, 0x00400000, 0x0, 0x0, 0x00000000, 0x00000000, 0x00000000, 0x00000000, true, true, .none⟩,
  ⟨"BST.SRESs", 0x10190020, 0x4, 9, 0x0, 1, 0x40400000, 0x0, 0x0, 0x00000000, 0x00000000, 0x00000000, 0x00000000, true, true, .none⟩,
  ⟨"BST.MRES", 0x10190050, 0x0, 1, 0x0, 1, 0x00000000, 0x0, 0x0, 0x00000000, 0x00000000, 0x00000000, 0x00000000, true, false, .none⟩,
  ⟨"BST.FULL", 0x10190060, 0x0, 1, 0x0, 1, 0x00000000, 0x0, 0x0, 0x00000000, 0x00000000, 0x80000000, 0x00000000, true, false, .none⟩,
  ⟨"BST.FULLRES", 0x10190064, 0x0, 1, 0x0, 1, 0x00000000, 0x0, 0x0, 0x00000000, 0x00000000, 0x00000000, 0x00000000, true, false, .none⟩]

/-- Registers of block FLT. -/
def rowsFLT : List RegRow := [
  ⟨"FLT.CLSc", 0x101E0000, 0x0, 1, 0x0, 1, 0x14000008, 0x0, 0x0, 0x1F00FFFF, 0x00000000, 0x00000000, 0x00000000, true, true, .none⟩,
  ⟨"FLT.CLSc", 0x101E0004, 0x0, 1, 0x0, 1, 0x0A000400, 0x0, 0x0, 0x1F00FFFF, 0x00000000, 0x00000000, 0x00000000, true, true, .none⟩,
  ⟨"FLT.CLSc", 0x101E0008, 0x0, 1, 0x0, 1, 0x14000004, 0x0, 0x0, 0x1F00FFFF, 0x00000000, 0x00000000, 0x00000000, true, true, .none⟩,
  ⟨"FLT.CLSc", 0x101E000C, 0x0, 1, 0x0, 1, 0x14000010, 0x0, 0x0, 0x1F00FFFF, 0x00000000, 0x00000000, 0x00000000, true, true, .none⟩,
  ⟨"FLT.CLSc", 0x101E0010, 0x0, 1, 0x0, 1, 0x14000040, 0x0, 0x0, 0x1F00FFFF, 0x00000000, 0x00000000, 0x00000000, true, true, .none⟩,
  ⟨"FLT.CLSc", 0x101E0014, 0x0, 1, 0x0, 1, 0x14000010, 0x0, 0x0, 0x1F00FFFF, 0x00000000, 0x00000000, 0x00000000, true, true, .none⟩,
  ⟨"FLT.CLSc", 0x101E0018, 0x0, 1, 0x0, 1, 0x18000002, 0x0, 0x0, 0x1F00FFFF, 0x00000000, 0x00000000, 0x00000000, true, true, .none⟩,
  ⟨"FLT.CLSc", 0x101E001C, 0x0, 1, 0x0, 1, 0x16000003, 0x0, 0x0, 0x1F00FFFF, 0x00000000, 0x00000000, 0x00000000, true, true, .none⟩,
  ⟨"FLT.CLSc", 0x101E0020, 0x0, 1, 0x0, 1, 0x14000003, 0x0, 0x0, 0x1F00FFFF, 0x00000000, 0x00000000, 0x00000000, true, true, .none⟩,
  ⟨"FLT.CLSc", 0x101E0024, 0x0, 1, 0x0, 1, 0x14000004, 0x0, 0x0, 0x1F00FFFF, 0x00000000, 0x00000000, 0x00000000, true, true, .none⟩,
  ⟨"FLT.CLSc", 0x101E0028, 0x0, 1, 0x0, 1, 0x14000003, 0x0, 0x0, 0x1F00FFFF, 0x00000000, 0x00000000, 0x00000000, true, true, .none⟩,
  ⟨"FLT.CLSc", 0x101E002C, 0x0, 1, 0x0, 1, 0x10000004, 0x0, 0x0, 0x1F00FFFF, 0x00000000, 0x00000000, 0x00000000, true, true, .none⟩,
  ⟨"FLT.CLSc", 0x101E0030, 0x0, 1, 0x0, 1, 0x14000004, 0x0, 0x0, 0x1F00FFFF, 0x00000000, 0x00000000, 0x00000000, true, true, .none⟩,
  ⟨"FLT.SEL", 0x101E0080, 0x0, 1, 0x0, 1, 0x00000000, 0x0, 0x0, 0x001F07FF, 0x00000000, 0x00000000, 0x00000000, true, true, .none⟩,
  ⟨"FLT.LVL", 0x101E0084, 0x0, 1, 0x0, 1, 0x00000000, 0x0, 0x0, 0x00000000, 0x00000000, 0x00000000, 0x00000000, true, true, .none⟩,
  ⟨"FLT.LSUM", 0x101E0088, 0x0, 1, 0x0, 1, 0x00000000, 0x0, 0x0, 0x00000000, 0x00000000, 0x00000000, 0x00000000, true, true, .none⟩,
  ⟨"FLT.LASTID", 0x101E008C, 0x0, 1, 0x0, 1, 0x00000000, 0x0, 0x0, 0x00000000, 0x00000000, 0x00000000, 0x00000000, true, true, .none⟩,
  ⟨"FLT.LASTc", 0x101E0100, 0x4, 13, 0x0, 1, 0x00000000, 0x0, 0x0, 0x00000000, 0x00000000, 0x00000000, 0x00000000, true, true, .internal⟩]

/-- Registers of block CNT. -/
def rowsCNT : List RegRow := [
  ⟨"CNT.SNAP", 0x101A0000, 0x0, 1, 0x0, 1, 0x00000000, 0x0, 0x0, 0x00000000, 0x00000000, 0x00000001, 0x00000000, false, false, .none⟩,
  ⟨"CNT.SNAP_STAT", 0x101A0004, 0x0, 1, 0x0, 1, 0x00000000, 0x0, 0x0, 0x00000000, 0x00000000, 0x00000000, 0x00000000, false, false, .none⟩,
  ⟨"CNT.SNAP_Q", 0x101A0008, 0x0, 1, 0x0, 1, 0x00000000, 0x0, 0x0, 0x00000000, 0x00000000, 0x00000000, 0x00000000, false, false, .none⟩,
  ⟨"CNT.FRZ", 0x101A0010, 0x0, 1, 0x0, 1, 0x00000000, 0x0, 0x0, 0x00000001, 0x00000000, 0x00000000, 0x00000000, true, false, .none⟩,
  ⟨"CNT.OVF", 0x101A0014, 0x0, 1, 0x0, 1, 0x00000000, 0x0, 0x0, 0x00000000, 0x00000000, 0x00000000, 0x00000000, true, false, .none⟩,
  ⟨"CNT.CYC_LO", 0x101A0020, 0x0, 1, 0x0, 1, 0x00000000, 0x0, 0x0, 0x00000000, 0x00000000, 0x00000000, 0x00000000, true, false, .internal⟩,
  ⟨"CNT.CYC_HI", 0x101A0024, 0x0, 1, 0x0, 1, 0x00000000, 0x0, 0x0, 0x00000000, 0x00000000, 0x00000000, 0x00000000, true, false, .internal⟩,
  ⟨"CNT.PMCi_CFG", 0x101A0040, 0x10, 8, 0x0, 1, 0x00000300, 0x0, 0x0, 0x8000031F, 0x00000000, 0x00000000, 0x00000000, true, false, .none⟩,
  ⟨"CNT.PMCi_LO", 0x101A0044, 0x10, 8, 0x0, 1, 0x00000000, 0x0, 0x0, 0xFFFFFFFF, 0x00000000, 0x00000000, 0x00000000, true, false, .internal⟩,
  ⟨"CNT.PMCi_HI", 0x101A0048, 0x10, 8, 0x0, 1, 0x00000000, 0x0, 0x0, 0x0000FFFF, 0x00000000, 0x00000000, 0x00000000, true, false, .internal⟩,
  ⟨"CNT.SMP_CFG", 0x101A0100, 0x0, 1, 0x0, 1, 0x04001000, 0x0, 0x0, 0x8FFFFFFF, 0x00000000, 0x00000000, 0x00000000, true, false, .none⟩,
  ⟨"CNT.SMP_STAT", 0x101A0104, 0x0, 1, 0x0, 1, 0x00000000, 0x0, 0x0, 0x00000000, 0x00000000, 0x00000000, 0x00000000, true, false, .none⟩,
  ⟨"CNT.SMP_ENT0", 0x101A0108, 0x0, 1, 0x0, 1, 0x00000000, 0x0, 0x0, 0x00000000, 0x00000000, 0x00000000, 0x00000000, true, false, .none⟩,
  ⟨"CNT.SMP_ENT1", 0x101A010C, 0x0, 1, 0x0, 1, 0x00000000, 0x0, 0x0, 0x00000000, 0x00000000, 0x00000000, 0x00000000, true, false, .none⟩,
  ⟨"CNT.SMP_ENT2", 0x101A0110, 0x0, 1, 0x0, 1, 0x00000000, 0x0, 0x0, 0x00000000, 0x00000000, 0x00000000, 0xC000FFFF, true, false, .none⟩]

/-- Registers of block SLCs. -/
def rowsSLC : List RegRow := [
  ⟨"SLCs.PM_CFG", 0x10080000, 0x10000, 9, 0x0, 1, 0x00000000, 0x0, 0x0, 0x00000000, 0x0003FFFF, 0x00000000, 0x00000000, true, false, .none⟩,
  ⟨"SLCs.PM_OVF", 0x10080004, 0x10000, 9, 0x0, 1, 0x00000000, 0x0, 0x0, 0x00000000, 0x00000000, 0x00000000, 0x00000000, true, false, .none⟩,
  ⟨"SLCs.PMCk", 0x10080010, 0x10000, 9, 0x4, 4, 0x00000000, 0x0, 0x0, 0xFFFFFFFF, 0x00000000, 0x00000000, 0x00000000, true, false, .internal⟩]

/-- The registers of the block whose 64 KiB are the `p`-th of the map, but the event registers of R531, which the bus
answers itself (R696). -/
def blockRows (p : Nat) : List RegRow :=
  if p = 0x1000 then rowsSYS
  else if p = 0x1001 then rowsPWR
  else if p = 0x1002 then rowsTHM
  else if p = 0x1003 then rowsCLK
  else if p = 0x1004 then rowsHST
  else if p = 0x1005 then rowsMAP
  else if p = 0x1006 then rowsFEC
  else if p = 0x1011 then rowsLANE ++ rowsLANE1 ++ rowsLANE2 ++ rowsLANE3
  else if p = 0x1012 then rowsBRL
  else if p = 0x1013 then rowsCAL
  else if p = 0x1014 then rowsSPR
  else if p = 0x1015 then rowsMSH ++ rowsMSH1
  else if p = 0x1016 then rowsHKP
  else if p = 0x1017 then rowsDMA
  else if p = 0x1018 then rowsECC
  else if p = 0x1019 then rowsBST
  else if p = 0x101A then rowsCNT
  else if p = 0x101B then rowsMGT
  else if p = 0x101C then rowsSEC
  else if p = 0x101D then rowsNVM
  else if p = 0x101E then rowsFLT
  else if 0x1008 ≤ p ∧ p ≤ 0x1010 then rowsSLC else []

/-- First addresses of the LO words whose read latches the HI word that follows (R28, R81, R338, R678). -/
def latchBases : List Nat := [
  0x10030008, 0x10060100, 0x10061000, 0x10061008, 0x10051000, 0x10051008, 0x10051010, 0x10051018, 0x10051020, 0x10051028, 0x10051030, 0x10051038, 0x10110138, 0x10110140, 0x10110210, 0x10110218, 0x10110220, 0x10110248, 0x10110250, 0x10110258, 0x10110328, 0x10110620, 0x10130020, 0x101A0020, 0x101A0044]


end Sys2Proof.Machine
end

