-- ==== Sys2Proof/Machine/State.lean ====
section
/-! DEFINITION. The state of the part: plain data. Register words live in `Cells`, a canonical list of the words that
differ from their reset value; what no register shows is held in the structures below, chapter by chapter. -/

namespace Sys2Proof.Machine

/-- Register words by address, strictly rising, none equal to what an unlisted address reads as. -/
abbrev Cells := List (Nat × Word)

/-! ### Events (R526) -/

/-- One entry of an event queue: CODE, LANE and QLOW. -/
structure Ev where
  code : BitVec 8
  lane : BitVec 4
  qlow : BitVec 20
  deriving DecidableEq, Repr

/-- The event queue of one block: at most 16 entries, oldest first, and `blk.EVLOST` (R529). -/
structure EvQ where
  q    : List Ev
  lost : Word
  deriving DecidableEq, Repr

/-- An event raised within the command under way, not yet queued. -/
structure Raise where
  blk  : Nat
  code : Nat
  lane : Nat
  deriving DecidableEq, Repr

/-! ### Clocks and the boundary (chapter 1) -/

/-- What the host PLL locks to (R18, R19, R21). -/
inductive PllSource where
  | refclk | lane | holdover
  deriving DecidableEq, Repr

structure Clk where
  /-- The device quire number (R15) and its mesh-time fraction (R410). -/
  qnum : BitVec 48
  frac : BitVec 16
  /-- Mesh time at the tick before the last, in time units: an arrival before the last tick is on its scale (R413). -/
  was : BitVec 64
  source : PllSource
  /-- `CLK.CFG` as applied at the last entry to ACTIVE (R20). -/
  cfg : Word
  /-- The timing lane has been recovered once since the data path entered ACTIVE (R22). -/
  seen : Bool
  /-- Quires counted toward the next host-clock check (R23). -/
  refQ : Nat
  /-- Quires of the present run of 15 in which the compatibility clock, 123,904/15 clocks a quire, takes whole clocks
  (R17). -/
  compatQ : Nat
  deriving DecidableEq, Repr

/-! ### Host lanes and mapping (chapter 2) -/

/-- What a host transmit lane sends (R50, R55), the patterns of its generator among it (R47). -/
inductive HostTx where
  | idle | prbs31q | data | prbs13q | ssprq
  deriving DecidableEq, Repr

/-- The pattern checker of a host receive lane (R47): its generator, the bits that have seeded it, and the bits compared since it
was set going, with those in error. -/
structure PatternCheck where
  reg : BitVec 31
  seen : Nat
  errs : Nat
  bits : Nat
  deriving DecidableEq, Repr

structure HostSt where
  /-- The lane's pattern checker (R47). -/
  check : PatternCheck
  /-- PRBS31 fill generator of a lost lane (R53). -/
  fill : BitVec 31
  /-- Received bits held by the codeword unit in progress (R68), bits left to the end of the running unit, and bits left to
  the codeword boundary that the lane takes as its own once it is reached (R69). -/
  rxBits : Nat
  rxLeft : Nat
  rxAlign : Option Nat
  /-- Transmitted bits of the codeword unit in progress toward the host. -/
  txBits : Nat
  tx : HostTx
  /-- The host bits last handed to the lane's transmitter, in the order sent, its polarity applied (R56, R97). -/
  out : List Bool
  deriving DecidableEq, Repr

structure StreamSt where
  /-- Consecutive valid and invalid alignment-marker sets (R67). -/
  valid : Nat
  invalid : Nat
  deriving DecidableEq, Repr

/-! ### One optical lane (chapters 3 to 9) -/

/-- What a transmitted slot's codes were formed with: levels, FFE words, table, tone and output state. -/
structure TxSlot where
  levels : List Int
  ffe    : List Word
  byp    : Bool
  nlt    : List Word
  mode   : Nat
  amp    : Nat
  ftw    : BitVec 32
  acc    : BitVec 32
  wake   : Option Nat
  quiet  : Bool
  /-- A slot whose samples transmit estimation uses (R319). -/
  est    : Bool
  thresh : Nat
  hold   : Nat
  deriving DecidableEq, Repr

/-- One slot's 144 codes in the sample queue, with the output settings they are converted under (R172, R176). -/
structure QSlot where
  codes  : List Nat
  /-- The symbol level each code was formed for; none under a wake pattern. -/
  levels : List Int
  quiet  : Bool
  est    : Bool
  thresh : Nat
  hold   : Nat
  deriving DecidableEq, Repr

/-- One output sample: its code, the code before it, its differential level, and the sixteenths of its period for which the
output still holds the level before it, `held` (R175, R176). Levels are in 1/510 µV. -/
structure OutSample where
  code  : Nat
  prior : Nat
  level : Int
  hold  : Nat
  held  : Int
  deriving DecidableEq, Repr

structure TxSt where
  /-- Next slice clock of the quire, a leaf slot on a native lane. -/
  slot : Nat
  /-- On a compatibility lane: the slice clock's number modulo 121, after which host bits and clocks are in phase again
  (R17), and the state of the inner FEC sublayer's encoder (R122). -/
  beat : Nat
  fec : Nat
  /-- Precoder state y[m−1] (R87) and the levels sent before the slot in `prev`, latest first (R160). -/
  y : Nat
  hist : List Int
  scr : BitVec 58
  prev : Option TxSlot
  /-- The interleave block's 544 bits of entries A and B (R97), and where a codeword unit ends in each. -/
  blkA : BitVec 544
  blkB : BitVec 544
  endA : Option Nat
  endB : Option Nat
  /-- Data leaves to pass before the next injected one (R152). -/
  injLeft : Nat
  /-- The nonlinearity table and DAC trim in use (R168, R332). -/
  nlt : List Word
  trim : Word
  /-- Tone accumulator (R186). -/
  acc : BitVec 32
  /-- Code c[m−1] at the mux, and the level of that sample (R176). -/
  last : Nat
  lastLevel : Int
  /-- The sample queue: the slots in it, oldest first, and its fill in codes (R172, R173). -/
  queue : List QSlot
  fill : Nat
  /-- The swing in force, in µV peak to peak (R178, R179). -/
  vsw : Nat
  /-- Start step of R184: 0 stopped, 1 front end woken, 2 sending squelched, 3 released. -/
  start : Nat
  /-- Squelch causes: queue fault, LANE-OFF or DOZE, power manager (R180). -/
  sqQueue : Bool
  sqOff : Bool
  sqPwr : Bool
  /-- Queue fault: 0 none, 1 cause present, 2 refilled (R173); and whether the converter PLL lost lock. -/
  qStage : Nat
  pllLost : Bool
  /-- Wake pattern (R583): 0 none, 1 requested for the next quire, 2 in progress, 3 ended, data resumes at the next
  slot 0, 4 and 5 as 2 and 3 with another requested for the next quire; and slice clocks left of it. -/
  wake : Nat
  wakeLeft : Nat
  /-- The last slot's samples at the output, none while squelched; their symbol levels; and whether they come from a slot that
  transmit estimation uses (R319). -/
  out : List OutSample
  outLevels : List Int
  outEst : Bool
  /-- The equivalent-time sampler's step through the 144 symbol positions and 64 phases (chapter 9, Transmit estimation). -/
  eqStep : Nat
  deriving DecidableEq, Repr

/-- The adaptive state of the slice that carries a lane (R237). Taps are the 24-bit accumulators of R257; h1, λ[1] and
λ[2] are in 2^−16 LSB; the integrator of R248 is in 2^−17 LSB². -/
structure Adapt where
  taps : List Int
  h1 : Int
  l1 : Int
  l2 : Int
  integ : Int
  agcUp : Nat
  agcDn : Nat
  deriving DecidableEq, Repr

/-- The receive frame state of the slice (R346). -/
structure Frame where
  /-- Line quire number expected next (its marker index follows from the slot), and misses in a row (R112, R113). -/
  lqn : BitVec 24
  miss : Nat
  /-- Next leaf slot of the received quire, and the descrambler state (R103). -/
  slot : Nat
  scr : BitVec 58
  /-- Decoding mode and profile in force (R133, R262). -/
  mode : Nat
  prof : Nat
  deriving DecidableEq, Repr

/-- What the slice keeps per symbol: the last corrected samples (1/4 LSB, latest first), u[m−1] (1/2 LSB), ŷ[m−1], the
last label z, the MLSE path metrics, and the mean-square and gradient sums of the interval. -/
structure Dsp where
  hist : List Int
  u : Int
  y : Nat
  z : Nat
  paths : List Int
  gTap : List Int
  gh : Int
  g1 : Int
  g2 : Int
  deriving DecidableEq, Repr

/-- The front end's measurement sums: over the received quire, the block, the AGC window and the acquisition window. -/
structure Meas where
  /-- Sum of squares and gain step of each of the last 16,448 leaf slots sampled, latest first (R222). -/
  lvl : List (Nat × Nat)
  /-- The received quire in progress began under the present lock. -/
  whole : Bool
  blkSS : List Nat
  blkSlots : Nat
  above : Nat
  below : Nat
  agcSS : Nat
  agcN : Nat
  agcClip : Nat
  agcMoved : Bool
  agcEnd : Bool
  winSS : Nat
  winN : Nat
  winClip : Nat
  winSteps : Int
  winE2 : Nat
  winSlots : Nat
  steps : Int
  deriving DecidableEq, Repr

/-- A preset in the form of a ribbon entry (R288): the 18 words of R312. -/
abbrev Ribbon := List Word

structure RxSt where
  /-- Sample number modulo 128 (R207), and the SAR unit at each of the 64 positions of each core (R208). -/
  m : Nat
  pos0 : List Nat
  pos1 : List Nat
  /-- Trims in use (R212): the words the sampling path last took up. -/
  trims : Cells
  /-- Rotation: quires since the last step, target position, match result waiting for the switch, offline check failed
  and running, lasting unit waiting for replacement, per core (R215 to R219). -/
  rotQ : Nat
  tgt0 : Nat
  tgt1 : Nat
  ok0 : Bool
  ok1 : Bool
  bad0 : Bool
  bad1 : Bool
  chk0 : Bool
  chk1 : Bool
  rep0 : List Nat
  rep1 : List Nat
  /-- Trims (3(65c + u), with 1 more for GAIN and 2 for SKEW) that the calibration engine wrote last, and those of them of a
  unit in use that stood at a range limit at the last boundary (R217). -/
  byEngine : List Nat
  atLimit : List Nat
  /-- A gain step waiting for a pilot slot (R200); a press of GAIN_SET or PEAK waiting for slot 770 (R201); the leaf in
  progress is disturbed (R202). -/
  gainNext : Option Nat
  setNext : Bool
  disturbed : Bool
  /-- Phase target while the interpolator slews, and whether it is a set phase (R205) or a preset's (R271). -/
  slew : Option (Nat × Bool)
  /-- MAIN as at the start of the acquisition (R238). -/
  main : Nat
  /-- Acquisition: slots since the state's entry, since the exit from SIG_DET, since the end of AGC; windows in band,
  saturated, and timing windows within 32; the last window's net steps; the staged preset was a hit (R292). -/
  tState : Nat
  tSig : Nat
  tAgc : Nat
  inBand : Nat
  satRun : Nat
  timRun : Nat
  timLast : Option Int
  hit : Bool
  /-- Unlocked marker search: the valid markers of the last marker period (index, LQN, slots ago); the opposite-precoding
  search (R116): finds of the last marker period (slots ago), and slots searched since the last find. -/
  cand : List (Nat × BitVec 24 × Nat)
  opp : List Nat
  oppNone : Nat
  /-- Rises of the profile in the last 16 received quires: the profile before, and quires left of its newly active taps
  (R259). -/
  newTaps : List (Nat × Nat)
  /-- Data leaves decoded in the current interleave block, not yet delivered (R97). -/
  block : Nat
  /-- The payloads of those leaves, oldest first: p[0] is the most significant bit. -/
  pay : List (BitVec 272)
  /-- Streams changed by a press, which restart at the lane's next received slot 0 (R65, R36). -/
  flushed : List Nat
  /-- Lock of a compatibility lane's inner FEC sublayer (R123), and the state of its decoder (R122). -/
  pmdLock : Bool
  fec : Nat
  /-- A receive foreground run starts at the next internal boundary (R334). -/
  fgDue : Bool
  /-- A receive press waits for the lane's boundary (R44), a snapshot waits for it, MLSE runs since a boundary. -/
  pressDue : Bool
  snapDue : Bool
  mlseWhole : Bool
  /-- Mesh time of the first symbol of slot 0 of the last received quire (R413). -/
  arrive : BitVec 64
  deriving DecidableEq, Repr

/-- A marker of a switched-path lane that its subwindow's end is to judge (R306): its SRC, whether it was in sequence and
would qualify, the slots from light return to its last symbol (R297), and whether `BRL.NEXTn` has been written since. -/
structure Judge where
  src   : Nat
  seq   : Bool
  qual  : Bool
  since : Nat
  next  : Bool
  deriving DecidableEq, Repr

/-- A decoded leaf that waits for that judgement: its slot, payload and decoding outcome. -/
structure HeldLeaf where
  slot   : Nat
  pay    : BitVec 272
  bad    : Bool
  change : Nat
  pat    : Nat
  rej    : Nat
  deriving DecidableEq, Repr

structure BrlSt where
  table : List Ribbon
  staged : Ribbon
  /-- A lookup is in progress, with the source it looks for (R289). -/
  lookup : Option (BitVec 16)
  /-- Consecutive subwindows at or above DET_LVL, in darkness, and at or above L_ref + 24 and L_ref + 48 (R284, R285, R303). -/
  above : Nat
  dark : Nat
  strong : Nat
  stronger : Nat
  /-- The marker to judge at the subwindow's end, and the leaves that wait for it (R306). -/
  judge : Option Judge
  held : List HeldLeaf
  /-- The staged preset is loaded, and the interpolator moves to its phase (R292). -/
  loading : Bool
  /-- Subwindow slots since light return (R297). -/
  since : Nat
  learned : Bool
  wholeQ : Bool
  deriving DecidableEq, Repr

/-- What a calibration window gathers under one key: leaf slots served (R316), samples, and two sums over them. -/
structure Tally where
  key    : Nat
  served : Nat
  n      : Nat
  a      : Int
  b      : Int
  deriving DecidableEq, Repr

/-- A calibration item's run (R326): phase 0 IDLE, 1 W1, 2 W2, 3 COMMIT waiting, 4 committed. -/
structure CalItem where
  phase : Nat
  /-- A window may begin at the boundary in progress; the window has begun. -/
  ready : Bool
  begun : Bool
  windows : Nat
  retries : Nat
  est1 : List (Option Int)
  result : List (Option Int)
  accepted : Bool
  /-- CAL.CFG and CAL.TOL as the run started with (chapter 9, Registers). -/
  cfg : Word
  tol : Word
  /-- Quires of the window counted so far. -/
  quires : Nat
  /-- Statistics of the window in progress and of the one that has ended (R315, R316, R319). -/
  stats : List Tally
  ended : List Tally
  /-- The item's part of the last foreground run was accepted (R335). -/
  fgOk : Bool
  /-- A committed result: its take-up point may be reached in the quire in progress; it is in use (R331). -/
  ripe : Bool
  taken : Bool
  deriving DecidableEq, Repr

structure LaneSt where
  tx : TxSt
  rx : RxSt
  dsp : Dsp
  ms : Meas
  ad : Adapt
  fr : Frame
  brl : BrlSt
  cal : Vector CalItem 4
  deriving DecidableEq, Repr

/-! ### The flyleaf (chapter 10) -/

/-- The transmit state the flyleaf took at B0 and runs from (R345): line quire number, precoder state, FFE history, scrambler,
the symbols in line, and its working copies of table and trim. -/
structure FlyTx where
  lqn  : Nat
  y    : Nat
  hist : List Int
  scr  : BitVec 58
  fec  : Nat
  prev : Option TxSlot
  nlt  : List Word
  trim : Word
  deriving DecidableEq, Repr

/-- A cause of R359 that waits for Rs (R361). -/
inductive AfterSwap where
  | reacq | dark | restart | collision
  deriving DecidableEq, Repr

structure SprSt where
  /-- Internal quires since B0; the flyleaf feeds from the lane since its received boundary; the state was copied. -/
  age : Nat
  feeding : Bool
  copied : Bool
  /-- The copy the flyleaf holds of the lane's adaptive, frame and symbol state. -/
  ad : Adapt
  fr : Frame
  dsp : Dsp
  tx : FlyTx
  /-- The slice that shadows, once a shadow starts (R351). -/
  shadow : Slice
  /-- Causes that arose for the lane in SWITCH (R361). -/
  deferred : List AfterSwap
  /-- A full self-test accepted in SWITCH starts after Rs (R361). -/
  testDue : Bool
  /-- A transmit quire in MATCH has begun, and one has ended wholly matched; likewise received quires. -/
  txOpen : Bool
  rxOpen : Bool
  rxOk : Bool
  /-- The copy's first whole received quire has ended (forced swap, R370). -/
  wholeQ : Bool
  /-- The swap's commit waits for a judgement of the same boundary (R349). -/
  commitDue : Bool
  /-- Lanes for which a command swap is requested, oldest first (R358); a rotation is held off for this many quires. -/
  cmd : List Lane
  holdoff : Nat
  /-- Slices whose repair is due or running, in the order it fell due, each with the attempts made (R370). -/
  repairs : List (Slice × Nat)
  /-- Slices that no swap has released since their last PASS (R367); slices with a test queued or repeated once; mismatches that
  await attribution, with the flyleaf and the carrying slice of each (R368). -/
  passed : BitVec 9
  queued : BitVec 9
  retried : BitVec 9
  blame : List (Slice × Slice)
  /-- A value written to `SPR.RET`, which takes effect at the next boundary (R373, R375). -/
  retDue : Option Slice
  /-- The slice each lane last carried (R340). -/
  lastOf : Vector (BitVec 4) 8
  deriving DecidableEq, Repr

/-! ### The stitch mesh (chapter 11) -/

/-- A stitch leaf handed to the stitch engine: index w, payload L[271:0], uncorrectable mark (R119, R144). -/
structure StitchLeaf where
  w : Nat
  bits : BitVec 272
  bad : Bool
  deriving DecidableEq, Repr

/-- A stitch as the engine holds it (R384). -/
structure Stitch where
  dst : BitVec 16
  src : BitVec 16
  type : Nat
  hops : Nat
  vc : Nat
  pay : List Byte
  /-- Arrival lane and VC whose buffer it holds, `none` for one of this device's own; quires held; local copy of SEND. -/
  buf : Option (Lane × Nat)
  age : Nat
  own : Bool
  deriving DecidableEq, Repr

/-- Per link and VC: receiver's EXP and U, sender's NSEQ and LIM (R403). -/
structure VcSt where
  exp : BitVec 16
  used : Nat
  nseq : BitVec 16
  lim : Option (BitVec 16)
  deriving DecidableEq, Repr

structure LinkSt where
  vc0 : VcSt
  vc1 : VcSt
  inbox : List StitchLeaf
  /-- The stitch being assembled: its leaves so far, in order (R385). -/
  asm : List (BitVec 272)
  /-- Stitch being sent: leaves left and the stitch; the queue toward this lane. -/
  sending : List (BitVec 272)
  sendingOf : Option Stitch
  queue : List Stitch
  /-- A DGASP waits for its leaf; in loss of main supply, slots until the one sent has left the output (R426, R597). -/
  gaspDue : Bool
  gaspLeft : Nat
  /-- DEVID of the last valid hello of the previous quire, quires without one, DEVID of the last UP neighbour. -/
  helloId : Option (BitVec 64)
  heard : Bool
  misses : Nat
  upId : Option (BitVec 64)
  /-- Last time leaf: ROOT, RDIST, TSTATE, MQN·MFRAC, RXOFS. -/
  time : Option (BitVec 64 × Nat × Nat × BitVec 64 × BitVec 32)
  /-- This end's receive offset on the lane (R413). -/
  rxofs : Int
  /-- Neighbour said LEAVE (R427). -/
  left : Bool
  deriving DecidableEq, Repr

structure Route where
  addr : BitVec 16
  dist : Nat
  lane : Nat
  cfg : Bool
  tent : Bool
  devid : BitVec 64
  /-- Quires since the next hop confirmed it, quires advertised as unreachable. -/
  age : Nat
  gone : Nat
  deriving DecidableEq, Repr

/-- A queued remote request (R420): its stitch. -/
structure MshSt where
  links : Vector LinkSt 8
  routes : List Route
  cand : Nat
  loseDue : Bool
  addrQ : Nat
  advQ : Nat
  /-- Entries to advertise: addresses of those that changed, and those removed (R397). -/
  advDue : List (BitVec 16)
  removed : List Route
  requests : List Stitch
  ring : List Stitch
  ringHead : Nat
  ringWait : List Stitch
  root : BitVec 64
  acqRun : Nat
  trackRun : Nat
  stepHold : Nat
  stepNext : Option Int
  corr : Int
  leaving : Bool
  localSent : Bool
  deriving DecidableEq, Repr

/-! ### Capture engine (chapter 6) -/

structure CapSt where
  /-- CAP_CFG, CAP_QNUM and CAP_POST as START checked them. -/
  cfg : Word
  qnum : Word
  post : Nat
  /-- TRIG 1's boundary seen, and passed; the trigger boundary seen, with the quire number; recording has begun. -/
  qnumSeen : Bool
  qnumPast : Bool
  due : Bool
  dueQ : Word
  started : Bool
  /-- Leaf slots counted; bytes written since the last request pulse; the ring has wrapped; bytes left to write after
  a ring's trigger. -/
  slots : Nat
  pulse : Nat
  wrapped : Bool
  left : Option Nat
  deriving DecidableEq, Repr

/-! ### Fault windows (chapter 20) -/

/-- One bucket of R657: class, instance, level, quires left to the next leak, lasting. -/
structure Bucket where
  cls : Nat
  inst : Nat
  level : Nat
  timer : Nat
  lasting : Bool
  deriving DecidableEq, Repr

/-! ### Housekeeping (chapter 12) -/

/-- A conversion: who asked (0 sequencer, 1 fault manager, 2 thermal manager, 3 firmware), channel, range, quires left. -/
structure Conv where
  src : Nat
  ch : Nat
  range : Nat
  left : Nat
  deriving DecidableEq, Repr

structure HkpSt where
  /-- The limiter's goal of each bias DAC (R435) and the code each output was last given (R433). -/
  goal : Vector Nat 24
  code : Vector Nat 24
  /-- Next sub-interval of the quire, 0–16. -/
  sub : Nat
  /-- Causes of R439 that hold: loss of main supply, request at STANDBY entry. -/
  causeSup : Bool
  causeSby : Bool
  /-- Conversion running, and one closed whose result is awaited (R444, R453). -/
  conv : Option Conv
  closing : Option Conv
  /-- Urgent requests of the fault manager, the thermal manager and firmware (R448). -/
  reqFault : Option Conv
  reqTherm : Option Conv
  reqFw : Option Conv
  deriving DecidableEq, Repr

/-! ### Processor and SRAMs (chapter 13) -/

/-- An instruction that ends in a command of its own (R472, R475, R476): a load's register, address, width and extension; a
store's address, width and value; `mret`. -/
inductive PendingOp where
  | load (rd : Fin 32) (addr : Word) (w : Width) (sext : Bool)
  | store (addr : Word) (w : Width) (value : Word)
  | mret
  deriving DecidableEq, Repr

structure CpuSt where
  /-- x0 to x31; x0 reads 0. -/
  x : Vector Word 32
  pc : Word
  /-- The instruction last fetched: its address, its word (a compressed one zero-extended) and its mode (R683). -/
  ipc : Word
  insn : Word
  iuser : Bool
  /-- The instruction fetched and not yet performed. -/
  op : Option PendingOp
  user : Bool
  /-- Control and status registers by number. -/
  csr : Cells
  /-- The internal memory-error flag of R476; the memory-error and quire interrupts pending (R460, R474). -/
  memFlag : Bool
  memPend : Bool
  quirePend : Bool
  /-- Halted under R476; not yet started by the boot ROM; waiting in WFI is no state of its own. -/
  halted : Bool
  running : Bool
  /-- A write of SYS.RT.DONE happened since the last slot start. -/
  slotSeen : Bool
  deriving DecidableEq, Repr

/-- A tracked word: its address, its slot 0–15 (R663), and whether an event was counted since it was last written or
scrubbed. -/
structure Track where
  key : Nat
  slot : Nat
  seen : Bool
  deriving DecidableEq, Repr

structure EccSt where
  /-- `ECC.ULOG`, oldest first (R491). -/
  ulog : List Word
  /-- Remapped rows (memory, row) (R481). -/
  remaps : List (Nat × Nat)
  /-- Words under track, oldest event first (R479, R480). -/
  track : List Track
  /-- The scrub pass: next offset, and the memory and last offset that START checked (R486, R487). -/
  scrubAt : Nat
  scrubMem : Nat
  scrubLast : Nat
  deriving DecidableEq, Repr

/-! ### DMA (chapter 14) -/

structure DmaSt where
  /-- Beats left of the burst in progress, for each channel (R500). -/
  burst : Vector Nat 8
  /-- The active channel's transfer is complete and its hand-over is due (R504). -/
  handOver : Bool
  deriving DecidableEq, Repr

/-! ### Self-test (chapter 20) -/

/-- A test item: 0 slice, 1 host group, 2 lane front end, 3 memory (`BST.STAT.PART`), with its target and segment. -/
structure TestItem where
  part : Nat
  tgt : Nat
  seg : Nat
  deriving DecidableEq, Repr

structure BstSt where
  /-- The in-service test running, and the memory segments queued (R664). -/
  run : Option TestItem
  memQ : List TestItem
  /-- Items of the full test still to run, the one running first (R673). -/
  full : List TestItem
  /-- The results of the full test's items, as `BST.FULLRES` takes them at its end (R674). -/
  results : Word
  deriving DecidableEq, Repr

/-! ### Management port (chapter 16) -/

/-- What keeps the port busy (R548). -/
inductive Busy where
  | firmware | fetch (k : Nat) | write (k : Nat) (bytes : List (Nat × Byte))
  | newnonce | submit | lock | refresh (k : Nat) | popevq
  /-- The port engine applies a selection that starts no fetch, or stores bytes of page 80h without a command. -/
  | engine
  deriving DecidableEq, Repr

structure MgmtSt where
  /-- The page store: byte o of lower memory at o, byte o of page p, bank b at 65536·b + 256·(p + 1) + o. -/
  pages : List Host.Cell
  busy : List Busy
  ready : Bool
  /-- Recognised levels of the pins (R552). -/
  lpmode : Bool
  resetLow : Bool
  unlocked : Bool
  /-- Quires since the last window operation, and since lockout began (R562, R563). -/
  sessQ : Nat
  lockQ : Nat
  lockout : Bool
  fails : Nat
  nonces : Nat
  nonce : BitVec 64
  resp : List Byte
  /-- What the last read transaction or GET command put on the bus. -/
  rdata : List Byte
  deriving DecidableEq, Repr

/-! ### Power (chapter 17) -/

/-- An AVSBus command that the device sends as the master (R592): a write of Vout in mV, a read of Vout or of Status, on a rail. -/
inductive AvsCmd where
  | writeVout (rail mv : Nat) | readVout (rail : Nat) | readStatus (rail : Nat)
  deriving DecidableEq, Repr

structure PwrSt where
  /-- VDD_IO is in its working range as the always-on domain judges it, VBAK is at or above 1.6 V (R596). -/
  mainOk : Bool
  vbak : Bool
  /-- Steps 3 to 5 of a loss of main supply are under way: internal boundaries passed; the main supplies have become valid
  meanwhile (R597, R598). -/
  lossQ : Option Nat
  validDue : Bool
  /-- STANDBY entry (R585 to R591): quires until the stages are asked, the stage asked, whether one has been asked and
  waits for its answer, stages stopped so far, the stage asked counts as quiesced by force, all four have quiesced, the wait
  is one before a retry, and the attempt's number, 0 before B0. -/
  sbyWait : Nat
  sbyStage : Nat
  sbyAsked : Bool
  sbyDown : Nat
  sbyForce : Bool
  sbyDone : Bool
  sbyRetry : Bool
  sbyTry : Nat
  /-- `PWR.CTRL.REST` waits for the boundary; REST was entered by it (R573, R580). -/
  restDue : Bool
  restCmd : Bool
  /-- The start-up sequence has run since MGT was last powered up or restarted (R621). -/
  booted : Bool
  /-- Boundaries passed in SIG_DET by each lane without a break (R576); wakes recognised (R579); lanes that found no free
  slice, already reported (R340). -/
  dozeQ : Vector Nat 8
  wakeDue : BitVec 8
  noSlice : BitVec 8
  /-- Domains on only by an access, with quires since the last access (R571), and the domains that the last entry to ACTIVE
  requires (R584). -/
  woken : List (Dom × Nat)
  entry : List Dom
  /-- RTC seconds and sub-second, LOAD pending, alarm recorded (R581, R582). -/
  rtc : BitVec 48
  rtcSub : BitVec 15
  loadDue : Bool
  alarmDue : Bool
  /-- Watchdog cycles of 32.768 kHz since the last kick, and the cause of a restart of MGT that is due, 0 none (R477,
  R638). -/
  wdt : Nat
  mrst : Nat
  /-- AVS target in mV, request in flight, requests stopped (R593, R594). -/
  avsTarget : Nat
  avsFlight : Option Nat
  avsStop : Bool
  /-- The AVSBus commands of the request in flight (R592, R593). -/
  avsCmds : List AvsCmd
  /-- Events to queue once MGT runs (R477, R581, R598): block, code. -/
  late : List (Nat × Nat)
  /-- Data path held off by policy under ModuleFault (R566, R616, R632). -/
  heldOff : Bool
  /-- Record of a thermal shutdown (R618). -/
  shutRec : Bool
  deriving DecidableEq, Repr

/-! ### Thermal (chapter 18) -/

structure ThmSt where
  /-- Quires since the last sample started; a sample has started since the tick first ran; one awaits judgement. -/
  age : Nat
  started : Bool
  sampling : Bool
  /-- A first sample has been acted on since power-up (R618); flags of R736 wait for the first sample. -/
  acted : Bool
  relatch : Bool
  /-- Quires at THROTTLE or above (R614). -/
  grace : Nat
  /-- Step of an orderly stop in progress: 0 none, 1 squelched, 2 DGASP sent, 3 journal committed (R616). -/
  stop : Nat
  deriving DecidableEq, Repr

/-! ### Security and images (chapter 19) -/

/-- A key slot's fuses: key bits blown, CRC bits blown, seal (R645). -/
structure OtpSlot where
  bits : BitVec 256
  crc : BitVec 16
  sealed : Bool
  deriving DecidableEq, Repr

/-- A fuse programming operation under way (R639, R643, R644). -/
inductive OtpOp where
  | life (target : Nat) | key (slot : Nat) (value : BitVec 256) | roll (svn : Nat)
  deriving DecidableEq, Repr

/-- A hash-engine operation (R648). -/
inductive HashOp where
  | verify (kind slot : Nat) | attest (addr : Nat) (report : List Byte) | journal
  deriving DecidableEq, Repr

structure SecSt where
  /-- The items Luhel fuses: device ID, grade and device secret (R641). -/
  devId : BitVec 64
  grade : Bool
  devSec : List Byte
  /-- Life-cycle state in force and the highest programmed for the next start (R643, R645), key slots and rollback steps. -/
  lc : Nat
  lcNext : Option Nat
  fwKey : OtpSlot
  mmKey : OtpSlot
  maint : OtpSlot
  roll : Nat
  /-- The fuse programming under way, and requests that wait for it. -/
  otpOp : Option OtpOp
  otpQ : List OtpOp
  hash : Option HashOp
  hashQ : List HashOp
  /-- Body hashes of what runs: firmware, extension, configuration (R647). -/
  fwHash : BitVec 512
  extHash : BitVec 512
  cfgHash : BitVec 512
  /-- Journal commits running and waiting, by cause (R650). -/
  jnlRun : Option Nat
  jnlQ : List Nat
  /-- `SEC.CTRL.RESTART` waits for the boundary (R638). -/
  restartDue : Bool
  deriving DecidableEq, Repr

/-- The fields of a boot header that serve the stores' accesses (R626). -/
structure StoreHeader where
  xclk : Nat
  dummy : Nat
  rdcmd : Nat
  /-- The bytes of each mode-entry sequence. -/
  entry : List (List Byte)
  pgcmd : Nat
  ercmd : Nat
  stcmd : Nat
  busyBit : Nat
  ersz : Nat
  dscmd : Nat
  tpg : Nat
  ter : Nat
  rsize : Nat
  deriving DecidableEq, Repr

/-- What the device sends a store (R624, R652): a read in 1S mode, a mode-entry sequence, and in 8D mode the header's commands, each
with its address; a read (its 128-byte reads taken together) with dummy cycles, and a read or a status poll with its time limit in µs. -/
inductive StoreCmd where
  | read1S (opcode addr len : Nat) | enter1S (bytes : List Byte) | read8D (cmd addr dummy len limit : Nat)
  | program8D (cmd addr : Nat) (data : List Byte) | erase8D (cmd addr : Nat) | status8D (cmd busyBit limit : Nat)
  | dieSelect (cmd upper : Nat)
  deriving DecidableEq, Repr

structure NvmSt where
  /-- Operation in progress: its command and length, whether a store access is running, ABORT written. -/
  op : Nat
  auto : Bool
  cs : Nat
  addr : Nat
  accessing : Bool
  abort : Bool
  /-- The header's fields, and whether they are those of a valid copy now in use (R627). -/
  hdr : StoreHeader
  hdrUsed : Bool
  /-- Address bits [36:32] the die-select command last sent (R652). -/
  die : Nat
  /-- What the last access to a store sent, by its chip select. -/
  sent : List (Nat × StoreCmd)
  deriving DecidableEq, Repr

/-! ### Counters (chapter 21) -/

structure Sample where
  pc : Word
  insn : Word
  machine : Bool
  lat : Nat
  deriving DecidableEq, Repr

structure CntSt where
  samples : List Sample
  lfsr : BitVec 16
  /-- Instructions left to the next sample. -/
  left : Nat
  /-- Sampled instructions whose record waits for their latency, oldest first. -/
  due : List Sample
  /-- Processor clocks of the quire in progress that have been counted; 8,192 at its boundary. -/
  clocks : Nat
  /-- A snapshot is open: lanes' received captures are still due (R691). -/
  snapOpen : Bool
  /-- The snapshot now pending was deferred (R693). -/
  deferred : Bool
  deriving DecidableEq, Repr

/-- How an access ended: performed, denied (R538), not performed as misaligned or unmapped (R514, R515), failed in a domain that is
off (R542), performed on a damaged SRAM word with the debug error flag (R472), or stalled until STANDBY (R591). -/
inductive Access where
  | done | denied | bad | off | damaged | stalled
  deriving DecidableEq, Repr

/-! ### The device -/

/-- REG_SYNC (R442): high impedance, driven low, or the square wave in its period j of the quire, which its rising edge at the start
of sub-interval j began: high for the period's first half, low for its second. -/
inductive SyncPin where
  | hiZ | low | wave (j : Nat)
  deriving DecidableEq, Repr

/-- How a host transmit lane drives (R47, R714): pre-cursor in half dB, post-cursor in dB, amplitude in mV peak to peak. -/
structure HostDrive where
  pre : Nat
  post : Nat
  amp : Nat
  deriving DecidableEq, Repr

/-- The output pins (R711): RB_N and INT_N, open drain, low or released (R551, R555); REG_SYNC, and TDO (R720), none at high
impedance; the lanes whose DOUT and the host groups whose HTX are driven; the bias DACs driven by MGT or held at 0 V by the
always-on domain, none at high impedance; and the outputs toward the stores and the regulator driven, else at high impedance. -/
structure Pins where
  rb : Bool
  int : Bool
  sync : SyncPin
  tdo : Option Bool
  dout : BitVec 8
  htx : BitVec 4
  /-- What each host transmit lane sends, and its setting. -/
  host : List HostTx
  drive : List HostDrive
  bias : Option Bool
  store : Bool
  /-- XTAL32_OUT is driven. -/
  xtal : Bool
  /-- EXTEST acts: the boundary cells drive the balls, and the rest of this record is what stands behind them. -/
  extest : Bool
  /-- What AVS_CLK and AVS_MDATA carry. -/
  avs : List AvsCmd
  deriving DecidableEq, Repr

structure Dev where
  /-- Register words: what a read returns (shadows for RB fields, R517). -/
  regs : Cells
  /-- Live values of RB fields, by the same addresses (R517). -/
  live : Cells
  /-- Receive-side shadows taken at an internal boundary and waiting for the lane's received boundary (R44). -/
  staged : Cells
  /-- Snapshot holding copies, by their live addresses (R536). -/
  hold : Cells
  /-- Words latched for a master by its last LO read (R28), and held write data (R681): key = master·2^32 + address. -/
  latch : Cells
  /-- Events raised, queues popped, queues emptied by the command under way. -/
  raised : List Raise
  popped : List Nat
  emptied : Bool
  clk : Clk
  host : Vector HostSt 16
  streams : Vector StreamSt 16
  lanes : Vector LaneSt 8
  spr : SprSt
  msh : MshSt
  cap : CapSt
  flt : List Bucket
  /-- SRAM data bytes by processor address, and check bits by word address (R463, R469). -/
  mem : List Host.Cell
  chk : List Host.Cell
  /-- How many free values have been used. DESIGN CHOICE (log 2). -/
  freeCtr : Nat
  /-- Mapping streams whose receive counters the pending snapshot has yet to capture (R82). -/
  mapSnap : BitVec 16
  /-- Address and data pairs written to a domain each time it powers up (R516, R635). -/
  powerList : List (Nat × Word)
  hkp : HkpSt
  cpu : CpuSt
  ecc : EccSt
  dma : DmaSt
  bst : BstSt
  /-- `FLT.CLSc` written since the last internal boundary (R661). -/
  clsWritten : BitVec 13
  mgmt : MgmtSt
  pwr : PwrSt
  thm : ThmSt
  sec : SecSt
  nvm : NvmSt
  cnt : CntSt
  /-- What the last register access returned to its master: the word read, and how it ended (the debug error flag of R514,
  R542 among it). -/
  busWord : Word
  busRes : Access
  /-- The TAP instruction in force, `none` for BYPASS (R646). -/
  tap : Option Nat
  /-- The output pins as SAMPLE or EXTEST last captured them in the boundary register (R646, log 49). -/
  boundary : Option Pins
  deriving DecidableEq, Repr

/-! ### Initial values

Where the spec states no value the model's own stands (log 1). -/

/-- The nonlinearity table's reset: the identity (R167). -/
def nltIdentity : List Word := (List.range 64).map fun w => BitVec.ofNat 32 (0x03020100 + w * 0x04040404)

def TxSt.init : TxSt :=
  { slot := 0, y := 0, hist := [], scr := 0, prev := none, blkA := 0, blkB := 0, endA := none, endB := none, injLeft := 0,
    beat := 0, fec := 0, nlt := nltIdentity, trim := 0, acc := 0, last := 128, lastLevel := 0, queue := [], fill := 0,
    vsw := 700000, start := 0, sqQueue := false, sqOff := true, sqPwr := false,
    qStage := 0, pllLost := false, wake := 0, wakeLeft := 0, out := [], outLevels := [], outEst := false, eqStep := 0 }

/-- The cold defaults (R271): tap 12 at +1.5, h1 0, λ at ±16 LSB. -/
def Adapt.init : Adapt :=
  { taps := (List.range 48).map fun k => if k = 12 then 384 * 16384 else 0, h1 := 0, l1 := -16 * 65536, l2 := 16 * 65536,
    integ := 0, agcUp := 0, agcDn := 0 }

def Frame.init : Frame := { lqn := 0, miss := 0, slot := 0, scr := 0, mode := 0, prof := 3 }

def Dsp.init : Dsp :=
  { hist := [], u := 0, y := 0, z := 0, paths := [0, 0, 0, 0], gTap := List.replicate 48 0, gh := 0, g1 := 0, g2 := 0 }

def Meas.init : Meas :=
  { lvl := [], whole := false, blkSS := List.replicate 16 0, blkSlots := 0, above := 0,
    below := 0, agcSS := 0, agcN := 0, agcClip := 0, agcMoved := false, agcEnd := false, winSS := 0, winN := 0, winClip := 0,
    winSteps := 0, winE2 := 0, winSlots := 0, steps := 0 }

def RxSt.init : RxSt :=
  { m := 0, pos0 := List.range 64, pos1 := List.range 64, trims := [], rotQ := 0, tgt0 := 0, tgt1 := 0, ok0 := false,
    ok1 := false, bad0 := false, bad1 := false, chk0 := false, chk1 := false, rep0 := [], rep1 := [], byEngine := [], atLimit := [],
    gainNext := none, setNext := false, disturbed := false, slew := none, main := 12, tState := 0,
    tSig := 0, tAgc := 0, inBand := 0, satRun := 0, timRun := 0, timLast := none, hit := false,
    cand := [], opp := [], oppNone := 0, newTaps := [], block := 0, pay := [], flushed := [], pmdLock := false, fec := 0, fgDue := false, pressDue := false, snapDue := false,
    mlseWhole := false, arrive := 0 }

def BrlSt.init : BrlSt :=
  { table := [], staged := [], lookup := none, above := 0, dark := 0, strong := 0, stronger := 0, judge := none,
    held := [], loading := false, since := 0, learned := false, wholeQ := false }

def CalItem.init : CalItem :=
  { phase := 0, ready := false, begun := false, windows := 0, retries := 0, est1 := [], result := [], accepted := false,
    cfg := 0, tol := 0, quires := 0, stats := [], ended := [], fgOk := false, ripe := false, taken := false }

def LaneSt.init : LaneSt :=
  { tx := TxSt.init, rx := RxSt.init, dsp := Dsp.init, ms := Meas.init, ad := Adapt.init, fr := Frame.init,
    brl := BrlSt.init, cal := Vector.replicate 4 CalItem.init }

def FlyTx.init : FlyTx := { lqn := 0, y := 0, hist := [], scr := 0, fec := 0, prev := none, nlt := nltIdentity, trim := 0 }

def SprSt.init : SprSt :=
  { age := 0, feeding := false, copied := false, ad := Adapt.init, fr := Frame.init, dsp := Dsp.init, tx := FlyTx.init,
    shadow := 8, deferred := [], testDue := false, txOpen := false,
    rxOpen := false, rxOk := false, wholeQ := false, commitDue := false, cmd := [], holdoff := 0, repairs := [],
    passed := 0x1FF, queued := 0, retried := 0, blame := [], retDue := none,
    lastOf := Vector.ofFn fun n => BitVec.ofNat 4 n }

def VcSt.init : VcSt := { exp := 0, used := 0, nseq := 0, lim := none }

def LinkSt.init : LinkSt :=
  { vc0 := VcSt.init, vc1 := VcSt.init, inbox := [], asm := [], sending := [], sendingOf := none, queue := [],
    gaspDue := false, gaspLeft := 0, helloId := none, heard := false, misses := 0, upId := none, time := none, rxofs := 0,
    left := false }

def MshSt.init : MshSt :=
  { links := Vector.replicate 8 LinkSt.init, routes := [], cand := 0, loseDue := false, addrQ := 0, advQ := 0,
    advDue := [], removed := [], requests := [], ring := [], ringHead := 0, ringWait := [], root := 0, acqRun := 0, trackRun := 0,
    stepHold := 0, stepNext := none, corr := 0, leaving := false, localSent := false }

def CapSt.init : CapSt :=
  { cfg := 0, qnum := 0, post := 0, qnumSeen := false, qnumPast := false, due := false, dueQ := 0, started := false, slots := 0, pulse := 0,
    wrapped := false, left := none }

def HkpSt.init : HkpSt :=
  { goal := Vector.replicate 24 0, code := Vector.replicate 24 0, sub := 16, causeSup := false, causeSby := false,
    conv := none, closing := none, reqFault := none, reqTherm := none, reqFw := none }

def CpuSt.init : CpuSt :=
  { x := Vector.replicate 32 0, pc := 0, ipc := 0, insn := 0, iuser := false, op := none, user := false, csr := [], memFlag := false, memPend := false,
    quirePend := false, halted := false, running := false, slotSeen := true }

def EccSt.init : EccSt := { ulog := [], remaps := [], track := [], scrubAt := 0, scrubMem := 0, scrubLast := 0 }

def DmaSt.init : DmaSt := { burst := Vector.replicate 8 0, handOver := false }

def BstSt.init : BstSt := { run := none, memQ := [], full := [], results := 0 }

/-- CMIS byte 26 with LowPwrAllowRequestHW at its family default 1 (log 7). -/
def MgmtSt.init : MgmtSt :=
  { pages := [(26, 0x40)], busy := [], ready := false, lpmode := false, resetLow := false, unlocked := false, sessQ := 0,
    lockQ := 0, lockout := false, fails := 0, nonces := 0, nonce := 0, resp := [], rdata := [] }

def PwrSt.init : PwrSt :=
  { mainOk := true, vbak := false, lossQ := none, validDue := false, sbyWait := 0, sbyStage := 0, sbyAsked := false, sbyDown := 0, sbyForce := false, sbyTry := 0,
    sbyDone := false, sbyRetry := false, restDue := false, restCmd := false, booted := false,
    dozeQ := Vector.replicate 8 0, wakeDue := 0, noSlice := 0, woken := [], entry := [], rtc := 0, rtcSub := 0, loadDue := false,
    alarmDue := false, wdt := 0, mrst := 0, avsTarget := 750, avsFlight := none, avsStop := false, avsCmds := [], late := [],
    heldOff := false, shutRec := false }

def ThmSt.init : ThmSt :=
  { age := 0, started := false, sampling := false, acted := false, relatch := false, grace := 0, stop := 0 }

def OtpSlot.init : OtpSlot := { bits := 0, crc := 0, sealed := false }

/-- Parts leave Luhel in MANUFACTURE with FWKEY_H fused (R641, R642); no module-maker key and no rollback step is
presumed (log 8). -/
def SecSt.init : SecSt :=
  { devId := Config.deviceId, grade := Config.grade, devSec := Config.deviceSecret, lc := 1, lcNext := none,
    fwKey := { bits := Config.fwKeyHash, crc := keyCrc Config.fwKeyHash, sealed := true }, mmKey := OtpSlot.init,
    maint := OtpSlot.init, roll := 0, otpOp := none, otpQ := [], hash := none, hashQ := [], fwHash := 0, extHash := 0, cfgHash := 0,
    jnlRun := none, jnlQ := [], restartDue := false }

/-- Before a header is in use: blocks of 4 KiB and a record store of 16 MiB, and no command (log 8). -/
def StoreHeader.init : StoreHeader :=
  { xclk := 100, dummy := 0, rdcmd := 0, entry := [], pgcmd := 0, ercmd := 0, stcmd := 0, busyBit := 0, ersz := 12, dscmd := 0,
    tpg := 0, ter := 0, rsize := 24 }

def NvmSt.init : NvmSt :=
  { op := 0, auto := false, cs := 1, addr := 0, accessing := false, abort := false, hdr := StoreHeader.init, hdrUsed := false,
    die := 0, sent := [] }

def CntSt.init : CntSt := { samples := [], lfsr := 0xACE1, left := 0, due := [], clocks := 0, snapOpen := false, deferred := false }

def PatternCheck.init : PatternCheck := { reg := 0, seen := 0, errs := 0, bits := 0 }

def HostSt.init : HostSt :=
  { check := PatternCheck.init, fill := 0x7FFFFFFF, rxBits := 0, rxLeft := 5440, rxAlign := none, txBits := 0, tx := .idle, out := [] }

def Clk.init : Clk := { qnum := 0, frac := 0, was := 0, source := .refclk, cfg := 0, seen := false, refQ := 0, compatQ := 0 }

/-- The device with MGT just powered up, before the start-up sequence: every register at its reset word (R700). -/
def Dev.init : Dev :=
  { regs := [], live := [], staged := [], hold := [], latch := [], raised := [], popped := [], emptied := false,
    clk := Clk.init, host := Vector.replicate 16 HostSt.init, streams := Vector.replicate 16 ⟨0, 0⟩,
    lanes := Vector.replicate 8 LaneSt.init, spr := SprSt.init, msh := MshSt.init, cap := CapSt.init, flt := [], mem := [],
    chk := [], freeCtr := 0, mapSnap := 0, powerList := [], hkp := HkpSt.init, cpu := CpuSt.init, ecc := EccSt.init,
    dma := DmaSt.init, bst := BstSt.init, clsWritten := 0, mgmt := MgmtSt.init, pwr := PwrSt.init, thm := ThmSt.init,
    sec := SecSt.init, nvm := NvmSt.init, cnt := CntSt.init, busWord := 0, busRes := .done, tap := none, boundary := none }

/-! ### The machine -/

structure State where
  dev : Dev
  /-- The event queue of each block, by its number b (R526). -/
  evq : Vector EvQ 32
  pins : Pins
  /-- The commands that wait, first in, first out. -/
  pending : List Instr
  deriving DecidableEq, Repr

/-- No command ends in a fault: the spec gives every occurrence of its table an effect. -/
inductive Fault where
  deriving DecidableEq, Repr

/-- Why a command is turned away without an effect. -/
inductive Refusal where
  /-- Raised by `exec` for a command that has no meaning yet; safe. -/
  | notModelled (mnemonic : String)
  deriving DecidableEq, Repr

/-- The processor as a start of the management domain or the entry to firmware leaves it: the quire interrupt and the slot's DONE are
the tick's, which may run on (R460, R462). -/
def CpuSt.restarted (c : CpuSt) : CpuSt := { CpuSt.init with quirePend := c.quirePend, slotSeen := c.slotSeen }

/-- Right after reset: MGT on, the start-up sequence not yet run, every lane off, no command waiting. `SEC.LC` and `SEC.KEYSTAT` show
the fuses: MANUFACTURE, and FWKEY_H enrolled (R642, R656). -/
def State.reset : State :=
  { dev := { Dev.init with regs := [(R.SEC_LC, 1), (R.SEC_KEYSTAT, 4)] }, evq := Vector.replicate 32 ⟨[], 0⟩,
    pins := { rb := false, int := true, sync := .low, tdo := none, dout := 0, htx := 0, host := List.replicate 16 .idle,
              drive := List.replicate 16 ⟨0, 0, 350⟩, bias := some true, store := true, xtal := true, extest := false, avs := [] },
    pending := [] }

end Sys2Proof.Machine
end

