-- ==== Sys2Proof/Machine/Operands.lean ====
section
/-! DEFINITION. Operand forms: register words and their fields, signed values, the roundings the spec names, level
comparisons in decibels, byte and bit sequences. -/

namespace Sys2Proof.Machine

/-! ### Signed values and roundings -/

/-- The signed value of a `w`-bit field. -/
def signed (w n : Nat) : Int := if n < 2 ^ (w - 1) then (n : Int) else (n : Int) - 2 ^ w

/-- A signed value as a `w`-bit field. -/
def toField (w : Nat) (x : Int) : Nat := (x % 2 ^ w).toNat

def clampI (lo hi x : Int) : Int := if x < lo then lo else if hi < x then hi else x

/-- floor(a/b + 1/2): nearest, halves toward +∞ (R222, R238, R324). -/
def roundUp (a : Int) (b : Nat) : Int := (2 * a + b) / (2 * b)

/-- Nearest, halves away from zero (R248, R252, R327). -/
def roundAway (a : Int) (b : Nat) : Int :=
  if 0 ≤ a then (2 * a + b) / (2 * b) else -((2 * (-a) + b) / (2 * b))

/-- round(a·2^−k), halves away from zero. -/
def roundShift (a : Int) (k : Nat) : Int := roundAway a (2 ^ k)

/-- The largest k ≤ n with p k, for p true up to some point; `none` if p fails at 0. -/
def lastTrue (p : Nat → Bool) (n : Nat) : Option Nat :=
  ((List.range (n + 1)).filter p).getLast?

/-! ### Levels (R222, R250) -/

/-- 10^(−g/10) scaled by 10^24, for the gain steps 0 to 15, to the nearest unit. -/
def gainPow : List Nat :=
  [1000000000000000000000000, 794328234724281502065918, 630957344480193249434360, 501187233627272285001554,
   398107170553497250770252, 316227766016837933199889, 251188643150958011108503, 199526231496887960135245,
   158489319246111348520210, 125892541179416721042395, 100000000000000000000000, 79432823472428150206592,
   63095734448019324943436, 50118723362727228500155, 39810717055349725077025, 31622776601683793319989]

/-- The numerator of V² in (1 mV)² over `16·10^24·N`, for per-gain sums of squares in 1/16 LSB² (R222: 3.125 mV per
LSB at gain 0). -/
def levelPower (ss : List Nat) : Nat :=
  ((ss.zip gainPow).map (fun p => p.1 * p.2)).sum * 9765625

/-- 10^(2L−1)·b^160 ≤ a^160, that is L ≤ 80·log10(a/b) + 1/2. -/
def levelAtLeast (a b : Nat) (L : Int) : Bool :=
  if 1 ≤ 2 * L then decide (10 ^ (2 * L - 1).toNat * b ^ 160 ≤ a ^ 160)
  else decide (b ^ 160 ≤ a ^ 160 * 10 ^ (1 - 2 * L).toNat)

/-- Binary search for the largest level in [lo, lo + 2^k) that is reached. -/
def levelSearch (a b : Nat) : Nat → Int → Int
  | 0, lo => lo
  | k + 1, lo => if levelAtLeast a b (lo + 2 ^ k) then levelSearch a b k (lo + 2 ^ k) else levelSearch a b k lo

/-- LVL of R222 for per-gain sums of squares over `n` samples: 0.125 dB re 1 mV rms, halves up, floored at −2,048. -/
def levelOf (ss : List Nat) (n : Nat) : Int :=
  let a := levelPower ss
  if a = 0 ∨ n = 0 then -2048
  else levelSearch a (n * 16 * 10 ^ 30) 12 (-2048)

/-- The rms of `n` samples with sum of squares `ss` (1/16 LSB²) lies below `t`/4 dB re 1 LSB (R250). -/
def rmsBelow (ss n t : Nat) : Bool := decide (ss ^ 40 < 10 ^ t * (16 * n) ^ 40)

def rmsAbove (ss n t : Nat) : Bool := decide (10 ^ t * (16 * n) ^ 40 < ss ^ 40)

/-- round(|t|·10^(±1/20)), halves away from zero (R252). -/
def scaleTap (up : Bool) (t : Int) : Int :=
  let x := t.natAbs
  let ok (k : Nat) : Bool :=
    if k = 0 then true
    else if up then decide ((2 * k - 1) ^ 20 * 10 ≤ (2 * x) ^ 20) else decide ((2 * k - 1) ^ 20 ≤ 10 * (2 * x) ^ 20)
  let k : Int := ((lastTrue ok 600).getD 0 : Nat)
  clampI (-512) 511 (if t < 0 then -k else k)

/-! ### Bits and bytes -/

/-- The number whose bits are `l`, most significant first. -/
def ofBits (l : List Bool) : Nat := l.foldl (fun a b => 2 * a + b.toNat) 0

/-- Bytes of a word, least significant first (R511). -/
def wordBytes (v : Word) : List Byte := (List.range 4).map fun k => v.extractLsb' (8 * k) 8

/-- The word of four bytes, least significant first. -/
def bytesWord (l : List Byte) : Word :=
  BitVec.ofNat 32 ((l.take 4).reverse.foldl (fun a b => 256 * a + b.toNat) 0)

def countTrue (l : List Bool) : Nat := (l.filter id).length

/-! ### Canonical lists: register words and memory bytes -/

namespace Cells

variable {α : Type} [DecidableEq α]

/-- The value at `a`; an unlisted address reads as `dflt a`. -/
def get (dflt : Nat → α) : List (Nat × α) → Nat → α
  | [], a => dflt a
  | (b, w) :: m, a => if a = b then w else get dflt m a

def erase (m : List (Nat × α)) (a : Nat) : List (Nat × α) := m.filter fun p => p.1 != a

def ins (a : Nat) (v : α) : List (Nat × α) → List (Nat × α)
  | [] => [(a, v)]
  | (b, w) :: m => if a < b then (a, v) :: (b, w) :: m else (b, w) :: ins a v m

/-- Write `v` at `a`: a value equal to what an unlisted address reads as is not listed. -/
def put (dflt : Nat → α) (m : List (Nat × α)) (a : Nat) (v : α) : List (Nat × α) :=
  if v = dflt a then erase m a else ins a v (erase m a)

/-- The canonical form: addresses strictly rising, no value equal to its default. -/
def wf (dflt : Nat → α) (m : List (Nat × α)) : Bool :=
  decide (m.Pairwise fun p q => p.1 < q.1) && m.all fun p => p.2 != dflt p.1

/-- Replace the values at the addresses `p` holds of by those of `src`. -/
def copyWhere (dflt : Nat → α) (p : Nat → Bool) (src dst : List (Nat × α)) : List (Nat × α) :=
  let keep := dst.filter fun c => !p c.1
  (src.filter fun c => p c.1).foldl (fun m c => put dflt m c.1 c.2) keep

end Cells

/-- What a byte of an SRAM that nothing has written reads as: zero. DESIGN CHOICE (log 3). -/
def zeroByte (_ : Nat) : Byte := 0

/-- The canonical form of an SRAM's bytes. -/
def Memory.wf (m : List Host.Cell) : Bool := Cells.wf zeroByte m

/-! ### The register table -/

/-- The row's indices at an address, if the address is one of the row's. -/
def RegRow.index (r : RegRow) (a : Nat) : Option (Nat × Nat) :=
  let off := a - r.base
  let i := off / r.s1
  let rem := off - i * r.s1
  let j := rem / r.s2
  if r.base ≤ a ∧ i < r.n1 ∧ j < r.n2 ∧ rem = j * r.s2 then some (i, j) else none

def findRow (a : Nat) : List RegRow → Option (RegRow × Nat × Nat)
  | [] => none
  | r :: rs => match r.index a with
    | some (i, j) => some (r, i, j)
    | none => findRow a rs

/-- The table row of a register address: one of its block's rows (R696). -/
def regRow (a : Nat) : Option (RegRow × Nat × Nat) := findRow a (blockRows (a / 0x10000))

/-- The word a register reads after its domain powers up (R700). -/
def regReset (a : Nat) : Word :=
  match regRow a with
  | some (r, i, j) => BitVec.ofNat 32 (r.reset + r.r1 * i + r.r2 * j)
  | none => 0

/-- The default of stores that start at zero: holding copies, latches. -/
def zeroWord (_ : Nat) : Word := 0

/-- The field of a word. -/
def getBits (v : Word) (f : Fld) : Nat := v.toNat / 2 ^ f.lo % 2 ^ f.w

/-- The word with the field set; bits of `x` beyond the field are dropped. -/
def putBits (v : Word) (f : Fld) (x : Nat) : Word :=
  BitVec.ofNat 32
    (v.toNat / 2 ^ (f.lo + f.w) * 2 ^ (f.lo + f.w) + x % 2 ^ f.w * 2 ^ f.lo + v.toNat % 2 ^ f.lo)

end Sys2Proof.Machine
end

