-- ==== Sys2Proof/Machine/InnerCode.lean ====
section
/-! DEFINITION. The inner code (chapter 4): CRC-6, column rule, Hamming step, the Chase decoder and its modes, over a
leaf's 288 bits as a list with t = 0 first. -/

namespace Sys2Proof.Machine

/-- One step of the CRC-6 of R127. -/
def crc6Step (crc : Nat) (p : Bool) : Nat :=
  let fb := (crc.testBit 5) != p
  let s := crc * 2 % 64
  if fb then s ^^^ 3 else s

/-- The CRC-6 of a payload, as the number c[5..0] (R127). -/
def crc6 (p : List Bool) : Nat := p.foldl crc6Step 0

/-- The column indices of the 278 message bits: the positive integers that are no power of two, rising (R128). -/
def messageColumns : List Nat := (List.range 288).filter fun n => n &&& (n - 1) != 0

/-- The column index of leaf bit t, for t = 0 to 286 (R128). -/
def column (t : Nat) : Nat := if t < 278 then messageColumns.getD t 0 else 2 ^ (t - 278)

/-- The columns of t = 0 to 286 in order. -/
def columns : List Nat := messageColumns ++ (List.range 9).map fun k => 2 ^ k

/-- The leaf bit with column index s (R128). -/
def position (s : Nat) : Nat := if s &&& (s - 1) = 0 then 278 + s.log2 else s - s.log2 - 2

/-- XOR of the column indices of the positions that hold a 1 (R129). -/
def syndromeOver : List Nat → List Bool → Nat
  | c :: cs, b :: bs => (if b then c else 0) ^^^ syndromeOver cs bs
  | _, _ => 0

/-- The syndrome of a word at t = 0 to 286 (R129). -/
def syndrome (w : List Bool) : Nat := syndromeOver columns w

/-- Odd number of ones. -/
def oddParity (w : List Bool) : Bool := w.foldl xor false

/-- The inner codeword of a 272-bit scrambled payload (R126 to R130). -/
def innerEncode (p : List Bool) : List Bool :=
  let msg := p ++ bitsOf 6 (crc6 p)
  let s := syndrome msg
  let word := msg ++ (List.range 9).map fun k => s.testBit k
  word ++ [oddParity word]

/-- A word with bit t inverted. -/
def flipBit (w : List Bool) (t : Nat) : List Bool := w.modify t not

/-- The Hamming step of R131 on a 288-bit test word: the candidate, if any. -/
def hammingStep (w : List Bool) : Option (List Bool) :=
  let s := syndrome (w.take 287)
  let odd := oddParity w
  if s = 0 then some (if odd then flipBit w 287 else w)
  else if s ≤ 287 then (if odd then some (flipBit w (position s)) else none)
  else none

/-- R132: the candidate's CRC-6 matches. -/
def crcOk (w : List Bool) : Bool := bitsOf 6 (crc6 (w.take 272)) == (w.drop 272).take 6

/-- The n least reliable positions, ties to the lower t (R136). -/
def leastReliable (n : Nat) (rel : List Nat) : List Nat :=
  let go := (List.range n).foldl (fun (acc : List Nat) _ =>
    let free := (List.range rel.length).filter fun t => !acc.contains t
    match free with
    | [] => acc
    | t0 :: ts => acc ++ [ts.foldl (fun b t => if rel.getD t 0 < rel.getD b 0 then t else b) t0]) []
  go

/-- Test pattern b (R137). -/
def testPattern (hard : List Bool) (r : List Nat) (b : Nat) : List Bool :=
  (List.range r.length).foldl (fun w j => if b.testBit j then flipBit w (r.getD j 0) else w) hard

/-- The reliability sum over the bits in which a candidate differs from the hard decisions (R139). -/
def metric (hard c : List Bool) (rel : List Nat) : Nat :=
  (((hard.zip c).zip rel).map fun x => if x.1.1 == x.1.2 then 0 else x.2).sum

/-- Bits in which two words differ. -/
def distance (a b : List Bool) : Nat := ((a.zip b).filter fun x => x.1 != x.2).length

/-- What a decode gives: the 272 delivered bits, uncorrectable or not, the number of bits changed, the pattern of the
selected candidate, and the distinct candidates the CRC rejected (R142, R147, R148). -/
structure Decoded where
  bits   : List Bool
  bad    : Bool
  change : Nat
  pat    : Nat
  rej    : Nat
  deriving DecidableEq, Repr

/-- The search of R138 to R140 over the patterns, in order. -/
structure Search where
  seen : List (List Bool)
  best : Option (List Bool × Nat × Nat)
  rej  : Nat

def searchStep (hard : List Bool) (rel : List Nat) (r : List Nat) (st : Search) (b : Nat) : Search :=
  match hammingStep (testPattern hard r b) with
  | none => st
  | some c =>
    if st.seen.contains c then st
    else
      let seen := c :: st.seen
      if crcOk c then
        let m := metric hard c rel
        match st.best with
        | none => { st with seen := seen, best := some (c, m, b) }
        | some (_, m', _) =>
          if m < m' then { st with seen := seen, best := some (c, m, b) } else { st with seen := seen }
      else { st with seen := seen, rej := st.rej + 1 }

/-- Reliable bits flipped in each mode (R133). -/
def chaseBits (mode : Nat) : Nat := if mode = 0 then 4 else if mode = 1 then 3 else 0

/-- The decoder of R133 to R142. Reliabilities are read in modes 0 and 1 only. -/
def innerDecode (mode : Nat) (hard : List Bool) (rel : List Nat) : Decoded :=
  if mode = 3 then
    let clean := syndrome (hard.take 287) == 0 && !oddParity hard && crcOk hard
    ⟨hard.take 272, !clean, 0, 0, 0⟩
  else
    let n := chaseBits mode
    let r := leastReliable n rel
    let st := (List.range (2 ^ n)).foldl (searchStep hard rel r) ⟨[], none, 0⟩
    match st.best with
    | some (c, _, b) => ⟨c.take 272, false, distance hard c, b, st.rej⟩
    | none => ⟨hard.take 272, true, 0, 0, st.rej⟩

end Sys2Proof.Machine
end

