-- ==== Sys2Proof/Machine/Line.lean ====
section
/-! DEFINITION. The native line format (chapter 3) as functions of bits and symbols: Gray mapping, precoding, quire
layout, interleave, scrambler, marker content and CRC-16, pilots. -/

namespace Sys2Proof.Machine

/-- The symbol value of a bit pair (R85). -/
def symbolOf : Bool → Bool → Nat
  | false, false => 0
  | false, true => 1
  | true, true => 2
  | true, false => 3

/-- The bit pair of a symbol value (R85). -/
def symbolBits (x : Nat) : Bool × Bool := (x % 4 == 2 || x % 4 == 3, x % 4 == 1 || x % 4 == 2)

/-- The level of a symbol value (R85). -/
def symbolLevel (x : Nat) : Int := 2 * (x % 4 : Nat) - 3

/-- The symbol values of a leaf's bits, in order (R84). -/
def leafSymbols : List Bool → List Nat
  | a :: b :: r => symbolOf a b :: leafSymbols r
  | _ => []

/-- Precoding (R87): y[m] = (x[m] − y[m−1]) mod 4 over a leaf, from the y before it. -/
def precode : Nat → List Nat → List Nat
  | _, [] => []
  | y, x :: xs => let z := (x + 4 - y % 4) % 4; z :: precode z xs

/-! ### Quire layout (R91) -/

inductive SlotKind where
  | data (d : Nat) | marker (j : Nat) | stitch (w : Nat) | pilot (m : Nat)
  deriving DecidableEq, Repr

/-- The kind of leaf slot i of a quire (R91). -/
def slotKind (i : Nat) : SlotKind :=
  let k := i / 257
  let r := i % 257
  if r ≤ 255 then .data (256 * k + r)
  else if k % 8 = 0 then .marker (k / 8)
  else if k % 8 = 1 then .stitch (k / 8)
  else .pilot (6 * (k / 8) + k % 8 - 2)

/-- Leaf slots of a quire (R29). -/
def quireSlots : Nat := 16448

/-- The host bit number q that the interleave of R97 puts at payload bit `i` of an entry's 136, in leaf `l` of a block. -/
def interleaveSource (l i : Nat) : Nat := 34 * (4 * (i / 34) + l) + i % 34

/-- The leaf of a block that carries entry bit q (R97). -/
def leafOfBit (q : Nat) : Nat := q / 34 % 4

/-- An entry's 136 payload bits of leaf `l` of the block with host bits `b`, bit q = 0 the first (R97). -/
def entryShare (b : BitVec 544) (l : Nat) : List Bool :=
  (List.range 136).map fun i => b.getLsbD (interleaveSource l i)

/-! ### Scrambler (R99 to R102) -/

def scramblerSeed (lane : Nat) (lqn : BitVec 24) : BitVec 58 :=
  BitVec.ofNat 58 (lane % 8 * 2 ^ 55 + 0x3A5C96E1 * 2 ^ 24 + lqn.toNat)

def scramblerOut (s : BitVec 58) : Bool := xor (s.getLsbD 57) (s.getLsbD 38)

def scramblerStep (s : BitVec 58) : BitVec 58 := (s <<< 1) ||| BitVec.ofNat 58 (scramblerOut s).toNat

/-- Scramble bits, and the generator state after them. Descrambling is the same function (R99). -/
def scramble : BitVec 58 → List Bool → List Bool × BitVec 58
  | s, [] => ([], s)
  | s, b :: bs =>
    let r := scramble (scramblerStep s) bs
    (xor b (scramblerOut s) :: r.1, r.2)

/-- The state after n steps: the jump of R103 for a receiver that locks in mid-quire. -/
def scramblerJump : Nat → BitVec 58 → BitVec 58
  | 0, s => s
  | n + 1, s => scramblerJump n (scramblerStep s)

/-- Scrambled leaves (data and stitch) in slots 0 to i − 1 of a quire. -/
def scrambledBefore (i : Nat) : Nat :=
  let k := i / 257
  256 * k + i % 257 + (k + 6) / 8

/-! ### Markers (R104 to R107) -/

/-- The 64 sync symbol bits of R104, first symbol first. -/
def syncBits : List Bool := bitsOf 64 0x0F5AC3E196B24D78

/-- The fields of a marker's content c[79:16] (R106). -/
structure MarkerContent where
  lqn  : BitVec 24
  lane : BitVec 3
  mesh : BitVec 16
  src  : BitVec 16
  ver  : BitVec 4
  deriving DecidableEq, Repr

/-- c[79:16] as bits, c[79] first; the reserved bit is sent 0 (R106). -/
def markerHead (c : MarkerContent) : List Bool :=
  bitsOf 24 c.lqn.toNat ++ bitsOf 3 c.lane.toNat ++ [false] ++ bitsOf 16 c.mesh.toNat ++ bitsOf 16 c.src.toNat
    ++ bitsOf 4 c.ver.toNat

/-- The 80 content bits of marker index j (R106, R107). -/
def markerBits (c : MarkerContent) (j : Nat) : List Bool :=
  markerHead c ++ bitsOf 16 (crc16 (markerHead c ++ bitsOf 3 j))

/-- The 288 bits of a marker leaf (R104, R105). -/
def markerLeaf (c : MarkerContent) (j : Nat) : List Bool :=
  (syncBits.flatMap fun b => [b, false]) ++ markerBits c j ++ markerBits c j

/-- The content of received c[79:16]; the reserved bit is ignored (R106). -/
def readContent (b : List Bool) : MarkerContent :=
  ⟨BitVec.ofNat 24 (ofBits (b.take 24)), BitVec.ofNat 3 (ofBits ((b.drop 24).take 3)),
   BitVec.ofNat 16 (ofBits ((b.drop 28).take 16)), BitVec.ofNat 16 (ofBits ((b.drop 44).take 16)),
   BitVec.ofNat 4 (ofBits ((b.drop 60).take 4))⟩

/-- The index, if any, for which 80 received content bits pass the CRC (R107, R108). -/
def contentIndex (b : List Bool) : Option Nat :=
  (List.range 8).find? fun j => crc16 (b.take 64 ++ bitsOf 3 j) == ofBits (b.drop 64)

/-- How a detected marker is classified (R109). -/
inductive MarkerClass where
  | strong (j : Nat) (c : MarkerContent)
  | weak (j : Nat) (c : MarkerContent)
  | invalid
  deriving DecidableEq, Repr

/-- At most 6 of the 64 sync symbols differ from R104 under hard decision (R108). -/
def syncFound (bits : List Bool) : Bool :=
  decide ((((leafSymbols (bits.take 128)).zip syncBits).filter fun x => x.1 != (if x.2 then 3 else 0)).length ≤ 6)

/-- The class of a detected marker leaf's bits (R109). -/
def classifyMarker (bits : List Bool) : MarkerClass :=
  let a := (bits.drop 128).take 80
  let b := (bits.drop 208).take 80
  match contentIndex a, contentIndex b with
  | some i, some j => if i = j ∧ a = b then .strong i (readContent a) else .invalid
  | some i, none => .weak i (readContent a)
  | none, some j => .weak j (readContent b)
  | none, none => .invalid

/-! ### Pilots (R117) -/

/-- The PRBS13 state as s[n−1] … s[n−13], latest first, and the next n bits. -/
def prbs13 : Nat → List Bool → List Bool
  | 0, _ => []
  | n + 1, st =>
    let b := xor (xor (st.getD 0 false) (st.getD 1 false)) (xor (st.getD 11 false) (st.getD 12 false))
    b :: prbs13 n (b :: st.take 12)

/-- s[0 .. n−1] of R117: thirteen ones, then the recurrence. -/
def pilotSequence (n : Nat) : List Bool := (List.replicate 13 true ++ prbs13 (n - 13) (List.replicate 13 true)).take n

/-- The 288 bits of pilot leaf m (R117). -/
def pilotLeaf (m : Nat) : List Bool := (pilotSequence (288 * m + 288)).drop (288 * m)

/-! ### Host bits -/

/-- Polarity inversion complements the first bit of each host symbol (R56); `odd` when the list starts at a second bit. -/
def invertBits (inv odd : Bool) (bits : List Bool) : List Bool :=
  if inv then ((List.range bits.length).zip bits).map fun p => xor p.2 (p.1 % 2 == odd.toNat) else bits

/-- An entry's 544 host bits of a block from the payloads of its four leaves: the inverse of the map of R97. `off` is 0 for
entry A and 136 for entry B. -/
def deinterleave (off : Nat) (leaves : List (BitVec 272)) : List Bool :=
  (List.range 544).map fun q => (leaves.getD (leafOfBit q) 0).getMsbD (off + 34 * (q / 136) + q % 34)

/-- Host bits that enter a compatibility lane in the slice clocks before clock `i` of the 121 in which 32,640 enter (R17,
R32). -/
def compatHostBits (i : Nat) : Nat := i * 32640 / 121

/-! ### PRBS31 fill (R53): x^31 + x^28 + 1 -/

def prbs31Step (s : BitVec 31) : Bool × BitVec 31 :=
  let b := xor (s.getLsbD 30) (s.getLsbD 27)
  (b, (s <<< 1) ||| BitVec.ofNat 31 b.toNat)

def prbs31 : Nat → BitVec 31 → List Bool × BitVec 31
  | 0, s => ([], s)
  | n + 1, s => let (b, s') := prbs31Step s; let r := prbs31 n s'; (b :: r.1, r.2)

end Sys2Proof.Machine
end

