-- ==== Sys2Proof/Machine/Dsp.lean ====
section
/-! DEFINITION. The sample arithmetic of chapters 5 to 7: transmit FFE, tone, trim correction, receive FFE, decisions,
the soft-output MLSE, timing detector and gradients. Units: corrected samples in 1/4 LSB, u in 1/2 LSB, level table and
h1 in 2^−16 LSB, errors in 2^−32 LSB, branch metrics in 2^−64 LSB². -/

namespace Sys2Proof.Machine

/-! ### Transmit FFE and tone -/

/-- The signed taps C0 to C8 and MAIN of the three FFE words (R161). -/
def ffeTaps (ffe : List Word) : List Int :=
  ((List.range 9).map fun k => signed 8 (((ffe.getD (k / 4) 0).toNat / 2 ^ (8 * (k % 4))) % 256))

def ffeMain (ffe : List Word) : Nat := (ffe.getD 2 0).toNat / 256 % 16

/-- idx before the clamp for each level of a slot (R161, R163), from the 8 levels before it and those after it. -/
def ffeRaw (ffe : List Word) (before levels after : List Int) : List Int :=
  let seq := before ++ levels ++ after
  let c := ffeTaps ffe
  let main := ffeMain ffe
  (List.range levels.length).map fun j =>
    (((List.range 9).map fun k => c.getD k 0 * seq.getD (before.length + j + main - k) 0).sum + 1) / 2

/-- Entry e of a nonlinearity table of 64 words (R166). -/
def nltEntry (nlt : List Word) (e : Nat) : Nat := (nlt.getD (e / 4) 0).toNat / 2 ^ (8 * (e % 4)) % 256

/-- The DAC code of an index (R166). -/
def dacCode (byp : Bool) (nlt : List Word) (idx : Int) : Nat :=
  let e := (clampI (-128) 127 idx + 128).toNat
  if byp then e else nltEntry nlt e

/-- sin(π(2i+1)/4096)·10^30 by its series, to within a few units (R189). -/
def sineScaled (i : Nat) : Int :=
  let one : Int := 10 ^ 30
  let x : Int := 3141592653589793238462643383280 * (2 * i + 1) / 4096
  let xx := x * x / one
  ((List.range 16).foldl (fun (acc : Int × Int) k =>
    (acc.1 + acc.2, -(acc.2 * xx / one) / ((2 * k + 2) * (2 * k + 3)))) (0, x)).1

/-- Q[i] of R189. -/
def toneTable (i : Nat) : Int := roundUp (1023 * sineScaled i) (10 ^ 30)

/-- S of R189 for a phase. -/
def toneSine (phase : BitVec 32) : Int :=
  let q := phase.toNat / 2 ^ 30
  let i := phase.toNat / 2 ^ 20 % 1024
  if q = 0 then toneTable i else if q = 1 then toneTable (1023 - i)
  else if q = 2 then -toneTable i else -toneTable (1023 - i)

/-- The tone term t of R190. -/
def toneTerm (amp : Nat) (phase : BitVec 32) : Int := (amp : Int) * toneSine phase / 1024

/-- Tone insertion on one code (R185, R190). -/
def toneCode (mode amp : Nat) (phase : BitVec 32) (code : Nat) : Nat :=
  if mode = 1 then (clampI 0 255 (code + toneTerm amp phase)).toNat
  else if mode = 2 then (128 + toneTerm amp phase).toNat
  else code

/-! ### Trim correction (R211) -/

/-- The corrected sample in 1/4 LSB of raw code x under a trim word. -/
def corrected (byp : Bool) (trim : Word) (x : Nat) : Int :=
  let ofs := signed 8 (trim.toNat % 256)
  let gain := signed 10 (trim.toNat / 256 % 1024)
  if byp then 4 * ((x : Int) - 128)
  else clampI (-512) 511 ((2 * ((16 * ((x : Int) - 128) - ofs) * (4096 + gain)) + 16384) / 32768)

/-! ### Receive FFE and level table -/

/-- Tap value of a 24-bit accumulator: its upper 10 bits (R257). -/
def tapOf (acc : Int) : Int := acc / 16384

/-- First active tap and tap count of a profile (R239). -/
def profileTaps (prof : Nat) : Nat := if prof = 3 then 48 else if prof = 2 then 32 else if prof = 1 then 24 else 16

def firstTap (prof main : Nat) : Nat := main - profileTaps prof * main / 48

def tapActive (prof main k : Nat) : Bool :=
  decide (firstTap prof main ≤ k ∧ k < firstTap prof main + profileTaps prof)

/-- u[m] in 1/2 LSB (R238): `before` holds 47 samples, oldest first, `i` is the symbol's index in `seq`. -/
def ffeOut (taps : List Int) (main : Nat) (seq : List Int) (i : Nat) : Int :=
  let s := ((List.range 48).map fun k => if i + main < k then 0 else tapOf (taps.getD k 0) * seq.getD (i + main - k) 0).sum
  clampI (-256) 255 ((s + 256) / 512)

/-- λ[y] in 2^−16 LSB (R241). -/
def levelTable (a : Adapt) (y : Nat) : Int :=
  if y = 0 then -48 * 65536 else if y = 1 then a.l1 else if y = 2 then a.l2 else 48 * 65536

/-- The decision of R242 on u given ŷ[m−1]: nearest level, the lower of two. -/
def decide242 (a : Adapt) (u : Int) (y : Nat) : Nat :=
  let w := u * 2 ^ 31 - a.h1 * levelTable a y
  let dist (v : Nat) : Nat := (w - levelTable a v * 65536).natAbs
  [1, 2, 3].foldl (fun b v => if dist v < dist b then v else b) 0

/-- The model error of R255 in 2^−32 LSB for decided value y after y′. -/
def modelError (a : Adapt) (u : Int) (y y' : Nat) : Int :=
  levelTable a y * 65536 + a.h1 * levelTable a y' - u * 2 ^ 31

/-! ### The MLSE (R243 to R245) -/

/-- γ of branch (y′, y) (R243), in 2^−64 LSB². -/
def branchMetric (a : Adapt) (u : Int) (y' y : Nat) : Nat := (modelError a u y y').natAbs ^ 2

def min4 (f : Nat → Int) : Int := min (min (f 0) (f 1)) (min (f 2) (f 3))

/-- F at the next symbol from F at this one. -/
def pathStep (a : Adapt) (f : List Int) (u : Int) : List Int :=
  (List.range 4).map fun y => min4 fun y' => f.getD y' 0 + branchMetric a u y' y

/-- B(y): the smallest metric from state y over the symbols `us`, each with the h1 and levels it is received with (R244). -/
def lookAhead (us : List (Adapt × Int)) (y : Nat) : Int :=
  (us.foldr (fun u (b : List Int) =>
    (List.range 4).map fun y' => min4 fun z => branchMetric u.1 u.2 y' z + b.getD z 0) [0, 0, 0, 0]).getD y 0

/-- The label of a branch: the precoding undone when PRE_RX is live (R243). -/
def branchLabel (pre : Bool) (y' y : Nat) : Nat := if pre then (y + y') % 4 else y

/-- Of 16 branches in the order y, then y′, with their totals: the decided branch, ties to the lower y then y′. -/
def mlseSymbol (a : Adapt) (pre : Bool) (rscale : Nat) (f : List Int) (u : Int) (ahead : List (Adapt × Int)) :
    Nat × Nat × Nat × Nat :=
  let b := (List.range 4).map (lookAhead ahead)
  let total (y' y : Nat) : Int := f.getD y' 0 + branchMetric a u y' y + b.getD y 0
  let all := (List.range 4).flatMap fun y => (List.range 4).map fun y' => (y', y)
  let best := all.foldl (fun p q => if total q.1 q.2 < total p.1 p.2 then q else p) (0, 0)
  let x := branchLabel pre best.1 best.2
  let low := total best.1 best.2
  let rel (differs : Nat → Bool) : Nat :=
    let others := all.filter fun q => differs (branchLabel pre q.1 q.2)
    let m := others.foldl (fun acc q => min acc (total q.1 q.2)) (total (others.headD best).1 (others.headD best).2)
    min 15 ((m - low).toNat / (max 1 rscale * 2 ^ 64))
  (best.2, x, rel fun z => (symbolBits z).1 != (symbolBits x).1, rel fun z => (symbolBits z).2 != (symbolBits x).2)

/-! ### Timing detector (R247, R248) -/

/-- e_t in 2^−17 LSB² from u, ŷ of this symbol and the one before. -/
def timingError (a : Adapt) (u : Int) (y : Nat) (u' : Int) (y' : Nat) : Int :=
  u * levelTable a y' - u' * levelTable a y

/-- r of R248 for the integrator I and sum E, both in 2^−17 LSB². -/
def timingRequest (kp ki : Nat) (E I : Int) : Int :=
  clampI (-4) 4 (roundAway (E * 2 ^ ki + I * 2 ^ kp) (2 ^ (kp + ki + 17)))

/-- One phase-code step by the shorter way round toward a target, at most 4 (R205). DESIGN CHOICE (log 39): where both ways
are 32 steps, upward. -/
def slewStep (phase target : Nat) : Nat :=
  let up := (target + 64 - phase) % 64
  if up ≤ 32 then (phase + min 4 up) % 64 else (phase + 64 - min 4 (64 - up)) % 64

end Sys2Proof.Machine
end

