-- ==== Sys2Proof/Machine/Flags.lean ====
section
/-! DEFINITION. Status and fields: reading and writing register fields of the device, counters, raising events. -/

namespace Sys2Proof.Machine

namespace Dev

/-! ### Words and fields -/

/-- The word of a register. -/
def reg (d : Dev) (a : Nat) : Word := Cells.get regReset d.regs a

def setReg (a : Nat) (v : Word) (d : Dev) : Dev := { d with regs := Cells.put regReset d.regs a v }

/-- A field of a register word. -/
def fld (d : Dev) (f : Fld) : Nat := getBits (d.reg f.addr) f

def setFld (f : Fld) (x : Nat) (d : Dev) : Dev := d.setReg f.addr (putBits (d.reg f.addr) f x)

/-- A one-bit field is 1. -/
def on (d : Dev) (f : Fld) : Bool := d.fld f == 1

def setOn (f : Fld) (b : Bool) (d : Dev) : Dev := d.setFld f b.toNat

/-- The live value of an RB field (R517). -/
def liveWord (d : Dev) (a : Nat) : Word := Cells.get regReset d.live a

def lv (d : Dev) (f : Fld) : Nat := getBits (d.liveWord f.addr) f

def lvOn (d : Dev) (f : Fld) : Bool := d.lv f == 1

def setLive (a : Nat) (v : Word) (d : Dev) : Dev := { d with live := Cells.put regReset d.live a v }

/-- A signed field. -/
def sfld (d : Dev) (f : Fld) : Int := signed f.w (d.fld f)

def slv (d : Dev) (f : Fld) : Int := signed f.w (d.lv f)

/-! ### Counters -/

/-- A 32-bit counter advances by n, wrapping. -/
def bumpBy (a n : Nat) (d : Dev) : Dev := d.setReg a (d.reg a + BitVec.ofNat 32 n)

def bump (a : Nat) (d : Dev) : Dev := d.bumpBy a 1

/-- The value of a 48-bit counter whose LO word is at `a` and whose HI word follows it. -/
def count48 (d : Dev) (a : Nat) : Nat := (d.reg (a + 4)).toNat % 65536 * 2 ^ 32 + (d.reg a).toNat

/-- Set a 48-bit counter. -/
def set48 (a n : Nat) (d : Dev) : Dev :=
  (d.setReg a (BitVec.ofNat 32 n)).setReg (a + 4) (BitVec.ofNat 32 (n / 2 ^ 32 % 65536))

/-- A 48-bit counter advances by n, wrapping. -/
def bump48By (a n : Nat) (d : Dev) : Dev := d.set48 a (d.count48 a + n)

def bump48 (a : Nat) (d : Dev) : Dev := d.bump48By a 1

/-- A field used as a counter advances, modulo its width (R537). -/
def bumpFld (f : Fld) (d : Dev) : Dev := d.setFld f (d.fld f + 1)

/-! ### Events -/

/-- Raise an event of a block (number b of R696), with its lane field. It is queued when the command ends. -/
def raise (blk code lane : Nat) (d : Dev) : Dev := { d with raised := d.raised ++ [⟨blk, code, lane⟩] }

/-- Apply f when c holds. -/
def when (c : Bool) (f : Dev → Dev) (d : Dev) : Dev := if c then f d else d

/-- Apply f for each element, in order. -/
def each {α : Type} (l : List α) (f : α → Dev → Dev) (d : Dev) : Dev := l.foldl (fun d x => f x d) d

/-! ### Lanes -/

def lane (d : Dev) (n : Lane) : LaneSt := d.lanes[n]

def modLane (n : Lane) (f : LaneSt → LaneSt) (d : Dev) : Dev := { d with lanes := d.lanes.set n (f d.lanes[n]) }

def modTx (n : Lane) (f : TxSt → TxSt) (d : Dev) : Dev := d.modLane n fun l => { l with tx := f l.tx }

def modRx (n : Lane) (f : RxSt → RxSt) (d : Dev) : Dev := d.modLane n fun l => { l with rx := f l.rx }

def modDsp (n : Lane) (f : Dsp → Dsp) (d : Dev) : Dev := d.modLane n fun l => { l with dsp := f l.dsp }

def modMs (n : Lane) (f : Meas → Meas) (d : Dev) : Dev := d.modLane n fun l => { l with ms := f l.ms }

def modAd (n : Lane) (f : Adapt → Adapt) (d : Dev) : Dev := d.modLane n fun l => { l with ad := f l.ad }

def modFr (n : Lane) (f : Frame → Frame) (d : Dev) : Dev := d.modLane n fun l => { l with fr := f l.fr }

def modBrl (n : Lane) (f : BrlSt → BrlSt) (d : Dev) : Dev := d.modLane n fun l => { l with brl := f l.brl }

def modCal (n : Lane) (i : Fin 4) (f : CalItem → CalItem) (d : Dev) : Dev :=
  d.modLane n fun l => { l with cal := l.cal.set i (f l.cal[i]) }

def modHost (h : HostLane) (f : HostSt → HostSt) (d : Dev) : Dev := { d with host := d.host.set h (f d.host[h]) }

def modSpr (f : SprSt → SprSt) (d : Dev) : Dev := { d with spr := f d.spr }

def modMsh (f : MshSt → MshSt) (d : Dev) : Dev := { d with msh := f d.msh }

/-- Lanes 0 to 7 in order. -/
def allLanes : List Lane := List.finRange 8

/-- Take a free value. -/
def takeFree (d : Dev) : Word × Dev := (Config.free d.freeCtr, { d with freeCtr := d.freeCtr + 1 })

end Dev

/-! Block numbers b of R696. -/
namespace Blk
abbrev sys : Nat := 0
abbrev pwr : Nat := 1
abbrev thm : Nat := 2
abbrev clk : Nat := 3
abbrev hst : Nat := 4
abbrev map : Nat := 5
abbrev fec : Nat := 6
abbrev lane : Nat := 17
abbrev brl : Nat := 18
abbrev cal : Nat := 19
abbrev spr : Nat := 20
abbrev msh : Nat := 21
abbrev hkp : Nat := 22
abbrev dma : Nat := 23
abbrev ecc : Nat := 24
abbrev bst : Nat := 25
abbrev cnt : Nat := 26
abbrev mgt : Nat := 27
abbrev sec : Nat := 28
abbrev nvm : Nat := 29
abbrev flt : Nat := 30
end Blk

end Sys2Proof.Machine
end

