-- ==== Sys2Proof/Machine/Ops.lean ====
section
/-! DEFINITION. The named operations several commands share: lane and stream queries, the collation ledgers, host
signals, and the fault windows' charge. -/

namespace Sys2Proof.Machine

/-- A key slot shows as enrolled: its seal is blown and its CRC matches (R645). -/
def OtpSlot.enrolled (k : OtpSlot) : Bool := k.sealed && k.crc == keyCrc k.bits

/-- The life-cycle state of the next start: the highest whose seal is blown (R645). -/
def SecSt.lcAtStart (s : SecSt) : Nat := max s.lc (s.lcNext.getD 0)

namespace Dev

/-! ### Power and lane state -/

/-- `PWR.STAT.DSTATE` codes; 0 and 1 stand for OFF and HOLD, in which no master reads the field. -/
abbrev stOFF : Nat := 0
abbrev stHOLD : Nat := 1
abbrev stREST : Nat := 2
abbrev stSTANDBY : Nat := 3
abbrev stACTIVE : Nat := 4
abbrev stToSTANDBY : Nat := 5
abbrev stToACTIVE : Nat := 6

def dstate (d : Dev) : Nat := d.fld F.PWR_STAT_DSTATE

/-- The data path is up: ACTIVE, also while STANDBY is being entered (R572). -/
def active (d : Dev) : Bool := d.dstate == stACTIVE || d.dstate == stToSTANDBY

/-- The state field of lane n in `PWR.LANE_STAT`: 0 LANE-OFF, 1 DOZE, 2 RUN (R575). -/
def laneStat (n : Lane) : Fld := ⟨R.PWR_LANE_STAT, 2 * n, 2⟩

def inRun (d : Dev) (n : Lane) : Bool := d.fld (laneStat n) == 2

/-- The bit of `PWR.DOM` of each domain (R569, R601). -/
def domBit : Dom → Fld
  | .slc s => ⟨R.PWR_DOM, s, 1⟩
  | .lfe n => ⟨R.PWR_DOM, 9 + n, 1⟩
  | .hg k => ⟨R.PWR_DOM, 17 + k, 1⟩
  | .msh => F.PWR_DOM_MSH
  | .mgt => F.PWR_DOM_MGT
  | .aon => F.PWR_DOM_AON

def domOn (d : Dev) (x : Dom) : Bool := d.on (domBit x)

/-- The slice that carries a lane, 0xF none (R38). -/
def assignOf (n : Lane) : Fld := ⟨R.SPR_ASSIGN, 4 * n, 4⟩

def carrier (d : Dev) (n : Lane) : Nat := d.fld (assignOf n)

def carried (d : Dev) (n : Lane) : Bool := d.carrier n != 15

/-- The lane a slice carries, if any; a lane outside RUN has no slice (R38). -/
def laneOf (d : Dev) (s : Nat) : Option Lane := allLanes.find? fun n => d.inRun n && d.carrier n == s

/-- The full self-test is under way (R673). -/
def fullRunning (d : Dev) : Bool := d.fld F.BST_FULL_STATE == 1

/-! ### Mapping (R57 to R60) -/

def mapMode (d : Dev) : Nat := d.lv F.MAP_MODE_MODE

/-- Every active lane runs in native mode (R58). -/
def native (d : Dev) : Bool := decide (d.mapMode < 4)

/-- Compatibility slice clocks in the first q of 15 quires (R17). -/
def compatClocks (q : Nat) : Nat := 123904 * q / 15

/-- Slice clocks of the quire in progress: a leaf slot each, or the compatibility PLL's share of 123,904 in 15 quires
(R17, R25). -/
def quireClocks (d : Dev) : Nat :=
  if d.native then 16448 else compatClocks (d.clk.compatQ + 1) - compatClocks d.clk.compatQ

/-- Slice clocks of the quire before it. -/
def endedClocks (d : Dev) : Nat := { d with clk := { d.clk with compatQ := (d.clk.compatQ + 14) % 15 } }.quireClocks

/-- Lane n's front end has a slice clock of the quire to come: ACTIVE, with the tick running (R17, R86, R91). -/
def slotOpen (d : Dev) (n : Lane) : Bool :=
  d.active && d.on F.CLK_STAT_TICK_RUN && decide ((d.lane n).tx.slot < d.quireClocks)

/-- Mode 4 stream width (R57). -/
def compatWidth (d : Dev) : Nat := 2 ^ d.lv F.MAP_MODE_CWIDTH

def streamCount (d : Dev) : Nat :=
  if d.mapMode = 0 then 2 else if d.mapMode = 1 then 4 else if d.mapMode = 2 then 8
  else if d.mapMode = 3 then 16 else 8 / d.compatWidth

/-- The stream of entry e (0 A, 1 B) of lane n (R57). -/
def streamOf (d : Dev) (n : Lane) (e : Nat) : Nat :=
  if d.mapMode = 0 then n / 4 else if d.mapMode = 1 then n / 2 else if d.mapMode = 2 then n
  else if d.mapMode = 3 then 2 * n + e else n / d.compatWidth

/-- The entries of a remap register that the mode reads. -/
def entries (d : Dev) : List Nat := if d.native then [0, 1] else [0]

/-- The streams a lane's leaf counts in, each once (R76). -/
def laneStreams (d : Dev) (n : Lane) : List Nat := ((d.entries).map (d.streamOf n)).dedup

def streamLanes (d : Dev) (s : Nat) : List Lane := allLanes.filter fun n => (d.laneStreams n).contains s

def rxField (n : Lane) (e : Nat) : Fld := if e = 0 then F.MAP_REMAP_RXA n else F.MAP_REMAP_RXB n
def txField (n : Lane) (e : Nat) : Fld := if e = 0 then F.MAP_REMAP_TXA n else F.MAP_REMAP_TXB n

/-- The host lane carried as entry e of lane n, and the one fed by it (R57). -/
def rxHost (d : Dev) (n : Lane) (e : Nat) : HostLane := Fin.ofNat 16 (d.lv (rxField n e))
def txHost (d : Dev) (n : Lane) (e : Nat) : HostLane := Fin.ofNat 16 (d.lv (txField n e))

/-- (lane, entry) pairs of a stream. -/
def streamEntries (d : Dev) (s : Nat) : List (Lane × Nat) :=
  (allLanes.flatMap fun n => d.entries.map fun e => (n, e)).filter fun p => d.streamOf p.1 p.2 == s

/-- The stream that carries a host receive lane. -/
def streamOfHost (d : Dev) (h : HostLane) : Option Nat :=
  ((allLanes.flatMap fun n => d.entries.map fun e => (n, e)).find? fun p => d.rxHost p.1 p.2 == h).map
    fun p => d.streamOf p.1 p.2

/-- A host lane is in use when a live remap field that the mode reads names it (R50). -/
def hostInUse (d : Dev) (h : HostLane) : Bool :=
  allLanes.any fun n => d.entries.any fun e => d.rxHost n e == h || d.txHost n e == h

def hostLost (d : Dev) (h : HostLane) : Bool := d.on ⟨R.HST_LSTAT, h, 1⟩

/-! ### Lock -/

/-- Marker lock on a native lane, inner-sublayer lock on a compatibility lane (R55, R123). -/
def locked (d : Dev) (n : Lane) : Bool := if d.native then d.on (F.LANE_FMT_STAT_MK_LOCK n) else (d.lane n).rx.pmdLock

/-- Switched-path mode is live (R281). -/
def spLive (d : Dev) (n : Lane) : Bool := d.lvOn (F.BRL_CFG_SP_EN n) && d.native && d.inRun n

def brlState (d : Dev) (n : Lane) : Nat := d.fld (F.BRL_STAT_STATE n)

/-- The lock that R55 and R60 require: qualification in switched-path mode (R302). -/
def deliverLock (d : Dev) (n : Lane) : Bool := if d.spLive n then d.brlState n == 6 else d.locked n

/-- Received boundaries are the lane's own: native with marker lock (R44, R45). -/
def ownBoundary (d : Dev) (n : Lane) : Bool := d.native && d.on (F.LANE_FMT_STAT_MK_LOCK n)

/-- A lane receives: it is in RUN with a slice, and neither a STANDBY stage (R586) nor the full self-test (R673) has stopped
the slices. -/
def receives (d : Dev) (n : Lane) : Bool :=
  d.active && d.pwr.sbyDown == 0 && !d.fullRunning && d.inRun n && d.carried n

/-- A lane's converters sample: it is in RUN with a slice, and neither stage 1 of STANDBY (R586) nor the full self-test (R673) has
stopped them. -/
def samples (d : Dev) (n : Lane) : Bool :=
  d.active && decide (d.pwr.sbyDown ≤ 1) && !d.fullRunning && d.inRun n && d.carried n

/-- Received boundaries of the lane's own arrive (R44). -/
def bounded (d : Dev) (n : Lane) : Bool := d.ownBoundary n && d.receives n

/-- Acquisition state (R266). -/
def acq (d : Dev) (n : Lane) : Nat := d.fld (F.LANE_EQ_STAT_ACQ n)

def inData (d : Dev) (n : Lane) : Bool := d.acq n == 10

/-! ### Stream state (R60) -/

def streamUp (d : Dev) (s : Nat) : Bool :=
  decide (s < d.streamCount) && (d.streamLanes s).all (fun n => d.inRun n && d.deliverLock n)
    && (d.streamEntries s).all fun p => !d.hostLost (d.rxHost p.1 p.2)

/-! ### The management port's page store (R556) -/

def pageByte (d : Dev) (k : Nat) : Byte := Cells.get zeroByte d.mgmt.pages k

/-- Pages 10h, 11h, 13h and 14h have banks 0 and 1; the other pages take no bank (log 9). -/
def bankedPage (p : Nat) : Bool := p == 0x10 || p == 0x11 || p == 0x13 || p == 0x14

/-- The place of byte o of page p in bank b. -/
def pageKey (p b o : Nat) : Nat := (if bankedPage p then 65536 * b else 0) + 256 * (p + 1) + o

def upBit (s : Nat) : Fld := ⟨R.MAP_STAT, s, 1⟩

/-- `MAP.STAT.UP` follows the streams' state, with MAP event 0x02 or 0x03 for each that changed (R60). -/
def updateStreams (d : Dev) : Dev :=
  d.each (List.range 16) fun s d =>
    let now := d.streamUp s
    if now == d.on (upBit s) then d
    else (d.setOn (upBit s) now).raise Blk.map (if now then 0x02 else 0x03) s

/-- What a host transmit lane sends when its optical lane has no lock (R50, R55). -/
def lossSignal (d : Dev) : HostTx := if d.on F.HST_CFG_LOSS_ACT then .idle else .prbs31q

/-- A host transmit lane holds electrical idle: it is not in use or its group is off (R50), stage 2 of STANDBY entry has
quiesced (R586), or the full self-test runs (R673). -/
def hostSilent (d : Dev) (h : HostLane) : Bool :=
  !d.hostInUse h || !d.domOn (.hg (Fin.ofNat 4 (h / 4))) || decide (3 ≤ d.pwr.sbyDown) || d.fullRunning

/-- The host transmit lanes that lane n feeds leave host data (R55); silent ones hold idle (R50). DESIGN CHOICE (log 30):
a host lane in use only through a receive field, which no optical lane feeds, sends the signal of a lane without lock. -/
def hostSignals (d : Dev) : Dev :=
  let keep := fun h : HostLane => allLanes.any fun n => d.entries.any fun e =>
    d.txHost n e == h && d.inRun n && d.deliverLock n && (d.host[h]).tx == .data
  d.each (List.finRange 16) fun h d =>
    d.modHost h fun x => { x with tx := if d.hostSilent h then .idle else if keep h then .data else d.lossSignal }

/-! ### Codeword units of a host lane (R68 to R70) -/

/-- A unit that holds `held` bits ends after `pos` more of the next k: at 2,720 bits or more it counts, with the place of its
last bit, and fewer are merged into the next unit (R69). DESIGN CHOICE (log 30): so it is with the partial unit of a host lane
restored in mid-unit. The answer has the bits of the unit in progress after the k. -/
def unitEnds (held pos k : Nat) : Option Nat × Nat :=
  if 2720 ≤ held + pos then (some (pos - 1), k - pos) else (none, held + k)

/-- The next k ≤ 544 bits of a host receive lane: where a unit that counts ends, and the units after them. A running unit
ends after `rxLeft` bits, or at the boundary the lane takes as its own (R69). The bits of a lost lane are in no unit, but
its boundaries run on (R68, R70). -/
def hostPass (k : Nat) (lost : Bool) (h : HostSt) : Option Nat × HostSt :=
  let held := if lost then 0 else h.rxBits
  let move (r : Option Nat × Nat) (left : Nat) (align : Option Nat) : Option Nat × HostSt :=
    if lost then (none, { h with rxBits := 0, rxLeft := left, rxAlign := align })
    else (r.1, { h with rxBits := r.2, rxLeft := left, rxAlign := align })
  let own := decide (h.rxLeft ≤ k)
  match h.rxAlign with
  | some a =>
    if a ≤ k then move (unitEnds held (min a h.rxLeft) k) (5440 - (k - a)) none
    else if own then move (unitEnds held h.rxLeft k) (5440 - (k - h.rxLeft)) (some (a - k))
    else move (none, held + k) (h.rxLeft - k) (some (a - k))
  | none =>
    if own then move (unitEnds held h.rxLeft k) (5440 - (k - h.rxLeft)) none
    else move (none, held + k) (h.rxLeft - k) none

/-! ### Collation ledgers (R76 to R83) -/

def inflTx (s : Nat) : Fld := F.MAP_INFL_TX s
def inflRx (s : Nat) : Fld := F.MAP_INFL_RX s

/-- A codeword unit's last bit has entered. -/
def txIn (s : Nat) (d : Dev) : Dev := (d.bump48 (R.MAP_TX_CW_IN_LO s)).setFld (inflTx s) (d.fld (inflTx s) + 1)

/-- A counted-in unit's last bit has been placed in a sent leaf. -/
def txSent (s : Nat) (d : Dev) : Dev := (d.bump48 (R.MAP_TX_CW_SENT_LO s)).setFld (inflTx s) (d.fld (inflTx s) - 1)

/-- k counted-in units are discarded under reason c (R79). -/
def txDisc (s c k : Nat) (d : Dev) : Dev :=
  ((d.bump48By (R.MAP_TX_DISC_LO s) k).bumpBy (R.MAP_TXDISC s c) k).setFld (inflTx s) (d.fld (inflTx s) - k)

/-- A data leaf is received for the stream. -/
def rxIn (s : Nat) (d : Dev) : Dev := (d.bump48 (R.MAP_RX_LEAF_IN_LO s)).setFld (inflRx s) (d.fld (inflRx s) + 1)

/-- k leaves have left on host lanes. -/
def rxDlv (s k : Nat) (d : Dev) : Dev :=
  (d.bump48By (R.MAP_RX_LEAF_DLV_LO s) k).setFld (inflRx s) (d.fld (inflRx s) - k)

/-- k counted-in leaves are discarded under reason c. -/
def rxDisc (s c k : Nat) (d : Dev) : Dev :=
  ((d.bump48By (R.MAP_RX_DISC_LO s) k).bumpBy (R.MAP_RXDISC s c) k).setFld (inflRx s) (d.fld (inflRx s) - k)

/-- Reason codes of R79. -/
abbrev rFLUSH : Nat := 1
abbrev rHOSTLOSS : Nat := 2
abbrev rLANEDOWN : Nat := 3
abbrev rCOLLISION : Nat := 4
abbrev rPREQUAL : Nat := 5
abbrev rNOLOCK : Nat := 6
abbrev rHOSTDOWN : Nat := 7

/-- The lane's leaves in flight are discarded under reason c in every stream they count in. -/
def discardInFlight (n : Lane) (c : Nat) (d : Dev) : Dev :=
  let r := (d.lane n).rx
  (d.each ((d.laneStreams n).filter fun s => !r.flushed.contains s) fun s d => d.rxDisc s c r.block).modRx n fun r =>
    { r with block := 0, pay := [] }

/-- One stream's leaves in flight on the lane are discarded under FLUSH_CFG (R65). -/
def flushStream (n : Lane) (s : Nat) (d : Dev) : Dev :=
  let r := (d.lane n).rx
  if r.block = 0 ∨ r.flushed.contains s then d else d.rxDisc s rFLUSH r.block

/-! ### Fault windows (R657 to R661) -/

/-- T and W of a class as in force since the last boundary (R661). -/
def faultT (d : Dev) (c : Nat) : Nat := max 1 (d.lv (F.FLT_CLS_T c))

def faultPeriod (d : Dev) (c : Nat) : Nat := max 1 (2 ^ d.lv (F.FLT_CLS_WEXP c) / d.faultT c)

def bucket (d : Dev) (c i : Nat) : Bucket :=
  (d.flt.find? fun b => b.cls == c && b.inst == i).getD ⟨c, i, 0, 0, false⟩

/-- Keep a bucket; an empty one is not listed. -/
def setBucket (b : Bucket) (d : Dev) : Dev :=
  let rest := d.flt.filter fun x => !(x.cls == b.cls && x.inst == b.inst)
  { d with flt := if b.level = 0 then rest else rest ++ [b] }

/-- LAST is counted, LASTID recorded and FLT event 0x38 queued when an instance reaches lasting fault (R659). -/
def reportLasting (c i : Nat) (d : Dev) : Dev :=
  (((d.bump (R.FLT_LAST c)).setFld F.FLT_LASTID_CLS c).setFld F.FLT_LASTID_INST i).raise Blk.flt 0x38 c

/-- The flag of a subject chapter that holds while an instance is lasting (R659, R663). -/
def lastingFlag (c i : Nat) : Option Fld :=
  if c = 1 then some (F.LANE_DEC_STAT_DEGRADED i)
  else if c = 3 then some (F.LANE_EQ_STAT_DEGRADED i)
  else if c = 4 then some (F.BRL_STAT_COLL_DEG i)
  else if c = 5 then some (F.CAL_STAT_DEGRADED i)
  else if c = 9 then some F.HKP_SEQ_STAT_DEGRADED
  else if c = 10 then some F.PWR_AVS_STAT_DEGRADED
  else if c = 12 then some F.NVM_STAT_DEGRADED
  else none

/-- Another instance of the class with the same flag is lasting. -/
def flagHeld (d : Dev) (c i : Nat) : Bool :=
  d.flt.any fun b => b.cls == c && b.inst != i && b.lasting && lastingFlag c b.inst == lastingFlag c i

/-- An instance is no longer lasting: FLT event 0x39, and its flag returns to 0 (R659), with LANE event 0x21 (R151) or
CAL event 0x55 (R337). -/
def endLasting (c i : Nat) (d : Dev) : Dev :=
  let d := d.raise Blk.flt 0x39 c
  let d := if c = 1 then d.raise Blk.lane 0x21 i else if c = 5 then d.raise Blk.cal 0x55 i else d
  match lastingFlag c i with
  | some f => if d.flagHeld c i then d else d.setOn f false
  | none => d

/-- The leak of an instance whose period has ended (R658, R659). -/
def leak (c i : Nat) (d : Dev) : Dev :=
  let b := d.bucket c i
  if b.level = 0 ∨ b.timer ≠ 0 then d
  else
    let d := d.setBucket { b with level := b.level - 1, timer := d.faultPeriod c, lasting := false }
    if b.lasting then d.endLasting c i else d

/-- One event of instance i of class c (R658, R659): the leak of the quire that ended comes first (R660), the level
rises, and at T the class's action is taken once. -/
def charge (c i : Nat) (action : Dev → Dev) (d : Dev) : Dev :=
  let d := d.leak c i
  let b := d.bucket c i
  let t := d.faultT c
  let lvl := min t (b.level + 1)
  let timer := if b.level = 0 then d.faultPeriod c + 1 else b.timer
  let d' := d.setBucket { b with level := lvl, timer := timer, lasting := b.lasting || lvl == t }
  if lvl = t ∧ !b.lasting then action (d'.reportLasting c i) else d'

/-- The timers of every bucket count one quire; leaks still due from the boundary before come first. -/
def leakTimers (d : Dev) : Dev :=
  let d := d.each d.flt fun b d => d.leak b.cls b.inst
  { d with flt := d.flt.map fun b => { b with timer := b.timer - 1 } }

/-- Buckets of the classes `p` holds of are cleared (R662). -/
def clearBuckets (p : Nat → Bool) (d : Dev) : Dev := { d with flt := d.flt.filter fun b => !p b.cls }

/-- The trims of a unit's word: 0 OFS, 1 GAIN, 2 SKEW. -/
def trimField (a : Nat) : Nat → Fld
  | 0 => ⟨a, 0, 8⟩
  | 1 => ⟨a, 8, 10⟩
  | _ => ⟨a, 24, 6⟩

/-- The trims `ks` of a word were written last by the calibration engine, or by software (R217). -/
def trimBy (n : Lane) (engine : Bool) (ks : List Nat) (a : Nat) (d : Dev) : Dev :=
  let us := ((List.range 130).filter fun i => R.LANE_ADC_TRIM n (i / 65) (i % 65) == a).flatMap fun i => ks.map (3 * i + ·)
  d.modRx n fun r =>
    { r with byEngine := if engine then r.byEngine ++ us.filter (!r.byEngine.contains ·) else r.byEngine.filter (!us.contains ·) }

/-! ### DMA request lines (R499, R501) -/

/-- One pulse on a DMA request line. -/
def pulse (line : Nat) (d : Dev) : Dev :=
  d.each (List.range 8) fun c d =>
    let st := d.fld (F.DMA_STAT_STATE c)
    if line = 0 ∨ d.fld (F.DMA_CFG_REQ c) ≠ line ∨ (st ≠ 1 ∧ st ≠ 2) then d
    else if d.fld (F.DMA_STAT_PEND c) = 255 then d.bump (R.DMA_REQ_LOST c)
    else d.bumpFld (F.DMA_STAT_PEND c)

/-! ### Register groups -/

/-- Every register word, holding copy and live value of a domain takes its reset value (R516). -/
def resetWords (p : Nat → Bool) (d : Dev) : Dev :=
  { d with regs := d.regs.filter (fun c => !p c.1), live := d.live.filter (fun c => !p c.1),
           staged := d.staged.filter (fun c => !p c.1), hold := d.hold.filter (fun c => !p c.1) }

/-- Copy the shadow words at the given addresses to their live fields (R517). -/
def pressWords (as : List Nat) (d : Dev) : Dev := d.each as fun a d => d.setLive a (d.reg a)

/-- The thermal throttle's steps and the safe profile as they bear on the profile in force (R262, R607, R614). -/
def profileOf (d : Dev) (n : Lane) : Nat :=
  let p := d.lv (F.LANE_EQ_CFG_PROFILE n)
  let p := if d.on F.THM_STAT_ENF then p - 1 else p
  if d.on F.THM_STAT_SAFE then min p 1 else p

end Dev

end Sys2Proof.Machine
end

