-- ==== Sys2Proof/Machine/Clocks.lean ====
section
/-! DEFINITION. The counters of chapter 21 that clocks and events advance: the global bank, the slice banks, and the clocks that pass
within a quire. -/

namespace Sys2Proof.Machine

namespace Dev

def frozen (d : Dev) : Bool := d.on F.CNT_FRZ_FREEZE

/-! ### Global bank (R677 to R681) -/

/-- A PMC wraps (R680). -/
def pmcWrap (i : Nat) (d : Dev) : Dev :=
  let d := d.setOn ⟨R.CNT_OVF, i, 1⟩ true
  if d.on (F.CNT_PMC_CFG_OVF_EVT i) then d.raise Blk.cnt 0x4A i else d

/-- PMCi advances by k (R679, R680). -/
def pmcAdd (i k : Nat) (d : Dev) : Dev :=
  let c := d.count48 (R.CNT_PMC_LO i) + k
  let d := d.set48 (R.CNT_PMC_LO i) (c % 2 ^ 48)
  if 2 ^ 48 ≤ c then d.pmcWrap i else d

/-- k events e of the processor in its present mode (R679). -/
def cpuEvent (e k : Nat) (d : Dev) : Dev :=
  if d.frozen then d
  else d.each (List.range 8) fun i d =>
    let counts := if d.cpu.user then d.on (F.CNT_PMC_CFG_U i) else d.on (F.CNT_PMC_CFG_M i)
    if d.fld (F.CNT_PMC_CFG_EVT i) = e ∧ counts then d.pmcAdd i k else d

/-- The counters that count event e with no processor mode (R679). -/
def countersOf (d : Dev) (e : Nat) : List Nat :=
  if d.frozen then [] else (List.range 8).filter fun i => d.fld (F.CNT_PMC_CFG_EVT i) == e

/-- k events e with no processor mode (R679). -/
def devEvent (e k : Nat) (d : Dev) : Dev := d.each (d.countersOf e) fun i d => d.pmcAdd i k

/-- The cycle counter advances by k processor clocks, modulo 2^64 (R678). -/
def cycles (k : Nat) (d : Dev) : Dev :=
  if d.frozen then d
  else
    let c := (d.reg R.CNT_CYC_HI).toNat * 2 ^ 32 + (d.reg R.CNT_CYC_LO).toNat + k
    (d.setReg R.CNT_CYC_LO (BitVec.ofNat 32 c)).setReg R.CNT_CYC_HI (BitVec.ofNat 32 (c / 2 ^ 32))

/-! ### Slice banks (R684, R685) -/

def pmEv (s k : Nat) : Fld := ⟨R.SLC_PM_CFG s, 4 * k, 4⟩

/-- A slice counter advances; true when it wraps. -/
def sliceAdd (s k n : Nat) (d : Dev) : Bool × Dev :=
  let c := (d.reg (R.SLC_PMC s k)).toNat + n
  (decide (2 ^ 32 ≤ c), d.setReg (R.SLC_PMC s k) (BitVec.ofNat 32 c))

/-- Low counter k of a pair (0 or 2) advances by n: chained, its wrap carries to the high counter (R685). -/
def slicePairLow (s k n : Nat) (chained : Bool) (d : Dev) : Dev :=
  let (w, d) := d.sliceAdd s k n
  if !w then d
  else if chained then
    let (w2, d) := d.sliceAdd s (k + 1) 1
    if w2 then d.setOn ⟨R.SLC_PM_OVF s, k + 1, 1⟩ true else d
  else d.setOn ⟨R.SLC_PM_OVF s, k, 1⟩ true

/-- n events e in slice s (R684). -/
def sliceEvent (s e n : Nat) (d : Dev) : Dev :=
  if d.frozen || decide (9 ≤ s) then d
  else d.each [0, 1, 2, 3] fun k d =>
    let ch := if k < 2 then d.lvOn (F.SLC_PM_CFG_CH01 s) else d.lvOn (F.SLC_PM_CFG_CH23 s)
    if d.lv (pmEv s k) ≠ e then d
    else if k % 2 = 0 then d.slicePairLow s k n ch
    else if ch then d
    else
      let (w, d) := d.sliceAdd s k n
      if w then d.setOn ⟨R.SLC_PM_OVF s, k, 1⟩ true else d

/-! ### Clocks within a quire (R678, R679, R684, R688) -/

/-- An idle flyleaf is clock-gated (R342). -/
def gated (d : Dev) (s : Nat) : Bool :=
  d.fld F.SPR_STAT_FLY == s && !(d.fld F.SPR_STAT_PHASE != 0 && (d.spr.shadow : Nat) == s)

/-- k slice clocks of each slice that is on and not gated, and of the flyleaf while it shadows (R684). -/
def sliceClocks (k : Nat) (d : Dev) : Dev :=
  let d := d.each ((List.finRange 9).filter fun s => d.domOn (.slc s) && !d.gated s) fun s d => d.sliceEvent s 1 k
  if d.fld F.SPR_STAT_PHASE = 0 then d else d.sliceEvent d.spr.shadow 9 k

/-- k processor clocks of the quire in progress pass, and the slice clocks that fall in them. -/
def clocksPass (k : Nat) (d : Dev) : Dev :=
  let a := d.cnt.clocks
  let n := d.quireClocks * (a + k) / 8192 - d.quireClocks * a / 8192
  let d := ((d.sliceClocks n).cycles k).cpuEvent 1 k
  { d with cnt := { d.cnt with clocks := a + k } }

/-- The moment comes at which what counts changes: in which clock of the quire it lies no command gives, so that a free number of
the clocks left has passed (log 20). At a boundary none are left. -/
def elapse (d : Dev) : Dev :=
  if 8192 ≤ d.cnt.clocks ∨ !d.domOn .mgt ∨ !d.on F.CLK_STAT_TICK_RUN then d
  else
    let (f, d) := d.takeFree
    d.clocksPass (f.toNat % (8193 - d.cnt.clocks))

end Dev

end Sys2Proof.Machine
end

