-- ==== Sys2Proof/Machine/Slices.lean ====
section
/-! DEFINITION. Domains and slices: which domain a register lies in, power-up and power-off, and the flyleaf's shared
operations of chapter 10 (ending a shadow, retirement, repair, completion). -/

namespace Sys2Proof.Machine

/-! ### Domains (R540, R698) -/

/-- The domain of a live register address. -/
def domainOf (a : Nat) : Dom :=
  let blk := (a - 0x10000000) / 0x10000
  let off := a % 0x10000 % 0x8000
  if 0x7F00 ≤ off then .mgt
  else if 8 ≤ blk ∧ blk ≤ 16 then .slc (Fin.ofNat 9 (blk - 8))
  else if blk = 17 then .lfe (Fin.ofNat 8 (off / 0x1000))
  else if blk = 21 then .msh
  else match regRow (a - a % 0x10000 + off) with
    | some (r, _, _) => if r.aon then .aon else .mgt
    | none => .mgt

/-- The address is that of a `LANE.ADC_RETn`. -/
def keepsRet (a : Nat) : Bool := a % 0x10000 % 0x1000 == 0x630 && a / 0x10000 == 0x1011

/-- The fields of `LANE.ADC_RETn` that a write changes: those that read 0x7F, where the value is 0 to 64 (R220). -/
def retMask (old v : Word) : Word :=
  let f := fun lo : Nat => if old.toNat / 2 ^ lo % 128 = 127 ∧ v.toNat / 2 ^ lo % 128 ≤ 64 then 127 * 2 ^ lo else 0
  BitVec.ofNat 32 (f 0 + f 8)

/-- The words a power-up of the domain resets: all of the domain's but the ones kept (`LANE.ADC_RETn`, R220, and the budget
window, R655). -/
def resetBy (x : Dom) (a : Nat) : Bool :=
  domainOf a == x && !keepsRet a && a != R.NVM_USED && a != R.NVM_WIN_LEFT

namespace Dev

/-- The bits of a device write that are taken up: RW and RB bits, of `LANE.ADC_RETn` a field that reads none where a unit number
is written (R220). -/
def pokeMask (d : Dev) (r : RegRow) (a : Nat) (v : Word) : Word :=
  let m := BitVec.ofNat 32 (r.rw ||| r.rb)
  if keepsRet a then m &&& retMask (d.reg a) v else m

/-- A device write to RW and RB bits of a register: no trigger, no side effect (R635). -/
def poke (a : Nat) (v : Word) (d : Dev) : Dev :=
  match regRow a with
  | some (r, _, _) =>
    let m := d.pokeMask r a v
    let d := d.setReg a ((d.reg a &&& ~~~m) ||| (v &&& m))
    if r.rb = 0 then d else d.setLive a (d.reg a)
  | none => d

/-- Host transmitters follow the power of their group (R50). -/
def groupSignals (x : Dom) (d : Dev) : Dev :=
  match x with
  | .hg _ => d.hostSignals
  | _ => d

/-- A slice's clock starts or stops with the clocks that passed before it counted (R684). -/
def elapseFor (x : Dom) (d : Dev) : Dev := match x with | .slc _ => d.elapse | _ => d

/-- A domain powers up: its registers take their reset values and its pairs of the power-up list are written (R516). -/
def domainUp (x : Dom) (d : Dev) : Dev :=
  let d := ((d.elapseFor x).resetWords (resetBy x)).setOn (domBit x) true
  (d.each (d.powerList.filter fun p => domainOf p.1 == x) fun p d => d.poke p.1 p.2).groupSignals x

/-- A domain powers off. -/
def domainDown (x : Dom) (d : Dev) : Dev :=
  let d := d.elapseFor x
  (({ d with pwr := { d.pwr with woken := d.pwr.woken.filter fun p => p.1 != x } }).setOn (domBit x) false).groupSignals x

/-- On only because an access woke it (R571). -/
def wokenUp (d : Dev) (x : Dom) : Bool := d.pwr.woken.any fun p => p.1 == x

/-! ### Slices and the flyleaf role (R339 to R341) -/

def retired (d : Dev) : Nat := d.fld F.SPR_RET_RET

/-- A slice that carries no lane, is not retired and is not under test (R667) is free. -/
def sliceFree (d : Dev) (s : Nat) : Bool :=
  (d.laneOf s).isNone && d.retired != s && d.fld F.SPR_STAT_TESTING != s

/-- A free slice is eligible while its last logic test gave PASS (R339), since its release by a swap where one released it
(R367). -/
def eligible (d : Dev) (s : Nat) : Bool := d.sliceFree s && d.fld (F.BST_SRES_RESULT s) == 1 && d.spr.passed.getLsbD s

/-- The flyleaf: the lowest-numbered eligible slice, 0xF when there is none (R339). -/
def flyleaf (d : Dev) : Nat := ((List.range 9).find? d.eligible).getD 15

/-- The slice shadows or, in SWITCH and UNDO, sends for the lane of the swap. -/
def shadows (d : Dev) (s : Nat) : Bool := d.fld F.SPR_STAT_PHASE != 0 && (d.spr.shadow : Nat) == s

/-- `FLY` follows the role, and the clock of an idle flyleaf stops (R342); in ACTIVE the slices that carry a lane, the flyleaf and
a slice under test are powered and every other slice is off (R570), but for one an access has woken (R571); a retired slice is held
off (R371). -/
def updateFly (d : Dev) : Dev :=
  let d := (if d.fld F.SPR_STAT_FLY = d.flyleaf then d else d.elapse).setFld F.SPR_STAT_FLY d.flyleaf
  if !d.active then d
  else d.each (List.finRange 9) fun s d =>
    let test := d.fld F.SPR_STAT_TESTING == (s : Nat) && d.retired != (s : Nat)
    let want := (d.laneOf s).isSome || d.flyleaf == (s : Nat) || test || d.shadows s || d.wokenUp (.slc s)
    if want && !d.domOn (.slc s) then d.domainUp (.slc s)
    else if !want && d.domOn (.slc s) then d.domainDown (.slc s) else d

/-- Queue a logic self-test of a slice (R367, R368, R664). It stays eligible until the test starts (R360). -/
def queueTest (s : Nat) (d : Dev) : Dev := d.modSpr fun p => { p with queued := p.queued ||| BitVec.ofNat 9 (2 ^ s) }

/-- The slice a swap released is not eligible until its queued test gives PASS (R367). -/
def queueReleased (s : Nat) (d : Dev) : Dev :=
  (d.queueTest s).modSpr fun p => { p with passed := p.passed &&& ~~~BitVec.ofNat 9 (2 ^ s) }

/-- A lane entering RUN takes the slice it last carried if free, else the lowest free one (R340). DESIGN CHOICE (log 28): a
slice that shadows goes to no lane but that of its swap. -/
def takeSlice (n : Lane) (d : Dev) : Option Nat :=
  let last := d.spr.lastOf[n].toNat
  let free (s : Nat) : Bool := d.sliceFree s && !d.shadows s
  if free last && decide (last < 9) then some last else (List.range 9).find? free

def assign (n : Lane) (s : Nat) (d : Dev) : Dev :=
  (d.setFld (assignOf n) s).modSpr fun p => { p with lastOf := p.lastOf.set n (BitVec.ofNat 4 s) }

/-- After a reset of the data path slice Sn carries Ln, a retired one replaced by the lowest-numbered slice free of a
lane (R33). -/
def assignAll (d : Dev) : Dev :=
  d.each allLanes fun n d =>
    if d.retired = (n : Nat) then d.assign n 8 else d.assign n n

/-! ### Shadows (R344 to R362) -/

def phase (d : Dev) : Nat := d.fld F.SPR_STAT_PHASE
def target (d : Dev) : Lane := Fin.ofNat 8 (d.fld F.SPR_STAT_TLANE)
def kind (d : Dev) : Nat := d.fld F.SPR_STAT_KIND
def exhausted (d : Dev) : Bool := d.on F.SPR_STAT_EXHAUSTED

/-- A lane in SWITCH or UNDO (R361). -/
def swapping (d : Dev) (n : Lane) : Bool := decide (3 ≤ d.phase) && d.target == n

/-- A shadow is over. -/
def shadowOver (d : Dev) : Dev :=
  ((if d.phase = 0 then d else d.elapse).setFld F.SPR_STAT_PHASE 0).modSpr fun p =>
    { p with feeding := false, copied := false, txOpen := false, rxOpen := false, rxOk := false, wholeQ := false, age := 0,
             commitDue := false }

/-- An attempt to repair slice s ended with MISMATCH or CONV_TO (R370). -/
def repairFailed (s : Nat) (d : Dev) : Dev :=
  d.modSpr fun p => { p with repairs := p.repairs.map fun r => if (r.1 : Nat) = s then (r.1, r.2 + 1) else r }

/-- A mismatch outside repairs: the shadowing slice's test is queued, which will attribute it (R368). -/
def blameTest (car : Nat) (d : Dev) : Dev :=
  (d.queueTest d.spr.shadow).modSpr fun p => { p with blame := p.blame ++ [(p.shadow, Fin.ofNat 9 car)] }

/-- A rotation ended without a swap: it falls due again 1,024 quires later (R366). -/
def rotationFailed (d : Dev) : Dev := (d.setOn F.SPR_STAT_ROT_DUE false).modSpr fun p => { p with holdoff := 1024 }

/-- A reset of the data path or its power-off ends a shadow in any phase without a swap (R362); a rotation is held off (R366). -/
def shadowReset (d : Dev) : Dev :=
  if d.phase = 0 then d else (d.when (d.kind == 0) rotationFailed).shadowOver

/-- A shadow before its commit ends without a swap for reason r (R359, R360): the reason is recorded, counted and reported;
an aborted rotation is held off (R366), a failed repair attempt is counted (R370), and a mismatch outside repairs queues the
flyleaf's test (R368). The flyleaf stays eligible. -/
def endShadow (r : Nat) (d : Dev) : Dev :=
  if d.phase ≠ 1 ∧ d.phase ≠ 2 then d
  else
    let car := d.carrier d.target
    let k := d.kind
    let d := ((d.shadowOver.setFld F.SPR_STAT_ABORT r).bump R.SPR_ABORTS).raise Blk.spr 0x82 d.target
    let d := d.when (k == 0) rotationFailed
    let d := d.when (decide (k < 2) && r == 2) (blameTest car)
    (d.when (decide (2 ≤ k) && (r == 1 || r == 2)) (repairFailed car)).updateFly

/-- A cause concerning lane n ends a shadow of that lane (R359). -/
def endShadowOf (n : Lane) (r : Nat) (d : Dev) : Dev := if d.target = n then d.endShadow r else d

/-- The repair of slice s has ended (R370). -/
def repairOver (s : Nat) (d : Dev) : Dev :=
  let d := d.modSpr fun p => { p with repairs := p.repairs.filter fun r => (r.1 : Nat) != s }
  d.setOn F.SPR_STAT_REPAIR_PEND (!d.spr.repairs.isEmpty)

/-- A carrying slice at lasting fault with redundancy exhausted keeps its lane (R372). -/
def sliceDegraded (s : Nat) (d : Dev) : Dev := (d.setOn ⟨R.SPR_DEG, s, 1⟩ true).raise Blk.spr 0x87 s

/-- Retirement (R371). No repair is started any more; DESIGN CHOICE (log 28): those still due end, and their slices count as
reaching lasting fault with redundancy exhausted (R372). -/
def retireSlice (s : Nat) (d : Dev) : Dev :=
  let d := ((d.repairOver s).setFld F.SPR_RET_RET s).domainDown (.slc (Fin.ofNat 9 s))
  let d := (d.raise Blk.spr 0x85 s).setOn F.SPR_STAT_EXHAUSTED true
  let d := d.raise Blk.spr 0x86 s
  (d.each (d.spr.repairs.filter fun r => d.phase == 0 || d.carrier d.target != (r.1 : Nat)) fun r d =>
    (d.repairOver r.1).sliceDegraded r.1).updateFly

/-- A slice that carries no lane and is at lasting fault is retired, at most one (R371, R372). -/
def retireFree (s : Nat) (d : Dev) : Dev := if d.exhausted then d else d.retireSlice s

/-- A repair of the lane that slice s carries falls due (R370). -/
def repairDue (s : Nat) (d : Dev) : Dev :=
  if d.spr.repairs.any fun r => (r.1 : Nat) == s then d
  else (d.setOn F.SPR_STAT_REPAIR_PEND true).modSpr fun p => { p with repairs := p.repairs ++ [(Fin.ofNat 9 s, 0)] }

/-- A slice reaches lasting fault (R370 to R372). From Bs on the flyleaf sends for its lane, and counts as carrying it. DESIGN
CHOICE (log 28): a flyleaf that is retired before ends its shadow with reason 4. -/
def sliceLasting (s : Nat) (d : Dev) : Dev :=
  if (d.laneOf s).isSome || (d.shadows s && decide (3 ≤ d.phase)) then if d.exhausted then d.sliceDegraded s else d.repairDue s
  else if d.exhausted then d
  else (if d.shadows s then d.endShadow 4 else d).retireFree s

/-- Charge a slice self-test FAIL (class 6) or a shadow mismatch (class 7) to a slice (R367 to R369). -/
def chargeSlice (c s : Nat) (d : Dev) : Dev := d.charge c s (sliceLasting s)

/-- A slice becomes free. One whose repair is due or running is at lasting fault and carries no lane any more: it is retired
(R371). -/
def sliceFreed (s : Nat) (d : Dev) : Dev :=
  if d.spr.repairs.any fun r => (r.1 : Nat) == s then (d.repairOver s).retireFree s else d

/-- Lane n gives its slice up (R341). -/
def release (n : Lane) (d : Dev) : Dev := (d.setFld (assignOf n) 15).sliceFreed (d.carrier n)

/-- What the flyleaf takes of, and then follows in, the carrying slice's transmit state (R345). -/
def flyTx (d : Dev) (n : Lane) : FlyTx :=
  let t := (d.lane n).tx
  { lqn := d.fld (F.LANE_FMT_TXQ_LQN n), y := t.y, hist := t.hist, scr := t.scr, fec := t.fec, prev := t.prev, nlt := t.nlt,
    trim := t.trim }

/-- The flyleaf processes the same leaves as the carrying slice, so its transmit state follows that slice's (R345). -/
def mirrorTx (n : Lane) (d : Dev) : Dev :=
  if 1 ≤ d.phase ∧ d.phase ≤ 3 ∧ d.target = n then d.modSpr fun p => { p with tx := d.flyTx n } else d

/-- Bs: the transmit crossbar takes the lane's codes from the flyleaf, with its own state (R350). -/
def commitSwap (d : Dev) : Dev :=
  let f := d.spr.tx
  (d.setFld F.SPR_STAT_PHASE 3).modTx d.target fun t =>
    { t with y := f.y, hist := f.hist, scr := f.scr, fec := f.fec, prev := f.prev, nlt := f.nlt, trim := f.trim }

/-- The receive switch at Rs (R350, R351): the flyleaf carries the lane with its own copy of the state, the outgoing slice is
free and its test queued (R367), or it is retired after a repair (R371, R372). -/
def completeSwap (d : Dev) : Dev :=
  let n := d.target
  let old := d.carrier n
  let k := d.kind
  let d := d.modLane n fun l => { l with ad := d.spr.ad, fr := d.spr.fr, dsp := d.spr.dsp }
  let d := ((d.assign n d.spr.shadow).bump R.SPR_SWAPS).raise Blk.spr 0x81 n
  let d := d.shadowOver
  if k = 0 then
    (((((d.setFld F.SPR_STAT_RPTR n).setReg R.SPR_ROTQ 0).bump R.SPR_ROTS).setOn F.SPR_STAT_ROT_DUE false).queueReleased
      old).sliceFreed old |>.updateFly
  else if k = 1 then ((d.queueReleased old).sliceFreed old).updateFly
  else
    let d := if k = 3 then (d.bump R.SPR_FORCED).raise Blk.spr 0x84 n else d
    ((d.queueReleased old).sliceFreed old).updateFly

/-- R356 for lane n. -/
def shadowAllowed (d : Dev) (n : Lane) : Bool :=
  decide (d.fld F.SPR_STAT_FLY < 9) && d.phase == 0 && !d.on F.THM_STAT_ENF && d.dstate == stACTIVE
    && d.inRun n && d.inData n && (!d.spLive n || d.brlState n == 6)

/-- The next lane after RPTR, cyclically, that has a slice (R364). -/
def rotationTarget (d : Dev) : Option Lane :=
  ((List.range 8).map fun i => (Fin.ofNat 8 (d.fld F.SPR_STAT_RPTR + 1 + i) : Lane)).find? d.carried

/-- B0 of a shadow of lane n of the given kind (R344, R345): the flyleaf shadows, with the carrying slice's transmit state. -/
def beginShadow (n : Lane) (k : Nat) (d : Dev) : Dev :=
  let d := (((d.shadowOver.setFld F.SPR_STAT_PHASE 1).setFld F.SPR_STAT_TLANE n).setFld F.SPR_STAT_KIND k).raise Blk.spr 0x80 n
  d.modSpr fun p => { p with shadow := Fin.ofNat 9 (d.fld F.SPR_STAT_FLY), tx := d.flyTx n, deferred := [] }

/-- The swap that starts at an internal boundary, if any: repair, then command, then rotation (R357, R370). -/
def dueShadow (d : Dev) : Option (Lane × Nat) :=
  let rep := d.spr.repairs.findSome? fun r => match d.laneOf r.1 with
    | some n => if !d.exhausted && d.shadowAllowed n then some (n, if 2 ≤ r.2 then 3 else 2) else none
    | none => none
  let cmd := (d.spr.cmd.find? d.shadowAllowed).map fun n => (n, 1)
  let rot := match d.rotationTarget with
    | some n => if d.on F.SPR_STAT_ROT_DUE && !d.exhausted && d.shadowAllowed n then some (n, 0) else none
    | none => none
  rep <|> cmd <|> rot

end Dev

end Sys2Proof.Machine
end

