-- ==== Sys2Proof/Machine/Estimate.lean ====
section
/-! DEFINITION. What the calibration engine gathers in a window and the estimates it forms (R315 to R322): statistics of
corrected samples for each SAR unit, the equivalent-time sampler's readings of the DAC, and total trim values. How the
statistics become numbers of steps is not in the spec beyond its targets: DESIGN CHOICE (log 41). -/

namespace Sys2Proof.Machine

/-! ### Tallies -/

/-- Add to the tally of a key. -/
def tallyAdd (x : Tally) : List Tally → List Tally
  | [] => [x]
  | t :: r => if t.key = x.key then ⟨t.key, t.served + x.served, t.n + x.n, t.a + x.a, t.b + x.b⟩ :: r else t :: tallyAdd x r

/-- The tally of a key. -/
def tallyOf (l : List Tally) (key : Nat) : Tally := (l.find? fun t => t.key == key).getD ⟨key, 0, 0, 0, 0⟩

/-- The mean of the first sum, and of the second. -/
def Tally.mean (t : Tally) : Rat := t.a / t.n
def Tally.mean2 (t : Tally) : Rat := t.b / t.n

/-- A number of steps: nearest, halves away from zero. -/
def nearest (q : Rat) : Int := roundAway q.num q.den

/-- The integer part of a square root, below 2^32. -/
def rootOf (x : Nat) : Nat := (List.range 32).foldr (fun i r => if (r + 2 ^ i) * (r + 2 ^ i) ≤ x then r + 2 ^ i else r) 0

/-- The key of what a window gathers over the whole array. -/
abbrev arrayKey : Nat := 200

namespace Dev

def calItem (d : Dev) (n : Lane) (i : Fin 4) : CalItem := (d.lane n).cal[i]

def calFg (d : Dev) (n : Lane) (i : Fin 4) : Bool := d.on ⟨R.CAL_STAT n, 4 + i, 1⟩

/-- Fields of CAL.CFG and CAL.TOL as the run started with. -/
def cfgField (c : CalItem) (lo w : Nat) : Nat := c.cfg.toNat / 2 ^ lo % 2 ^ w
def tolField (c : CalItem) (lo w : Nat) : Nat := c.tol.toNat / 2 ^ lo % 2 ^ w

/-- Quires of a window of the item (R326, R334). -/
def calLength (d : Dev) (n : Lane) (i : Fin 4) : Nat :=
  let c := d.calItem n i
  2 ^ (if d.calFg n i then cfgField c 24 4 else cfgField c 28 4)

/-- A window of the item is in progress. -/
def calGathers (d : Dev) (n : Lane) (i : Fin 4) : Bool :=
  let c := d.calItem n i
  (c.phase == 1 || c.phase == 2) && c.begun

/-- Add tallies to the windows of an item. -/
def calGather (n : Lane) (i : Fin 4) (xs : List Tally) (d : Dev) : Dev :=
  if d.calGathers n i then d.modCal n i fun c => { c with stats := xs.foldl (fun l x => tallyAdd x l) c.stats } else d

/-! ### Receive estimation (R315 to R317) -/

/-- The trim word of a unit in use; none acts while `TRIM_BYP` is live at 1 (R211, R212). -/
def trimInUse (d : Dev) (n : Lane) (c u : Nat) : Word :=
  if d.lvOn (F.LANE_ADC_CFG_TRIM_BYP n) then 0 else Cells.get zeroWord (d.lane n).rx.trims (R.LANE_ADC_TRIM n c u)

/-- The unit that takes sample number m modulo 128, numbered 65c + u (R207). -/
def unitAt (r : RxSt) (m : Nat) : Nat := 65 * (m % 2) + (if m % 2 = 0 then r.pos0 else r.pos1).getD (m / 2 % 64) 0

/-- The tallies of one slot: its units in use serve it; each sample with its square (item 0), or its products with the sample
after it and the one before (item 1); and the whole array's squares and products two samples apart. -/
def slotTallies (r : RxSt) (lag : Bool) (m : Nat) (prev : Int) (cur after : List Int) : List Tally :=
  let seq := prev :: cur ++ after
  ⟨arrayKey, 1, 0, 0, 0⟩ :: (r.pos0.map fun u => ⟨u, 1, 0, 0, 0⟩) ++ (r.pos1.map fun u => ⟨65 + u, 1, 0, 0, 0⟩) ++
    (List.range cur.length).flatMap fun j =>
      let x := seq.getD (j + 1) 0
      let sums := if lag then (x * seq.getD (j + 2) 0, x * seq.getD j 0) else (x, x * x)
      [⟨unitAt r (m + j), 0, 1, sums.1, sums.2⟩, ⟨arrayKey, 0, 1, x * x, x * seq.getD (j + 3) 0⟩]

/-- Receive estimation takes a slot's corrected samples: of data and stitch leaf slots with marker lock, else of every slot
(R315). -/
def calSamples (n : Lane) (prev : Int) (cur after : List Int) (d : Dev) : Dev :=
  let coded := match slotKind (d.lane n).fr.slot with | .data _ | .stitch _ => true | _ => false
  if d.ownBoundary n && !coded then d
  else
    let r := (d.lane n).rx
    (d.calGather n 0 (slotTallies r false r.m prev cur after)).calGather n 1 (slotTallies r true r.m prev cur after)

/-- A unit that served less than half of the window has no estimate (R316). -/
def served (st : List Tally) (u : Nat) : Bool :=
  let t := tallyOf st u
  decide (0 < t.n) && decide ((tallyOf st arrayKey).served ≤ 2 * t.served)

/-- Variance of a unit's samples, in 1/16 LSB². -/
def variance (t : Tally) : Rat := t.mean2 - t.mean * t.mean

/-- The mean variance of all units in use (R317). -/
def meanVariance (r : RxSt) (st : List Tally) : Rat :=
  let us := ((r.pos0 ++ r.pos1.map (65 + ·)).map (tallyOf st)).filter fun (t : Tally) => decide (0 < t.n)
  (us.map variance).sum / us.length

/-- OFS and GAIN totals of a unit (R317): zero mean, and the mean variance, by the correction of R211. -/
def levelEstimate (d : Dev) (n : Lane) (st : List Tally) (c u : Nat) : List (Option Int) :=
  let t := tallyOf st (65 * c + u)
  if !served st (65 * c + u) then [none, none]
  else
    let w := (d.trimInUse n c u).toNat
    let g : Int := 4096 + signed 10 (w / 2 ^ 8 % 1024)
    let v := variance t
    let want : Rat := g * g * (meanVariance (d.lane n).rx st / v)
    [some (signed 8 (w % 256) + nearest (t.mean * 4 * 4096 / g)),
     if v ≤ 0 then none else some (((rootOf (4 * want).floor.toNat + 1) / 2 : Nat) - 4096)]

/-- The slope of the lane's autocorrelation at one UI, per UI, doubled: from its values at 0 and at 2 UI. -/
def slope (st : List Tally) : Rat := let t := tallyOf st arrayKey; t.mean - t.mean2

/-- A lag of `x` as steps of 1/512 UI. -/
def skewSteps (st : List Tally) (x : Rat) : Option Int := if slope st ≤ 0 then none else some (nearest (512 * x / slope st))

/-- SKEW total of a unit (R317): its samples correlate alike with those after and before them. -/
def skewEstimate (d : Dev) (n : Lane) (st : List Tally) (c u : Nat) : Option Int :=
  let t := tallyOf st (65 * c + u)
  if !served st (65 * c + u) then none
  else (skewSteps st (t.mean - t.mean2)).map fun x =>
    signed 6 ((Cells.get zeroWord (d.lane n).rx.trims (R.LANE_ADC_TRIM n c u)).toNat / 2 ^ 24 % 64) - x

/-- CSKEW total (R317): all core-0-to-core-1 pairs balance all core-1-to-core-0 pairs. -/
def coreEstimate (d : Dev) (n : Lane) (st : List Tally) : Option Int :=
  let pairs (c : Nat) : Rat :=
    let us := (List.range 65).map fun u => tallyOf st (65 * c + u)
    ((us.map Tally.a).sum : Rat) / ((us.map Tally.n).sum : Nat)
  (skewSteps st (pairs 0 - pairs 1)).map fun x =>
    signed 8 ((Cells.get zeroWord (d.lane n).rx.trims (R.LANE_ADC_CSKEW n)).toNat % 256) + x

/-! ### Transmit estimation (R319 to R322) -/

/-- Transmit estimation goes on (R319). -/
def transmitEst (d : Dev) (n : Lane) : Bool :=
  d.on (F.LANE_TX_STAT_TX_RUN n) && !d.on (F.LANE_TX_STAT_SQUELCHED n) && d.fld (F.LANE_TX_STAT_TONE n) == 0
    && !d.lvOn (F.LANE_TX_CFG_NLT_BYP n)

/-- The phase of the sampler that is the middle of a UI. -/
abbrev midPhase : Nat := 32

/-- The key of a code's mid-UI samples on DAC half h, of a symbol level's, and of a transition's samples at a phase. -/
abbrev codeKey (c h : Nat) : Nat := 2 * c + h
abbrev levelKey (level : Int) (h : Nat) : Nat := 512 + 2 * (level + 3).toNat + h
abbrev crossKey (h phase : Nat) : Nat := 1024 + 64 * h + phase

/-- Two codes are those of indices that lie as far either side of the middle, under the table in use. -/
def oppositeCodes (nlt : List Word) (prior code : Nat) : Bool :=
  (List.range 255).any fun e => nltEntry nlt (e + 1) == prior && nltEntry nlt (255 - e) == code

/-- The tallies of one reading for item 3: the mid-UI output of a code that follows itself (R321). -/
def codeTallies (code prior half phase : Nat) (x : Int) : List Tally :=
  if code = prior ∧ phase = midPhase then [⟨codeKey code half, 0, 1, x, 0⟩] else []

/-- The tallies of one reading for item 2 (R320): the mid-UI output at its symbol level, whatever codes the filter makes of it, with
the code; and on a transition between codes of opposite indices, the output along its direction. -/
def outputTallies (nlt : List Word) (level : Option Int) (code prior half phase : Nat) (x : Int) : List Tally :=
  (match level with
   | some l => if phase = midPhase then [⟨levelKey l half, 0, 1, x, code⟩] else []
   | none => []) ++
  if code ≠ prior ∧ oppositeCodes nlt prior code then [⟨crossKey half phase, 0, 1, if prior < code then x else -x, 0⟩]
  else []

/-- The equivalent-time sampler reads the output once in each slice clock, position by position and then phase by phase; half A
converts the even positions (R174). -/
def dacSample (n : Lane) (smp : Byte) (d : Dev) : Dev :=
  let t := (d.lane n).tx
  let p := t.eqStep % 144
  let d := d.modTx n fun t => { t with eqStep := (t.eqStep + 1) % 9216 }
  match t.out[p]? with
  | some x =>
    if d.transmitEst n && t.outEst then
      let (half, phase, v) := (p % 2, t.eqStep / 144, smp.toInt)
      (d.calGather n 2 (outputTallies t.nlt t.outLevels[p]? x.code x.prior half phase v)).calGather n 3
        (codeTallies x.code x.prior half phase v)
    else d
  | none => d

/-- The codes of R322. -/
abbrev levelCodes : List Nat := [32, 96, 160, 224]

/-- The four symbol levels (R85). -/
abbrev symbolLevels : List Int := [-3, -1, 1, 3]

/-- The instant of the mid-level crossings of transitions that end on half h, in 1/512 UI. -/
def crossing (st : List Tally) (h : Nat) : Option Rat :=
  let m (f : Nat) : Option Rat := let t := tallyOf st (crossKey h f); if t.n = 0 then none else some t.mean
  ((List.range 63).findSome? fun f => match m f, m (f + 1) with
    | some x, some y => if x < 0 ∧ 0 ≤ y then some (8 * (f : Rat) + 8 * (-x) / (y - x)) else none
    | _, _ => none)

/-- BOFS, BGAIN and BSKEW totals (R320): half B's means at the four symbol levels match half A's, and its crossings fall one
half-period, which is one UI, after half A's. -/
def dacEstimate (d : Dev) (n : Lane) (st : List Tally) : List (Option Int) :=
  let w := (d.lane n).tx.trim.toNat
  let at_ (h : Nat) (l : Int) : Tally := tallyOf st (levelKey l h)
  let ts (h : Nat) : List Tally := symbolLevels.map (at_ h)
  let outer := (at_ 0 3).mean2 - (at_ 0 (-3)).mean2
  let spanA := (at_ 0 3).mean - (at_ 0 (-3)).mean
  let spanB := (at_ 1 3).mean - (at_ 1 (-3)).mean
  let known := (ts 0 ++ ts 1).all fun t => decide (0 < t.n)
  let off := (((ts 0).map Tally.mean).sum - ((ts 1).map Tally.mean).sum) / 4
  let ok := known && decide (0 < spanA) && decide (0 < spanB)
  [if ok then some (signed 8 (w % 256) + nearest (16 * outer * off / spanA)) else none,
   if ok then some (nearest ((4096 + signed 10 (w / 2 ^ 8 % 1024) : Int) * spanA / spanB) - 4096) else none,
   match crossing st 0, crossing st 1 with
   | some a, some b => some (signed 6 (w / 2 ^ 24 % 64) - nearest (b - a))
   | _, _ => none]

/-- The samples of a code in a window of item 3. -/
def codeCount (st : List Tally) (c : Nat) : Nat := (tallyOf st (codeKey c 0)).n + (tallyOf st (codeKey c 1)).n

/-- Too few samples (R322). -/
def fewSamples (st : List Tally) : Bool := levelCodes.any fun c => decide (codeCount st c < 4096)

/-- The mid-UI output of a code (R321). The spec gives none for a code that no sample had: a free value, the `f c`-th. -/
def outputOf (st : List Tally) (f : Nat → Word) (c : Nat) : Rat :=
  if codeCount st c = 0 then (((f c).toInt : Int) : Rat) / 2 ^ 24
  else (((tallyOf st (codeKey c 0)).a + (tallyOf st (codeKey c 1)).a : Int) : Rat) / (codeCount st c : Nat)

/-- The target of index e (R321). -/
def targetOf (vo vi : Rat) (e : Int) : Rat :=
  if e < -32 then -vi + (e + 32) * (vo - vi) / 64
  else if e ≤ 32 then vi * e / 32
  else vi + (e - 32) * (vo - vi) / 64

/-- The code whose output is nearest to a level, the lower of two (R321). -/
def nearestCode (v : Nat → Rat) (want : Rat) : Nat :=
  ((List.range 256).foldl (fun b c => let x := if v c < want then want - v c else v c - want
    match b with
    | some (y, k) => some (if x < y then (x, c) else (y, k))
    | none => some (x, c)) (none : Option (Rat × Nat))).elim 0 Prod.snd

/-- The 256 estimated entries (R321). -/
def nltEstimate (v : Nat → Rat) (inner : Nat) : List (Option Int) :=
  let vo := (v 224 - v 32) / 2
  let vi := vo * inner / 256
  (List.range 256).map fun k => some (nearestCode v (targetOf vo vi ((k : Int) - 128)))

/-- Estimates of an item from a window's statistics, in the order of its result fields; item 3 draws the free values it needs
from the next 256. -/
def calEstimate (n : Lane) (i : Fin 4) (st : List Tally) (d : Dev) : List (Option Int) × Dev :=
  let units := ([0, 1] : List Nat).flatMap fun c => (List.range 65).map fun u => (c, u)
  match i with
  | 0 => (units.flatMap fun p => d.levelEstimate n st p.1 p.2, d)
  | 1 => ((units.map fun p => d.skewEstimate n st p.1 p.2) ++ [d.coreEstimate n st], d)
  | 2 => (d.dacEstimate n st, d)
  | 3 =>
    let v := outputOf st fun c => Config.free (d.freeCtr + c)
    (nltEstimate v (d.lv (F.CAL_TGT_INNER n)), { d with freeCtr := d.freeCtr + 256 })

end Dev

end Sys2Proof.Machine
end

