-- ==== Sys2Proof/Machine/Calib.lean ====
section
/-! DEFINITION. Calibration runs (chapter 9): triggers, holds, rejections, input changes, foreground runs, window
judgement, commit and take-up. -/

namespace Sys2Proof.Machine

namespace Dev

/-- A run of the item is in W1, W2 or COMMIT. -/
def calBusy (d : Dev) (n : Lane) (i : Fin 4) : Bool := (d.calItem n i).phase != 0

/-- The item is held (R325). -/
def calHeld (d : Dev) (n : Lane) (i : Fin 4) : Bool :=
  if (i : Nat) < 2 then d.on (F.LANE_ADC_CFG_TRIM_HOLD n) || !d.lvOn (F.LANE_ADC_CFG_CAL_EN n)
  else d.on (F.LANE_TX_CFG_NLT_HOLD n) || !d.lvOn (F.LANE_TX_CFG_CAL_EN n)

def calReason (n : Lane) (i : Fin 4) : Fld := ⟨R.CAL_STAT n, 16 + 4 * i, 4⟩
def calPend (n : Lane) (i : Fin 4) : Fld := ⟨R.CAL_STAT n, 12 + i, 1⟩
def calBusyBit (n : Lane) (i : Fin 4) : Fld := ⟨R.CAL_STAT n, 8 + i, 1⟩
def calFgBit (n : Lane) (i : Fin 4) : Fld := ⟨R.CAL_STAT n, 4 + i, 1⟩

/-- A run starts: W1 begins at the next boundary (R326), with the settings it keeps throughout. -/
def calStart (n : Lane) (i : Fin 4) (fg : Bool) (d : Dev) : Dev :=
  let cfg := d.liveWord (R.CAL_CFG n)
  let d := d.modCal n i fun c =>
    { CalItem.init with phase := 1, retries := cfg.toNat / 2 ^ 16 % 8, cfg := cfg, tol := d.liveWord (R.CAL_TOL n),
                        fgOk := c.fgOk && !fg }
  (d.setOn (calBusyBit n i) true).setOn (calFgBit n i) fg

/-- The run ends and the item is IDLE. -/
def calEnd (n : Lane) (i : Fin 4) (d : Dev) : Dev :=
  ((d.modCal n i fun c => { c with phase := 0, ready := false, begun := false }).setOn (calBusyBit n i) false).setOn
    (calFgBit n i) false

/-- The window in progress is discarded, and W1 begins at the next boundary. -/
def calAgain (c : CalItem) : CalItem :=
  { c with phase := 1, ready := false, begun := false, quires := 0, stats := [], ended := [] }

/-- A foreground window at the limit FG_MAX (2 to 31). -/
def calLastWindow (c : CalItem) : Bool := decide (max 2 (cfgField c 19 5) ≤ c.windows)

/-- A trigger of item i falls due (R323, R325). -/
def calTrigger (n : Lane) (i : Fin 4) (d : Dev) : Dev :=
  if !d.lvOn ⟨R.CAL_CFG n, i, 1⟩ then d
  else if d.calBusy n i then d
  else if d.calHeld n i then d.setOn (calPend n i) true
  else d.calStart n i false

/-- A run ends rejected (R328): reason, count, CAL event, and an event of fault class 5 (R337). -/
def calFail (n : Lane) (i : Fin 4) (reason event : Nat) (d : Dev) : Dev :=
  let d := (((d.setFld (calReason n i) reason).bump (R.CAL_REJ n i)).raise Blk.cal event n).calEnd n i
  d.charge 5 n fun d => (d.setOn (F.CAL_STAT_DEGRADED n) true).raise Blk.cal 0x54 n

/-- The run is rejected for a reason (R328). -/
def calReject (n : Lane) (i : Fin 4) (reason : Nat) (d : Dev) : Dev := d.calFail n i reason 0x53

/-- A foreground run goes on to its next window, or has made FG_MAX of them without agreement (R334, R335). -/
def calFgNext (n : Lane) (i : Fin 4) (reason : Nat) (d : Dev) : Dev :=
  if calLastWindow (d.calItem n i) then d.calFail n i reason 0x57 else d.modCal n i calAgain

/-- A disagreement, an input change or a lack of samples: one retry, or rejection (R326, R328). A foreground run uses
no retries (R334): DESIGN CHOICE (log 41), the discarded window counts toward FG_MAX. -/
def calRetry (n : Lane) (i : Fin 4) (reason : Nat) (again : CalItem → CalItem) (d : Dev) : Dev :=
  let c := d.calItem n i
  if d.calFg n i then
    ((d.setFld (calReason n i) reason).modCal n i fun c => { c with windows := c.windows + 1, est1 := [] }).calFgNext n i reason
  else if 0 < c.retries then
    (d.setFld (calReason n i) reason).modCal n i fun c => again { c with retries := c.retries - 1 }
  else d.calReject n i reason

/-- An input change of R329 while a window runs: the window is discarded and W1 begins at the next boundary. -/
def calInputChange (n : Lane) (i : Fin 4) (reason : Nat) (d : Dev) : Dev :=
  let p := (d.calItem n i).phase
  if (p = 1 ∨ p = 2) ∧ (d.calItem n i).begun then d.calRetry n i reason calAgain else d

/-- Input changes of the receive items (0, 1) and of the transmit items (2, 3). -/
def calRxChange (n : Lane) (d : Dev) : Dev := (d.calInputChange n 0 3).calInputChange n 1 3
def calTxChange (n : Lane) (d : Dev) : Dev := (d.calInputChange n 2 3).calInputChange n 3 3

/-- ABORT (R330): every run of the lane ends without a commit, reason 5 is recorded and PEND cleared. -/
def calAbortAll (n : Lane) (d : Dev) : Dev :=
  d.each (List.finRange 4) fun i d =>
    let d := if d.calBusy n i then (d.setFld (calReason n i) 5).calEnd n i else d
    d.setOn (calPend n i) false

/-- A foreground run of a direction starts (R334). -/
def calFgStart (n : Lane) (tx : Bool) (d : Dev) : Dev :=
  d.each (if tx then [2, 3] else [0, 1]) fun i d => if d.calBusy n i && d.calFg n i then d else d.calStart n i true

/-- A foreground run of a direction starts when its history bit is 0 (R334). -/
def calForeground (n : Lane) (tx : Bool) (d : Dev) : Dev :=
  if d.on (if tx then F.CAL_CTRL_HIST_TX n else F.CAL_CTRL_HIST_RX n) then d else d.calFgStart n tx

/-- The acquisition trigger of a direction with calibration history (R323). -/
def calAcquired (n : Lane) (tx : Bool) (d : Dev) : Dev :=
  if d.on (if tx then F.CAL_CTRL_HIST_TX n else F.CAL_CTRL_HIST_RX n) then
    d.each (if tx then [2, 3] else [0, 1]) (calTrigger n)
  else d

/-! ### Lane temperature (R323, R324) -/

/-- The temperature trigger of one item. -/
def calWarm (n : Lane) (i : Fin 4) (d : Dev) : Dev :=
  let delta := d.lv (F.CAL_CFG_TDELTA n)
  if delta ≠ 0 ∧ delta < (d.sfld (F.CAL_TEMP_TEMP n) - d.sfld (F.CAL_TREF_TREF n i)).natAbs then d.calTrigger n i else d

/-- After a sample with readings `rs` of which those of sensors `valid` are valid: each lane's temperature, and the runs
that fall due on it. -/
def calTemperatures (rs : List Int) (valid : List Nat) (d : Dev) : Dev :=
  if valid.isEmpty then d
  else d.each allLanes fun n d =>
    let own : List Nat := valid.filter fun (k : Nat) => k / 2 == (n : Nat)
    let of := if own.isEmpty then valid else own
    let t := roundUp ((of.map fun k => rs.getD k 0).sum) of.length
    let d := d.setFld (F.CAL_TEMP_TEMP n) (toField 11 t)
    if valid.length < 4 then d else d.each (List.finRange 4) (calWarm n)

/-! ### Results (R314, R327, R331) -/

/-- The result fields of each item with their tolerance field in CAL.TOL and the step limit (R314, R327). -/
def calFields (n : Lane) (i : Fin 4) : List (Fld × (Nat × Nat) × Int) :=
  let unit (c u : Nat) : Nat := R.LANE_ADC_TRIM n c u
  let units := [0, 1].flatMap fun c => (List.range 65).map fun u => unit c u
  match i with
  | 0 => units.flatMap fun a => [(⟨a, 0, 8⟩, (24, 8), 4), (⟨a, 8, 10⟩, (16, 8), 8)]
  | 1 => (units.map fun a => ((⟨a, 24, 6⟩ : Fld), ((12, 4) : Nat × Nat), (1 : Int)))
      ++ [(F.LANE_ADC_CSKEW_CSKEW n, (12, 4), 1)]
  | 2 => [(F.LANE_DAC_TRIM_BOFS n, (8, 4), 1), (F.LANE_DAC_TRIM_BGAIN n, (8, 4), 1), (F.LANE_DAC_TRIM_BSKEW n, (8, 4), 1)]
  | 3 => (List.range 64).flatMap fun w => (List.range 4).map fun k => (⟨R.LANE_NLT n w, 8 * k, 8⟩, (4, 4), 2)

/-- The registers of an item. -/
def calRegs (n : Lane) (i : Fin 4) : List Nat := ((calFields n i).map fun x => x.1.addr).dedup

/-- A table entry is unsigned; every other result is signed. -/
def calValue (d : Dev) (i : Fin 4) (f : Fld) : Int := if i = 3 then (d.fld f : Int) else d.sfld f

def calRange (i : Fin 4) (f : Fld) (x : Int) : Int :=
  if i = 3 then clampI 0 255 x else clampI (-(2 ^ (f.w - 1))) (2 ^ (f.w - 1) - 1) x

/-- Two estimates agree within the tolerances; a value either lacks is not compared (R316, R327). -/
def calAgree (n : Lane) (i : Fin 4) (c : CalItem) (a b : List (Option Int)) : Bool :=
  ((calFields n i).zip (a.zip b)).all fun x => match x.2 with
    | (some p, some q) => decide ((p - q).natAbs ≤ tolField c x.1.2.1.1 x.1.2.1.2)
    | _ => true

/-- The accepted result: the mean, halves away from zero (R327); a value without both estimates is kept (R316). -/
def calMean (a b : List (Option Int)) : List (Option Int) :=
  (a.zip b).map fun p => match p with
    | (some x, some y) => some (roundAway (x + y) 2)
    | _ => none

/-- Write a result at the commit clock: each value limited to its step (not in a foreground run, R334) and to its range. -/
def calWrite (n : Lane) (i : Fin 4) (limit : Bool) (res : List (Option Int)) (d : Dev) : Dev :=
  d.each ((calFields n i).zip res) fun x d => match x.2 with
    | none => d
    | some v =>
      let old := d.calValue i x.1.1
      let v := if limit then clampI (old - x.1.2.2) (old + x.1.2.2) v else v
      (d.setFld x.1.1 (toField x.1.1.w (calRange i x.1.1 v))).when (decide ((i : Nat) < 2)) (trimBy n true
        [if x.1.1.lo = 0 then 0 else if x.1.1.lo = 8 then 1 else 2] x.1.1.addr)

/-- At step 3 of an internal boundary (R326, R334): a pending trigger whose item is no longer held starts W1 and clears PEND, and a
receive foreground run that waits starts. A window that internal boundaries bound begins at this one. -/
def calDueRuns (n : Lane) (d : Dev) : Dev :=
  let fg := (d.lane n).rx.fgDue
  let d := d.each (List.finRange 4) fun i d =>
    if d.on (calPend n i) && !d.calHeld n i && !d.calBusy n i then
      ((d.setOn (calPend n i) false).calStart n i false).modCal n i fun c =>
        { c with ready := !(decide ((i : Nat) < 2) && d.ownBoundary n) }
    else d
  if !fg then d
  else
    let d := (d.modRx n fun r => { r with fgDue := false }).calFgStart n false
    d.each [0, 1] fun i d => d.modCal n i fun c => { c with ready := c.ready || (c.phase == 1 && !c.begun) }

/-- A boundary arrives: windows that fell due before it may begin at it (R13); a committed result's take-up point may follow
(R331). Items 2 and 3, foreground runs and lanes without their own received boundary count internal boundaries; the others the
lane's received ones (R326, R334). -/
def calMark (n : Lane) (received : Bool) (d : Dev) : Dev :=
  d.each (List.finRange 4) fun i d =>
    let own := decide ((i : Nat) < 2) && d.ownBoundary n
    let c := d.calItem n i
    if c.phase = 4 then if own == received then d.modCal n i fun c => { c with ripe := true } else d
    else if (c.phase = 1 ∨ c.phase = 2) ∧ !c.begun ∧ (own && !d.calFg n i) = received then
      d.modCal n i fun c => { c with ready := true }
    else d

/-- Windows begin at the boundary, and those in progress count it (R326, R334); a window that ends leaves its statistics. -/
def calBegin (n : Lane) (received : Bool) (d : Dev) : Dev :=
  d.each (List.finRange 4) fun i d =>
    let own := decide ((i : Nat) < 2) && d.ownBoundary n && !d.calFg n i
    let c := d.calItem n i
    if own != received ∨ (c.phase ≠ 1 ∧ c.phase ≠ 2) then d
    else if c.begun then d.modCal n i fun c =>
      let q := c.quires + 1
      if q = d.calLength n i then { c with quires := q, ended := c.stats, stats := [] } else { c with quires := q }
    else if c.ready then d.modCal n i fun c => { c with ready := false, begun := true, quires := 0, stats := [] }
    else d

/-- A window has lasted its 2^BG_WIN or 2^FG_WIN quires. -/
def calWindowOver (d : Dev) (n : Lane) (i : Fin 4) : Bool :=
  d.calGathers n i && decide (d.calLength n i ≤ (d.calItem n i).quires)

/-- The number of the window in progress: 1 for W1 and 2 for W2 (R326); in a foreground run, windows count from 1 (R334). -/
def calWindow (d : Dev) (n : Lane) (i : Fin 4) : Nat :=
  let c := d.calItem n i
  if d.calFg n i then c.windows + 1 else c.phase

/-- The end of window `w` (R326, R327, R334): estimates are compared, leading to commit, retry or rejection. DESIGN CHOICE
(log 41): a transmit window that ends where R319 allows no estimate is discarded as by an input change. -/
def calWindowEnd (n : Lane) (i : Fin 4) (w : Nat) (d : Dev) : Dev :=
  if !d.calWindowOver n i || w != d.calWindow n i then d
  else
    let c := d.calItem n i
    let past := c.quires - d.calLength n i
    if 2 ≤ (i : Nat) ∧ !d.transmitEst n then d.calRetry n i 3 calAgain
    else if i = 3 ∧ fewSamples c.ended then d.calRetry n i 4 calAgain
    else
      let (est, d) := d.calEstimate n i c.ended
      let agree := calAgree n i c c.est1 est
      if d.calFg n i then
        d.modCal n i fun c => { c with phase := 3, begun := false, windows := c.windows + 1, est1 := est, result := est,
                                       accepted := decide (0 < c.windows) && !c.est1.isEmpty && agree }
      else if c.phase = 1 then
        d.modCal n i fun c => { c with phase := 2, quires := past, est1 := est, windows := 1 }
      else if agree then
        d.modCal n i fun c => { c with phase := 3, begun := false, result := calMean c.est1 est, accepted := true }
      else d.calRetry n i 1 fun c => { c with phase := 2, begun := true, quires := past, est1 := est }

/-- The other item of a foreground run's direction. -/
def calOther (i : Fin 4) : Fin 4 := if i = 0 then 1 else if i = 1 then 0 else if i = 2 then 3 else 2

/-- Both foreground items of a direction have ended accepted: the history bit is set with CAL event 0x56 (R333, R335). -/
def calHistory (n : Lane) (tx : Bool) (d : Dev) : Dev :=
  (d.setOn (if tx then F.CAL_CTRL_HIST_TX n else F.CAL_CTRL_HIST_RX n) true).raise Blk.cal 0x56 n

/-- An accepted run is recorded at its commit (R331); the one that ends a foreground run of its direction sets the history bit
(R333). -/
def calAccepted (n : Lane) (i : Fin 4) (d : Dev) : Dev :=
  let d := (((d.bump (R.CAL_RUNS n i)).set48 (R.CAL_LASTQ_LO n i) d.clk.qnum.toNat).setFld (F.CAL_TREF_TREF n i)
    (d.fld (F.CAL_TEMP_TEMP n))).raise Blk.cal (0x58 + i) n
  if !d.calFg n i then d
  else
    let d := d.modCal n i fun c => { c with fgOk := true }
    if (d.calItem n (calOther i)).fgOk then d.calHistory n (decide (2 ≤ (i : Nat))) else d

/-- The commit at step 3 of a boundary (R331), and the end of a foreground run (R335). No calibration write reaches a held item
(R213, R170): a foreground run goes on without effect (R336), and a background one ends uncommitted. DESIGN CHOICE (log 41):
its trigger then waits in PEND. -/
def calCommit (n : Lane) (i : Fin 4) (d : Dev) : Dev :=
  let c := d.calItem n i
  if c.phase ≠ 3 then d
  else if d.calHeld n i then
    if d.calFg n i then d.calFgNext n i 1 else (d.calEnd n i).setOn (calPend n i) true
  else
    let d := (d.calWrite n i (!d.calFg n i) c.result).pulse 4
    let d := if c.accepted then d.calAccepted n i else d
    d.modCal n i fun c => { c with phase := 4, taken := false, ripe := decide (2 ≤ (i : Nat)) && d.native }

/-! ### Take-up (R331, R212, R168) -/

/-- A committed result whose take-up point this is: `here` at pilot slot 770, and after an internal tick elsewhere. -/
def calDue (d : Dev) (here : Bool) (n : Lane) (i : Fin 4) : Bool :=
  let c := d.calItem n i
  c.phase == 4 && !c.taken && c.ripe && here

/-- The fields whose committed values are not yet to be used: register and mask. -/
def calKept (d : Dev) (here : Bool) (n : Lane) (items : List (Fin 4)) : List (Nat × Word) :=
  items.flatMap fun i =>
    let c := d.calItem n i
    if c.phase == 4 && !c.taken && !d.calDue here n i then
      (calFields n i).map fun x => (x.1.addr, BitVec.ofNat 32 ((2 ^ x.1.w - 1) * 2 ^ x.1.lo))
    else []

/-- The register's word with the fields kept as they were in use. -/
def keepFields (kept : List (Nat × Word)) (a : Nat) (old new : Word) : Word :=
  (kept.filter fun p => p.1 == a).foldl (fun w p => (w &&& ~~~p.2) ||| (old &&& p.2)) new

/-- The results due have come into use. -/
def calTaken (here : Bool) (n : Lane) (items : List (Fin 4)) (d : Dev) : Dev :=
  d.each items fun i d => if d.calDue here n i then d.modCal n i fun c => { c with taken := true } else d

/-- The take-up of a committed result is over (R331): the item is IDLE, or a foreground run goes on to its next window or ends
(R334, R335). -/
def calTakeUp (n : Lane) (i : Fin 4) (d : Dev) : Dev :=
  let c := d.calItem n i
  if c.phase ≠ 4 ∨ !c.taken then d
  else if !d.calFg n i ∨ c.accepted then d.calEnd n i
  else d.calFgNext n i 1

end Dev

end Sys2Proof.Machine
end

