-- ==== Sys2Proof/Machine/Counters.lean ====
section
/-! DEFINITION. The performance banks (chapter 21): the instruction sampler, the events of a lane's slices, resets. -/

namespace Sys2Proof.Machine

namespace Dev

/-! ### The sampler (R682, R683) -/

/-- One step of x^16 + x^14 + x^13 + x^11 + 1, Fibonacci form. DESIGN CHOICE (log 50): the state moves toward its high bit. -/
def lfsrStep (s : BitVec 16) : BitVec 16 :=
  let b := xor (xor (s.getLsbD 15) (s.getLsbD 13)) (xor (s.getLsbD 12) (s.getLsbD 10))
  (s <<< 1) ||| BitVec.ofNat 16 b.toNat

/-- Draw the interval K to the next sample from the next state of the register (R682). DESIGN CHOICE (log 50): the first r is the state
that follows 0xACE1, and N and JIT are those of the moment of the draw. -/
def drawInterval (d : Dev) : Dev :=
  let r := lfsrStep d.cnt.lfsr
  let k := max 1 (d.fld F.CNT_SMP_CFG_N) + r.toNat % 2 ^ d.fld F.CNT_SMP_CFG_JIT
  { d with cnt := { d.cnt with lfsr := r, left := k } }

/-- EN of `CNT.SMP_CFG` was `was` before a write: a rise loads the register (R682). -/
def samplerEnabled (was : Bool) (d : Dev) : Dev :=
  if !was && d.on F.CNT_SMP_CFG_EN then
    ({ d with cnt := { d.cnt with lfsr := 0xACE1 } }).drawInterval
  else d

/-- Record a sample, or count it lost (R683). -/
def record (x : Sample) (d : Dev) : Dev :=
  if 128 ≤ d.cnt.samples.length then d.bumpFld F.CNT_SMP_STAT_LOST
  else { d with cnt := { d.cnt with samples := d.cnt.samples ++ [x] } }

/-- One instruction retires: the count to the K-th falls, and at the K-th the next interval is drawn (R682); the count stops while
frozen (R688). The K-th instruction waits for its record. -/
def sampleRetired (d : Dev) : Dev :=
  if !d.on F.CNT_SMP_CFG_EN || d.frozen then d
  else if 1 < d.cnt.left then { d with cnt := { d.cnt with left := d.cnt.left - 1 } }
  else
    let x : Sample := ⟨d.cpu.ipc, d.cpu.insn, !d.cpu.iuser, 0⟩
    ({ d with cnt := { d.cnt with due := d.cnt.due ++ [x] } }).drawInterval

/-- The oldest sampled instruction that waits is recorded with its latency (R683). -/
def recordSample (lat : Nat) (d : Dev) : Dev :=
  match d.cnt.due with
  | [] => d
  | x :: xs => ({ d with cnt := { d.cnt with due := xs } }).record { x with lat := min 65535 lat }

/-- Pop the head entry (R683). -/
def samplePop (d : Dev) : Dev := { d with cnt := { d.cnt with samples := d.cnt.samples.tail } }

/-! ### Events of a lane's slices (R684) -/

/-- n events e in the slice that carries lane l and, while it shadows the lane, in the flyleaf, which takes leaves to transmit from
B0 on (R345) and samples from its first received boundary on (R346). -/
def laneEvent (l : Lane) (e n : Nat) (d : Dev) : Dev :=
  let d := d.sliceEvent (d.carrier l) e n
  if d.phase ≠ 0 ∧ d.target = l ∧ (d.spr.feeding ∨ e = 8) then d.sliceEvent d.spr.shadow e n else d

/-! ### Reset and freeze -/

/-- Every register of the global bank resets when MGT powers up or restarts (R677). -/
def cntReset (d : Dev) : Dev :=
  let d := d.elapse
  { (d.resetWords fun a => decide (0x101A0000 ≤ a ∧ a < 0x101A7F00 ∨ 0x101A8000 ≤ a ∧ a < 0x101AFF00)) with
    cnt := { CntSt.init with clocks := d.cnt.clocks } }

end Dev

end Sys2Proof.Machine
end

