-- ==== Sys2Proof/Machine/Transmit.lean ====
section
/-! DEFINITION. The transmit path (chapters 2 to 5): host units, leaf assembly, injection, FFE, table, tone, deglitcher
counts, squelch, queue faults and transmitter start. -/

namespace Sys2Proof.Machine

namespace Dev

/-! ### Squelch (R180 to R182) -/

def hwSquelch (d : Dev) (n : Lane) : Bool :=
  let t := (d.lane n).tx
  t.sqQueue || t.sqOff || t.sqPwr

def anySquelch (d : Dev) (n : Lane) : Bool := d.hwSquelch n || d.on (F.LANE_TX_CFG_SQUELCH n)

/-- A squelch cause arises or goes: the output is squelched at once, with what the slice and the queue still hold, an input change of
the transmit items (R329), and a release waits for a boundary (R181, R182). -/
def squelchNow (n : Lane) (d : Dev) : Dev :=
  let d := d.setOn (F.LANE_TX_STAT_SQ_HW n) (d.hwSquelch n)
  if !d.anySquelch n || d.on (F.LANE_TX_STAT_SQUELCHED n) then d
  else
    ((d.setOn (F.LANE_TX_STAT_SQUELCHED n) true).modTx n fun t =>
      { t with last := 128, lastLevel := 0, out := [], prev := t.prev.map fun x => { x with quiet := true },
               queue := t.queue.map fun x => { x with quiet := true } }).calTxChange n

/-- At an internal boundary the squelch is released when no cause holds (R182). -/
def squelchTick (n : Lane) (d : Dev) : Dev :=
  let d := d.setOn (F.LANE_TX_STAT_SQ_HW n) (d.hwSquelch n)
  d.setOn (F.LANE_TX_STAT_SQUELCHED n) (d.anySquelch n)

/-- The power manager squelches a lane (R180). -/
def squelchPwr (n : Lane) (on : Bool) (d : Dev) : Dev := (d.modTx n fun t => { t with sqPwr := on }).squelchNow n

/-! ### Queue faults (R173) -/

/-- A fill of the queue that is a fault: below 144 or above 432 codes. -/
def badFill (c : Nat) : Bool := decide (c < 144) || decide (432 < c)

/-- The cause is one: a fill out of its bounds, or loss of the PLL's lock. -/
def isQueueFault : QueueCause → Bool
  | .fill c => badFill c
  | .pllLost => true

/-- The cause holds already: its fault has been taken. -/
def queueFaultHeld (t : TxSt) : QueueCause → Bool
  | .fill _ => t.qStage == 1 && badFill t.fill
  | .pllLost => t.qStage == 1 && t.pllLost

def queueFault (n : Lane) (c : QueueCause) (d : Dev) : Dev :=
  if !isQueueFault c || !d.inRun n then d
  else
    let again := queueFaultHeld (d.lane n).tx c
    let d := d.modTx n fun t =>
      { t with sqQueue := true, qStage := 1, pllLost := t.pllLost || c == .pllLost,
               fill := match c with | .fill k => min 576 k | .pllLost => t.fill }
    let d := (d.setOn (F.LANE_TX_STAT_Q_FAULT n) true).squelchNow n
    if again then d else (d.bump (R.LANE_TX_QFLT n)).raise Blk.lane 0x30 n

/-- At an internal boundary: the queue is refilled to 288 codes once the cause has gone, and the squelch cause is released
at the boundary after that. -/
def queueTick (n : Lane) (pllLocked : Bool) (d : Dev) : Dev :=
  let t := (d.lane n).tx
  if t.qStage = 1 then
    if t.pllLost && !pllLocked then d
    else d.modTx n fun t => { t with qStage := 2, pllLost := false, fill := 288 }
  else if t.qStage = 2 then
    (d.modTx n fun t => { t with qStage := 0, sqQueue := false }).setOn (F.LANE_TX_STAT_Q_FAULT n) false
  else d

/-! ### Start and stop (R184) -/

/-- The tone generator takes up its live settings, and the accumulator is loaded (R187); MODE leaving off is an input
change (R329). DESIGN CHOICE (log 42): `TX_STAT.TONE` shows MODE 0b11, which acts as off, as 0b00. -/
def loadTone (n : Lane) (d : Dev) : Dev :=
  let mode := d.lv (F.LANE_TONE_CFG_MODE n)
  let mode := if mode = 3 then 0 else mode
  let was := d.fld (F.LANE_TX_STAT_TONE n)
  let d := (d.modTx n fun t => { t with acc := BitVec.ofNat 32 (d.lv (F.LANE_TONE_CFG_PHASE n) * 65536) }).setFld
    (F.LANE_TX_STAT_TONE n) mode
  if was = 0 ∧ mode ≠ 0 then d.calTxChange n else d

/-- The swing of a SWING code in µV peak to peak (R178). -/
def swingOf (code : Nat) : Nat := if 60 < code then 900000 else 300000 + 10000 * code

/-- A swing move is over (R179). -/
def endSwing (n : Lane) (d : Dev) : Dev :=
  (d.modTx n fun t => { t with vsw := swingOf (d.lv (F.LANE_TX_CFG_SWING n)) }).setOn (F.LANE_TX_STAT_SWING_BUSY n) false

/-- Step 2 of R184 at leaf slot 0, once the front end has woken: the queue begins to fill (step 3); a foreground run starts
without history (R334). -/
def transmitterStart (n : Lane) (d : Dev) : Dev :=
  let t := (d.lane n).tx
  if t.start ≠ 1 ∨ t.slot ≠ 0 ∨ !d.inRun n ∨ !d.domOn (.lfe n) ∨ !d.on F.CLK_STAT_TICK_RUN then d
  else
    let d := d.modTx n fun t => { t with start := 2, y := 0, hist := [], prev := none, endA := none, endB := none, queue := [], fill := 0, fec := 0 }
    let d := d.setFld (F.LANE_FMT_TXQ_LQN n) (d.clk.qnum.toNat % 2 ^ 24)
    ((d.setOn (F.LANE_TX_STAT_TX_RUN n) true).loadTone n).calForeground n true

/-- The lane leaves RUN: its output is squelched before its slice stops (R162, R180). -/
def transmitterStop (n : Lane) (d : Dev) : Dev :=
  let d := d.modTx n fun t => { t with sqOff := true, start := 0, prev := none, queue := [], fill := 0, wake := 0, wakeLeft := 0 }
  (d.squelchNow n).setOn (F.LANE_TX_STAT_TX_RUN n) false

/-! ### Pattern generator and checker of a host lane (R47) -/

/-- The pattern chosen for a host lane by the enable bit of its lane in byte `en` of its bank of page 13h and its four bits from byte
`sel` on: PRBS31Q, PRBS13Q or SSPRQ, and none for a code of another. PRESUMED (log 7): places and codes are CMIS's. -/
def lanePattern (d : Dev) (en sel : Nat) (h : HostLane) : Option HostTx :=
  let k := (h : Nat) % 8
  let page (o : Nat) : Nat := (d.pageByte (pageKey 0x13 (h / 8) o)).toNat
  if page en / 2 ^ k % 2 = 0 then none
  else match page (sel + k / 2) / 16 ^ (k % 2) % 16 with
    | 0 => some .prbs31q
    | 6 => some .prbs13q
    | 12 => some .ssprq
    | _ => none

/-- The pattern that host receive lane h checks for. -/
def checkerPattern (d : Dev) (h : HostLane) : Option HostTx := d.lanePattern 160 164 h

/-- What host transmit lane h puts out: idle where it is silent, else its generator's pattern, else its stream. -/
def hostShown (d : Dev) (h : HostLane) : HostTx :=
  if d.hostSilent h then .idle else (d.lanePattern 144 148 h).getD (d.host[h]).tx

/-- One received bit against the pattern with these taps: the first bits, as many as the pattern's degree, set the generator, and
each later one is compared with its next bit. PRESUMED (log 7). -/
def checkBit (taps : List Nat) (degree : Nat) (c : PatternCheck) (b : Bool) : PatternCheck :=
  let next (b : Bool) : BitVec 31 := (c.reg <<< 1) ||| BitVec.ofNat 31 b.toNat
  if c.seen < degree then { c with reg := next b, seen := c.seen + 1 }
  else
    let e := taps.foldl (fun a i => xor a (c.reg.getLsbD i)) false
    { c with reg := next e, bits := c.bits + 1, errs := c.errs + (e != b).toNat }

/-- The lane's checker takes received bits (R47). The bits of SSPRQ are IEEE 802.3's: how many are in error is free (log 2). -/
def checkReceived (h : HostLane) (bits : List Bool) (d : Dev) : Dev :=
  let run (taps : List Nat) (degree : Nat) : Dev :=
    d.modHost h fun x => { x with check := bits.foldl (checkBit taps degree) x.check }
  match d.checkerPattern h with
  | some .prbs31q => run [30, 27] 31
  | some .prbs13q => run [12, 11, 1, 0] 13
  | some .ssprq =>
    let (v, d) := d.takeFree
    d.modHost h fun x => { x with check := { x.check with
      bits := x.check.bits + bits.length, errs := x.check.errs + v.toNat % (bits.length + 1) } }
  | _ => d

/-! ### Host units (R68, R76) -/

/-- What entry e of lane n takes of its host lane's next bits: the bits with the lane's polarity applied, or PRBS31 fill of a
lost lane (R53, R56, R70); where a unit that counts ends among them; and the device with that unit counted in (R76). `odd`
when the bits begin at the second bit of a host symbol. -/
def hostBits (n : Lane) (e : Nat) (odd : Bool) (bits : List Bool) (d : Dev) : List Bool × Option Nat × Dev :=
  let h := d.rxHost n e
  let lost := d.hostLost h
  let (q, x) := hostPass bits.length lost d.host[h]
  let fill := prbs31 bits.length x.fill
  let d := d.modHost h fun _ => if lost then { x with fill := fill.2 } else x
  let d := if lost then d else d.checkReceived h bits
  (if lost then fill.1 else invertBits (d.lvOn ⟨R.HST_POL, h, 1⟩) odd bits, q, if q.isSome then d.txIn (d.streamOf n e) else d)

/-- The bits an entry takes for a block (R97). -/
def takeEntry (n : Lane) (e : Nat) (bits : BitVec 544) (d : Dev) : Dev :=
  let (bs, q, d) := d.hostBits n e false ((List.range 544).map bits.getLsbD)
  let b := BitVec.ofNat 544 (ofBits bs.reverse)
  d.modTx n fun t => if e = 0 then { t with blkA := b, endA := q } else { t with blkB := b, endB := q }

/-- The interleave block's bits are taken at its first leaf (R97). -/
def takeBlock (n : Lane) (a b : BitVec 544) (d : Dev) : Dev := (d.takeEntry n 0 a).takeEntry n 1 b

/-- A unit whose last bit lies in leaf l of the block is sent, or discarded under LANE_DOWN (R76, R79). -/
def endUnits (n : Lane) (l : Nat) (sent : Bool) (d : Dev) : Dev :=
  let t := (d.lane n).tx
  d.each [(0, t.endA), (1, t.endB)] fun p d =>
    if p.2.map leafOfBit = some l then
      let s := d.streamOf n p.1
      if sent then d.txSent s else d.txDisc s rLANEDOWN 1
    else d

/-! ### Leaves -/

/-- The lane sends its leaves: started, not squelched, not in tone replace mode, no wake pattern (R79). -/
def sends (d : Dev) (n : Lane) : Bool :=
  let t := (d.lane n).tx
  decide (2 ≤ t.start) && !d.on (F.LANE_TX_STAT_SQUELCHED n) && d.fld (F.LANE_TX_STAT_TONE n) != 2 && decide (t.wake < 2)

/-- Injection on a data leaf (R152, R153). DESIGN CHOICE (log 43): a leaf assembled while the output is squelched, in tone
replace mode or under a wake pattern counts as transmitted. -/
def inject (n : Lane) (leaf : List Bool) (d : Dev) : List Bool × Dev :=
  if !d.lvOn (F.LANE_FEC_INJ_EN n) then (leaf, d)
  else
    let left := (d.lane n).tx.injLeft
    if left ≠ 0 then (leaf, d.modTx n fun t => { t with injLeft := left - 1 })
    else
      let d := d.modTx n fun t => { t with injLeft := d.lv (F.LANE_FEC_INJ_PERIOD n) }
      let pos := d.lv (F.LANE_FEC_INJ_POS n)
      if 288 ≤ pos then (leaf, d)
      else ((List.range (d.lv (F.LANE_FEC_INJ_WEIGHT n) + 1)).foldl (fun l i => flipBit l (pos + i)) leaf,
        d.bump (R.LANE_INJ_COUNT n))

/-- Scramble and encode a payload (R99, R100). -/
def codeLeaf (n : Lane) (p : List Bool) (d : Dev) : List Bool × Dev :=
  let r := scramble (d.lane n).tx.scr p
  (innerEncode r.1, d.modTx n fun t => { t with scr := r.2 })

/-- The marker content the lane sends (R106). -/
def markerContent (d : Dev) (n : Lane) : MarkerContent :=
  ⟨BitVec.ofNat 24 (d.fld (F.LANE_FMT_TXQ_LQN n)), BitVec.ofNat 3 (d.lv (F.LANE_FMT_CFG_TX_LANE n)),
   BitVec.ofNat 16 (d.fld F.MSH_ADDR_STAT_MADDR), BitVec.ofNat 16 (d.lv (F.LANE_FMT_CFG_TX_SRC n)), 1⟩

/-- The 288 bits of the leaf in the slot. -/
def leafBits (n : Lane) (k : SlotKind) (stitch : BitVec 272) (d : Dev) : List Bool × Dev :=
  match k with
  | .data i =>
    let t := (d.lane n).tx
    let (l, d) := d.codeLeaf n (entryShare t.blkA (i % 4) ++ entryShare t.blkB (i % 4))
    d.inject n l
  | .stitch _ => d.codeLeaf n ((List.range 272).map fun i => stitch.getLsbD (271 - i))
  | .marker j => (markerLeaf (d.markerContent n) j, d)
  | .pilot m => (pilotLeaf m, d)

/-- Table and DAC trim in use change only at pilot slots, or after an internal tick on a compatibility lane, while `NLT_HOLD`
is 0 (R168, R169, R332); a calibration result not before its take-up point (R331). -/
def takeUpTable (n : Lane) (d : Dev) : Dev :=
  if d.on (F.LANE_TX_CFG_NLT_HOLD n) then d
  else
    let t := (d.lane n).tx
    let here := !d.native || t.slot == 770 || decide (t.start < 2)
    let kept := d.calKept here n [2, 3]
    let use (a : Nat) (old : Word) : Word := keepFields kept a old (d.reg a)
    (d.modTx n fun t =>
      { t with nlt := (List.range 64).map fun w => use (R.LANE_NLT n w) (t.nlt.getD w 0),
               trim := use (R.LANE_DAC_TRIM n) t.trim }).calTaken here n [2, 3]

/-- The code of a wake pattern with `left` slice clocks to go: blocks of 784, 255 first (R583). -/
def wakeCode (left : Nat) : Nat := if left = 0 then 0 else if (100352 - left) / 784 % 2 = 0 then 255 else 0

/-- The output samples of codes under a threshold, a hold and a swing, from the code and level before them (R175, R176). -/
def outputSamples (thresh hold vsw : Nat) : Nat → Int → List Nat → List OutSample
  | _, _, [] => []
  | c, held, x :: xs =>
    let level : Int := (2 * (x : Int) - 255) * vsw
    let major := decide (thresh < ((x : Int) - c).natAbs)
    ⟨x, c, level, if major then hold else 0, held⟩ :: outputSamples thresh hold vsw x level xs

/-- Major transitions among codes, from the code before them (R176, R177). -/
def majors (thresh : Nat) : Nat → List Nat → Nat
  | _, [] => 0
  | c, x :: xs => (if thresh < ((x : Int) - c).natAbs then 1 else 0) + majors thresh x xs

/-- The swing moves monotonically from `v` toward `goal`: by a free value, never past it (R179). -/
def swingStep (v goal : Nat) (f : Word) : Nat :=
  if v ≤ goal then v + f.toNat % (goal - v + 1) else v - f.toNat % (v - goal + 1)

/-- The swing in force for a slot: it moves while `SWING_BUSY` is 1 (R179). -/
def moveSwing (n : Lane) (d : Dev) : Dev :=
  if !d.on (F.LANE_TX_STAT_SWING_BUSY n) then d
  else
    let (f, d) := d.takeFree
    d.modTx n fun t => { t with vsw := swingStep t.vsw (swingOf (d.lv (F.LANE_TX_CFG_SWING n))) f }

/-- One slot's codes reach the mux: output samples and major transitions, or zero differential while the output is squelched
(R174 to R177, R181). -/
def driveOut (n : Lane) (x : QSlot) (d : Dev) : Dev :=
  if x.quiet then
    d.modTx n fun t => { t with out := [], outLevels := [], outEst := false, last := 128, lastLevel := 0 }
  else
    let t := (d.lane n).tx
    let out := outputSamples x.thresh x.hold t.vsw t.last t.lastLevel x.codes
    (d.bump48By (R.LANE_TX_MAJOR_LO n) (majors x.thresh t.last x.codes)).modTx n fun t =>
      { t with out := out, outLevels := x.levels, outEst := x.est, last := x.codes.getLastD t.last, lastLevel := (out.map OutSample.level).getLastD t.lastLevel }

/-- A slot's codes enter the sample queue; once it holds 288 codes, the oldest slot's leave it as they enter (R172). -/
def queueCodes (n : Lane) (x : QSlot) (d : Dev) : Dev :=
  match (d.lane n).tx.queue with
  | a :: b :: r => (d.modTx n fun t => { t with queue := b :: r ++ [x] }).driveOut n a
  | q => d.modTx n fun t => { t with queue := q ++ [x], fill := t.fill + 144 }

/-- The codes of a slot are formed once the symbols that follow it are known, and go to the sample queue (R161, R163, R166,
R185, R172). -/
def formCodes (n : Lane) (x : TxSlot) (after : List Int) (d : Dev) : Dev :=
  let t := (d.lane n).tx
  let before := List.replicate (8 - t.hist.length) 0 ++ t.hist
  let raw := ffeRaw x.ffe before x.levels (after.take 8)
  let sat := (raw.filter fun v => decide (v < -128) || decide (127 < v)).length
  let base := match x.wake with
    | some c => List.replicate 144 c
    | none => ((List.range 144).zip (raw.map (dacCode x.byp x.nlt))).map fun p =>
        toneCode x.mode x.amp (x.acc + BitVec.ofNat 32 p.1 * x.ftw) p.2
  let d := (d.bumpBy (R.LANE_TX_SAT n) sat).queueCodes n ⟨base, if x.wake.isSome then [] else x.levels, x.quiet, x.est, x.thresh, x.hold⟩
  d.modTx n fun t => { t with hist := (before ++ x.levels).drop x.levels.length }

/-- The 288 bits of a slice clock are Gray-coded, precoded and put in line (R85, R87, R122), and the codes of the slot before
are formed. -/
def sendBits (n : Lane) (bits : List Bool) (d : Dev) : Dev :=
  let t := (d.lane n).tx
  let xs := leafSymbols bits
  let ys := if d.lvOn (F.LANE_FMT_CFG_PRE_TX n) then precode t.y xs else xs
  let levels := ys.map symbolLevel
  let d := match t.prev with | some p => d.formCodes n p levels | none => d
  let est := !d.native || match slotKind t.slot with | .data _ | .stitch _ => true | _ => false
  let cur : TxSlot :=
    { levels := levels, ffe := [d.liveWord (R.LANE_TX_FFE0 n), d.liveWord (R.LANE_TX_FFE1 n), d.liveWord (R.LANE_TX_FFE2 n)],
      byp := d.lvOn (F.LANE_TX_CFG_NLT_BYP n), nlt := (d.lane n).tx.nlt, mode := d.fld (F.LANE_TX_STAT_TONE n),
      amp := d.lv (F.LANE_TONE_CFG_AMP n), ftw := d.liveWord (R.LANE_TONE_FTW n), acc := t.acc,
      wake := if 2 ≤ t.wake then some (wakeCode t.wakeLeft) else none,
      quiet := d.on (F.LANE_TX_STAT_SQUELCHED n), est := est, thresh := d.lv (F.LANE_TX_CFG_THRESH n), hold := d.lv (F.LANE_TX_CFG_HOLD n) }
  (d.modTx n fun t => { t with prev := some cur, y := ys.getLastD 0, wakeLeft := t.wakeLeft - 1 }).moveSwing n

/-- One leaf is assembled and sent. -/
def sendLeaf (n : Lane) (k : SlotKind) (stitch : BitVec 272) (d : Dev) : Dev :=
  let d := if (d.lane n).tx.slot = 0 then d.modTx n fun t =>
      { t with scr := scramblerSeed (d.lv (F.LANE_FMT_CFG_TX_LANE n)) (BitVec.ofNat 24 (d.fld (F.LANE_FMT_TXQ_LQN n))) }
    else d
  let d := match k with | .pilot _ => d.takeUpTable n | _ => d
  let (bits, d) := d.leafBits n k stitch
  (d.sendBits n bits).laneEvent n 8 1

/-- The lane's tone accumulator runs: its tone MODE is live at add or replace, or a bias DAC uses it for dither (R441). -/
def toneRuns (d : Dev) (n : Lane) : Bool :=
  d.lv (F.LANE_TONE_CFG_MODE n) == 1 || d.lv (F.LANE_TONE_CFG_MODE n) == 2
    || (List.range 24).any fun k => d.on (F.HKP_BDIT_DEN k) && d.fld (F.HKP_BDIT_DLANE k) == (n : Nat)

/-- The lane's tone accumulator advances by k slice clocks (R186, R441). -/
def advanceTone (n : Lane) (k : Nat) (d : Dev) : Dev :=
  if d.toneRuns n then d.modTx n fun t => { t with acc := t.acc + BitVec.ofNat 32 (144 * k) * d.liveWord (R.LANE_TONE_FTW n) }
  else d

/-- A slice clock of the lane's front end ends: the swing move's bound (R179), the tone, the slot number. -/
def slotEnd (n : Lane) (d : Dev) : Dev :=
  let slot := (d.lane n).tx.slot
  let d := if slot = 255 then d.endSwing n else d
  (d.advanceTone n 1).modTx n fun t => { t with slot := slot + 1 }

/-- One slice clock of a compatibility lane: the inner FEC sublayer takes the host lane's bits in arrival order, and its
output is sent (R122, R123); the bits' unit is sent, or discarded under LANE_DOWN (R76, R79). Table and DAC trim change at
the first symbol after a tick (R168). -/
def compatSlot (n : Lane) (a : BitVec 544) (d : Dev) : Dev :=
  let i := (d.lane n).tx.beat
  let k := compatHostBits (i + 1) - compatHostBits i
  let (bits, q, d) := d.hostBits n 0 (compatHostBits i % 2 == 1) ((List.range k).map a.getLsbD)
  let s := d.streamOf n 0
  let sent := d.sends n
  let d := if (d.lane n).tx.start < 2 then d
    else
      let d := if (d.lane n).tx.slot = 0 then d.takeUpTable n else d
      let r := Config.innerFecEncode (d.lane n).tx.fec bits
      (d.modTx n fun t => { t with fec := r.1 }).sendBits n ((List.range 288).map r.2.getMsbD)
  let d := if q.isNone then d else if sent then d.txSent s else d.txDisc s rLANEDOWN 1
  d.modTx n fun t => { t with beat := (i + 1) % 121 }

/-- One leaf slot of lane n (R86): host units enter at the first leaf of a block; the slice assembles the leaf if its
transmitter runs; the ledgers move. `stitch` is the slot's stitch payload. -/
def leafSlot (n : Lane) (a b : BitVec 544) (stitch : BitVec 272) (d : Dev) : Dev :=
  let k := slotKind (d.lane n).tx.slot
  let d := match k with | .data i => if i % 4 = 0 then d.takeBlock n a b else d | _ => d
  let sent := d.sends n
  let d := if 2 ≤ (d.lane n).tx.start then d.sendLeaf n k stitch else d
  match k with
  | .data i =>
    let d := if sent then d.each (d.laneStreams n) fun s d => d.bump48 (R.MAP_TX_LEAF_OUT_LO s) else d
    d.endUnits n (i % 4) sent
  | _ => d

/-- `TRANSMIT_LEAF`: one slice clock of lane n, a leaf slot on a native lane; `smp` is the equivalent-time sampler's reading. -/
def transmitLeaf (n : Lane) (a b : BitVec 544) (stitch : BitVec 272) (smp : Byte) (d : Dev) : Dev :=
  if !d.slotOpen n then d
  else ((if d.native then d.leafSlot n a b stitch else d.compatSlot n a).dacSample n smp).slotEnd n |>.mirrorTx n

/-! ### The internal boundary (R92, R179, R184, R583) -/

/-- The quire of lane n's front end ends: the tone accumulator completes it (R186), and slot 0 begins. -/
def frontEndQuire (n : Lane) (d : Dev) : Dev :=
  (d.advanceTone n (d.quireClocks - (d.lane n).tx.slot)).modTx n fun t => { t with slot := 0 }

/-- The transmitter at an internal boundary: the line quire number advances, the start sequence's squelch is released one
quire after step 2. -/
def transmitTick (n : Lane) (pllLocked : Bool) (d : Dev) : Dev :=
  let t := (d.lane n).tx
  let d := if 2 ≤ t.start then d.setFld (F.LANE_FMT_TXQ_LQN n) (d.fld (F.LANE_FMT_TXQ_LQN n) + 1) else d
  let d := d.modTx n fun t =>
    { t with start := if t.start = 2 then 3 else t.start, sqOff := if t.start = 2 then false else t.sqOff,
             wake := if t.wake = 1 ∨ 4 ≤ t.wake ∨ (t.wake = 2 ∧ 0 < t.wakeLeft) then 2 else 0,
             wakeLeft := if t.wake = 1 ∨ 4 ≤ t.wake then 100352 else t.wakeLeft }
  let d := ((d.queueTick n pllLocked).squelchTick n).when (decide (t.start < 2) && d.domOn (.lfe n)) (takeUpTable n)
  if t.start = 2 then d.calAcquired n true else d

/-- `PWR.WAKE_TX` for a lane in RUN (R583): the pattern replaces its codes from slot 0 of the next quire on; one in progress goes on
till then. -/
def wakeTx (n : Lane) (d : Dev) : Dev :=
  if d.inRun n then
    d.modTx n fun t => { t with wake := if t.wake < 2 then 1 else if t.wake < 4 then t.wake + 2 else t.wake }
  else d

/-- The wake pattern's last block has been sent (R583). -/
def wakePatternEnd (n : Lane) (d : Dev) : Dev :=
  let t := (d.lane n).tx
  if (t.wake = 2 ∨ t.wake = 4) ∧ t.wakeLeft = 0 then d.modTx n fun t => { t with wake := t.wake + 1 } else d

/-! ### Transmit part of a group-2 press (R120, R152, R164, R179, R187) -/

/-- The transmit part of a group-2 press. DESIGN CHOICE (log 43): every such press starts the count of PERIOD again, also one that
leaves `FEC_INJ` as it was. -/
def pressTransmit (n : Lane) (d : Dev) : Dev :=
  let swing := d.lv (F.LANE_TX_CFG_SWING n)
  let byp := d.lv (F.LANE_TX_CFG_NLT_BYP n)
  let d := d.pressWords [R.LANE_TX_CFG n, R.LANE_TONE_CFG n, R.LANE_TONE_FTW n, R.LANE_FEC_INJ n]
  let d := if d.fld (F.LANE_TX_FFE2_MAIN n) ≤ 8 then
      (d.pressWords [R.LANE_TX_FFE0 n, R.LANE_TX_FFE1 n, R.LANE_TX_FFE2 n]).setOn (F.LANE_TX_STAT_CFG_ERR n) false
    else (d.setOn (F.LANE_TX_STAT_CFG_ERR n) true).raise Blk.lane 0x31 n
  let d := if d.lv (F.LANE_TX_CFG_SWING n) ≠ swing then d.setOn (F.LANE_TX_STAT_SWING_BUSY n) true else d
  let d := if d.lv (F.LANE_TX_CFG_SWING n) ≠ swing ∨ d.lv (F.LANE_TX_CFG_NLT_BYP n) ≠ byp then d.calTxChange n else d
  (d.modTx n fun t => { t with injLeft := 0 }).loadTone n

end Dev

end Sys2Proof.Machine
end

