-- ==== Sys2Proof/Machine/Pages.lean ====
section
/-! DEFINITION. The management port's page store (R547, R556), CMIS flags and module state (R554, R555, R565), the
session and its challenge (R561 to R563), and the I3C commands (R546). -/

namespace Sys2Proof.Machine

/-- A big-endian byte list of a number, n bytes. -/
def bytesBE (n v : Nat) : List Byte := (List.range n).map fun i => BitVec.ofNat 8 (v / 2 ^ (8 * (n - 1 - i)))

/-- The number of a big-endian byte list. -/
def natBE (l : List Byte) : Nat := l.foldl (fun a b => 256 * a + b.toNat) 0

/-- The first 64 bytes of SHAKE256 as a number, the first byte most significant. -/
def shake (l : List Byte) : BitVec 512 := BitVec.ofNat 512 (natBE (shake256 l 64))

namespace Dev

def modMgmt (f : MgmtSt → MgmtSt) (d : Dev) : Dev := { d with mgmt := f d.mgmt }

/-! ### Bytes (R547, R556) -/

def setPageByte (k : Nat) (b : Byte) (d : Dev) : Dev :=
  d.modMgmt fun m => { m with pages := Cells.put zeroByte m.pages k b }

def setPageBytes (k : Nat) (l : List Byte) (d : Dev) : Dev :=
  d.each ((List.range l.length).zip l) fun p d => d.setPageByte (k + p.1) p.2

/-- The page exists in the bank selected (R556). -/
def pageListed (p b : Nat) : Bool :=
  if bankedPage p then decide (b < 2) else p == 0 || p == 1 || p == 2 || decide (0x80 ≤ p ∧ p ≤ 0x8F)

/-- The bank and page that bytes 126 and 127 select. -/
def selBank (d : Dev) : Nat := (d.pageByte 126).toNat
def selPage (d : Dev) : Nat := (d.pageByte 127).toNat

/-- Byte o of the maintenance page (R560). -/
abbrev maint (o : Nat) : Nat := pageKey 0x80 0 o

/-! ### Host transmitters (R47, R714) -/

/-- The settings of pre-cursor, post-cursor and amplitude codes; a code above its range acts as the highest (R714). -/
def hostDrive (pre post amp : Nat) : HostDrive := ⟨min 6 pre, min 7 post, [350, 500, 650].getD amp 900⟩

/-- The setting of host transmit lane h, by the codes of its four bits in page 10h: bytes 162, 166 and 170 on, lane by lane. The layout
is CMIS's, and the codes act as they stand (log 7). -/
def driveOf (d : Dev) (h : HostLane) : HostDrive :=
  let k := (h : Nat) % 8
  let code (o : Nat) : Nat := (d.pageByte (pageKey 0x10 (h / 8) (o + k / 2))).toNat / 16 ^ (k % 2) % 16
  hostDrive (code 162) (code 166) (code 170)

/-! ### Flags and pins (R554, R555) -/

/-- CMIS flag bytes with their mask bytes: lower memory 8 to 13 under 31 to 36, and page 11h bytes 134 to 153 under page
10h bytes 213 to 232, and the diagnostics flags of page 14h bytes 132 to 139 under page 13h bytes 206 to 213, in banks 0 and 1. The
layout is CMIS's (log 7). -/
def flagMasks : List (Nat × Nat) :=
  (List.range 6).map (fun i => (8 + i, 31 + i)) ++
  [0, 1].flatMap fun b => (List.range 20).map (fun i => (pageKey 0x11 b (134 + i), pageKey 0x10 b (213 + i))) ++
    (List.range 8).map fun i => (pageKey 0x14 b (132 + i), pageKey 0x13 b (206 + i))

/-- A media-lane field of pages 10h and 11h (R556): output controls and squelch, the masks, flags and monitors of media lanes. The layout
is CMIS's (log 7). -/
def mediaField (p o : Nat) : Bool :=
  let flag (f : Nat) : Bool := f == 135 || decide (139 ≤ f ∧ f ≤ 152)
  (p == 0x10 && (decide (130 ≤ o ∧ o ≤ 132) || (decide (213 ≤ o ∧ o ≤ 232) && flag (o - 79))))
    || (p == 0x11 && (o == 133 || flag o || decide (154 ≤ o ∧ o ≤ 201)))

/-- The byte is there to read and write in the bank: media lanes appear in bank 0 alone (R556). -/
def banked (p b o : Nat) : Bool := pageListed p b && !(b == 1 && mediaField p o)

/-- Latch bit `bit` of flag byte `k`. -/
def latchFlag (k bit : Nat) (d : Dev) : Dev := d.setPageByte k (d.pageByte k ||| BitVec.ofNat 8 (2 ^ bit))

/-- Flags whose cause is present latch again at once (R555): the high warning (byte 9 bit 2) at level WARN and above,
the high alarm (bit 0) at THROTTLE and above (R612, R613). -/
def relatchCauses (d : Dev) : Dev :=
  let l := d.fld F.THM_STAT_LEVEL
  let d := if 1 ≤ l then d.latchFlag 9 2 else d
  if 2 ≤ l then d.latchFlag 9 0 else d

/-- A host read of byte k clears it if it is a flag byte (R555). -/
def clearFlag (k : Nat) (d : Dev) : Dev :=
  if flagMasks.any fun p => p.1 == k then (d.setPageByte k 0).relatchCauses else d

/-- An unmasked latched flag is 1. -/
def flagRaised (d : Dev) : Bool := flagMasks.any fun p => d.pageByte p.1 &&& ~~~(d.pageByte p.2) != 0

/-- The CMIS temperature monitor, bytes 14 and 15, in 1/256 °C (R613). -/
def setTempMonitor (t : Int) (d : Dev) : Dev := d.setPageBytes 14 (bytesBE 2 (toField 16 t))

/-- The low-power request (R554): byte 26 bit 4 LowPwrRequestSW, bit 6 LowPwrAllowRequestHW (log 7). -/
def lowPower (d : Dev) : Bool :=
  (d.pageByte 26).getLsbD 4 || ((d.pageByte 26).getLsbD 6 && d.mgmt.lpmode)

/-- The CMIS module state, as `MGT.STAT.CSTATE` codes it (R565). -/
def cmisState (d : Dev) : Nat :=
  let st := d.fld F.PWR_STAT_DSTATE
  if st ≤ 2 then 0
  else if st = 3 then if !d.mgmt.ready then 0 else if d.pwr.heldOff then 5 else 1
  else if st = 6 then 2
  else if st = 5 then 4
  else 3

/-- RB_N is high (R551): MGT on, ready and not busy. -/
def rbHigh (d : Dev) : Bool := d.domOn .mgt && d.mgmt.ready && d.mgmt.busy.isEmpty

/-- INT_N is low (R555). -/
def intLow (d : Dev) : Bool := d.domOn .mgt && d.flagRaised

/-- REG_SYNC runs (R442). -/
def regSync (d : Dev) : Bool := d.domOn .mgt && d.on F.HKP_SYNC_EN && d.on F.CLK_STAT_TICK_RUN

/-- `MGT.STAT` follows its causes (R518). -/
def settleMgt (d : Dev) : Dev :=
  d.setFld F.MGT_STAT_CSTATE d.cmisState |>.setOn F.MGT_STAT_UNLOCKED d.mgmt.unlocked
    |>.setOn F.MGT_STAT_LOCKOUT d.mgmt.lockout |>.setOn F.MGT_STAT_BUSY (!d.mgmt.busy.isEmpty)
    |>.setOn F.MGT_STAT_RB d.rbHigh |>.setOn F.MGT_STAT_INT d.intLow |>.setOn F.MGT_STAT_LPREQ d.lowPower

/-! ### Session (R561 to R563) -/

/-- Load a fresh challenge (R561). -/
def newNonce (d : Dev) : Dev :=
  let n := Config.nonce d.mgmt.nonces
  d.modMgmt fun m => { m with nonce := n, nonces := m.nonces + 1 }

/-- A session ends, with MGT event 0xC1, if one is unlocked (R563). -/
def endSession (d : Dev) : Dev :=
  if d.mgmt.unlocked then (d.modMgmt fun m => { m with unlocked := false }).raise Blk.mgt 0xC1 0 else d

/-- The response R561 asks for: the first 16 bytes of SHAKE256 over key, NONCE and device ID. -/
def expectedResponse (d : Dev) : Nat :=
  (shake (bytesBE 32 d.sec.maint.bits.toNat ++ bytesBE 8 d.mgmt.nonce.toNat ++ bytesBE 8 d.sec.devId.toNat)).toNat
    / 2 ^ 384

/-- SUBMIT (R561 to R563): refused in lockout; without a maintenance key it always fails. -/
def submit (d : Dev) : Dev :=
  if d.mgmt.lockout then d
  else
    let ok := d.sec.maint.enrolled && natBE d.mgmt.resp == d.expectedResponse
    let d := if ok then
        (d.modMgmt fun m => { m with unlocked := true, fails := 0, sessQ := 0 }).raise Blk.mgt 0xC0 0
      else
        let d := (d.modMgmt fun m => { m with fails := m.fails + 1 }).raise Blk.mgt 0xC2 0
        if d.mgmt.fails < 8 then d
        else (d.modMgmt fun m => { m with lockout := true, lockQ := 0 }).raise Blk.mgt 0xC3 0
    d.newNonce

/-- Session idle limit (R563). -/
def sessionIdle (d : Dev) : Dev :=
  if decide (2 ^ d.fld F.MGT_CFG_SESS_EXP ≤ d.mgmt.sessQ) then d.endSession else d

/-- Lockout ends after 2^26 quires (R562). -/
def lockoutOver (d : Dev) : Dev :=
  if d.mgmt.lockout && decide (2 ^ 26 ≤ d.mgmt.lockQ) then
    d.modMgmt fun m => { m with lockout := false, fails := 0, lockQ := 0 }
  else d

/-- One internal quire passes for the session timers, and the port engine has done what keeps the port busy on its account: its bound is
20 µs (R548, log 47). -/
def sessionTick (d : Dev) : Dev :=
  d.modMgmt fun m => { m with sessQ := m.sessQ + 1, lockQ := if m.lockout then m.lockQ + 1 else 0,
                              busy := m.busy.filter fun x => x != .engine }

/-! ### I3C (R545, R546) -/

/-- The port answers: MGT is on and RESET_N is not recognised low. -/
def portOn (d : Dev) : Bool := d.domOn .mgt && !d.mgmt.resetLow

/-- The port acknowledges its own address: it is on and not busy (R548). -/
def addressed (d : Dev) : Bool := d.portOn && d.mgmt.busy.isEmpty

def setDynamic (a : BitVec 7) (d : Dev) : Dev := (d.setFld F.MGT_STAT_DADDR a.toNat).setOn F.MGT_STAT_I3C true

/-- The address it answers at: the dynamic one it holds, else the static address 0x50 (R545, R546). -/
def ownAddress (d : Dev) : Nat := if d.on F.MGT_STAT_I3C then d.fld F.MGT_STAT_DADDR else 0x50

/-- A transaction at bus address a is acknowledged (R545, R546, R548). -/
def answersAt (d : Dev) (a : BitVec 7) : Bool := d.addressed && a.toNat == d.ownAddress

/-- SETDASA to the static address 0x50. -/
def setdasa (s a : BitVec 7) (d : Dev) : Dev :=
  if d.addressed && s == 0x50 && !d.on F.MGT_STAT_I3C then d.setDynamic a else d

/-- ENTDAA: a target without a dynamic address that wins the arbitration takes the one offered. -/
def entdaa (a : BitVec 7) (won : Bool) (d : Dev) : Dev :=
  if d.portOn && won && !d.on F.MGT_STAT_I3C then d.setDynamic a else d

/-- The dynamic address is dropped (RSTDAA, RESET_N). -/
def dropDynamic (d : Dev) : Dev := (d.setFld F.MGT_STAT_DADDR 0).setOn F.MGT_STAT_I3C false

def rstdaa (d : Dev) : Dev := if d.portOn then d.dropDynamic else d

/-- A GET command's bytes: it goes to a dynamic address, so a target that holds none does not answer (R546). -/
def answer (l : List Byte) (d : Dev) : Dev := if d.addressed && d.on F.MGT_STAT_I3C then d.modMgmt fun m => { m with rdata := l } else d

/-- GETPID: bits [47:0] of the device ID, most significant byte first. -/
def getpid (d : Dev) : Dev := d.answer (bytesBE 6 (d.sec.devId.toNat % 2 ^ 48))

/-- A GET command whose value the spec does not state answers n free bytes (log 2). -/
def answerFree (n : Nat) (d : Dev) : Dev :=
  if !(d.addressed && d.on F.MGT_STAT_I3C) then d else let (w, d) := d.takeFree; d.answer (bytesBE n w.toNat)

end Dev

/-! ### Transactions (R547, R548, R555, R560) -/

/-- The offsets of n bytes from o: 127 runs on into 128, 255 wraps to 128 (R547). -/
def offsets (o : Nat) : Nat → List Nat
  | 0 => []
  | n + 1 => o :: offsets (if o = 255 then 128 else o + 1) n

namespace Dev

/-- The data path state of a host lane (R567), as CMIS codes it (log 7): 4 DPActivated, 2 DPInit, 1 DPDeactivated. A lane in use
is activated while every stream that uses it is up. -/
def dpState (d : Dev) (h : HostLane) : Nat :=
  let ss := (allLanes.flatMap fun n => d.entries.map fun e => (n, e)).filter fun p =>
    d.rxHost p.1 p.2 == h || d.txHost p.1 p.2 == h
  if !d.hostInUse h then 1
  else if ss.all fun p => d.on (upBit (d.streamOf p.1 p.2)) then 4 else 2

/-- Byte k of the four that show the data path states of bank b's eight host lanes, two a byte, the lower lane low (R556). -/
def dpByte (d : Dev) (b k : Nat) : Byte :=
  BitVec.ofNat 8 (d.dpState (Fin.ofNat 16 (8 * b + 2 * k + 1)) * 16 + d.dpState (Fin.ofNat 16 (8 * b + 2 * k)))

/-- What firmware advertises: adaptive input equalisation alone in byte 161 of page 01h (R714), and the three patterns for the host
side alone in bytes 132 to 139 of page 13h (R47, R556). PRESUMED (log 7): the places are CMIS's. -/
def advertised (p o : Nat) (v : Byte) : Byte :=
  if p = 1 ∧ o = 161 then (v &&& 0xF3) ||| 0x08
  else if p = 0x13 ∧ 132 ≤ o ∧ o < 140 then [0x41, 0x10, 0, 0, 0x41, 0x10, 0, 0].getD (o - 132) 0
  else v

/-- A ratio as CMIS writes it, of 11 bits of mantissa m and 5 of exponent s: m × 10^(s − 24), s the least that m allows. -/
def ratioF16 (a b : Nat) : Nat :=
  let m (s : Nat) : Nat := a * 10 ^ (24 - s) / b
  let s := ((List.range 25).find? fun s => decide (m s < 2048)).getD 24
  if b = 0 then 0 else s * 2048 + m s % 2048

/-- Byte k of the checker results that byte 128 of page 14h selects in bank b (R47): 1 for the eight error ratios, 2 and 3 for the counts
of errors and of bits of lanes 0 to 3 and 4 to 7. PRESUMED (log 7): the layout is CMIS's. -/
def checkerByte (d : Dev) (b k : Nat) : Byte :=
  let c (i : Nat) : PatternCheck := (d.host[Fin.ofNat 16 (8 * b + i)]).check
  match (d.pageByte (pageKey 0x14 b 128)).toNat with
  | 1 => if k < 16 then (bytesBE 2 (ratioF16 (c (k / 2)).errs (c (k / 2)).bits)).getD (k % 2) 0 else 0
  | s =>
    if s = 2 ∨ s = 3 then
      let x := c (4 * (s - 2) + k / 16)
      BitVec.ofNat 8 ((if k / 8 % 2 = 0 then x.errs else x.bits) / 256 ^ (k % 8))
    else 0

/-- The byte a host reads at offset o (R556, R560, R564): password bytes 118 to 125 read 0; before READY all but bytes 0
to 2 read 0, and those are CMIS's, free here. ModuleState stands in byte 3, over the bit that is 0 while INT_N is low (R549, log 7). -/
def hostByte (d : Dev) (o : Nat) : Byte :=
  if !d.mgmt.ready then if o < 3 then (Config.free (d.freeCtr + o)).setWidth 8 else 0
  else if o = 3 then BitVec.ofNat 8 (2 * d.cmisState + (!d.intLow).toNat)
  else if o < 128 then if 118 ≤ o ∧ o < 126 then 0 else d.pageByte o
  else
    let p := d.selPage
    if !banked p d.selBank o then 0
    else if p = 0x80 then
      if o = 128 then BitVec.ofNat 8 (d.mgmt.unlocked.toNat * 128 + d.mgmt.lockout.toNat * 64 + d.mgmt.fails % 16)
      else if 136 ≤ o ∧ o < 144 then (bytesBE 8 d.mgmt.nonce.toNat).getD (o - 136) 0
      else if o = 129 ∨ (144 ≤ o ∧ o < 160) ∨ 220 ≤ o then 0 else d.pageByte (maint o)
    else if p = 0x11 ∧ o < 132 then d.dpByte d.selBank (o - 128)
    else if p = 0x14 ∧ 192 ≤ o then d.checkerByte d.selBank (o - 192)
    else advertised p o (d.pageByte (pageKey p d.selBank o))

/-- A host read transaction (R555) of the bytes from an offset on, at a bus address: its bytes, and the flags it read clear. -/
def portRead (addr : BitVec 7 × Byte) (len : Nat) (d : Dev) : Dev :=
  if !d.answersAt addr.1 then d
  else
    let os := offsets addr.2.toNat len
    let data := os.map d.hostByte
    let keys := os.map fun o => if o < 128 then o else pageKey d.selPage d.selBank o
    let d := if d.mgmt.ready then d.each keys clearFlag else { d with freeCtr := d.freeCtr + 3 }
    d.modMgmt fun m => { m with rdata := data }

/-- One byte of a host write to the maintenance page (R560). -/
def maintByte (o : Nat) (b : Byte) (d : Dev) : Dev :=
  if o = 130 ∨ (160 ≤ o ∧ o < 220) then d.setPageByte (maint o) b
  else if 144 ≤ o ∧ o < 160 then
    d.modMgmt fun m => { m with resp := (m.resp ++ List.replicate (16 - m.resp.length) 0).set (o - 144) b }
  else d

/-- The busy cause of a command written to CMD (R548, R560). -/
def commandBusy (v : Byte) : List Busy :=
  if v = 1 then [.newnonce] else if v = 2 then [.submit] else if v = 3 then [.lock]
  else if v = 0x20 then [.popevq]
  else if 0x11 ≤ v.toNat ∧ v.toNat ≤ 0x1F then [.refresh (v.toNat - 0x10)] else []

/-- A byte of lower memory below byte 126 or of a page 00h to 14h, which keeps the port busy until firmware has applied it (R548). -/
def firmwareByte (p o : Nat) : Bool := decide (o < 126) || (decide (128 ≤ o) && decide (p ≤ 0x14))

/-- A checker whose setting the write changed begins anew (R47). -/
def startCheckers (before : List (Option HostTx)) (d : Dev) : Dev :=
  d.each (List.finRange 16) fun h d =>
    if before.getD h none == d.checkerPattern h then d else d.modHost h fun x => { x with check := PatternCheck.init }

/-- A host write transaction (R547, R548): bytes are stored, the selection takes effect, and what keeps the port busy is
noted. -/
def portWrite (addr : BitVec 7 × Byte) (data : List Byte) (d : Dev) : Dev :=
  if !d.answersAt addr.1 ∨ !d.mgmt.ready then d
  else
    let data := data.take 128
    let ws := (offsets addr.2.toNat data.length).zip data
    let p := d.selPage
    let b := d.selBank
    let before := (List.finRange 16).map d.checkerPattern
    let d := d.each ws fun w d =>
      if w.1 < 128 then d.setPageByte w.1 w.2
      else if !banked p b w.1 then d
      else if p = 0x80 then d.maintByte w.1 w.2
      else d.setPageByte (pageKey p b w.1) w.2
    let d := d.startCheckers before
    let win := ws.filter fun w => decide (128 ≤ w.1) && decide (0x81 ≤ p ∧ p ≤ 0x8F)
    let cmd := if p = 0x80 then ((ws.filter fun w => w.1 == 129).getLast?.map fun w => commandBusy w.2).getD [] else []
    let fetch := if ws.any (fun w => w.1 == 127) && decide (0x81 ≤ d.selPage ∧ d.selPage ≤ 0x8F)
      then [Busy.fetch (d.selPage - 0x80)] else []
    let fw := (ws.filter fun w => firmwareByte p w.1).head?
    let d := match fw with
      | some w =>
        let d := d.setFld F.MGT_WPEND_PAGE (if w.1 < 128 then 0 else p)
        let d := (d.setFld F.MGT_WPEND_BANK b).setFld F.MGT_WPEND_OFFSET (if w.1 < 128 then 0x7F else w.1 - 128)
        d.raise Blk.mgt 0xC4 0
      | none => d
    let select := fetch.isEmpty && !ws.isEmpty && ws.all fun w => w.1 == 126 || w.1 == 127
    let store := cmd.isEmpty && p == 0x80 && ws.any fun w => decide (128 ≤ w.1)
    d.modMgmt fun m => { m with busy := (if fw.isSome then [.firmware] else []) ++
      (if win.isEmpty then [] else [.write (p - 0x80) win]) ++ cmd ++ fetch ++
      (if select || store then [.engine] else []) }

/-- A busy cause ends. -/
def endBusy (b : Busy) (d : Dev) : Dev := d.modMgmt fun m => { m with busy := m.busy.filter fun x => x != b }

end Dev

end Sys2Proof.Machine
end

