-- ==== Sys2Proof/Machine/Commit.lean ====
section
/-! DEFINITION. The end of a command: queues popped and events queued (R526 to R529), status that follows its causes
settled, and the output pins driven. Every meaning ends here. -/

namespace Sys2Proof.Machine

/-- Queue one event: a full queue loses it (R529). -/
def EvQ.push (q : EvQ) (e : Ev) : EvQ := if 16 ≤ q.q.length then { q with lost := q.lost + 1 } else { q with q := q.q ++ [e] }

/-- Insert by ascending rank, after its equals. -/
def insertRaise (rank : Raise → Nat) (r : Raise) : List Raise → List Raise
  | [] => [r]
  | x :: xs => if rank r < rank x then r :: x :: xs else x :: insertRaise rank r xs

def sortBy (rank : Raise → Nat) (l : List Raise) : List Raise := l.foldl (fun acc r => insertRaise rank r acc) []

/-- Simultaneous events in the order of their codes (R528). -/
def sortRaises (l : List Raise) : List Raise := sortBy Raise.code l

/-- The place of a thermal sample's events, which a boundary brings (R609): by their codes, but THM 0xE1 after 0xE4 (R615). -/
def thermalRank (r : Raise) : Nat := if r.blk = Blk.thm ∧ r.code = 0xE1 then 2 * 0xE4 + 1 else 2 * r.code

/-- The entry of a raised event (R526). -/
def Raise.entry (r : Raise) (qnum : BitVec 48) : Ev :=
  ⟨BitVec.ofNat 8 r.code, BitVec.ofNat 4 r.lane, qnum.setWidth 20⟩

/-- A block's queue after a command: emptied with the domain, popped, then its events queued in order. -/
def queueAfter (q : EvQ) (b : Nat) (d : Dev) (order : List Raise → List Raise) : EvQ :=
  let q := if d.emptied then ⟨[], 0⟩ else if d.popped.contains b then { q with q := q.q.tail } else q
  ((order d.raised).filter fun r => r.blk == b).foldl (fun q r => q.push (r.entry d.clk.qnum)) q

/-- What the TAP instruction in force asks for, BYPASS where there is none: a debug-access one acts as BYPASS outside MANUFACTURE and
RETURNED (R646). -/
def tapActs (d : Dev) : Config.TapOp :=
  match d.tap.map Config.tapOp with
  | none => .bypass
  | some .debug => if d.sec.lc = 1 ∨ d.sec.lc = 3 then .debug else .bypass
  | some op => op

/-- The output pins as the device drives them (R711): RB_N is low in REST and released in HOLD and OFF, and in OFF every output
but XTAL32_OUT, which VBAK keeps driven, is at high impedance. `TAP_INSTRUCTION` brings a whole shift, so after every command
the TAP shifts no data and TDO is high impedance (R720). -/
def pinsOf (d : Dev) : Pins :=
  { rb := d.rbHigh || decide (d.dstate < Dev.stREST), int := !d.intLow,
    sync := if d.dstate = Dev.stOFF then .hiZ else if d.regSync then .wave (d.hkp.sub - 1) else .low, tdo := none,
    dout := BitVec.ofNat 8 (getBits (d.reg R.PWR_DOM) ⟨R.PWR_DOM, 9, 8⟩),
    htx := BitVec.ofNat 4 (getBits (d.reg R.PWR_DOM) ⟨R.PWR_DOM, 17, 4⟩),
    host := (List.finRange 16).map d.hostShown, drive := (List.finRange 16).map d.driveOf,
    xtal := decide (d.dstate ≠ Dev.stOFF) || d.pwr.vbak, extest := decide (tapActs d = .extest),
    bias := if d.dstate = Dev.stOFF then none else some (d.domOn .mgt),
    store := d.domOn .mgt, avs := if d.domOn .mgt then d.pwr.avsCmds else [] }

/-- The state after a command that left the device at `d`, its events in the given order. -/
def finish (order : List Raise → List Raise) (s : State) (d : Dev) : State :=
  let d := if d.domOn .mgt then d.settleMgt else d
  { s with dev := { d with raised := [], popped := [], emptied := false },
           evq := Vector.ofFn fun b => queueAfter s.evq[b] b d order,
           pins := pinsOf d }

/-- The end of a command within a quire: simultaneous events in ascending order of code (R528). -/
def commit (s : State) (d : Dev) : State := finish sortRaises s d

/-- The end of a thermal judgement (R615). -/
def commitThermal (s : State) (d : Dev) : State := finish (sortBy thermalRank) s d

/-- The end of the boundary command: events in step order (R43). -/
def commitTick (s : State) (d : Dev) : State := finish id s d

end Sys2Proof.Machine
end

