-- ==== Sys2Proof/Machine/Hkp.lean ====
section
/-! DEFINITION. Module housekeeping (chapter 12). -/

namespace Sys2Proof.Machine

namespace Dev

/-! ### Bias DACs (R433 to R441) -/

/-- `BUSY` is 1 while OUT differs from the goal (R437). -/
def biasBusy (k : Fin 24) (d : Dev) : Dev :=
  d.setOn (F.HKP_BSTAT_BUSY k) (d.fld (F.HKP_BSTAT_OUT k) != d.hkp.goal[k])

def setGoal (k : Fin 24) (g : Nat) (d : Dev) : Dev :=
  ({ d with hkp := { d.hkp with goal := d.hkp.goal.set k g } }).biasBusy k

/-- Step 4 of R39: a bias DAC not in the safe state takes TARGET as its goal (R435, R439). -/
def biasGoals (d : Dev) : Dev :=
  d.each (List.finRange 24) fun k d =>
    if d.on (F.HKP_BSTAT_SAFE k) then d else d.setGoal k (d.fld (F.HKP_BTGT_TARGET k))

/-- A limiter step falls due at sub-interval j (R436). -/
def stepDue (d : Dev) (k j : Nat) : Bool :=
  let r := d.fld (F.HKP_BCFG_RATE k) + 1
  decide (j * r / 16 < (j + 1) * r / 16)

/-- One limiter step (R436). -/
def biasStep (k : Fin 24) (d : Dev) : Dev :=
  let out := d.fld (F.HKP_BSTAT_OUT k)
  let goal := d.hkp.goal[k]
  let step := max 1 (d.fld (F.HKP_BCFG_STEP k))
  let next := if out ≤ goal then min goal (out + step) else max goal (out - step)
  (d.setFld (F.HKP_BSTAT_OUT k) next).biasBusy k

/-- Phase of a lane's tone generator at sample p of the internal quire: the accumulator is kept for the lane's next
leaf slot, 144 samples a slot (R186, R440). -/
def tonePhase (d : Dev) (n : Lane) (p : Nat) : BitVec 32 :=
  let t := (d.lane n).tx
  t.acc + d.liveWord (R.LANE_TONE_FTW n) * (BitVec.ofNat 32 p - BitVec.ofNat 32 (144 * t.slot))

/-- The first sample of the slice clock in which sub-interval j of the quire starts (R17, R440). -/
def subSample (d : Dev) (j : Nat) : Nat :=
  if d.native then 148032 * j else 144 * (123904 * (16 * d.clk.compatQ + j) / 240 - compatClocks d.clk.compatQ)

/-- The dither term of a bias DAC at sub-interval j (R440, R441); 0 in the safe state (R438). -/
def dither (d : Dev) (k j : Nat) : Int :=
  let n : Lane := Fin.ofNat 8 (d.fld (F.HKP_BDIT_DLANE k))
  if !d.on (F.HKP_BDIT_DEN k) || d.on (F.HKP_BSTAT_SAFE k) || !d.domOn (.lfe n) then 0
  else (d.fld (F.HKP_BDIT_DAMP k) * toneSine (d.tonePhase n (d.subSample j))) / 1024

/-- The start of sub-interval j: the safe code replaces the goal of a DAC in the safe state (R438), a step is taken if
due, and the output updates with its dither (R433). -/
def biasSub (j : Nat) (k : Fin 24) (d : Dev) : Dev :=
  let d := if d.on (F.HKP_BSTAT_SAFE k) then d.setGoal k (d.fld (F.HKP_BCFG_SAFE k)) else d
  let d := if d.stepDue k j then d.biasStep k else d
  let code := (clampI 0 16383 (d.fld (F.HKP_BSTAT_OUT k) + d.dither k j)).toNat
  { d with hkp := { d.hkp with code := d.hkp.code.set k code } }

/-- A sub-interval starts (R433), with a pulse on DMA request line SUBINT. -/
def subinterval (d : Dev) : Dev :=
  let j := d.hkp.sub
  if 16 ≤ j ∨ !d.on F.CLK_STAT_TICK_RUN ∨ !d.domOn .mgt then d
  else
    let d := d.each (List.finRange 24) (biasSub j)
    ({ d with hkp := { d.hkp with sub := j + 1 } }).pulse 8

/-- A cause of R438 arises: each DAC with `SAFE_EN` = 1 is placed in the safe state, with HKP event 0xA2 if one newly
is. -/
def biasSafe (d : Dev) : Dev :=
  let new := (List.range 24).filter fun k => d.on (F.HKP_BCFG_SAFE_EN k) && !d.on (F.HKP_BSTAT_SAFE k)
  let d := d.each new fun k d => d.setOn (F.HKP_BSTAT_SAFE k) true
  if new.isEmpty then d else d.raise Blk.hkp 0xA2 0

/-- A cause of R439 holds: thermal level SHUTDOWN, loss of main supply, or the STANDBY request. -/
def safeCause (d : Dev) : Bool := d.fld F.THM_STAT_LEVEL == 3 || d.hkp.causeSup || d.hkp.causeSby

/-- `HKP.BCTRL.SAFE_CLR` (R439). -/
def safeClear (d : Dev) : Dev :=
  if d.safeCause then d else d.each (List.range 24) fun k d => d.setOn (F.HKP_BSTAT_SAFE k) false

/-! ### Monitor ADC (R444 to R454) -/

def modHkp (f : HkpSt → HkpSt) (d : Dev) : Dev := { d with hkp := f d.hkp }

/-- Converter faults at threshold set DEGRADED (R453); the class is 9 of R663. -/
def converterFault (d : Dev) : Dev := d.charge 9 0 fun d => d.setOn F.HKP_SEQ_STAT_DEGRADED true

/-- The firmware request of a completed conversion is over. -/
def urgentOver (c : Conv) (d : Dev) : Dev :=
  let d := d.setOn F.HKP_SEQ_STAT_URG (match d.hkp.conv with | some x => x.src != 0 | none => false)
  if c.src = 3 then d.setOn F.HKP_SEQ_STAT_UPEND false else d

/-- A closed conversion gives no result (R453). -/
def noResult (d : Dev) : Dev :=
  match d.hkp.closing with
  | none => d
  | some c =>
    let d := (d.modHkp fun h => { h with closing := none }).setOn (F.HKP_RES_VALID c.ch) false
    ((d.bump R.HKP_CFAULT).raise Blk.hkp 0xA3 0).converterFault.urgentOver c

/-- A result word with its tag advanced (R451, R452). -/
def resultWord (d : Dev) (tag : Fld) (value : Nat) (ovr : Bool) : Word :=
  BitVec.ofNat 32 ((d.fld tag + 1) % 256 * 2 ^ 24 + ovr.toNat * 2 ^ 21 + 2 ^ 20 + value)

/-- Limit check of a channel (R454). -/
def limitCheck (ch : Nat) (d : Dev) : Dev :=
  let v := d.fld (F.HKP_RES_VALUE ch) / 16
  let bit : Fld := ⟨R.HKP_LIMSTAT, ch, 1⟩
  let out := decide (d.fld (F.HKP_LIM_HI ch) < v) || decide (v < d.fld (F.HKP_LIM_LO ch))
  if out == d.on bit then d else (d.setOn bit out).raise Blk.hkp (if out then 0xA0 else 0xA1) 0

/-- V_FS of a conversion's range in units of 156.25 mV·2^−40: 1.25 V, or 156.25 mV (R445). -/
def fullScale (c : Conv) : Nat := if c.range = 0 then 2 ^ 43 else 2 ^ 40

/-- The result of a closed conversion (R445, R451): `mean` is V̄, a voltage in units of 156.25 mV·2^−40. -/
def conversionResult (mean : Int) (sat : Bool) (d : Dev) : Dev :=
  match d.hkp.closing with
  | none => d
  | some c =>
    let value := (clampI 0 (2 ^ 20 - 1) (mean * 2 ^ 20 / fullScale c)).toNat
    let ovr := sat || decide (mean < 0) || decide ((fullScale c : Int) < mean)
    let d := d.modHkp fun h => { h with closing := none }
    let d := d.setReg (R.HKP_RES c.ch) (d.resultWord (F.HKP_RES_TAG c.ch) value ovr)
    let d := if c.src = 3 then d.setReg R.HKP_URES (d.resultWord F.HKP_URES_TAG value ovr) else d
    ((d.limitCheck c.ch).urgentOver c).pulse 3

/-- The next conversion that starts at a boundary with none running (R446, R449). -/
def nextConv (d : Dev) : Option Conv :=
  match d.hkp.reqFault, d.hkp.reqTherm, d.hkp.reqFw with
  | some c, _, _ => some c
  | none, some c, _ => some c
  | none, none, some c => some c
  | none, none, none =>
    if d.on F.HKP_SEQ_CFG_EN then
      let e := d.fld F.HKP_SEQ_STAT_ENTRY
      some ⟨0, d.fld (F.HKP_SEQ_CH e), d.fld (F.HKP_SEQ_RANGE e), d.fld (F.HKP_SEQ_NQ e) + 1⟩
    else none

/-- An entry past `LAST` is not converted: entry 0 is next (R446). -/
def entryInList (d : Dev) : Dev :=
  if d.fld F.HKP_SEQ_STAT_ENTRY ≤ d.fld F.HKP_SEQ_CFG_LAST then d else d.setFld F.HKP_SEQ_STAT_ENTRY 0

/-- The sequencer's next entry after one it starts (R446). -/
def advanceEntry (d : Dev) : Dev :=
  let e := d.fld F.HKP_SEQ_STAT_ENTRY
  d.setFld F.HKP_SEQ_STAT_ENTRY (if d.fld F.HKP_SEQ_CFG_LAST ≤ e then 0 else e + 1)

/-- Start the next conversion, if any (R449). -/
def startConv (d : Dev) : Dev :=
  match d.nextConv with
  | none => (d.modHkp fun h => { h with conv := none }).setOn F.HKP_SEQ_STAT_URG false
  | some c =>
    let d := d.modHkp fun h =>
      { h with conv := some c, reqFault := if c.src = 1 then none else h.reqFault,
               reqTherm := if c.src = 2 then none else h.reqTherm, reqFw := if c.src = 3 then none else h.reqFw }
    let d := (d.setFld F.HKP_SEQ_STAT_CH c.ch).setOn F.HKP_SEQ_STAT_URG (c.src != 0)
    if c.src = 0 then d.advanceEntry else d

/-- The source has a request outstanding: pending, converting, or closed without its result yet (R448). -/
def outstanding (d : Dev) (src : Nat) : Bool :=
  (if src = 1 then d.hkp.reqFault else if src = 2 then d.hkp.reqTherm else d.hkp.reqFw).isSome
    || d.hkp.conv.any (fun c => c.src == src) || d.hkp.closing.any fun c => c.src == src

/-- Requests that the fault and thermal managers make (R448). When they make one, and with which channel, range and NQ, the spec does
not say: free values, drawn once a quire (log 46). -/
def managerRequests (d : Dev) : Dev :=
  let (w, d) := d.takeFree
  let ask (src lo : Nat) : Option Conv :=
    if w.getLsbD lo && !d.outstanding src then
      some ⟨src, w.toNat / 2 ^ (lo + 1) % 32, w.toNat / 2 ^ (lo + 6) % 2, w.toNat / 2 ^ (lo + 7) % 8 + 1⟩
    else none
  d.modHkp fun h => { h with reqFault := h.reqFault <|> ask 1 0, reqTherm := h.reqTherm <|> ask 2 16 }

/-- The monitor ADC at step 4 of a boundary (R444): a conversion closed one quire ago without a result is a fault
(R453); the running one closes when its quires are over; with none running the next starts. -/
def adcTick (d : Dev) : Dev :=
  let d := d.noResult.managerRequests
  match d.hkp.conv with
  | none => d.startConv
  | some c =>
    if 1 < c.left then d.modHkp fun h => { h with conv := some { c with left := c.left - 1 } }
    else
      let d := (d.modHkp fun h => { h with conv := none, closing := some c }).bump R.HKP_CONV
      (if c.src = 0 then d else d.bump R.HKP_URGN).startConv

/-- `HKP.UREQ.GO` (R448). -/
def ureqGo (d : Dev) : Dev :=
  if d.on F.HKP_SEQ_STAT_UPEND then d
  else (d.modHkp fun h => { h with reqFw := some ⟨3, d.fld F.HKP_UREQ_CH, d.fld F.HKP_UREQ_RANGE,
    d.fld F.HKP_UREQ_NQ + 1⟩ }).setOn F.HKP_SEQ_STAT_UPEND true

/-- EN of `HKP.SEQ_CFG` was `was` before a write: a rise restarts the list at entry 0 (R447). -/
def seqEnabled (was : Bool) (d : Dev) : Dev :=
  if !was && d.on F.HKP_SEQ_CFG_EN then d.setFld F.HKP_SEQ_STAT_ENTRY 0 else d

/-- The monitor ADC registers of R455, 0x300 to 0x6FF of the block, and the counters of R456, whose ledger ends with them (R732). -/
def adcReg (a : Nat) : Bool := decide (0x10160300 ≤ a ∧ a < 0x1016070C)

/-- A restart of the management domain as it bears on housekeeping (R434, R455). -/
def hkpRestart (d : Dev) : Dev :=
  (d.resetWords adcReg).modHkp fun h =>
    { h with conv := none, closing := none, reqFault := none, reqTherm := none, reqFw := none }

end Dev

end Sys2Proof.Machine
end

