-- ==== Sys2Proof/Machine/Dma.lean ====
section
/-! DEFINITION. The DMA engine (chapter 14), besides the beats themselves: checks, requests, arbitration, completion, halts. -/

namespace Sys2Proof.Machine

namespace Dev

def modDma (f : DmaSt → DmaSt) (d : Dev) : Dev := { d with dma := f d.dma }

def dmaState (d : Dev) (c : Nat) : Nat := d.fld (F.DMA_STAT_STATE c)

/-- B, the burst size in bytes. -/
def dmaBurst (d : Dev) (c : Nat) : Nat := 16 * 2 ^ d.fld (F.DMA_CFG_BURST c)

/-- A range lies wholly within one region of R496. -/
def dmaRegion (a len : Nat) : Bool :=
  [(0, 0x80000), (0x100000, 0x140000), (0x200000, 0x600000), (0x10000000, 0x10200000)].any fun r =>
    decide (r.1 ≤ a ∧ a + len ≤ r.2)

/-- The check of R496 for a transfer: 0 when every condition holds, else the code. SRC alone, or DST alone, is one word. -/
def dmaCheck (c src dst count : Nat) (d : Dev) : Nat :=
  let b := d.dmaBurst c
  if src % b ≠ 0 ∨ dst % b ≠ 0 ∨ count % b ≠ 0 ∨ count = 0 then 1
  else if !dmaRegion src (if d.on (F.DMA_CFG_SFIX c) then 4 else count)
      || !dmaRegion dst (if d.on (F.DMA_CFG_DFIX c) then 4 else count) then 2
  else 0

/-- The engine's bookkeeping when channel c gives up the engine. -/
def dmaFree (c : Fin 8) (d : Dev) : Dev :=
  let d := d.modDma fun x => { x with burst := x.burst.set c 0 }
  if d.fld F.DMA_ACTIVE_CH = c then (d.setFld F.DMA_ACTIVE_CH 15).modDma fun x => { x with handOver := false } else d

/-- The hand-over cycle (R504). -/
def dmaComplete (d : Dev) : Dev :=
  match (List.finRange 8).find? fun (c : Fin 8) => d.fld F.DMA_ACTIVE_CH == (c : Nat) && d.dma.handOver with
  | none => d
  | some c =>
    let d := (d.bump (R.DMA_DONE c)).dmaFree c
    let d := if d.on (F.DMA_CFG_EVT_EN c) then d.pulse (16 + d.fld (F.DMA_CFG_EVL c)) else d
    if d.on (F.DMA_STAT_SH_VALID c) then
      let d := (d.setReg (R.DMA_SRC c) (d.reg (R.DMA_NSRC c))).setReg (R.DMA_DST c) (d.reg (R.DMA_NDST c))
      let d := d.setFld (F.DMA_COUNT_COUNT c) (d.fld (F.DMA_NCOUNT_NCOUNT c))
      (d.setOn (F.DMA_STAT_SH_VALID c) false).setFld (F.DMA_STAT_STATE c) 1
    else d.setFld (F.DMA_STAT_STATE c) 0

/-- A master write to a channel's registers in its hand-over cycle takes effect after the hand-over (R505). -/
def dmaSettle (c : Nat) (d : Dev) : Dev := if d.fld F.DMA_ACTIVE_CH = c ∧ d.dma.handOver then d.dmaComplete else d

/-- `START` (R496, R498, R499). -/
def dmaStart (c : Nat) (d : Dev) : Dev :=
  let d := d.dmaSettle c
  if d.dmaState c = 1 ∨ d.dmaState c = 2 then d
  else
    let e := d.dmaCheck c (d.reg (R.DMA_SRC c)).toNat (d.reg (R.DMA_DST c)).toNat (d.fld (F.DMA_COUNT_COUNT c))
    let d := (d.setFld (F.DMA_STAT_ERR c) e).setFld (F.DMA_STAT_PEND c) 0
    d.setFld (F.DMA_STAT_STATE c) (if e = 0 then 1 else 3)

/-- `NEXT` (R497). -/
def dmaNext (c : Nat) (d : Dev) : Dev :=
  let d := d.dmaSettle c
  if d.on (F.DMA_STAT_SH_VALID c) then d
  else
    let e := d.dmaCheck c (d.reg (R.DMA_NSRC c)).toNat (d.reg (R.DMA_NDST c)).toNat (d.fld (F.DMA_NCOUNT_NCOUNT c))
    (d.setFld (F.DMA_STAT_SH_ERR c) e).setOn (F.DMA_STAT_SH_VALID c) (e == 0)

/-- A channel halts with an error (R506). -/
def dmaHalt (c : Fin 8) (err addr : Nat) (d : Dev) : Dev :=
  let d := (d.setFld (F.DMA_STAT_STATE c) 3).setFld (F.DMA_STAT_ERR c) err
  ((d.setReg (R.DMA_ERR_ADDR c) (BitVec.ofNat 32 addr)).bump (R.DMA_ERR c)).dmaFree c

/-- `ABORT` (R499, R506): `PEND` is cleared, and a waiting or active channel halts. No access has failed, so what `ERR_ADDR`
then holds is a free value (log 2). -/
def dmaAbort (c : Fin 8) (d : Dev) : Dev :=
  let d := (d.dmaSettle c).setFld (F.DMA_STAT_PEND c) 0
  if d.dmaState c = 1 ∨ d.dmaState c = 2 then
    let (x, d) := d.takeFree
    (d.setOn (F.DMA_STAT_SH_VALID c) false).dmaHalt c 5 x.toNat
  else d

/-- A channel has a request pending (R500). -/
def dmaPending (d : Dev) (c : Nat) : Bool := d.fld (F.DMA_CFG_REQ c) == 0 || decide (0 < d.fld (F.DMA_STAT_PEND c))

/-- With none active, the lowest waiting channel with a request pending becomes active (R502). -/
def dmaActivate (d : Dev) : Dev :=
  if d.fld F.DMA_ACTIVE_CH ≠ 15 then d
  else match (List.finRange 8).find? fun c => d.dmaState c == 1 && d.dmaPending c with
    | some c => (d.setFld (F.DMA_STAT_STATE c) 2).setFld F.DMA_ACTIVE_CH c
    | none => d

/-- The active channel, if it is to issue a beat: within a burst, or with a request pending for the next. -/
def dmaBeatDue (d : Dev) : Option (Fin 8) :=
  (List.finRange 8).find? fun c => d.fld F.DMA_ACTIVE_CH == (c : Nat) && d.dmaState c == 2 && !d.dma.handOver
    && (decide (0 < d.dma.burst[c]) || d.dmaPending c)

/-- The first beat of a burst takes its request (R500). -/
def dmaBurstStart (c : Fin 8) (d : Dev) : Dev :=
  if 0 < d.dma.burst[c] then d
  else
    let d := if d.fld (F.DMA_CFG_REQ c) = 0 then d else d.setFld (F.DMA_STAT_PEND c) (d.fld (F.DMA_STAT_PEND c) - 1)
    d.modDma fun x => { x with burst := x.burst.set c (d.dmaBurst c / 4) }

/-- A beat has been written: the addresses advance, and after the last one the hand-over is due (R494, R504). -/
def dmaBeatDone (c : Fin 8) (d : Dev) : Dev :=
  let d := if d.on (F.DMA_CFG_SFIX c) then d else d.setReg (R.DMA_SRC c) (d.reg (R.DMA_SRC c) + 4)
  let d := if d.on (F.DMA_CFG_DFIX c) then d else d.setReg (R.DMA_DST c) (d.reg (R.DMA_DST c) + 4)
  d.modDma fun x => { x with burst := x.burst.set c (x.burst[c] - 1), handOver := d.fld (F.DMA_COUNT_COUNT c) == 0 }

/-- A pulse arrives on a request line; lines 0 and 10 to 15 never pulse (R501). -/
def dmaLine (line : Nat) (d : Dev) : Dev := if line = 0 ∨ (10 ≤ line ∧ line ≤ 15) then d else d.pulse line

/-- Every DMA register returns to its reset value, its counters among them (R507, R732). -/
def dmaReset (d : Dev) : Dev :=
  (d.resetWords fun a => decide (0x10170000 ≤ a ∧ a < 0x10177F00)).modDma fun _ => DmaSt.init

/-- The range that a channel in transfer still covers on one side. -/
def dmaSpan (a count : Nat) (fixed : Bool) : Nat × Nat := (a, if fixed then 4 else count)

/-- A channel waiting or active has a range that meets a span of addresses (R586). -/
def dmaIn (d : Dev) (lo hi : Nat) (c : Nat) : Bool :=
  let n := max 4 (d.fld (F.DMA_COUNT_COUNT c))
  let meets (p : Nat × Nat) : Bool := decide (p.1 < hi ∧ lo < p.1 + p.2)
  (d.dmaState c == 1 || d.dmaState c == 2)
    && (meets (dmaSpan (d.reg (R.DMA_SRC c)).toNat n (d.on (F.DMA_CFG_SFIX c)))
      || meets (dmaSpan (d.reg (R.DMA_DST c)).toNat n (d.on (F.DMA_CFG_DFIX c))))

end Dev

end Sys2Proof.Machine
end

