-- ==== Sys2Proof/Machine/HostSide.lean ====
section
/-! DEFINITION. Timing source and host clock (chapter 1), host lanes, codeword delineation and the monitor decoder
(chapter 2). -/

namespace Sys2Proof.Machine

namespace Dev

def modClk (f : Clk → Clk) (d : Dev) : Dev := { d with clk := f d.clk }

/-! ### Timing source (R17 to R27) -/

/-- The applied `CLK.CFG` (R20): TSRC, and TSRC_LANE. -/
def recovers (d : Dev) : Bool := d.clk.cfg.getLsbD 0

def timingLane (d : Dev) : HostLane := Fin.ofNat 16 (d.clk.cfg.toNat / 16)

/-- The device enters ACTIVE: `CLK.CFG` is applied, and a timing lane is awaited on REFCLK (R20, R22). -/
def applyClkCfg (d : Dev) : Dev :=
  let d := d.modClk fun c => { c with cfg := d.reg R.CLK_CFG, seen := false, source := .refclk }
  (d.setOn F.CLK_STAT_TSRC_WAIT d.recovers).setOn F.CLK_STAT_HOLDOVER false

/-- The host PLL locks, and the quire tick runs (R18, R19, R27). DESIGN CHOICE (log 37): the line and compatibility PLLs are
shown locked with it, whose lock the spec does not describe. -/
def pllLock (d : Dev) : Dev :=
  if !d.domOn .mgt || d.on F.CLK_STAT_HOST_LOCK then d
  else
    let d := (d.setOn F.CLK_STAT_HOST_LOCK true).setOn F.CLK_STAT_LINE_LOCK true
    ((d.setOn F.CLK_STAT_COMPAT_LOCK true).setOn F.CLK_STAT_TICK_RUN true).modClk fun c => { c with refQ := 0 }

/-- The host PLL loses lock, and the tick stops (R27). DESIGN CHOICE (log 37): `LINE_LOCK` falls with it, since the host clock
is the line PLL's input, and `COMPAT_LOCK`, whose PLL runs from the reference, stays. -/
def pllLoss (d : Dev) : Dev :=
  if !d.on F.CLK_STAT_HOST_LOCK then d
  else ((d.setOn F.CLK_STAT_HOST_LOCK false).setOn F.CLK_STAT_LINE_LOCK false).setOn F.CLK_STAT_TICK_RUN false

/-- The selected host lane loses signal: holdover (R21). Before the lane's first recovery the PLL is on REFCLK (R22). -/
def timingLoss (d : Dev) : Dev :=
  if d.recovers ∧ d.clk.source = .lane then
    (d.modClk fun c => { c with source := .holdover }).setOn F.CLK_STAT_HOLDOVER true
  else d

/-- The timing lane is recovered: the PLL moves to it without a step in the tick (R19, R21, R22). -/
def timingRecovery (d : Dev) : Dev :=
  if d.recovers ∧ d.active ∧ d.clk.source ≠ .lane then
    ((d.modClk fun c => { c with source := .lane, seen := true }).setOn F.CLK_STAT_HOLDOVER false).setOn
      F.CLK_STAT_TSRC_WAIT false
  else d

/-- A host-clock count over five quires is judged (R23). ±200 ppm of 81,920 is 16.384. -/
def refCheck (count : Nat) (d : Dev) : Dev :=
  if !d.on F.CLK_STAT_TICK_RUN || decide (d.clk.refQ < 5) then d
  else
    let d := d.modClk fun c => { c with refQ := 0 }
    let out := decide (16 < ((count : Int) - 81920).natAbs)
    if out == d.on F.CLK_STAT_REF_RANGE then d
    else (d.setOn F.CLK_STAT_REF_RANGE out).raise Blk.clk (if out then 0x06 else 0x07) 0

/-! ### Host lanes (R50 to R54) -/

/-- The host lanes of group k. -/
def groupLanes (k : Nat) : List HostLane := (List.finRange 16).filter fun h => h.val / 4 == k

/-- A host lane's receiver is powered: in use, or the timing lane (R22, R50). -/
def hostWanted (d : Dev) (h : HostLane) : Bool := d.hostInUse h || (d.recovers && d.timingLane == h)

/-- The host group's domain is wanted in ACTIVE (R22, R51). -/
def groupWanted (d : Dev) (k : Nat) : Bool := (groupLanes k).any d.hostWanted

def lostBit (h : HostLane) : Fld := ⟨R.HST_LSTAT, h, 1⟩
def hostDegraded (h : HostLane) : Fld := ⟨R.HST_LSTAT, 16 + h, 1⟩

/-- The loss conditions have held for 2 quires (R52): the unit in progress is counted in and discarded (R70), fill begins
from the generator's all-ones start (R53), and one event of class 0 is charged (R54). -/
def hostLaneLost (h : HostLane) (d : Dev) : Dev :=
  if !d.active || !d.hostWanted h || d.hostLost h then d
  else
    let d := match d.streamOfHost h with
      | some s => if (d.host[h]).rxBits = 0 then d else (d.txIn s).txDisc s rHOSTLOSS 1
      | none => d
    let d := d.modHost h fun x => { x with rxBits := 0, fill := 0x7FFFFFFF }
    let d := ((d.setOn (lostBit h) true).raise Blk.hst 0x01 h).charge 0 h fun d =>
      (d.setOn (hostDegraded h) true).raise Blk.hst 0x03 h
    d.updateStreams

/-- None of the loss conditions has held for 16 quires (R52). -/
def hostLaneRestored (h : HostLane) (d : Dev) : Dev :=
  if !d.active || !d.hostLost h then d
  else ((d.setOn (lostBit h) false).raise Blk.hst 0x02 h).updateStreams

/-! ### Delineation (R66 to R69) and the monitor decoder (R71 to R74) -/

def fecLock (s : Stream) : Fld := ⟨R.FEC_STAT, s, 1⟩

/-- The host receive lanes of a stream, in order of lane and entry. -/
def streamHosts (d : Dev) (s : Nat) : List HostLane := (d.streamEntries s).map fun p => d.rxHost p.1 p.2

def laneOfHost (d : Dev) (s : Nat) (h : HostLane) : Option Lane :=
  ((d.streamEntries s).find? fun p => d.rxHost p.1 p.2 == h).map Prod.fst

/-- A host lane takes as its own the codeword boundary that fell `p` bits back (R69): its units run on to the next such
boundary, 5,440 − p bits ahead, where the unit in progress ends (`hostPass`). -/
def realign (h : HostLane) (p : Nat) (d : Dev) : Dev :=
  d.modHost h fun x => { x with rxAlign := some (5440 - p % 5440) }

/-- A set of alignment markers is judged (R67); `pos` gives, for each host lane of the stream, the bits received since its
last deskewed codeword boundary. -/
def markerSet (s : Stream) (valid : Bool) (pos : List Nat) (d : Dev) : Dev :=
  if !d.active || decide (d.streamCount ≤ s) then d
  else
    let mod (f : StreamSt → StreamSt) (d : Dev) : Dev := { d with streams := d.streams.set s (f d.streams[s]) }
    let locked := d.on (fecLock s)
    if valid then
      let d := mod (fun x => ⟨min 2 (x.valid + 1), 0⟩) d
      if locked ∨ (d.streams[s]).valid < 2 then d
      else (d.setOn (fecLock s) true).each ((d.streamHosts s).zip pos) fun p d => d.realign p.1 p.2
    else
      let d := mod (fun x => ⟨0, min 4 (x.invalid + 1)⟩) d
      if locked && decide (4 ≤ (d.streams[s]).invalid) then d.setOn (fecLock s) false else d

/-- The delineator of a stream that restarts (R65, R68). -/
def resetDelineator (s : Stream) (d : Dev) : Dev :=
  { (d.setOn (fecLock s) false) with streams := d.streams.set s ⟨0, 0⟩ }

/-- The host lanes of a codeword's corrected symbols, `none` when the decoder cannot correct it (R73, R74). -/
def correctedHosts (word : List (BitVec 10 × HostLane)) : Option (List HostLane) :=
  (Config.rsDecode (word.map Prod.fst)).map fun ks => ks.map fun k => (word.getD k (0, 0)).2

/-- The monitor decoder runs on one codeword, its symbols given with the host lane that carried each (R71 to R74). -/
def monitorDecode (s : Stream) (word : List (BitVec 10 × HostLane)) (d : Dev) : Dev :=
  if !d.active || !d.on (fecLock s) || !d.lvOn ⟨R.FEC_CFG, s, 1⟩ then d
  else
    let d := d.bump48 (R.FEC_CW_LO s)
    match correctedHosts word with
    | some hs =>
      if hs.length ≤ 15 then (d.bump (R.FEC_BIN s hs.length)).each hs fun h d => d.bump48 (R.FEC_SYM_LO h)
      else d.bump48 (R.FEC_UNCORR_LO s)
    | none => d.bump48 (R.FEC_UNCORR_LO s)

end Dev

end Sys2Proof.Machine
end

