-- ==== Sys2Proof/Machine/Ecc.lean ====
section
/-! DEFINITION. The SRAMs and their SEC-DED code (R463, R469 to R490): reads and writes of words with their check bits,
the damage log, word tracking, row repair, the scrubber and error injection. -/

namespace Sys2Proof.Machine

/-! ### The code (R469) -/

/-- The 35 columns of weight 3. -/
def weightThree : List Nat :=
  (List.range 128).filter fun c => countTrue (bitsOf 7 c) == 3

/-- Take n of the columns in an order that a number names. -/
def pickColumns : Nat → List Nat → Nat → List Nat
  | 0, _, _ => []
  | n + 1, l, s =>
    let i := s % l.length
    l.getD i 0 :: pickColumns n (l.eraseIdx i) (s / l.length)

/-- The columns of the 32 data bits: distinct, of weight 3; the device's own arrangement (log 4). -/
def secdedColumns : List Nat := pickColumns 32 weightThree Config.hsiaoSeed

/-- Columns of the 39 stored bits: data bits 0 to 31, check bits 0 to 6 with column 2^k. -/
def storedColumns : List Nat := secdedColumns ++ (List.range 7).map fun k => 2 ^ k

/-- The check bits of a data word. -/
def checkBits (w : Word) : Nat :=
  ((List.range 32).filter fun b => w.getLsbD b).foldl (fun c b => c ^^^ secdedColumns.getD b 0) 0

/-- The classes of R469. -/
inductive WordClass where
  | clean | correctable (bit : Nat) | poisoned | uncorrectable
  deriving DecidableEq, Repr

/-- The class of a stored word by its syndrome. -/
def classifyWord (w : Word) (check : Nat) : WordClass :=
  let s := checkBits w ^^^ check
  if s = 0 then .clean
  else match (List.range 39).find? fun b => storedColumns.getD b 0 == s with
    | some b => .correctable b
    | none => if s = 0x7F then .poisoned else .uncorrectable

/-- Invert stored bit b of a data word; a check bit leaves it unchanged. -/
def invertBit (w : Word) (b : Nat) : Word := if b < 32 then w ^^^ BitVec.ofNat 32 (2 ^ b) else w

/-! ### The memories -/

/-- First address of memory m. Memory 3, the retention SRAM, is not in the processor's map (R464); 0x0070_0000 is this
model's own number for it (log 5). -/
def memBase (m : Nat) : Nat := if m = 0 then 0 else if m = 1 then 0x100000 else if m = 2 then 0x200000 else 0x700000

/-- Bytes of memory m (R463, R464). -/
def memSize (m : Nat) : Nat := if m = 0 then 0x80000 else if m = 1 then 0x40000 else if m = 2 then 0x400000 else 0x2000

/-- Spare rows of memory m. -/
def spareRows (m : Nat) : Nat := if m = 0 ∨ m = 1 then 8 else if m = 2 then 16 else 2

/-- The memory an address lies in. -/
def memOf (a : Nat) : Option Nat := (List.range 4).find? fun m => decide (memBase m ≤ a ∧ a < memBase m + memSize m)

namespace Dev

def modEcc (f : EccSt → EccSt) (d : Dev) : Dev := { d with ecc := f d.ecc }

/-- The stored data bits of the word at a word-aligned address. -/
def memWord (d : Dev) (a : Nat) : Word :=
  bytesWord ((List.range 4).map fun k => Cells.get zeroByte d.mem (a + k))

/-- The stored check bits. -/
def memCheck (d : Dev) (a : Nat) : Nat := (Cells.get zeroByte d.chk a).toNat

/-- A correctable read is counted (R471), for the performance bank as well (R679 event 12). -/
def countCorr (m : Nat) (d : Dev) : Dev := (d.bump (R.ECC_CORR m)).devEvent 12 1

/-- Store data bits, leaving the check bits. -/
def putWord (a : Nat) (w : Word) (d : Dev) : Dev :=
  { d with mem := ((List.range 4).zip (wordBytes w)).foldl (fun m p => Cells.put zeroByte m (a + p.1) p.2) d.mem }

def putCheck (a c : Nat) (d : Dev) : Dev := { d with chk := Cells.put zeroByte d.chk a (BitVec.ofNat 8 c) }

/-- Write a whole word with new check bits (R475); its track mark is cleared (R479). -/
def storeWord (a : Nat) (w : Word) (d : Dev) : Dev :=
  ((d.putWord a w).putCheck a (checkBits w)).modEcc fun e =>
    { e with track := e.track.map fun t => if t.key = a then { t with seen := false } else t }

/-- Write a word with the poison pattern (R470). -/
def storePoison (a : Nat) (w : Word) (d : Dev) : Dev := (d.putWord a w).putCheck a (checkBits w ^^^ 0x7F)

/-- Add an entry to `ECC.ULOG`, or count it lost (R491). -/
def ulog (m src off : Nat) (poison : Bool) (d : Dev) : Dev :=
  if 16 ≤ d.ecc.ulog.length then d.bump R.ECC_ULOG_LOST
  else d.modEcc fun e => { e with ulog := e.ulog ++ [BitVec.ofNat 32
    (2 ^ 31 + m * 2 ^ 29 + src * 2 ^ 26 + poison.toNat * 2 ^ 25 + off)] }

/-- Sources of `ECC.ULOG.SRC`. -/
abbrev srcFetch : Nat := 0
abbrev srcLoad : Nat := 1
abbrev srcDma : Nat := 2
abbrev srcDebug : Nat := 3
abbrev srcScrub : Nat := 4
abbrev srcPartial : Nat := 5
abbrev srcCopy : Nat := 6

/-- An uncorrectable word is found: poisoned in the same access, counted, logged and reported (R473). -/
def foundBad (m a src : Nat) (d : Dev) : Dev :=
  (((d.putCheck a (checkBits (d.memWord a) ^^^ 0x7F)).bump (R.ECC_UNC m)).ulog m src (a - memBase m) false).raise
    Blk.ecc 0xB0 m

/-! ### Row repair (R479 to R483) -/

/-- Put a word into the tracking table as the newest, in place of the oldest when full; the reused slot's level is
reset (R480, R663). -/
def trackWord (a : Nat) (d : Dev) : Nat × Dev :=
  match d.ecc.track.find? fun t => t.key == a with
  | some t => (t.slot, d.modEcc fun e =>
      { e with track := (e.track.filter fun x => x.key != a) ++ [{ t with seen := true }] })
  | none =>
    if d.ecc.track.length < 16 then
      let s := ((List.range 16).find? fun s => d.ecc.track.all fun t => t.slot != s).getD 0
      (s, d.modEcc fun e => { e with track := e.track ++ [(⟨a, s, true⟩ : Track)] })
    else
      let s := (d.ecc.track.head?.map Track.slot).getD 0
      (s, ({ d with flt := d.flt.filter fun b => !(b.cls == 8 && b.inst == s) }).modEcc fun e =>
        { e with track := e.track.tail ++ [(⟨a, s, true⟩ : Track)] })

/-- One event of a word as a fault source (R479): a correctable read of a word not written since its last event is
none. At its lasting fault `act` is taken for the word's slot. -/
def wordEventAs (act : Nat → Dev → Dev) (a : Nat) (bad : Bool) (d : Dev) : Dev :=
  if !bad && d.ecc.track.any (fun t => t.key == a && t.seen) then d
  else
    let (s, d) := d.trackWord a
    d.charge 8 s (act s)

/-- One word of a row copied to its spare (R481): a correctable one is corrected, a damaged one keeps poison. Each counts, is logged
and is an event as a read (R471, R473, R479); a lasting fault then calls for the remap that is under way. -/
def copyWord (m a : Nat) (d : Dev) : Dev :=
  match classifyWord (d.memWord a) (d.memCheck a) with
  | .correctable b =>
    (((d.countCorr m).wordEventAs (fun _ d => d) a false).storeWord a (invertBit (d.memWord a) b))
  | .uncorrectable => (d.foundBad m a srcCopy).wordEventAs (fun _ d => d) a true
  | .poisoned => (d.ulog m srcCopy (a - memBase m) true).raise Blk.ecc 0xB1 m
  | .clean => d

def sparesUsed (d : Dev) (m : Nat) : Nat := (d.ecc.remaps.filter fun r => r.1 == m).length

/-- Remap a row while a spare is left (R481); without one, `SPARE_OUT` is set with event 0xB4 at the first (R482). -/
def remapRow (m row : Nat) (d : Dev) : Dev :=
  if spareRows m ≤ d.sparesUsed m then
    let bit : Fld := ⟨R.ECC_STAT, m, 1⟩
    if d.on bit then d else (d.setOn bit true).raise Blk.ecc 0xB4 m
  else
    let d := d.each (List.range 64) fun k d => d.copyWord m (memBase m + 256 * row + 4 * k)
    ((d.modEcc fun e => { e with remaps := e.remaps ++ [(m, row)] }).bump (R.ECC_REMAP m)).raise Blk.ecc 0xB3 m

/-- The lasting fault of a tracked word remaps its row (R479, R663). -/
def slotLasting (slot : Nat) (d : Dev) : Dev :=
  match d.ecc.track.find? fun t => t.slot == slot with
  | some t => match memOf t.key with
    | some m => d.remapRow m ((t.key - memBase m) / 256)
    | none => d
  | none => d

/-- One event of a word, whose lasting fault remaps its row (R479). -/
def wordEvent (a : Nat) (bad : Bool) (d : Dev) : Dev := d.wordEventAs slotLasting a bad

/-! ### Reads and writes -/

/-- A read of the word at a word-aligned address by a consumer: its data, whether it is damaged, and the device after
(R471, R473). -/
def readMem (m a src : Nat) (d : Dev) : Word × Bool × Dev :=
  let w := d.memWord a
  match classifyWord w (d.memCheck a) with
  | .clean => (w, false, d)
  | .correctable b => (invertBit w b, false, (d.countCorr m).wordEvent a false)
  | .poisoned => (w, true, (d.ulog m src (a - memBase m) true).raise Blk.ecc 0xB1 m)
  | .uncorrectable => (w, true, (d.foundBad m a src).wordEvent a true)

/-- Bytes `lo` to `lo + n − 1` of `old` replaced by those of `v`. -/
def mergeBytes (old v : Word) (lo n : Nat) : Word :=
  bytesWord ((List.range 4).map fun k =>
    if lo ≤ k ∧ k < lo + n then v.extractLsb' (8 * (k - lo)) 8 else old.extractLsb' (8 * k) 8)

/-- Words read one after another by a consumer. -/
def readWords (m src : Nat) : List Nat → Dev → List Word × Dev
  | [], d => ([], d)
  | a :: l, d =>
    let (w, _, d) := d.readMem m a src
    let (ws, d) := readWords m src l d
    (w :: ws, d)

/-- A partial store, a locked read-merge-write (R475): `f` merges the bits stored into the word. -/
def mergeStore (m a : Nat) (f : Word → Word) (d : Dev) : Dev :=
  let w := d.memWord a
  match classifyWord w (d.memCheck a) with
  | .clean => d.storeWord a (f w)
  | .correctable b => (((d.countCorr m).wordEvent a false)).storeWord a (f (invertBit w b))
  | _ => ((d.storePoison a (f w)).ulog m srcPartial (a - memBase m) (classifyWord w (d.memCheck a) == .poisoned)).raise Blk.ecc 0xB2 m

/-- A byte or half-word store (R475). -/
def partialStore (m a lo n : Nat) (v : Word) (d : Dev) : Dev := d.mergeStore m a fun w => mergeBytes w v lo n

/-- Invert one of the 39 stored bits (R490). -/
def flipStored (a b : Nat) (d : Dev) : Dev :=
  if b < 32 then d.putWord a (invertBit (d.memWord a) b)
  else if b < 39 then d.putCheck a (d.memCheck a ^^^ 2 ^ (b - 32))
  else d

/-- A full-word processor store, with error injection when `ECC.INJ.EN` names the memory (R490). -/
def cpuStoreWord (m a : Nat) (w : Word) (d : Dev) : Dev :=
  let inj := d.on F.ECC_INJ_EN && d.fld F.ECC_INJ_MEM == m
  let d := d.storeWord a w
  if !inj then d
  else
    let d := d.flipStored a (d.fld F.ECC_INJ_POS_A)
    let d := if d.on F.ECC_INJ_TWO then d.flipStored a (d.fld F.ECC_INJ_POS_B) else d
    d.setOn F.ECC_INJ_EN false

/-- `ECC.REMAP_REQ` (R483): ignored for a row already remapped, one that does not exist, or with no spare left. -/
def remapReq (m row : Nat) (d : Dev) : Dev :=
  if d.ecc.remaps.contains (m, row) ∨ spareRows m ≤ d.sparesUsed m ∨ memSize m ≤ 256 * row then d else d.remapRow m row

/-! ### Scrubber (R486 to R489) -/

def scrubRunning (d : Dev) : Bool := d.fld F.ECC_SCRUB_STAT_STATE == 1

/-- `SCRUB_CTRL` with START (R486); the summary of the last pass is cleared. -/
def scrubStart (d : Dev) : Dev :=
  let m := d.fld F.ECC_SCRUB_CFG_MEM
  let b := (d.reg R.ECC_SCRUB_BASE).toNat
  let e := (d.reg R.ECC_SCRUB_END).toNat
  if d.scrubRunning then d
  else if b % 4 = 0 ∧ e % 4 = 0 ∧ b ≤ e ∧ e < memSize m then
    let d := d.each [R.ECC_SCRUB_READ, R.ECC_SCRUB_FIXED, R.ECC_SCRUB_UNC, R.ECC_SCRUB_FIRST, R.ECC_SCRUB_LAST,
      R.ECC_SCRUB_CYC] fun a d => d.setReg a 0
    (d.setFld F.ECC_SCRUB_STAT_STATE 1).modEcc fun x => { x with scrubAt := b, scrubMem := m, scrubLast := e }
  else d.setFld F.ECC_SCRUB_STAT_STATE 4

/-- The pass ends in the given state: 2 done with event 0xB5, 3 aborted (R489). -/
def scrubEnd (st : Nat) (d : Dev) : Dev :=
  let d := d.setFld F.ECC_SCRUB_STAT_STATE st
  if st = 2 then d.raise Blk.ecc 0xB5 d.ecc.scrubMem else d

/-- The words of the ECC block, which a restart of the management domain starts afresh (R489, R516, R732). -/
def eccLedger (a : Nat) : Bool := decide (0x10180000 ≤ a ∧ a < 0x10187F00)

/-- A restart of the management domain as it bears on the ECC block: a pass ends without a summary (R489), the ledger ends (R732), and
`SPARE_OUT` stands for the retention SRAM alone, whose remaps stay (R478, R482). -/
def eccRestart (d : Dev) : Dev :=
  let out := (d.reg R.ECC_STAT).getLsbD 3
  ((d.resetWords eccLedger).setOn ⟨R.ECC_STAT, 3, 1⟩ out).modEcc fun e => { e with ulog := [] }

/-- A damaged word is counted with its offset (R487). -/
def scrubBad (off : Nat) (d : Dev) : Dev :=
  let d := if d.reg R.ECC_SCRUB_UNC = 0 then d.setReg R.ECC_SCRUB_FIRST (BitVec.ofNat 32 off) else d
  (d.setReg R.ECC_SCRUB_LAST (BitVec.ofNat 32 off)).bump R.ECC_SCRUB_UNC

/-- One word of the pass, `clocks` processor clocks after the last (R487, R489): at least 4. -/
def scrubWord (clocks : Nat) (d : Dev) : Dev :=
  if !d.scrubRunning then d
  else
    let m := d.ecc.scrubMem
    let off := d.ecc.scrubAt
    let a := memBase m + off
    let cyc := min (2 ^ 32 - 1) ((d.reg R.ECC_SCRUB_CYC).toNat + max 4 clocks)
    let d := (d.bump R.ECC_SCRUB_READ).setReg R.ECC_SCRUB_CYC (BitVec.ofNat 32 cyc)
    let w := d.memWord a
    let d := match classifyWord w (d.memCheck a) with
      | .clean => d
      | .correctable b =>
        (((d.countCorr m).wordEvent a false).storeWord a (invertBit w b)).bump R.ECC_SCRUB_FIXED
      | .uncorrectable => ((d.foundBad m a srcScrub).wordEvent a true).scrubBad off
      | .poisoned => d.scrubBad off
    if d.ecc.scrubLast ≤ off then d.scrubEnd 2
    else d.modEcc fun x => { x with scrubAt := off + 4 }

end Dev

end Sys2Proof.Machine
end

