-- ==== Sys2Proof/Machine/SelfTest.lean ====
section
/-! DEFINITION. In-service self-test (R664 to R671): what can start, results, and their consequences for slices
(R367, R368) and memory rows (R670). -/

namespace Sys2Proof.Machine

/-- Segments of 4 KiB of memory m (R671). -/
def segments (m : Nat) : Nat := if m = 0 then 128 else if m = 1 then 64 else if m = 2 then 1024 else 2

namespace Dev

def modBst (f : BstSt → BstSt) (d : Dev) : Dev := { d with bst := f d.bst }

/-- A capture is armed or running on segment g of capture SRAM (R234, R671). -/
def captureHolds (d : Dev) (g : Nat) : Bool :=
  let st := d.fld F.CAL_CAP_STAT_STATE
  (st == 1 || st == 2) && decide (d.cap.cfg.toNat % 1024 ≤ g ∧ g ≤ d.cap.cfg.toNat % 1024 + d.cap.cfg.toNat / 1024 % 1024)

/-- The queued slice test that comes next: the lowest slice that carries no lane (R664), does not shadow and is not under test. -/
def nextSliceTest (d : Dev) : Option Nat :=
  (List.range 9).find? fun s =>
    d.spr.queued.getLsbD s && (d.laneOf s).isNone && d.retired != s && !d.shadows s && d.bst.run != some ⟨0, s, 0⟩

/-- The memory segment that comes next, unless a capture holds it (R664, R671). -/
def nextMemTest (d : Dev) : Option TestItem :=
  match d.bst.memQ with
  | t :: _ => if t.tgt == 2 && d.captureHolds t.seg then none else some t
  | [] => none

/-- The first condition of R665 that fails, as `BST.STAT.WAIT` codes it; 0 when all hold. -/
def testWait (d : Dev) (draw : Nat) (slice : Bool) : Nat :=
  if d.fld F.THM_STAT_LEVEL ≠ 0 then 1
  else if d.on F.THM_STAT_ENF then 2
  else if d.fld F.PWR_STAT_DSTATE = stToSTANDBY ∨ d.pwr.restDue then 3
  else if d.fld F.BST_CFG_BUDGET < draw + (if d.phase = 0 then 0 else 11) then 4
  else if slice && !d.active then 5
  else 0

/-- The test that may start now (R664, R665). A memory test that can start passes a slice test that cannot (log 33). -/
def dueTest (d : Dev) : Option TestItem :=
  let mem := if d.testWait 3 false = 0 then d.nextMemTest else none
  if d.bst.run.isSome || d.fullRunning || !d.domOn .mgt then none
  else match d.nextSliceTest with
    | some s => if d.testWait 15 true = 0 then some ⟨0, s, 0⟩ else mem
    | none => mem

/-- `BST.STAT.WAIT` (R665): the first condition that fails for the queued test that comes next, also behind a running one. -/
def waitReason (d : Dev) : Nat :=
  if d.fullRunning then 0
  else if d.nextSliceTest.isSome then d.testWait 15 true
  else if d.bst.memQ.isEmpty then 0 else d.testWait 3 false

/-- `BST.STAT` for an item (R673, R675). -/
def showTest (state : Nat) (t : TestItem) (d : Dev) : Dev :=
  let d := ((d.setFld F.BST_STAT_STATE state).setFld F.BST_STAT_TGT t.tgt).setFld F.BST_STAT_SEG t.seg
  d.setFld F.BST_STAT_PART (if state = 3 then t.part else 0)

def showIdle (d : Dev) : Dev :=
  (((d.setFld F.BST_STAT_STATE 0).setFld F.BST_STAT_TGT 0).setFld F.BST_STAT_SEG 0).setFld F.BST_STAT_PART 0

/-- `BST.MSTAT.LEFT` shows the segments still queued. -/
def showQueue (d : Dev) : Dev := d.setFld F.BST_MSTAT_LEFT d.bst.memQ.length

/-- A queued test starts at a boundary (R664, R665); a logic test wakes its slice (R667). -/
def testStart (d : Dev) : Dev :=
  match d.dueTest with
  | some t =>
    let d := d.modBst fun b => { b with run := some t, memQ := if t.part = 3 then b.memQ.tail else b.memQ }
    let d := (d.showTest (if t.part = 0 then 1 else 2) t).showQueue
    if t.part ≠ 0 then d
    else
      let d := d.setFld F.SPR_STAT_TESTING t.tgt
      let s : Slice := Fin.ofNat 9 t.tgt
      (if d.domOn (.slc s) then d else d.domainUp (.slc s)).updateFly
  | none => d

/-- The result code of R668. -/
def testResult (expected : Nat) (r : TestRun) : Nat :=
  if r.count < expected then 2 else if r.count = expected ∧ r.ok ∧ r.words.isEmpty then 1 else 3

/-- What a slice test's result does to the slice (R367, R368): PASS makes it eligible; INCOMPLETE and a first FAIL
repeat the test; FAIL makes it ineligible, is SPR event 0x88 and one event of class 6; mismatches waiting for this test are
charged. -/
def sliceResult (s res : Nat) (d : Dev) : Dev :=
  let bit := BitVec.ofNat 9 (2 ^ s)
  let blamed := d.spr.blame.filter fun p => (p.1 : Nat) == s
  if res = 2 then d
  else
    let d := d.modSpr fun p => { p with queued := p.queued &&& ~~~bit, blame := p.blame.filter fun p => (p.1 : Nat) != s }
    let d := if blamed.isEmpty then d else d.bumpBy R.SPR_MISMATCHES blamed.length
    if res = 1 then
      let d := d.modSpr fun p => { p with passed := p.passed ||| bit, retried := p.retried &&& ~~~bit }
      d.each blamed fun p d => d.chargeSlice 7 p.2
    else
      let again := !d.spr.retried.getLsbD s
      let d := d.modSpr fun p => { p with
        passed := p.passed &&& ~~~bit,
        queued := if again then p.queued ||| bit else p.queued,
        retried := if again then p.retried ||| bit else p.retried &&& ~~~bit }
      (d.raise Blk.spr 0x88 s).chargeSlice 6 s

/-- The failing words of a segment of 1,024 words, each once (R669, R670). -/
def failing (offsets : List Nat) : List Nat := (offsets.map fun o => o / 4 % 1024).dedup

/-- Failing words of a memory segment: each row of 64 words is remapped once (R670). -/
def remapFailing (t : TestItem) (offsets : List Nat) (d : Dev) : Dev :=
  d.each ((failing offsets).map fun w => 16 * t.seg + w / 64).dedup fun row d => d.remapRow t.tgt row

/-- BST event of a result (R668). -/
def testEvent (res lane : Nat) (d : Dev) : Dev :=
  d.raise Blk.bst (if res = 1 then 0x28 else if res = 2 then 0x29 else 0x2A) lane

/-- A slice test's result is written and acted on (R668, R674). -/
def sliceTestEnd (s : Nat) (r : TestRun) (d : Dev) : Dev :=
  let res := testResult (d.fld F.BST_LEXP_COUNT) r
  let d := ((d.setFld (F.BST_SRES_RESULT s) res).setFld (F.BST_SRES_COUNT s) r.count).testEvent res s
  (d.sliceResult s res).updateFly

/-- A memory test's expected operations: March C−, 10 on each of 1,024 words (R669). -/
def marchOps : Nat := 10240

/-- The in-service test in progress ends (R668, R670). A stopped memory segment is requeued first (R666). -/
def testEnd (r : TestRun) (d : Dev) : Dev :=
  match d.bst.run with
  | none => d
  | some t =>
    let d := (d.modBst fun b => { b with run := none }).showIdle
    if t.part = 0 then (d.setFld F.SPR_STAT_TESTING 15).sliceTestEnd t.tgt r
    else
      let res := testResult marchOps r
      let d := ((d.setFld F.BST_MRES_RESULT res).setFld F.BST_MRES_MEM t.tgt).setFld F.BST_MRES_SEG t.seg
      let d := (d.setFld F.BST_MRES_FAILS (failing r.words).length).testEvent res t.tgt
      let d := if res = 2 then d.modBst fun b => { b with memQ := t :: b.memQ } else d.remapFailing t r.words
      d.showQueue

/-- What a test that stops before its end has done: how far it came the spec does not say, so its patterns, fewer than expected, and the
failing words of a segment, which is not remapped then, are free (log 33). -/
def stoppedRun (d : Dev) : TestRun × Dev :=
  let (w, d) := d.takeFree
  (⟨w.toNat % d.fld F.BST_LEXP_COUNT, true, []⟩, d)

/-- The test in progress stops as INCOMPLETE when its kind is concerned (R666, R667). -/
def stopTest (p : TestItem → Bool) (d : Dev) : Dev :=
  match d.bst.run with
  | some t =>
    if !p t then d
    else
      let (r, d) := d.stoppedRun
      if t.part = 0 then d.testEnd r else (d.testEnd ⟨0, true, []⟩).setFld F.BST_MRES_FAILS (r.count % 1025)
  | none => d

/-- `BST.MCMD.GO` (R671). -/
def mcmdGo (d : Dev) : Dev :=
  let m := d.fld F.BST_MCMD_MEM
  let first := d.fld F.BST_MCMD_FIRST
  let n := d.fld F.BST_MCMD_COUNT + 1
  let bad := (m == 2 && (List.range n).any fun i => d.captureHolds (first + i)) || decide (segments m < first + n)
    || !d.bst.memQ.isEmpty
  if bad then d.setOn F.BST_MSTAT_ERR true
  else
    ((d.setOn F.BST_MSTAT_ERR false).modBst fun b =>
      { b with memQ := (List.range n).map fun i => ⟨3, m, first + i⟩ }).showQueue

/-- The items of the full test in order (R673). -/
def fullItems (d : Dev) : List TestItem :=
  (((List.range 9).filter fun s => d.retired != s).map fun s => ⟨0, s, 0⟩) ++ ((List.range 4).map fun k => ⟨1, k, 0⟩)
    ++ ((List.range 8).map fun n => ⟨2, n, 0⟩)
    ++ (List.range 4).flatMap fun m => (List.range (segments m)).map fun g => ⟨3, m, g⟩

/-- An item's result, kept for the end of the full test (R674). -/
def noteResult (f : Word → Word) (d : Dev) : Dev := d.modBst fun b => { b with results := f b.results }

/-- One item of the full test ends with a result code (R673, R674). -/
def fullItemEnd (t : TestItem) (res : Nat) (r : TestRun) (d : Dev) : Dev :=
  if t.part = 0 then
    let d := d.noteResult (fun w => putBits w ⟨R.BST_FULLRES, 2 * t.tgt, 2⟩ res)
    let d := ((d.setFld (F.BST_SRES_RESULT t.tgt) res).setFld (F.BST_SRES_COUNT t.tgt) r.count).testEvent res t.tgt
    d.sliceResult t.tgt res
  else if t.part = 3 then
    (d.remapFailing t r.words).noteResult fun w => putBits w F.BST_FULLRES_MEMS (max (getBits w F.BST_FULLRES_MEMS) res)
  else d.noteResult fun w => putBits w F.BST_FULLRES_FE (max (getBits w F.BST_FULLRES_FE) res)

/-- The full test's item under way; `TESTING` names the slice of a slice item (R367, R673). -/
def fullItem (d : Dev) : Dev :=
  match d.bst.full with
  | t :: _ => ((d.showTest 3 t).setFld F.SPR_STAT_TESTING (if t.part = 0 then t.tgt else 15)).updateFly
  | [] => (d.setFld F.SPR_STAT_TESTING 15).updateFly

/-- The item of the full test under way ends and the next begins (R673). -/
def fullItemDone (r : TestRun) (d : Dev) : Dev :=
  match d.bst.full with
  | [] => d
  | t :: rest =>
    let expected := if t.part = 3 then marchOps else if t.part = 0 then d.fld F.BST_LEXP_COUNT else r.count
    let d := d.fullItemEnd t (testResult expected r) r
    (d.modBst fun b => { b with full := rest }).fullItem

/-- Every item not yet run is INCOMPLETE (R673), the one under way with what it had done. -/
def fullAbandon (d : Dev) : Dev :=
  match d.bst.full with
  | [] => d
  | t :: rest =>
    let (r, d) := d.stoppedRun
    let d := (d.fullItemEnd t 2 r).each rest fun t d => d.fullItemEnd t 2 ⟨0, true, []⟩
    (d.modBst fun b => { b with full := [] }).fullItem

end Dev

end Sys2Proof.Machine
end

