-- ==== Sys2Proof/Machine/Mesh.lean ====
section
/-! DEFINITION. The stitch mesh (chapter 11): leaves and stitches, links, addresses, routing, credits, mesh time and the
schedule, local stitches and the receive ring. Stitch leaves are words L[271:0] (R378). -/

namespace Sys2Proof.Machine

/-! ### Leaves and stitches (R377 to R386) -/

/-- The CRC of R383 over bytes, each from its bit 7 down. -/
def fcs (l : List Byte) : Nat := crc16 (l.flatMap fun b => bitsOf 8 b.toNat)

/-- A leaf of 34 bytes, L[271:264] first. -/
def leafOfBytes (l : List Byte) : BitVec 272 := BitVec.ofNat 272 (natBE l)

def bytesOfLeaf (x : BitVec 272) : List Byte := bytesBE 34 x.toNat

/-- Bits [hi:lo] of a leaf. -/
def leafField (x : BitVec 272) (hi lo : Nat) : Nat := x.toNat / 2 ^ lo % 2 ^ (hi + 1 - lo)

/-- The FCS of a link leaf over L[263:16] holds (R383). -/
def linkFcsOk (x : BitVec 272) : Bool := crc16 (bitsOf 248 (leafField x 263 16)) == leafField x 15 0

/-- A link leaf from its bits [271:16], with its FCS. -/
def linkLeaf (head : Nat) : BitVec 272 :=
  BitVec.ofNat 272 (head * 65536 + crc16 (bitsOf 248 (head % 2 ^ 248)))

/-- Fields of a stitch header besides those the engine keeps: CRV, SEQ, CRLIM (R384). -/
def stitchHeader (s : Stitch) (crv seq crlim : Nat) : List Byte :=
  bytesBE 12 (s.dst.toNat * 2 ^ 80 + s.src.toNat * 2 ^ 64 + s.type % 16 * 2 ^ 60 + s.hops % 64 * 2 ^ 54 + s.vc % 2 * 2 ^ 53
    + crv % 2 * 2 ^ 52 + seq % 65536 * 2 ^ 36 + crlim % 65536 * 2 ^ 20 + s.pay.length % 256 * 2 ^ 12)

/-- The smallest number of leaves for a payload (R385). -/
def leavesFor (plen : Nat) : Nat := (plen + 46) / 33

/-- Leaf k of a stitch of n leaves, from its 33n bytes (R379, R385). -/
def stitchLeaf (bytes : List Byte) (n k : Nat) : BitVec 272 :=
  leafOfBytes (BitVec.ofNat 8 ((if k = 0 then 64 else 128) + k * 8 + (n - 1)) :: (bytes.drop (33 * k)).take 33)

/-- The leaves of a stitch (R385). -/
def stitchLeaves (s : Stitch) (crv seq crlim : Nat) : List (BitVec 272) :=
  let n := leavesFor s.pay.length
  let head := stitchHeader s crv seq crlim
  let bytes := head ++ s.pay ++ List.replicate (33 * n - 14 - s.pay.length) 0 ++ bytesBE 2 (fcs (head ++ s.pay))
  (List.range n).map (stitchLeaf bytes n)

/-- A received stitch: what the engine keeps, with CRV, SEQ and CRLIM. -/
structure RxStitch where
  st : Stitch
  crv : Nat
  seq : BitVec 16
  crlim : BitVec 16

/-- The stitch of a complete set of leaves, `none` if R386 drops it. -/
def readStitch (n : Lane) (ls : List (BitVec 272)) : Option RxStitch :=
  let bytes := ls.flatMap fun l => (bytesOfLeaf l).drop 1
  let h := natBE (bytes.take 12)
  let plen := h / 2 ^ 12 % 256
  let pay := (bytes.drop 12).take plen
  let type := h / 2 ^ 60 % 16
  let dst := h / 2 ^ 80
  let vc := h / 2 ^ 53 % 2
  let sumOk := fcs (bytes.take 12 ++ pay) == natBE (bytes.drop (33 * ls.length - 2))
  let typeOk := (decide (1 ≤ type ∧ type ≤ 5) || type == 7) && (!(type == 1 || type == 5) || dst == 0xFFFF)
  if leavesFor plen = ls.length ∧ sumOk ∧ typeOk then
    some ⟨⟨BitVec.ofNat 16 dst, BitVec.ofNat 16 (h / 2 ^ 64), type, h / 2 ^ 54 % 64, vc, pay, some (n, vc), 0, false⟩,
      h / 2 ^ 52 % 2, BitVec.ofNat 16 (h / 2 ^ 36), BitVec.ofNat 16 (h / 2 ^ 20)⟩
  else none

/-- Stitch buffers of a lane on a VC (R403). -/
def buffers (vc : Nat) : Nat := if vc = 0 then 4 else 8

/-- a is later than b modulo 2^16 (R406). -/
def later (a b : BitVec 16) : Bool := decide (1 ≤ (a - b).toNat ∧ (a - b).toNat < 2 ^ 15)

def LinkSt.vcs (l : LinkSt) (vc : Nat) : VcSt := if vc = 0 then l.vc0 else l.vc1

def LinkSt.setVc (vc : Nat) (v : VcSt) (l : LinkSt) : LinkSt := if vc = 0 then { l with vc0 := v } else { l with vc1 := v }

/-- The credit limit granted (R403). -/
def VcSt.grant (v : VcSt) (vc : Nat) : BitVec 16 := v.exp + BitVec.ofNat 16 (buffers vc) - BitVec.ofNat 16 v.used

/-- A stitch may start on the VC (R403). -/
def VcSt.credit (v : VcSt) (vc : Nat) : Bool :=
  match v.lim with
  | some l => decide (1 ≤ (l - v.nseq).toNat ∧ (l - v.nseq).toNat ≤ buffers vc)
  | none => false

/-- One quire passes for a route entry (R399) and for a held stitch (R408). -/
def Route.older (r : Route) : Route := if r.dist = 63 then { r with gone := r.gone + 1 } else { r with age := r.age + 1 }

def Stitch.older (s : Stitch) : Stitch := { s with age := s.age + 1 }

/-- An assignable address (R390). -/
def assignable (a : Nat) : Bool := decide (1 ≤ a ∧ a ≤ 0xFFEF)

/-- Candidate k of a device ID (R392). -/
def addressCandidate (id : BitVec 64) (k : Nat) : Nat :=
  let a0 := (id.extractLsb' 48 16 ^^^ id.extractLsb' 32 16 ^^^ id.extractLsb' 16 16 ^^^ id.extractLsb' 0 16).toNat
  (a0 + k * 0x2B3D) % 0xFFEF + 1

namespace Dev

def link (d : Dev) (n : Lane) : LinkSt := d.msh.links[n]

def modLink (n : Lane) (f : LinkSt → LinkSt) (d : Dev) : Dev :=
  d.modMsh fun m => { m with links := m.links.set n (f m.links[n]) }

def meshOn (d : Dev) : Bool := d.domOn .msh

def linkState (d : Dev) (n : Lane) : Nat := d.fld (F.MSH_NBR_STAT_LSTATE n)
def linkUp (d : Dev) (n : Lane) : Bool := d.meshOn && d.linkState n == 2

def laneEnabled (d : Dev) (n : Lane) : Bool := d.lvOn ⟨R.MSH_CFG, 24 + n, 1⟩

/-- The mesh address in use. -/
def maddr (d : Dev) : Nat := d.fld F.MSH_ADDR_STAT_MADDR
def astate (d : Dev) : Nat := d.fld F.MSH_ADDR_STAT_ASTATE

/-- The route period 2^RT_EXP in quires (R397). -/
def routePeriod (d : Dev) : Nat := 2 ^ d.lv F.MSH_CFG_RT_EXP

/-! ### Buffers and local stitches (R403, R423) -/

/-- The stitch's buffer is freed (R403). -/
def freeBuffer (s : Stitch) (d : Dev) : Dev :=
  match s.buf with
  | some (n, vc) => d.modLink n fun l => l.setVc vc { l.vcs vc with used := (l.vcs vc).used - 1 }
  | none => d

/-- A stitch is dropped and counted; this device's own frees `TX_STAT` (R423). -/
def dropStitch (counter : Nat) (s : Stitch) (d : Dev) : Dev :=
  let d := (d.freeBuffer s).bump counter
  if s.own then d.setFld F.MSH_TX_STAT_STATE 0 else d

/-- A stitch has been sent in full: forwarded ones are counted, this device's own ends its SEND (R401, R423). -/
def stitchDone (s : Stitch) (d : Dev) : Dev :=
  let d := if s.buf.isSome then (d.freeBuffer s).bump R.MSH_FWD else d
  if s.own then d.modMsh fun m => { m with localSent := true } else d

/-! ### Routing (R395 to R401) -/

def routeEntryOf (d : Dev) (a : Nat) : Option Route := d.msh.routes.find? fun r => r.addr.toNat == a

/-- The lane toward an address (R401). -/
def routeLane (d : Dev) (a : Nat) : Option Lane :=
  match d.routeEntryOf a with
  | some r => if r.dist ≤ 32 then some (Fin.ofNat 8 r.lane) else none
  | none => none

def changed (a : BitVec 16) (d : Dev) : Dev :=
  d.modMsh fun m => { m with advDue := if m.advDue.contains a then m.advDue else m.advDue ++ [a] }

/-- An entry has left the table: it is sent once as unreachable (R397). -/
def routeGone (r : Route) (d : Dev) : Dev :=
  d.modMsh fun m => { m with removed := m.removed.filter (fun x => x.addr != r.addr) ++ [{ r with dist := 63 }] }

/-- A route entry replaced, or added at the end. -/
def putRoute (r : Route) (d : Dev) : Dev :=
  d.modMsh fun m =>
    { m with routes := if m.routes.any (fun x => x.addr == r.addr) then m.routes.map fun x => if x.addr = r.addr then r else x
                       else m.routes ++ [r] }

/-- Place a stitch on its routed lane's queue, at acceptance or again (R401). -/
def enqueue (s : Stitch) (d : Dev) : Dev :=
  match d.routeLane s.dst.toNat with
  | some l => d.modLink l fun k => { k with queue := k.queue ++ [s] }
  | none => d.dropStitch R.MSH_NOROUTE s

/-- Another holder of this device's address is heard (R394): the time without conflict starts again (R393). -/
def addressConflict (cfg : Bool) (id : BitVec 64) (d : Dev) : Dev :=
  if id = d.sec.devId then d
  else
    let d := d.modMsh fun m => { m with addrQ := 0 }
    let own := d.astate == 3
    if own && cfg then
      if d.on F.MSH_ADDR_STAT_CONFLICT then d else (d.setOn F.MSH_ADDR_STAT_CONFLICT true).raise Blk.msh 0x93 0
    else if (!own && cfg) || (!own && !cfg && decide (id.toNat < d.sec.devId.toNat)) then
      if d.msh.loseDue then d else (d.modMsh fun m => { m with loseDue := true }).raise Blk.msh 0x93 0
    else d

/-- The new holder of an address wins over the listed one (R394, R398). -/
def newWins (r : Route) (cfg : Bool) (id : BitVec 64) : Bool :=
  (cfg && !r.cfg) || (!cfg && !r.cfg && decide (id.toNat < r.devid.toNat))

def newLoses (r : Route) (cfg : Bool) (id : BitVec 64) : Bool :=
  (!cfg && r.cfg) || (!cfg && !r.cfg && decide (r.devid.toNat < id.toNat))

/-- An entry (a, dist) heard on lane n (R398, R400). -/
def routeHeard (n : Lane) (a dist : Nat) (cfg tent : Bool) (id : BitVec 64) (d : Dev) : Dev :=
  let d' := if 32 ≤ dist then 63 else dist + 1
  let new : Route := ⟨BitVec.ofNat 16 a, d', n, cfg, tent, id, 0, 0⟩
  if !assignable a then d
  else if a = d.maddr then d.addressConflict cfg id
  else match d.routeEntryOf a with
    | some r =>
      let take (d : Dev) : Dev :=
        let d := d.putRoute { new with gone := if d' = 63 ∧ r.dist = 63 then r.gone else 0 }
        if r.dist = d' ∧ r.lane = n then d else d.changed new.addr
      if r.lane = n then take d
      else if r.devid ≠ id ∧ newLoses r cfg id then d
      else if d' ≤ 32 ∧ ((r.devid ≠ id ∧ newWins r cfg id) ∨ d' < r.dist ∨ (d' = r.dist ∧ (n : Nat) < r.lane)) then take d
      else d
    | none =>
      if 32 < d' then d
      else if 1024 ≤ d.msh.routes.length + (if d.maddr = 0 then 0 else 1) then (d.bump R.MSH_RT_FULL).raise Blk.msh 0x9C 0
      else (d.putRoute new).changed new.addr

/-- The 12 bytes of an entry as sent on lane l (R396, R397): one whose next hop is that lane goes as unreachable. -/
def entryBytes (l : Lane) (r : Route) : List Byte :=
  bytesBE 2 r.addr.toNat
    ++ [BitVec.ofNat 8 ((if r.lane = (l : Nat) then 63 else r.dist) * 4 + r.cfg.toNat * 2 + r.tent.toNat), 0]
    ++ bytesBE 8 r.devid.toNat

/-- The device's own entry: distance 0, unreachable while leaving (R395, R427). No lane is its next hop. -/
def ownRoute (d : Dev) : List Route :=
  if d.maddr = 0 then [] else
  [⟨BitVec.ofNat 16 d.maddr, if d.msh.leaving then 63 else 0, 15, d.astate == 3, d.astate == 1, d.sec.devId, 0, 0⟩]

/-- The whole table, own entry first. -/
def routeTable (d : Dev) : List Route := d.ownRoute ++ d.msh.routes

end Dev

/-- A list cut into pieces of at most k. -/
def chunks {α : Type} (k : Nat) : Nat → List α → List (List α)
  | 0, _ => []
  | _, [] => []
  | n + 1, l => l.take k :: chunks k n (l.drop k)

namespace Dev

/-- ROUTE stitches with the entries, queued on every UP link (R396, R397). -/
def advertise (rs : List Route) (d : Dev) : Dev :=
  d.each (allLanes.filter d.linkUp) fun l d =>
    d.each (chunks 20 60 rs) fun c d => d.modLink l fun k =>
      { k with queue := k.queue ++ [⟨0xFFFF, BitVec.ofNat 16 d.maddr, 1, 1, 0, c.flatMap (entryBytes l), none, 0, false⟩] }

/-- The whole table falls due (R397). -/
def routeAdvertise (d : Dev) : Dev :=
  if !d.meshOn ∨ d.msh.advQ < d.routePeriod then d
  else (d.modMsh fun m => { m with advQ := 0 }).advertise d.routeTable

/-- Unconfirmed entries become unreachable, and unreachable ones are removed after their advertising (R399). -/
def routeExpiry (d : Dev) : Dev :=
  if !d.meshOn then d
  else
    let p := d.routePeriod
    let gone := d.msh.routes.filter fun r => r.dist == 63 && decide (p ≤ r.gone)
    let d := d.modMsh fun m => { m with routes := m.routes.filter fun r => !(r.dist == 63 && decide (p ≤ r.gone)) }
    let old := d.msh.routes.filter fun r => r.dist != 63 && decide (4 * p ≤ r.age)
    let d := d.each old fun r d => (d.putRoute { r with dist := 63, gone := 0 }).changed r.addr
    d.each gone routeGone

/-! ### Links (R387 to R389, R407, R427) -/

/-- The link may run: native, in RUN, locked or qualified, enabled (R387). -/
def linkAble (d : Dev) (n : Lane) : Bool :=
  d.meshOn && d.active && d.native && d.inRun n && d.deliverLock n && d.laneEnabled n

/-- What a link's departure from UP brings: its routes are unreachable (R399), queued stitches take another lane
(R401), and a stitch partly sent counts as sent (R408). -/
def leaveUp (n : Lane) (d : Dev) : Dev :=
  let d := d.each (d.msh.routes.filter fun r => r.lane == (n : Nat) && r.dist != 63) fun r d =>
    (d.putRoute { r with dist := 63, gone := 0 }).changed r.addr
  let q := (d.link n).queue
  let cur := (d.link n).sendingOf
  let d := d.modLink n fun l => { l with queue := [], sending := [], sendingOf := none, gaspDue := false, asm := [] }
  let d := match cur with | some s => d.stitchDone s | none => d
  -- link-local stitches of this device have no other lane
  d.each (q.filter fun s => s.dst != 0xFFFF) enqueue

/-- The link goes to a state with an event, if any. -/
def toLinkState (n : Lane) (st : Nat) (ev : Option Nat) (d : Dev) : Dev :=
  let d := if d.linkState n = 2 then d.leaveUp n else d
  let d := d.setFld (F.MSH_NBR_STAT_LSTATE n) st
  let d := d.modLink n fun l => { l with helloId := none, heard := false, misses := 0 }
  match ev with | some e => d.raise Blk.msh e n | none => d

/-- The neighbour fields read 0 (R428). -/
def clearNeighbour (n : Lane) (d : Dev) : Dev :=
  ((d.setReg (R.MSH_NBR_STAT n) 0xC0000000).setReg (R.MSH_NBR_DEVID_LO n) 0).setReg (R.MSH_NBR_DEVID_HI n) 0

/-- The link follows its lane (R387): DOWN, INIT or FOREIGN. -/
def linkUpdate (n : Lane) (d : Dev) : Dev :=
  let st := d.linkState n
  if !d.meshOn then d
  else if !d.native && d.inRun n then
    if st = 3 then d
    else (((d.toLinkState n 3 none).clearNeighbour n).modLink n fun l => { l with inbox := [] }).raise Blk.msh 0x9D n
  else if d.linkAble n && !(d.link n).left then if st = 0 ∨ st = 3 then d.toLinkState n 1 none else d
  else if st = 0 then d
  else (d.toLinkState n 0 (if st = 2 then some 0x91 else none)).setOn (F.MSH_NBR_STAT_LOOP n) false

/-- Four received quires have passed without a valid hello (R387). -/
def helloTimeout (n : Lane) (d : Dev) : Dev :=
  if d.linkUp n ∧ 4 ≤ (d.link n).misses then d.toLinkState n 1 (some 0x91) else d

/-- One received quire of the lane ends, as the hello judgement counts it (R387). -/
def helloQuire (n : Lane) (d : Dev) : Dev :=
  d.modLink n fun l =>
    if l.heard then { l with heard := false } else { l with misses := l.misses + 1, helloId := none }

/-- The sender takes a credit limit (R406). -/
def takeLimit (n : Lane) (vc : Nat) (v : BitVec 16) (hello : Bool) (d : Dev) : Dev :=
  d.modLink n fun l =>
    let c := l.vcs vc
    let ok := match c.lim with | some x => later v x | none => hello
    if ok then l.setVc vc { c with lim := some v } else l

/-- Losses that a hello's NSEQ shows (R406). -/
def settleSeq (n : Lane) (vc : Nat) (nseq : BitVec 16) (d : Dev) : Dev :=
  let c := (d.link n).vcs vc
  if later nseq c.exp then
    (d.bumpBy (R.MSH_RX_LOST n) (nseq - c.exp).toNat).modLink n fun l => l.setVc vc { l.vcs vc with exp := nseq }
  else d

/-- A link enters UP with its neighbour (R387, R407). -/
def enterUp (n : Lane) (id : BitVec 64) (nseq0 nseq1 : BitVec 16) (d : Dev) : Dev :=
  let fresh := (d.link n).upId != some id
  let d := (d.setFld (F.MSH_NBR_STAT_LSTATE n) 2).setOn (F.MSH_NBR_STAT_GASP n) false
  let d := d.modLink n fun l =>
    let l := { l with upId := some id }
    if fresh then { l with vc0 := { l.vc0 with exp := nseq0, lim := none }, vc1 := { l.vc1 with exp := nseq1, lim := none },
                           time := none } else l
  d.raise Blk.msh 0x90 n

/-- A hello leaf is judged (R381, R387 to R389, R394, R395, R406, R407, R427). Its NSEQ and LIM count unless its DEVID is not the
last UP neighbour's: then the link's entry to UP takes them up without loss or credit (R407). A FOREIGN link has no channel
(R428). -/
def hello (n : Lane) (x : StitchLeaf) (d : Dev) : Dev :=
  let L := x.bits
  let id := BitVec.ofNat 64 (leafField L 263 200)
  let addr := leafField L 199 184
  let ast := leafField L 183 182
  let leave := leafField L 178 178 == 1
  let nseq (v : Nat) : BitVec 16 := BitVec.ofNat 16 (if v = 0 then leafField L 175 160 else leafField L 143 128)
  let lim (v : Nat) : BitVec 16 := BitVec.ofNat 16 (if v = 0 then leafField L 159 144 else leafField L 127 112)
  if x.bad || leafField L 271 264 != 0xC0 || !linkFcsOk L || d.linkState n == 3 then d
  else
    let prev := (d.link n).helloId
    let wasLeft := (d.link n).left
    let d := (d.setFld (F.MSH_NBR_STAT_FAR_LANE n) (leafField L 181 179)).setFld (F.MSH_NBR_STAT_MADDR n) addr
    let d := (d.setReg (R.MSH_NBR_DEVID_LO n) (id.setWidth 32)).setReg (R.MSH_NBR_DEVID_HI n) (BitVec.ofNat 32 (id.toNat / 2 ^ 32))
    let d := (d.setOn (F.MSH_NBR_STAT_LEAVE n) leave).modLink n fun l => { l with left := leave }
    let known := (d.link n).upId == some id
    let d := if known then (d.settleSeq n 0 (nseq 0)).settleSeq n 1 (nseq 1) else d
    let d := if known then (d.takeLimit n 0 (lim 0) true).takeLimit n 1 (lim 1) true else d
    let d := if addr = d.maddr ∧ addr ≠ 0 then d.addressConflict (ast == 3) id else d
    if leave then
      if wasLeft then d else (if d.linkState n = 0 then d else d.toLinkState n 0 none).raise Blk.msh 0x9B n
    else
      let d := if wasLeft then d.linkUpdate n else d
      let loop := id == d.sec.devId
      let d := d.setOn (F.MSH_NBR_STAT_LOOP n) loop
      let st := d.linkState n
      let d := if st = 2 ∧ some id ≠ (d.link n).upId then d.toLinkState n 1 (some 0x92) else d
      let d := d.modLink n fun l => { l with helloId := some id, heard := true, misses := 0 }
      if loop then d
      else
        let up := d.linkState n == 1 && prev == some id
        let d := if up then d.enterUp n id (nseq 0) (nseq 1) else d
        if d.linkUp n ∧ addr ≠ d.maddr then d.routeHeard n addr 0 (ast == 3) (ast == 1) id else d

/-- Take the oldest leaf of the inbox that `p` holds of. -/
def takeLeaf (n : Lane) (p : StitchLeaf → Bool) (d : Dev) : Option StitchLeaf × Dev :=
  match (d.link n).inbox.find? p with
  | some x => (some x, d.modLink n fun l => { l with inbox := l.inbox.eraseP p })
  | none => (none, d)

def helloReceived (n : Lane) (d : Dev) : Dev :=
  match d.takeLeaf n fun x => x.w == 0 with
  | (some x, d) => d.hello n x
  | (none, d) => d

/-! ### Mesh time (R410 to R415) -/

/-- Mesh time at the last tick, in time units (R410). -/
def meshTime (d : Dev) : Nat := d.clk.qnum.toNat * 65536 + d.clk.frac.toNat

/-- Mesh time `clk` host clocks after the tick; it stands while the tick does not run (R410). -/
def meshTimeAt (d : Dev) (clk : Nat) : Nat := d.meshTime + if d.on F.CLK_STAT_TICK_RUN then 4 * clk else 0

/-- a − b of two 64-bit times, signed. -/
def timeDiff (a b : Nat) : Int := signed 64 ((a + 2 ^ 64 - b % 2 ^ 64) % 2 ^ 64)

def meshState (d : Dev) : Nat := d.fld F.MSH_TSTAT_TSTATE

/-- The root advertised (R412). -/
def rootId (d : Dev) : BitVec 64 := if d.meshState = 3 then d.sec.devId else d.msh.root

def parent (d : Dev) : Nat := d.fld F.MSH_TSTAT_PARENT

/-- ROOT and RDIST of a parent candidate (R412). -/
def candidate (d : Dev) (n : Lane) : Option (BitVec 64 × Nat) :=
  match (d.link n).time with
  | some (root, rd, ts, _, _) => if d.linkUp n && (ts == 2 || ts == 3) && decide (rd ≤ 31) then some (root, rd) else none
  | none => none

/-- The best candidate (R412). -/
def bestCandidate (d : Dev) : Option (Lane × BitVec 64 × Nat) :=
  allLanes.foldl (fun b n => match d.candidate n, b with
    | none, _ => b
    | some (r, k), none => some (n, r, k)
    | some (r, k), some (_, r', k') =>
      if r.toNat < r'.toNat ∨ (r = r' ∧ k < k') then some (n, r, k) else b) none

/-- ε in half time units, from this end's offset and the parent's (R414). -/
def epsHalf (d : Dev) (n : Lane) : Option Int :=
  match (d.link n).time with
  | some (_, _, _, _, rx) => some ((d.link n).rxofs - signed 32 rx.toNat)
  | none => none

/-- A new ε of the parent: TERR, the correction, the state's runs and a step (R414). -/
def takeEps (n : Lane) (e : Int) (d : Dev) : Dev :=
  let big := decide (2 * 4096 ≤ e.natAbs)
  let small := decide (e.natAbs < 2 * 256)
  let c := -(clampI (-64) 64 (roundAway e (2 ^ (d.lv F.MSH_CFG_KT + 1))))
  let d := d.setReg R.MSH_TERR (BitVec.ofInt 32 (roundAway e 2))
  let d := d.modMsh fun m => { m with corr := c }
  if d.meshState = 1 then
    let d := if big ∧ d.msh.stepHold = 0 then d.modMsh fun m => { m with stepNext := some (-(roundAway e 2)) } else d
    let run := if small then d.msh.acqRun + 1 else 0
    if 16 ≤ run then
      ((d.setFld F.MSH_TSTAT_TSTATE 2).modMsh fun m => { m with acqRun := 0, trackRun := 0, stepNext := none }).raise
        Blk.msh 0x97 n
    else d.modMsh fun m => { m with acqRun := run }
  else if d.meshState = 2 then
    let run := if big then d.msh.trackRun + 1 else 0
    if 4 ≤ run then (d.setFld F.MSH_TSTAT_TSTATE 1).modMsh fun m => { m with acqRun := 0, trackRun := 0 }
    else d.modMsh fun m => { m with trackRun := run }
  else d

/-- A time leaf is received (R382, R413, R414). -/
def timeLeafReceived (n : Lane) (d : Dev) : Dev :=
  match d.takeLeaf n fun x => x.w == 4 with
  | (none, d) => d
  | (some x, d) =>
    let L := x.bits
    if x.bad || leafField L 271 264 != 0xC8 || !linkFcsOk L then d
    else
      let mt := leafField L 191 128
      let d := d.modLink n fun l =>
        { l with time := some (BitVec.ofNat 64 (leafField L 263 200), leafField L 199 194, leafField L 193 192,
                   BitVec.ofNat 64 mt, BitVec.ofNat 32 (leafField L 127 96)),
                 rxofs := timeDiff (d.lane n).rx.arrive.toNat mt }
      if d.parent = (n : Nat) then
        match d.epsHalf n with | some e => d.takeEps n e | none => d
      else d

/-- The device is in ROOT (R412, R414). -/
def becomeRoot (d : Dev) : Dev :=
  if d.meshState = 3 then d
  else
    let d := ((d.setFld F.MSH_TSTAT_TSTATE 3).setFld F.MSH_TSTAT_PARENT 15).setFld F.MSH_TSTAT_RDIST 0
    (d.modMsh fun m => { m with corr := 0, stepNext := none, acqRun := 0, trackRun := 0 }).raise Blk.msh 0x95 0

/-- The parent is chosen at an internal boundary (R412, R414). -/
def rootElection (d : Dev) : Dev :=
  match d.bestCandidate with
  | none => d.becomeRoot
  | some (n, r, _) =>
    if d.sec.devId.toNat ≤ r.toNat then d.becomeRoot
    else
      let cur : Option Lane := allLanes.find? fun m => d.parent == (m : Nat)
      let keep : Option Lane := match cur with
        | some m => match d.candidate m with | some (r', _) => if r' = r then some m else none | none => none
        | none => none
      let p : Lane := keep.getD n
      let rd := match d.candidate p with | some (_, k) => k + 1 | none => 0
      let moved := d.parent != (p : Nat)
      let newRoot := d.meshState == 3 || d.msh.root != r
      let d := (d.setFld F.MSH_TSTAT_PARENT p).setFld F.MSH_TSTAT_RDIST rd
      let d := d.modMsh fun m => { m with root := r }
      let d := if d.meshState = 3 ∨ moved then
          (d.setFld F.MSH_TSTAT_TSTATE 1).modMsh fun m =>
            { m with acqRun := 0, trackRun := 0, stepNext := none, corr := 0 }
        else d
      if newRoot then d.raise Blk.msh 0x95 p else d

/-- The advance of mesh time at a tick, and whether it is a step (R410, R414). -/
def meshAdvance (d : Dev) : Int × Bool :=
  match d.msh.stepNext with
  | some s => (65536 + s, true)
  | none => if d.meshState = 3 then (65536, false) else (65536 + d.msh.corr, false)

/-- Mesh time advances at a tick (R410, R414): a step queues event 0x96. -/
def advanceMesh (d : Dev) : Dev :=
  let (a, step) := if d.meshOn then d.meshAdvance else (65536, false)
  let t := toField 64 (d.meshTime + a)
  let d := { d with clk := { d.clk with qnum := BitVec.ofNat 48 (t / 65536), frac := BitVec.ofNat 16 t,
                                        was := BitVec.ofNat 64 d.meshTime } }
  if !d.meshOn then d
  else
    let d := d.setFld F.MSH_TSTAT_FRAC d.clk.frac.toNat
    if step then (d.modMsh fun m => { m with stepNext := none, stepHold := 256 }).raise Blk.msh 0x96 d.parent
    else d.modMsh fun m => { m with stepHold := m.stepHold - 1 }

/-! ### Schedule (R416 to R418) -/

/-- N of a schedule slot as last written. -/
def schedN (d : Dev) (k : Nat) : Nat := d.fld (F.MSH_SCHED_Q_HI_N k) * 2 ^ 32 + (d.reg (R.MSH_SCHED_Q_LO k)).toNat

/-- `ARM` (R417). -/
def arm (k : Nat) (clk : Nat) (d : Dev) : Dev :=
  if 2 * 65536 ≤ timeDiff (d.schedN k * 65536) (d.meshTimeAt clk) then d.setFld (F.MSH_SCHED_CTRL_STATE k) 1
  else (d.setFld (F.MSH_SCHED_CTRL_STATE k) 3).raise Blk.msh 0x99 k

/-- Mesh time t is at least N − 1/2 of slot k. -/
def schedAt (d : Dev) (t : Nat) (k : Nat) : Bool := decide (0 ≤ timeDiff t (d.schedN k * 65536 + 2 ^ 64 - 32768))

/-- Slot k falls due at this boundary (R416). -/
def schedDue (d : Dev) (k : Nat) : Bool := d.meshOn && d.fld (F.MSH_SCHED_CTRL_STATE k) == 1 && d.schedAt d.meshTime k

/-- A due slot fires; one that a forward step carried past its time shows late (R416, R417): `ahead` is the mesh time that the tick
would have reached without the step. DEDUCED (log 25): its event is then 0x99. -/
def schedFire (ahead : Option Nat) (k : Nat) (d : Dev) : Dev :=
  if !d.schedDue k then d
  else if ahead.any fun t => !d.schedAt t k then (d.setFld (F.MSH_SCHED_CTRL_STATE k) 3).raise Blk.msh 0x99 k
  else (d.setFld (F.MSH_SCHED_CTRL_STATE k) 2).raise Blk.msh 0x98 k

/-! ### Addresses (R391 to R394) -/

/-- The configured address, if MODE and CADDR give one (R391). -/
def configured (d : Dev) : Option Nat :=
  let c := d.lv F.MSH_ADDR_CADDR
  if d.lvOn F.MSH_ADDR_MODE && assignable c then some c else none

/-- `CFG_ERR`: MODE is 1 and CADDR is not assignable (R391). -/
def showAddrErr (d : Dev) : Dev :=
  d.setOn F.MSH_ADDR_STAT_CFG_ERR (d.lvOn F.MSH_ADDR_MODE && d.configured.isNone)

/-- Take the configured or the candidate address (R391, R392); the entry of the one given up is removed (R397). -/
def takeAddress (d : Dev) : Dev :=
  let cfg := d.configured.isSome
  let a := d.configured.getD (addressCandidate d.sec.devId d.msh.cand)
  let d := d.each (d.ownRoute.filter fun r => r.addr.toNat != a) routeGone
  let d := d.showAddrErr.setOn F.MSH_ADDR_STAT_CONFLICT false
  let d := (d.setFld F.MSH_ADDR_STAT_MADDR a).setFld F.MSH_ADDR_STAT_ASTATE (if cfg then 3 else 1)
  let d := (d.modMsh fun m => { m with addrQ := 0, loseDue := false }).changed (BitVec.ofNat 16 a)
  match d.routeEntryOf a with
  | some r =>
    (d.modMsh fun m => { m with routes := m.routes.filter fun x => x.addr.toNat != a }).addressConflict r.cfg r.devid
  | none => d

/-- A tentative address becomes self-assigned (R393). -/
def addressSelfAssigned (d : Dev) : Dev :=
  if d.meshOn ∧ d.astate = 1 ∧ !d.msh.loseDue ∧ 2 * d.routePeriod ≤ d.msh.addrQ then
    ((d.setFld F.MSH_ADDR_STAT_ASTATE 2).changed (BitVec.ofNat 16 d.maddr)).raise Blk.msh 0x94 0
  else d

/-! ### Receive ring (R424) -/

/-- A stitch enters the ring's next slot. -/
def ringPut (s : Stitch) (d : Dev) : Dev :=
  let slot := (d.msh.ringHead + d.msh.ring.length) % 8
  let lane := match s.buf with | some (n, _) => (n : Nat) | none => 0
  let d := (d.freeBuffer s).bump R.MSH_LOCAL
  let d := d.setReg (R.MSH_RX_HDR slot) (BitVec.ofNat 32 (s.src.toNat * 65536 + s.type * 4096 + s.vc * 2048 + lane * 256
    + s.pay.length))
  let d := d.each (List.range 63) fun w d => d.setReg (R.MSH_RXW slot w)
    (bytesWord (((s.pay.drop (4 * w)).take 4) ++ [0, 0, 0, 0]))
  let d := d.modMsh fun m => { m with ring := m.ring ++ [s] }
  (d.setFld F.MSH_RX_STAT_COUNT d.msh.ring.length).pulse 2

/-- A REG_RESP or USER stitch is delivered locally: it waits in its buffer while the ring is full. -/
def ringDeliver (s : Stitch) (d : Dev) : Dev :=
  if d.msh.ring.length < 8 ∧ d.msh.ringWait = [] then d.ringPut s
  else d.modMsh fun m => { m with ringWait := m.ringWait ++ [s] }

/-- `POP` (R424): the head slot is freed and a waiting stitch enters. -/
def ringPop (d : Dev) : Dev :=
  if d.msh.ring = [] then d
  else
    let d := d.modMsh fun m => { m with ring := m.ring.tail, ringHead := (m.ringHead + 1) % 8 }
    let d := (d.setFld F.MSH_RX_STAT_HEAD d.msh.ringHead).setFld F.MSH_RX_STAT_COUNT d.msh.ring.length
    match d.msh.ringWait with
    | s :: r => (d.modMsh fun m => { m with ringWait := r }).ringPut s
    | [] => d

/-! ### Delivery (R401, R404, R405, R419 to R422) -/

/-- A REG_RESP to a request with its status and words (R420). -/
def respond (req : Stitch) (status : Nat) (words : List Word) (d : Dev) : Dev :=
  let r : Stitch := ⟨req.src, BitVec.ofNat 16 d.maddr, 4, 1, req.vc,
    (req.pay ++ [0, 0, 0, 0]).take 2 ++ [BitVec.ofNat 8 status, (req.pay ++ [0, 0, 0]).getD 2 0]
      ++ words.flatMap fun w => bytesBE 4 w.toNat, none, 0, false⟩
  if r.dst.toNat = d.maddr ∧ d.maddr ≠ 0 then d.ringDeliver r else d.enqueue r

/-- A request delivered locally joins the engine's queue of 8, or is answered busy (R421, R422). -/
def requestIn (s : Stitch) (d : Dev) : Dev :=
  if 8 ≤ d.msh.requests.length then (d.bump R.MSH_RA_BUSY).respond s 6 []
  else d.modMsh fun m => { m with requests := m.requests ++ [s] }

/-- The entries of a ROUTE payload (R396). -/
def routePayload (n : Lane) (pay : List Byte) (d : Dev) : Dev :=
  d.each (chunks 12 20 pay) fun e d =>
    if e.length < 12 then d
    else
      let b2 := (e.getD 2 0).toNat
      d.routeHeard n (natBE (e.take 2)) (b2 / 4) (b2 / 2 % 2 == 1) (b2 % 2 == 1) (BitVec.ofNat 64 (natBE (e.drop 4)))

/-- From B0 of an entry to STANDBY the mesh accepts no local stitch and none to forward (R585). -/
def noAccept (d : Dev) : Bool := d.dstate == stToSTANDBY && d.pwr.sbyTry != 0

/-- An accepted stitch is delivered locally or forwarded (R401). -/
def acceptStitch (n : Lane) (s : Stitch) (d : Dev) : Dev :=
  if s.dst = 0xFFFF ∨ (s.dst.toNat = d.maddr ∧ d.maddr ≠ 0) then
    if s.type = 4 ∨ s.type = 7 then d.ringDeliver s
    else
      let d := (d.freeBuffer s).bump R.MSH_LOCAL
      if s.type = 1 then d.routePayload n s.pay else d.requestIn { s with buf := none }
  else if 32 ≤ s.hops then d.dropStitch R.MSH_HOPLIM s
  else if d.noAccept then d.dropStitch R.MSH_NOROUTE s
  else d.enqueue { s with hops := s.hops + 1 }

/-- A stitch that R386 does not drop is judged by its sequence number (R404, R405, R426). -/
def stitchIn (n : Lane) (x : RxStitch) (d : Dev) : Dev :=
  let vc := x.st.vc
  let d := d.takeLimit n x.crv x.crlim false
  if x.st.type = 5 then (d.setOn (F.MSH_NBR_STAT_GASP n) true).raise Blk.msh 0x9A n
  else
    let c := (d.link n).vcs vc
    let g := (x.seq - c.exp).toNat
    let bumpExp (d : Dev) : Dev := d.modLink n fun l => l.setVc vc { l.vcs vc with exp := x.seq + 1 }
    if 2 ^ 15 ≤ g then d.bump (R.MSH_RX_DUP n)
    else if buffers vc ≤ c.used then
      ((d.bumpBy (R.MSH_RX_LOST n) (g + 1)).bump (R.MSH_RX_OVF n)) |> bumpExp
    else
      let d := bumpExp ((d.bumpBy (R.MSH_RX_LOST n) g).bump (R.MSH_RX_OK n))
      (d.modLink n fun l => l.setVc vc { l.vcs vc with used := (l.vcs vc).used + 1 }).acceptStitch n x.st

/-- The stitch in progress is dropped (R386). -/
def dropAsm (n : Lane) (d : Dev) : Dev :=
  if (d.link n).asm = [] then d else (d.modLink n fun l => { l with asm := [] }).bump (R.MSH_RX_BAD n)

/-- One traffic leaf (R379, R385, R386). -/
def trafficLeaf (n : Lane) (x : StitchLeaf) (d : Dev) : Dev :=
  let kind := leafField x.bits 271 270
  let lidx := leafField x.bits 269 267
  let llen := leafField x.bits 266 264
  let asm := (d.link n).asm
  let grow (l : List (BitVec 272)) (d : Dev) : Dev :=
    if l.length = llen + 1 then
      let d := d.modLink n fun k => { k with asm := [] }
      match readStitch n l with
      | some s => d.stitchIn n s
      | none => d.bump (R.MSH_RX_BAD n)
    else d.modLink n fun k => { k with asm := l }
  if x.bad then d.dropAsm n
  else if kind = 1 then
    let d := d.dropAsm n
    if lidx = 0 then grow [x.bits] d else d.bump (R.MSH_RX_BAD n)
  else if kind = 2 ∧ asm ≠ [] ∧ lidx = asm.length ∧ asm.head?.map (fun f => leafField f 266 264) = some llen then
    grow (asm ++ [x.bits]) d
  else d.dropAsm n

/-- The traffic leaves received so far are taken up; those of a link that is not UP are ignored. -/
def stitchReceived (n : Lane) (d : Dev) : Dev :=
  let ls := (d.link n).inbox.filter fun x => x.w != 0 && x.w != 4
  let d := d.modLink n fun l => { l with inbox := l.inbox.filter fun x => x.w == 0 || x.w == 4 }
  d.each ls fun x d => if d.linkUp n then d.trafficLeaf n x else d

/-! ### Sending (R381, R382, R402, R403, R406, R426) -/

/-- The hello leaf (R381): a stitch in progress is not yet in its NSEQ (R406). -/
def helloLeaf (d : Dev) (n : Lane) : BitVec 272 :=
  let l := d.link n
  let nseq (vc : Nat) : BitVec 16 :=
    match l.sendingOf with
    | some s => if s.vc = vc ∧ s.type ≠ 5 then (l.vcs vc).nseq - 1 else (l.vcs vc).nseq
    | none => (l.vcs vc).nseq
  linkLeaf (0xC0 * 2 ^ 248 + d.sec.devId.toNat * 2 ^ 184 + d.maddr * 2 ^ 168 + d.astate * 2 ^ 166 + n * 2 ^ 163
    + d.msh.leaving.toNat * 2 ^ 162 + (nseq 0).toNat * 2 ^ 144 + (l.vc0.grant 0).toNat * 2 ^ 128
    + (nseq 1).toNat * 2 ^ 112 + (l.vc1.grant 1).toNat * 2 ^ 96)

/-- The time leaf (R382, R413). An offset beyond 32 bits has no stated form: a free value (log 2). -/
def timeLeaf (n : Lane) (d : Dev) : BitVec 272 × Dev :=
  let o := (d.link n).rxofs
  let (rx, d) := if -(2 ^ 31) ≤ o ∧ o < 2 ^ 31 then (BitVec.ofInt 32 o, d) else d.takeFree
  (linkLeaf (0xC8 * 2 ^ 248 + d.rootId.toNat * 2 ^ 184 + d.fld F.MSH_TSTAT_RDIST * 2 ^ 178 + d.meshState * 2 ^ 176
    + d.meshTime * 2 ^ 112 + rx.toNat * 2 ^ 80), d)

/-- A stitch starts on the lane: its sequence number and credit are taken and its first leaf sent (R403). Which VC CRLIM
grants is the sender's choice: a free value (log 2). -/
def startStitch (n : Lane) (s : Stitch) (d : Dev) : BitVec 272 × Dev :=
  let (w, d) := d.takeFree
  let crv := w.toNat % 2
  let l := d.link n
  let seq := if s.type = 5 then 0 else (l.vcs s.vc).nseq
  let leaves := stitchLeaves s crv seq.toNat ((l.vcs crv).grant crv).toNat
  let d := if s.type = 5 then d else
    (d.bump (R.MSH_TX_ST n)).modLink n fun l => l.setVc s.vc { l.vcs s.vc with nseq := seq + 1 }
  let d := if leaves.length ≤ 1 then d.stitchDone s
    else d.modLink n fun l => { l with sending := leaves.tail, sendingOf := some s }
  (leaves.headD 0, d)

/-- The next traffic leaf of the lane (R402). -/
def trafficOut (n : Lane) (d : Dev) : BitVec 272 × Dev :=
  let l := d.link n
  match l.sending with
  | x :: rest =>
    let d := d.modLink n fun l => { l with sending := rest, sendingOf := if rest = [] then none else l.sendingOf }
    (x, match rest, l.sendingOf with | [], some s => d.stitchDone s | _, _ => d)
  | [] =>
    if !d.linkUp n then (0, d)
    else if l.gaspDue then
      (d.modLink n fun l => { l with gaspDue := false, gaspLeft := if d.pwr.lossQ.isSome then 4 else 0 }).startStitch n
        ⟨0xFFFF, BitVec.ofNat 16 d.maddr, 5, 1, 0, [], none, 0, false⟩
    else
      let ready (vc : Nat) : Option Stitch := if (l.vcs vc).credit vc then l.queue.find? fun s => s.vc == vc else none
      match ready 0 <|> ready 1 with
      | some s => (d.modLink n fun l => { l with queue := l.queue.erase s }).startStitch n s
      | none => (0, d)

/-- The payload L of stitch leaf w of lane n (R377, R380). -/
def stitchOut (n : Lane) (w : Nat) (d : Dev) : BitVec 272 × Dev :=
  if !d.meshOn || !d.laneEnabled n || !d.native then (0, d)
  else if w = 0 then (d.helloLeaf n, d)
  else if w = 4 then d.timeLeaf n
  else d.trafficOut n

/-- A DGASP falls due on every UP link (R426). -/
def gasp (d : Dev) : Dev := d.each (allLanes.filter d.linkUp) fun n d => d.modLink n fun l => { l with gaspDue := true }

/-- A DGASP still waits for its leaf or has not left the output. -/
def gasping (d : Dev) : Bool := allLanes.any fun n => d.linkUp n && ((d.link n).gaspDue || (d.link n).gaspLeft != 0)

/-- LEAVE is set, and the own address advertised unreachable (R427). -/
def startLeaving (d : Dev) : Dev := (d.modMsh fun m => { m with leaving := true }).changed (BitVec.ofNat 16 d.maddr)

/-! ### Local stitches (R423) -/

/-- The stitch that the local registers hold. -/
def localStitch (d : Dev) : Stitch :=
  let t := d.fld F.MSH_TX_HDR_TYPE
  ⟨BitVec.ofNat 16 (d.fld F.MSH_TX_HDR_DST), BitVec.ofNat 16 d.maddr, t, 1, if t = 7 then d.fld F.MSH_TX_HDR_VC else 0,
   ((List.range 63).flatMap fun w => wordBytes (d.reg (R.MSH_TXB w))).take (d.fld F.MSH_TX_HDR_PLEN), none, 0, true⟩

/-- `SEND` (R423, R585). -/
def sendLocal (d : Dev) : Dev :=
  let s := d.localStitch
  if !d.meshOn ∨ d.fld F.MSH_TX_STAT_STATE = 1 ∨ d.noAccept then d
  else if (s.type ≠ 2 ∧ s.type ≠ 3 ∧ s.type ≠ 7) ∨ 250 < d.fld F.MSH_TX_HDR_PLEN then d.setFld F.MSH_TX_STAT_STATE 2
  else if s.dst.toNat = d.maddr ∧ d.maddr ≠ 0 then
    let d := (d.setFld F.MSH_TX_STAT_STATE 1).modMsh fun m => { m with localSent := true }
    if s.type = 7 then d.ringDeliver { s with own := false } else (d.bump R.MSH_LOCAL).requestIn { s with own := false }
  else if (d.routeLane s.dst.toNat).isNone then d.setFld F.MSH_TX_STAT_STATE 3
  else ((d.setFld F.MSH_TX_STAT_STATE 1).modMsh fun m => { m with localSent := false }).enqueue s

/-- The last leaf of the local stitch has been sent (R423). -/
def stitchSent (d : Dev) : Dev :=
  if d.msh.localSent then (d.modMsh fun m => { m with localSent := false }).setFld F.MSH_TX_STAT_STATE 0 else d

/-- Stitches held for 2^AGE_EXP quires are dropped (R408); one that is being sent is not held. -/
def stitchAged (d : Dev) : Dev :=
  let old (s : Stitch) : Bool := decide (2 ^ d.lv F.MSH_CFG_AGE_EXP ≤ s.age)
  if !d.meshOn then d
  else
    let d := d.each allLanes fun n d =>
      let gone := (d.link n).queue.filter old
      let d := d.modLink n fun l => { l with queue := l.queue.filter fun s => !old s }
      d.each gone (dropStitch R.MSH_AGED)
    let gone := d.msh.ringWait.filter old
    let d := d.modMsh fun m => { m with ringWait := m.ringWait.filter fun s => !old s }
    d.each gone (dropStitch R.MSH_AGED)

/-- Every held stitch is dropped and counted (R588), every remote request dropped: those were counted when they were delivered
(R409). -/
def dropHeld (d : Dev) : Dev :=
  let d := d.each allLanes fun n d =>
    let q := (d.link n).queue
    let d := d.modLink n fun l => { l with queue := [] }
    d.each q (dropStitch R.MSH_AGED)
  let q := d.msh.ringWait
  (d.modMsh fun m => { m with ringWait := [], requests := [] }).each q (dropStitch R.MSH_AGED)

/-- The mesh holds a stitch or a request (R586, reason CREDITS). -/
def meshHolds (d : Dev) : Bool :=
  (allLanes.any fun n => !(d.link n).queue.isEmpty || !(d.link n).sending.isEmpty) || !d.msh.ringWait.isEmpty
    || !d.msh.requests.isEmpty

/-! ### The internal boundary -/

/-- Registers whose writes take effect at the next boundary (R429). -/
def meshLatched : List Nat := [R.MSH_CFG, R.MSH_ADDR, R.MSH_RA_CFG, R.MSH_RA_WMASK, R.MSH_RT_IDX]

/-- A quire has passed for what the mesh holds (R393, R397, R399, R408). -/
def meshAge (d : Dev) : Dev :=
  let d := d.modMsh fun m =>
    { m with addrQ := m.addrQ + 1, advQ := m.advQ + 1, routes := m.routes.map Route.older,
             ringWait := m.ringWait.map Stitch.older }
  d.each allLanes fun n d => d.modLink n fun l => { l with queue := l.queue.map Stitch.older }

/-- The entries that changed or were removed before this boundary (R397). -/
def dueRoutes (d : Dev) : List Route :=
  (d.routeTable.filter fun r => d.msh.advDue.contains r.addr)
    ++ d.msh.removed.filter fun r => d.routeTable.all fun x => x.addr != r.addr

/-- The mesh at an internal boundary, after mesh time has advanced: what changed before it goes out, written settings take
effect, links follow their lanes, a lost address moves on, and the parent is chosen. -/
def meshTick (d : Dev) : Dev :=
  if !d.meshOn then d
  else
    let was := d.configured
    let d := (d.modMsh fun m => { m with advDue := [], removed := [] }).advertise d.dueRoutes
    let d := (d.pressWords meshLatched).each allLanes linkUpdate
    let d := if d.msh.loseDue then (d.modMsh fun m => { m with cand := m.cand + 1 }).takeAddress
      else if d.configured = was then d.showAddrErr else d.takeAddress
    d.rootElection

/-- The stitch engine starts as its domain powers up: no link, no route, an address taken (R392), mesh time at its quire
number with FRAC 0 (R410, R516). -/
def meshStart (d : Dev) : Dev := ({ d with msh := MshSt.init, clk := { d.clk with frac := 0 } }).takeAddress

/-- What an MSH register outside the stored words reads (R395, R412): the table window and the identity words. -/
def meshDerived (d : Dev) (a : Nat) : Option Word :=
  let e := d.routeTable[d.lv F.MSH_RT_IDX_IDX]?
  if a = R.MSH_DEVID_LO then some (d.sec.devId.setWidth 32)
  else if a = R.MSH_DEVID_HI then some (BitVec.ofNat 32 (d.sec.devId.toNat / 2 ^ 32))
  else if a = R.MSH_ROOT_LO then some (d.rootId.setWidth 32)
  else if a = R.MSH_ROOT_HI then some (BitVec.ofNat 32 (d.rootId.toNat / 2 ^ 32))
  else if a = R.MSH_RT_ENT then some (match e with
    | some r => BitVec.ofNat 32 (2 ^ 31 + r.cfg.toNat * 2 ^ 30 + r.dist % 64 * 2 ^ 24 + r.lane % 16 % 15 * 2 ^ 20
        + r.tent.toNat * 2 ^ 19 + r.addr.toNat)
    | none => 0)
  else if a = R.MSH_RT_DEVID_LO then some (match e with | some r => r.devid.setWidth 32 | none => 0)
  else if a = R.MSH_RT_DEVID_HI then some (match e with | some r => BitVec.ofNat 32 (r.devid.toNat / 2 ^ 32) | none => 0)
  else none

end Dev

end Sys2Proof.Machine
end

