-- ==== Sys2Proof/Machine/Delivery.lean ====
section
/-! DEFINITION. Decoded leaves on their way out (chapters 2, 3, 4): delivery to host lanes with the collation ledger, the
decoder's counters, and leaves that wait for a subwindow's judgement (R306). -/

namespace Sys2Proof.Machine

namespace Dev

/-- A host transmit lane is powered down or held in electrical idle while its lane delivers (R79). -/
def hostDown (d : Dev) (h : HostLane) : Bool := !d.domOn (.hg (Fin.ofNat 4 (h / 4))) || d.fullRunning

/-- Received bits of entry e of lane n leave on its host transmit lane, with the lane's polarity applied (R56); units whose
last bit is among them are counted (R76). -/
def hostBitsOut (n : Lane) (e : Nat) (bits : List Bool) (d : Dev) : Dev :=
  let h := d.txHost n e
  let x := d.host[h]
  let t := x.txBits + bits.length
  let d := d.modHost h fun x =>
    { x with txBits := t % 5440, tx := .data, out := invertBits (d.lvOn ⟨R.HST_POL, 16 + h, 1⟩) (x.txBits % 2 == 1) bits }
  d.bump48By (R.MAP_RX_CW_OUT_LO (d.streamOf n e)) (t / 5440)

/-- An interleave block is whole: its leaves are de-interleaved and leave on host lanes (R97), or are discarded where a host
lane is down. -/
def deliverBlock (n : Lane) (d : Dev) : Dev :=
  let r := (d.lane n).rx
  let d := d.each ((d.laneStreams n).filter fun s => !r.flushed.contains s) fun s d =>
    let es := d.entries.filter fun e => d.streamOf n e == s
    if es.any fun e => d.hostDown (d.txHost n e) then d.rxDisc s rHOSTDOWN r.block
    else d.each es (fun e d => d.hostBitsOut n e (deinterleave (136 * e) r.pay)) |>.rxDlv s r.block
  d.modRx n fun r => { r with block := 0, pay := [] }

/-- A data leaf of a locked lane with its descrambled payload, errored or not (R143): discarded before qualification (R302)
or in a stream that restarts (R65), else in flight until its block is whole. DESIGN CHOICE (log 38): a leaf before qualification of a
stream that restarts counts as PRE_QUAL. -/
def dataLeaf (n : Lane) (i : Nat) (payload : List Bool) (d : Dev) : Dev :=
  let d := d.each (d.laneStreams n) rxIn
  if !d.deliverLock n then d.each (d.laneStreams n) fun s d => d.rxDisc s rPREQUAL 1
  else
    let d := d.each ((d.laneStreams n).filter fun s => (d.lane n).rx.flushed.contains s) fun s d => d.rxDisc s rFLUSH 1
    let d := d.modRx n fun r => { r with block := r.block + 1, pay := r.pay ++ [BitVec.ofNat 272 (ofBits payload)] }
    if i % 4 = 3 then d.deliverBlock n else d

/-- An uncorrectable leaf, counted or not, is one event of class 1 (R150). -/
def chargeDecode (n : Lane) (x : Decoded) (d : Dev) : Dev :=
  if x.bad then d.charge 1 n fun d => (d.setOn (F.LANE_DEC_STAT_DEGRADED n) true).raise Blk.lane 0x20 n else d

/-- The decoder's counters for one leaf (R147, R148). -/
def countDecode (n : Lane) (x : Decoded) (stitch : Bool) (d : Dev) : Dev :=
  let d := (d.bump48 (R.LANE_DEC_LEAVES_LO n)).bump48By (R.LANE_DEC_CRCREJ_LO n) x.rej
  if x.bad then
    let d := d.bump48 (R.LANE_DEC_UNCORR_LO n)
    if stitch then d.bump (R.LANE_STITCH_UNCORR n) else d
  else
    let d := if x.change = 0 then d.bump48 (R.LANE_DEC_CLEAN_LO n)
      else d.bump48 (R.LANE_COR_BIN_LO n (min 5 x.change))
    if x.pat = 0 then d else d.bump48 (R.LANE_DEC_CHASE_LO n)

/-- A decoded leaf with payload `p` in slot `slot` of a locked lane: counted by the decoder where the lane delivers (R146,
R302), then delivered, or handed to the stitch engine. -/
def leafDone (n : Lane) (slot : Nat) (p : List Bool) (x : Decoded) (d : Dev) : Dev :=
  match slotKind slot with
  | .data i => ((if d.deliverLock n then d.countDecode n x false else d).chargeDecode n x).dataLeaf n i p
  | .stitch w =>
    let d := (if d.deliverLock n then d.countDecode n x true else d).chargeDecode n x
    if d.meshOn && d.laneEnabled n && d.deliverLock n then
      d.modLink n fun l => { l with inbox := l.inbox ++ [⟨w, BitVec.ofNat 272 (ofBits p), x.bad⟩] }
    else d
  | _ => d

/-- A marker that would qualify an unqualified lane waits for its subwindow's end (R306). -/
def awaitsJudge (d : Dev) (n : Lane) : Bool :=
  !d.deliverLock n && match (d.lane n).brl.judge with | some j => j.qual | none => false

/-- A decoded leaf is done with, or waits for the judgement of the marker before it. -/
def leafOut (n : Lane) (slot : Nat) (p : List Bool) (x : Decoded) (d : Dev) : Dev :=
  if d.awaitsJudge n then d.modBrl n fun b =>
    { b with held := b.held ++ [⟨slot, BitVec.ofNat 272 (ofBits p), x.bad, x.change, x.pat, x.rej⟩] }
  else d.leafDone n slot p x

/-- The leaves that waited are done with, the lane qualified or not. -/
def releaseHeld (n : Lane) (d : Dev) : Dev :=
  let hs := (d.lane n).brl.held
  (d.modBrl n fun b => { b with held := [], judge := none }).each hs fun h d =>
    d.leafDone n h.slot ((List.range 272).map h.pay.getMsbD) ⟨[], h.bad, h.change, h.pat, h.rej⟩

/-- What else ends the wait of a marker for its judgement counts one that is in sequence and does not qualify (R301). -/
def judgeLost (n : Lane) (d : Dev) : Dev :=
  match (d.lane n).brl.judge with
  | some j => if j.seq && !j.qual && d.brlState n != 6 then (d.bump (R.BRL_SRC_MIS n)).raise Blk.brl 0x72 n else d
  | none => d

/-- The marker and the leaves on their way at the end of a lane's lock: those that wait for a judgement get it, and those in
flight are discarded under `reason`. -/
def dropFlight (n : Lane) (reason : Nat) (d : Dev) : Dev := ((d.judgeLost n).releaseHeld n).discardInFlight n reason

end Dev

end Sys2Proof.Machine
end

