-- ==== Sys2Proof/Machine/Sampling.lean ====
section
/-! DEFINITION. Receive sampling (chapter 6): trims in use, gain and peaking, the rotating calibration unit, levels, and
the capture engine. -/

namespace Sys2Proof.Machine

/-- A unit's place in lists and fault instances: 65c + u. -/
abbrev unitIndex (c u : Nat) : Nat := 65 * c + u

namespace Dev

/-! ### Trims (R210 to R214) -/

def trimAddr (n : Lane) (a : Nat) : Bool :=
  decide (R.LANE_ADC_TRIM n 0 0 ≤ a ∧ a ≤ R.LANE_ADC_TRIM n 1 64) || a == R.LANE_ADC_CSKEW n

/-- The sampling path takes up all trims, while `TRIM_HOLD` is 0 (R212, R213); a calibration result not before its take-up point
(R331). -/
def takeUpTrims (n : Lane) (d : Dev) : Dev :=
  if d.on (F.LANE_ADC_CFG_TRIM_HOLD n) then d
  else
    let here := !d.ownBoundary n || (d.lane n).fr.slot == 770
    let kept := d.calKept here n [0, 1]
    let old := (d.lane n).rx.trims
    let use := (kept.map Prod.fst).dedup.foldl (fun l a =>
        Cells.put zeroWord l a (keepFields kept a (Cells.get zeroWord old a) (Cells.get zeroWord l a)))
      (d.regs.filter fun c => trimAddr n c.1)
    (d.modRx n fun r => { r with trims := use }).calTaken here n [0, 1]

/-- The unit that serves the position of sample number m modulo 128 (R207). -/
def unitOf (r : RxSt) (m : Nat) : Nat := (if m % 2 = 0 then r.pos0 else r.pos1).getD (m / 2 % 64) 0

/-- Corrected samples, in 1/4 LSB, of codes that begin at sample number `m` (R211). -/
def correctCodes (d : Dev) (n : Lane) (m : Nat) (codes : List Byte) : List Int :=
  let r := (d.lane n).rx
  let byp := d.lvOn (F.LANE_ADC_CFG_TRIM_BYP n)
  ((List.range codes.length).zip codes).map fun p =>
    corrected byp (Cells.get zeroWord r.trims (R.LANE_ADC_TRIM n ((m + p.1) % 2) (unitOf r (m + p.1)))) p.2.toNat

/-! ### Gain and peaking (R199 to R202) -/

def gain (d : Dev) (n : Lane) : Nat := d.fld (F.LANE_RX_AFE_STAT_GAIN n)

/-- A gain step takes effect: the AGC window it falls in counts toward no run (R251). -/
def setGain (n : Lane) (g : Nat) (d : Dev) : Dev :=
  if d.gain n = g then d else (d.setFld (F.LANE_RX_AFE_STAT_GAIN n) g).modMs n fun m => { m with agcMoved := true }

/-- A peaking setting takes effect, an input change of receive calibration (R329). -/
def setPeak (n : Lane) (k : Nat) (d : Dev) : Dev :=
  if d.fld (F.LANE_RX_AFE_STAT_PEAK n) = k then d else (d.setFld (F.LANE_RX_AFE_STAT_PEAK n) k).calRxChange n

/-- Every active tap is scaled for one AGC step outside the AGC state (R252). -/
def scaleTaps (n : Lane) (up : Bool) (d : Dev) : Dev :=
  let r := (d.lane n).rx
  let prof := (d.lane n).fr.prof
  let scaled (taps : List Int) : List Int := (List.range 48).map fun k =>
    if tapActive prof r.main k then scaleTap up (tapOf (taps.getD k 0)) * 16384 else taps.getD k 0
  d.modAd n fun a => { a with taps := scaled a.taps }

/-- The AGC's step to gain g is applied (R251, R252): the taps of a lane past the AGC state scale at the same symbol. -/
def agcApply (n : Lane) (g : Nat) (d : Dev) : Dev :=
  let up := decide (d.gain n < g)
  let d := (d.setGain n g).bump (R.LANE_AGC_STEP n)
  if d.acq n = 2 then d else d.scaleTaps n up

/-- What a press changed of GAIN_SET and PEAK is applied (R199, R201). -/
def applyAfeSet (n : Lane) (d : Dev) : Dev :=
  let d := if d.lvOn (F.LANE_RX_AFE_AGC_EN n) then d else d.setGain n (d.lv (F.LANE_RX_AFE_GAIN_SET n))
  (d.setPeak n (d.lv (F.LANE_RX_AFE_PEAK n))).modRx n fun r => { r with setNext := false }

/-- A front end that powers up takes its peaking, and with the AGC off its gain step, from the live registers as the power-up list
leaves them (R198, R199). -/
def afeInit (n : Lane) (d : Dev) : Dev :=
  let d := d.setFld (F.LANE_RX_AFE_STAT_PEAK n) (d.lv (F.LANE_RX_AFE_PEAK n))
  if d.lvOn (F.LANE_RX_AFE_AGC_EN n) then d else d.setFld (F.LANE_RX_AFE_STAT_GAIN n) (d.lv (F.LANE_RX_AFE_GAIN_SET n))

/-- The first symbol of a pilot slot of a lane with marker lock: waiting gain and peaking changes are applied and mark
the leaf disturbed (R200 to R202), and trims are taken up (R212). -/
def pilotStart (n : Lane) (d : Dev) : Dev :=
  let g0 := d.gain n
  let p0 := d.fld (F.LANE_RX_AFE_STAT_PEAK n)
  let r := (d.lane n).rx
  let d := match r.gainNext with
    | some g => (d.agcApply n g).modRx n fun r => { r with gainNext := none }
    | none => d
  let d := if r.setNext && (d.lane n).fr.slot == 770 then d.applyAfeSet n else d
  let d := d.setOn (F.LANE_RX_AFE_STAT_STEP_PEND n) ((d.lane n).rx.gainNext.isSome || (d.lane n).rx.setNext)
  (d.modRx n fun r => { r with disturbed := d.gain n != g0 || d.fld (F.LANE_RX_AFE_STAT_PEAK n) != p0 }).takeUpTrims n

/-! ### The rotating calibration unit (R215 to R220) -/

/-- One core of a lane's sampling path. -/
structure Core where
  pos : List Nat
  tgt : Nat
  ok  : Bool
  bad : Bool
  chk : Bool
  rep : List Nat

def core (d : Dev) (n : Lane) (c : Fin 2) : Core :=
  let r := (d.lane n).rx
  if c = 0 then ⟨r.pos0, r.tgt0, r.ok0, r.bad0, r.chk0, r.rep0⟩ else ⟨r.pos1, r.tgt1, r.ok1, r.bad1, r.chk1, r.rep1⟩

def setCore (n : Lane) (c : Fin 2) (x : Core) (d : Dev) : Dev :=
  d.modRx n fun r =>
    if c = 0 then { r with pos0 := x.pos, tgt0 := x.tgt, ok0 := x.ok, bad0 := x.bad, chk0 := x.chk, rep0 := x.rep }
    else { r with pos1 := x.pos, tgt1 := x.tgt, ok1 := x.ok, bad1 := x.bad, chk1 := x.chk, rep1 := x.rep }

def cuField (n : Lane) (c : Fin 2) : Fld := if c = 0 then F.LANE_ADC_STAT_CU0 n else F.LANE_ADC_STAT_CU1 n
def rstop (n : Lane) (c : Fin 2) : Fld := if c = 0 then F.LANE_ADC_STAT_RSTOP0 n else F.LANE_ADC_STAT_RSTOP1 n
def retField (n : Lane) (c : Fin 2) : Fld := if c = 0 then F.LANE_ADC_RET_RET0 n else F.LANE_ADC_RET_RET1 n

/-- The unit outside the array. -/
def calUnit (d : Dev) (n : Lane) (c : Fin 2) : Nat := d.fld (cuField n c)

/-- `ROT_BUSY` follows the steps in progress. -/
def rotBusy (n : Lane) (d : Dev) : Dev :=
  let r := (d.lane n).rx
  d.setOn (F.LANE_ADC_STAT_ROT_BUSY n) (r.ok0 || r.ok1 || r.chk0 || r.chk1)

/-- A unit in use reaches lasting fault with its core's rotation stopped: the lane is degraded (R219). -/
def unitDegraded (n : Lane) (d : Dev) : Dev := (d.setOn (F.LANE_ADC_STAT_DEGRADED n) true).raise Blk.lane 0x42 n

/-- A unit is retired and rotation of its core stops; units that waited for a replacement stay in use (R219, R220). -/
def retireUnit (n : Lane) (c : Fin 2) (u : Nat) (d : Dev) : Dev :=
  let k := d.core n c
  let d := (d.setCore n c { k with rep := [] }).setFld (retField n c) u
  ((d.setOn (rstop n c) true).raise Blk.lane 0x41 n).each (k.rep.filter (· != u)) fun _ d => d.unitDegraded n

/-- Units start in place, a retired one outside the array with its core's rotation stopped (R208, R220). DESIGN CHOICE (log 40):
units that wait for their replacement wait on; one of them that starts outside the array is retired there. -/
def adcInit (n : Lane) (d : Dev) : Dev :=
  d.each [0, 1] fun c d =>
    let ret := d.fld (retField n c)
    let rep := if ret ≤ 64 then [] else (d.core n c).rep
    let pos := (List.range 64).map fun u => if u = ret then 64 else u
    let d := d.setCore n c ⟨pos, 0, false, false, false, rep⟩
    let d := d.setFld (cuField n c) (if ret < 64 then ret else 64)
    let d := d.setOn (rstop n c) (decide (ret ≤ 64))
    if rep.contains 64 then d.retireUnit n c 64 else d

/-- A unit reaches lasting fault (R219). One that waits for its replacement already waits on. -/
def sarLasting (n : Lane) (c : Fin 2) (u : Nat) (d : Dev) : Dev :=
  let k := d.core n c
  let running := !d.on (rstop n c)
  if u = d.calUnit n c then
    if running then ((d.setCore n c { k with ok := false, chk := false }).retireUnit n c u).rotBusy n else d
  else if running then
    if k.rep.contains u then d else (d.setCore n c { k with rep := k.rep ++ [u] }).raise Blk.lane 0x40 n
  else d.unitDegraded n

/-- One event of a unit's fault source (R217). -/
def sarEvent (n : Lane) (c : Fin 2) (u : Nat) (d : Dev) : Dev :=
  (d.bump (R.LANE_ADC_UFLT n)).charge 2 (130 * n + unitIndex c u) (sarLasting n c u)

/-- The match of step 2 of R216: mean at most 0.5 LSB, rms at most 1.5 LSB. -/
def matches_ (s : MatchSums) : Bool := decide (s.sum.natAbs ≤ 8192) && decide (s.sumSq ≤ 147456)

/-- Steps 1 and 2 of a core's rotation step (R216, R218, R219). DESIGN CHOICE (log 45): a step that falls due while the core's
earlier switch or offline check is in progress is skipped, and its target stays. -/
def rotationCore (n : Lane) (c : Fin 2) (s : MatchSums) (d : Dev) : Dev :=
  let k := d.core n c
  if d.on (rstop n c) || k.ok || k.chk then d
  else
    let k := match k.rep with | u :: _ => { k with tgt := k.pos.idxOf u } | [] => k
    if k.bad then d.setCore n c { k with chk := true }
    else if matches_ s then d.setCore n c { k with ok := true }
    else (d.setCore n c k).sarEvent n c (d.calUnit n c)

/-- A rotation step falls due and its match is judged (R215, R216). -/
def rotationStep (n : Lane) (m0 m1 : MatchSums) (d : Dev) : Dev :=
  let q := d.lv (F.LANE_ADC_CFG_ROT_Q n)
  if q = 0 ∨ (d.lane n).rx.rotQ < q then d
  else (((d.modRx n fun r => { r with rotQ := 0 }).rotationCore n 0 m0).rotationCore n 1 m1).rotBusy n

/-- Steps 3 and 4 of a core (R216): the target position switches, and the released unit is checked. A replacement of the unit
at lasting fault is steps 1 to 3 only, and that unit is retired (R219). DESIGN CHOICE (log 40): `LANE.ADC_ROTn` counts each
core's switch, so a step of both cores adds 2. -/
def switchCore (n : Lane) (c : Fin 2) (d : Dev) : Dev :=
  let k := d.core n c
  if !k.ok then d
  else
    let out := k.pos.getD k.tgt 0
    let k' : Core := { k with pos := k.pos.set k.tgt (d.calUnit n c), ok := false, tgt := (k.tgt + 1) % 64 }
    let d := d.setFld (cuField n c) out
    if k.rep.head? = some out then (d.setCore n c { k' with chk := false }).retireUnit n c out
    else (d.setCore n c { k' with chk := true }).bump (R.LANE_ADC_ROT n)

/-- The switch falls at a pilot slot of a lane with marker lock, else after an internal tick (R216, R212). -/
def rotationSwitch (n : Lane) (d : Dev) : Dev :=
  let atPilot := match slotKind (d.lane n).fr.slot with | .pilot _ => true | _ => false
  if d.ownBoundary n && !atPilot then d
  else ((d.switchCore n 0).switchCore n 1).rotBusy n

/-- The offline check ends (R216, R217, R318): within ±8 LSB and ±12.5 % the unit passes, and its OFS and GAIN are written
where calibration may write trims (R213). DESIGN CHOICE (log 40): the mean GAIN is rounded half away from zero, and a trim is
held at its field's limits. -/
def offlineCheck (n : Lane) (c : Fin 2) (m : OfflineMeas) (d : Dev) : Dev :=
  let k := d.core n c
  if !k.chk then d
  else
    let u := d.calUnit n c
    let pass := decide (m.ofsErr.natAbs ≤ 128) && decide (m.gainErr.natAbs ≤ 512)
    let d := (d.setCore n c { k with chk := false, bad := !pass }).rotBusy n
    if !pass then d.sarEvent n c u
    else if d.on (F.LANE_ADC_CFG_TRIM_HOLD n) || !d.lvOn (F.LANE_ADC_CFG_CAL_EN n) then d
    else
      let a := R.LANE_ADC_TRIM n c u
      let mean := roundAway (((d.core n c).pos.map fun v => d.sfld ⟨R.LANE_ADC_TRIM n c v, 8, 10⟩).sum) 64
      ((d.setFld ⟨a, 0, 8⟩ (toField 8 (clampI (-128) 127 m.ofs))).setFld ⟨a, 8, 10⟩
        (toField 10 (clampI (-512) 511 (mean + m.gainDiff)))).trimBy n true [0, 1] a

/-- `LANE.ADC_RETn` (R220): a field that reads none takes a unit number, which retires it under R219. -/
def adcRetWrite (n : Lane) (v : Word) (d : Dev) : Dev :=
  d.each [0, 1] fun (c : Fin 2) d =>
    let u := getBits v (retField n c)
    if d.fld (retField n c) = 0x7F ∧ u ≤ 64 then d.sarLasting n c u else d

/-- A trim value is a range limit (R217): OFS ±127 or −128, GAIN +511 or −512, SKEW +31 or −32. -/
def atRangeLimit (k : Nat) (v : Int) : Bool :=
  if k = 0 then v == 127 || v == -127 || v == -128 else if k = 1 then v == 511 || v == -512 else v == 31 || v == -32

/-- Trims of units in use at a range limit that the calibration engine left there. -/
def limitTrims (d : Dev) (n : Lane) : List Nat :=
  ([0, 1] : List (Fin 2)).flatMap fun c => (d.core n c).pos.flatMap fun u =>
    ([0, 1, 2].filter fun k => (d.lane n).rx.byEngine.contains (3 * unitIndex c u + k) &&
      atRangeLimit k (d.sfld (trimField (R.LANE_ADC_TRIM n c u) k))).map (3 * unitIndex c u + ·)

/-- The trims at a limit through a whole received quire are charged (R217). -/
def trimLimits (n : Lane) (d : Dev) : Dev :=
  let now := d.limitTrims n
  let hit := now.filter fun t => (d.lane n).rx.atLimit.contains t
  (d.each hit fun t d => d.sarEvent n (Fin.ofNat 2 (t / 195)) (t / 3 % 65)).modRx n fun r => { r with atLimit := now }

/-- Rotation counts a quire (R215). DESIGN CHOICE (log 40): the count runs on while `ROT_Q` is 0, so a step can be due at once
when `ROT_Q` becomes non-zero. -/
def rotationQuire (n : Lane) (d : Dev) : Dev := d.modRx n fun r => { r with rotQ := r.rotQ + 1 }

/-! ### Capture (R223 to R234) -/

def modCap (f : CapSt → CapSt) (d : Dev) : Dev := { d with cap := f d.cap }

def capCfg (d : Dev) (lo w : Nat) : Nat := d.cap.cfg.toNat / 2 ^ lo % 2 ^ w
def capTrig (d : Dev) : Nat := d.capCfg 30 2
def capSrc (d : Dev) : Nat := d.capCfg 28 2
def capLane (d : Dev) : Lane := Fin.ofNat 8 (d.capCfg 24 3)
def capDec (d : Dev) : Nat := d.capCfg 20 4
/-- Bytes of the region. -/
def capSize (d : Dev) : Nat := (d.capCfg 10 10 + 1) * 4096
def capState (d : Dev) : Nat := d.fld F.CAL_CAP_STAT_STATE
def capOpen (d : Dev) : Bool := d.capState == 1 || d.capState == 2

/-- The capture stops with an error and CAL event 0x51 (R227, R231, R232). DESIGN CHOICE (log 45): a START that R227 refuses is such
a stop. -/
def capError (err : Nat) (d : Dev) : Dev :=
  let d := (d.setFld F.CAL_CAP_STAT_STATE 4).setFld F.CAL_CAP_STAT_ERR err
  d.raise Blk.cal 0x51 d.capLane

/-- Nothing more fits (R228, R229). -/
def capFull (d : Dev) : Bool :=
  if d.capTrig = 2 then d.cap.left == some 0
  else decide (d.capSize < d.fld F.CAL_CAP_STAT_WPTR + (if d.capDec = 0 then 4 else 144))

/-- The capture is complete, with CAL event 0x50 (R232). -/
def capDone (d : Dev) : Dev :=
  if d.capState = 2 ∧ d.capFull then (d.setFld F.CAL_CAP_STAT_STATE 3).raise Blk.cal 0x50 d.capLane else d

/-- `START` (R226, R227); a completion that it meets comes first. DESIGN CHOICE (log 45): every START, also one then refused,
clears what `CAP_STAT`, `CAP_TQ` and `CAP_TPOS` showed of the capture before it. -/
def capStart (d : Dev) : Dev :=
  let d := d.capDone
  if d.capOpen then d
  else
    let d := d.modCap fun _ => { CapSt.init with cfg := d.reg R.CAL_CAP_CFG, qnum := d.reg R.CAL_CAP_QNUM,
                                                 post := d.fld F.CAL_CAP_POST_POST }
    let d := ((d.setReg R.CAL_CAP_STAT 0).setReg R.CAL_CAP_TQ 0).setReg R.CAL_CAP_TPOS 0
    let len := d.capCfg 10 10
    if 1024 < d.capCfg 0 10 + len + 1 ∨ d.capTrig = 3 ∨ d.capSrc = 3 ∨ (d.capTrig = 2 ∧ len < d.cap.post) then d.capError 1
    else if !d.inRun d.capLane ∨ (d.capSrc = 2 ∧ !d.carried d.capLane) then d.capError 2
    else d.setFld F.CAL_CAP_STAT_STATE 1

/-- `ABORT` (R231). -/
def capAbort (d : Dev) : Dev := if d.capOpen then d.capError 4 else d

/-- The captured lane leaves RUN, or loses its slice while SRC is 2 (R231). -/
def capLaneStop (n : Lane) (d : Dev) : Dev := if d.capOpen ∧ d.capLane = n then d.capError 3 else d

/-- A boundary of the captured lane (R228): the trigger boundary of an armed capture, a received one on a native lane, which
waits for marker lock; or, on a compatibility lane, the internal tick after it, at which recording begins. -/
def capBoundary (n : Lane) (d : Dev) : Dev :=
  if d.native && !d.ownBoundary n then d
  else if d.capState = 2 ∧ d.capLane = n ∧ !d.native then d.modCap fun c => { c with started := true }
  else if d.capState = 1 ∧ d.capLane = n ∧ !d.cap.due ∧ (d.capTrig ≠ 1 ∨ (if d.ownBoundary n then d.cap.qnumSeen else d.cap.qnumPast)) then
    d.modCap fun c => { c with due := true, dueQ := d.clk.qnum.setWidth 32 }
  else d

/-- An internal boundary at which the device quire number takes the values given (R228, R411). -/
def capQuire (qs : List Nat) (d : Dev) : Dev :=
  if d.capState = 1 ∧ d.capTrig = 1 ∧ qs.any (fun q => BitVec.ofNat 32 q == d.cap.qnum) then
    d.modCap fun c => { c with qnumSeen := true }
  else d

/-- The internal boundary ends: a boundary at which the quire number fell lies behind those that follow it. -/
def capPast (d : Dev) : Dev := d.modCap fun c => { c with qnumPast := c.qnumSeen }

/-- Recording begins (R228, R230). DESIGN CHOICE (log 45): in a ring capture `CAP_TQ` shows the trigger boundary's quire number till
the loss of lock. -/
def capTrigger (d : Dev) : Dev :=
  if d.capState ≠ 1 ∨ !d.cap.due then d
  else ((d.setFld F.CAL_CAP_STAT_STATE 2).setReg R.CAL_CAP_TQ d.cap.dueQ)

/-- The lane's lock is lost: a ring capture that has begun records POST pages more (R228, R230). -/
def capLockLost (n : Lane) (d : Dev) : Dev :=
  if d.capState = 2 ∧ d.capLane = n ∧ d.capTrig = 2 ∧ d.cap.left.isNone then
    let d := (d.setReg R.CAL_CAP_TQ (d.clk.qnum.setWidth 32)).setFld F.CAL_CAP_TPOS_TPOS (d.fld F.CAL_CAP_STAT_WPTR)
    (d.setOn F.CAL_CAP_STAT_WRAPPED d.cap.wrapped).modCap fun c => { c with left := some (c.post * 4096) }
  else d

/-- One word of four symbols is written (R224), with a request pulse for every 128 bytes (R233). DESIGN CHOICE (log 45): a decimated
ring capture splits a 144-byte block at the wrap, and stops within one once POST pages are full. -/
def capWord (w : Word) (d : Dev) : Dev :=
  if d.capFull ∧ ¬(d.capTrig ≠ 2 ∧ d.capDec ≠ 0) then d
  else
    let p := d.fld F.CAL_CAP_STAT_WPTR
    let d := d.storeWord (0x200000 + 4096 * d.capCfg 0 10 + p) w
    let next := p + 4
    let wrap := decide (d.capTrig = 2 ∧ d.capSize ≤ next)
    let d := d.setFld F.CAL_CAP_STAT_WPTR (if wrap then 0 else next)
    let full := d.cap.pulse + 4 == 128
    let d := d.modCap fun c => { c with wrapped := c.wrapped || wrap, pulse := if full then 0 else c.pulse + 4,
                                        left := c.left.map fun x => x - 4 }
    if full then d.pulse 1 else d

/-- The bytes of one leaf slot of the captured lane are recorded (R223, R225, R229). -/
def capSlot (n : Lane) (slot : Nat) (bytes : List Byte) (d : Dev) : Dev :=
  if d.capState ≠ 2 ∨ d.capLane ≠ n then d
  else if !d.cap.started && (!d.ownBoundary n || slot != 0) then d
  else
    let k := d.cap.slots
    let d := d.modCap fun c => { c with started := true, slots := c.slots + 1 }
    if k % 2 ^ d.capDec ≠ 0 ∨ d.capFull then d
    else d.each (List.range 36) fun w d => d.capWord (bytesWord ((bytes.drop (4 * w)).take 4))

end Dev

end Sys2Proof.Machine
end

