-- ==== Sys2Proof/Machine/Equaliser.lean ====
section
/-! DEFINITION. One leaf slot through the receive slice (chapter 7): samples, FFE, decisions, MLSE, timing recovery, level
and window sums, gradients, and the update of the adaptive state. -/

namespace Sys2Proof.Machine

/-- Decisions of R242 over a slot, from ŷ before it. -/
def decideAll (a : Adapt) : Nat → List Int → List Nat
  | _, [] => []
  | y, u :: us => let z := decide242 a u y; z :: decideAll a z us

/-- The MLSE over a slot (R243 to R245): per symbol the decided y, label and reliabilities, and the path metrics after. -/
def mlseAll (a : Adapt) (pre : Bool) (rscale : Nat) :
    List Int → List Int → List (Adapt × Int) → List (Nat × Nat × Nat × Nat) × List Int
  | f, [], _ => ([], f)
  | f, u :: us, ahead =>
    let r := mlseSymbol a pre rscale f u ((us.map (a, ·) ++ ahead).take 32)
    let t := mlseAll a pre rscale (pathStep a f u) us ahead
    (r :: t.1, t.2)

/-- Known decisions of a pilot slot (R255) from its symbols, with ŷ before it. -/
def pilotDecisions (pre : Bool) : Nat → List Nat → List Nat
  | _, [] => []
  | y, x :: xs => let z := if pre then (x + 4 - y % 4) % 4 else x; z :: pilotDecisions pre z xs

/-- The label of each decision under a precoding setting (R88). -/
def labels (pre : Bool) : Nat → List Nat → List Nat
  | _, [] => []
  | y, z :: zs => (if pre then (z + y) % 4 else z) :: labels pre z zs

def bitsOfSymbols (xs : List Nat) : List Bool := xs.flatMap fun x => [(symbolBits x).1, (symbolBits x).2]

/-- Errors of R255 in 2^−32 LSB: in BLIND the reduced constellation, else the model with the given decisions. -/
def slotErrors (a : Adapt) (blind : Bool) (us : List Int) (y0 : Nat) (ys : List Nat) : List Int :=
  (us.zip (ys.zip (y0 :: ys))).map fun p =>
    if blind then (if 0 ≤ p.1 then 32 else -32) * 2 ^ 32 - p.1 * 2 ^ 31
    else modelError a p.1 p.2.1 p.2.2

/-- Σ e[m]·c[m + MAIN − k] over a slot whose samples begin at index 47 of `seq` (R256), in 2^−34 LSB². -/
def tapGradient (es seq : List Int) (main k : Nat) : Int :=
  (((List.range es.length).zip es).map fun p => p.2 * seq.getD (47 + p.1 + main - k) 0).sum

namespace Dev

def hasSignal (d : Dev) (n : Lane) : Bool := decide (2 ≤ d.acq n)

/-- Adaptation of FFE, h1 and λ holds (R260). -/
def adaptHeld (d : Dev) (n : Lane) : Bool := d.on (F.LANE_EQ_CTRL_FREEZE n) || !d.hasSignal n

/-- `FROZEN` shows whether FFE adaptation is held (R260). -/
def showFrozen (n : Lane) (d : Dev) : Dev :=
  d.setOn (F.LANE_EQ_STAT_FROZEN n) (d.adaptHeld n || (d.lane n).fr.prof == 0)

/-- MU of tap k (R259). -/
def stepExponent (d : Dev) (n : Lane) (k : Nat) : Nat :=
  let r := (d.lane n).rx
  let fresh := r.newTaps.any fun p => !tapActive p.1 r.main k
  let mu := if d.inData n && !fresh then d.lv (F.LANE_EQ_CFG_MU_TRK n) else d.lv (F.LANE_EQ_CFG_MU_ACQ n)
  if d.on F.THM_STAT_ENF then min 15 (mu + 2) else mu

/-- Gradient sums cleared: an interval begins. -/
def clearGradients (n : Lane) (d : Dev) : Dev :=
  d.modDsp n fun x => { x with gTap := List.replicate 48 0, gh := 0, g1 := 0, g2 := 0 }

/-- The end of an update interval (R257, R260): taps, h1 and λ, each held to its range; h1 and λ hold their start values
before DD (R247). The inner levels stay apart. DESIGN CHOICE (log 51): "round" takes halves away from zero. -/
def updateAdapt (n : Lane) (d : Dev) : Dev :=
  if d.adaptHeld n then d.clearGradients n
  else
    let g := (d.lane n).dsp
    let r := (d.lane n).rx
    let prof := (d.lane n).fr.prof
    let hmax : Int := d.lv (F.LANE_MLSE_CFG_HMAX n) * 512
    let muH := d.lv (F.LANE_MLSE_CFG_MU_H n)
    let muL := d.lv (F.LANE_MLSE_CFG_MU_L n)
    let tap (a : Adapt) (k : Nat) : Int :=
      let t := a.taps.getD k 0
      if prof = 0 ∨ !tapActive prof r.main k then t
      else clampI (-512 * 16384) (512 * 16384 - 1) (t + roundShift (g.gTap.getD k 0) (34 + d.stepExponent n k))
    let l1 (a : Adapt) : Int := clampI (-47 * 65536) (47 * 65536) (a.l1 + roundShift g.g1 (32 + muL))
    let l2 (a : Adapt) : Int := clampI (-47 * 65536) (47 * 65536) (a.l2 + roundShift g.g2 (32 + muL))
    let d := if d.acq n < 5 then d.modAd n fun a => { a with taps := (List.range 48).map (tap a) } else d.modAd n fun a =>
      { a with taps := (List.range 48).map (tap a), h1 := clampI (-hmax) hmax (a.h1 + roundShift g.gh (48 + muH)),
               l1 := if l1 a < l2 a then l1 a else a.l1, l2 := if l1 a < l2 a then l2 a else a.l2 }
    (d.clearGradients n).laneEvent n 5 1

/-! ### Timing (R203 to R206, R247 to R249) -/

def phaseCode (d : Dev) (n : Lane) : Nat := d.fld (F.LANE_RX_PHSTAT_PHASE n)

/-- The phase code moves by r steps. -/
def movePhase (n : Lane) (r : Int) (d : Dev) : Dev :=
  (d.setFld (F.LANE_RX_PHSTAT_PHASE n) (toField 6 (d.phaseCode n + r))).modMs n fun m =>
    { m with steps := m.steps + r, winSteps := m.winSteps + r }

/-- Timing recovery's slice clock (R248, R249): the request it forms, and the integrator after it. -/
def timingLoop (n : Lane) (e : Int) (d : Dev) : Int × Dev :=
  if d.on (F.LANE_RX_PHCFG_FREEZE n) || !d.hasSignal n then (0, d)
  else
    let kp := d.lv (F.LANE_TR_CFG_KP n)
    let ki := d.lv (F.LANE_TR_CFG_KI n)
    let top : Int := 4 * 2 ^ ki * 2 ^ 17
    let i := clampI (-top) top ((d.lane n).ad.integ + e)
    let r := timingRequest kp ki e i
    let d := d.modAd n fun a => { a with integ := i }
    (r, if r = 0 then d else d.laneEvent n 6 1)

/-- One slice clock of the interpolator (R203 to R206, R248). While `FREEZE` is 1 it moves only toward a phase that a press
set. DESIGN CHOICE (log 39): in a clock in which it slews toward a set or preset phase, that move stands in place of the step
timing recovery requests, whose loop runs on; a slew still unfinished when `FREEZE` is written 0 goes on to its end, and one toward a
preset phase waits while `FREEZE` is 1. DESIGN CHOICE (log 45): a start's load replaces a move toward a set phase that `FREEZE` holds. -/
def timingClock (n : Lane) (e : Int) (d : Dev) : Dev :=
  let (r, d) := d.timingLoop n e
  match (d.lane n).rx.slew with
  | some (t, set) =>
    if d.on (F.LANE_RX_PHCFG_FREEZE n) && !set then d
    else
      let p := d.phaseCode n
      let q := slewStep p t
      (d.movePhase n (signed 6 (toField 6 ((q : Int) - p)))).modRx n fun x =>
        { x with slew := if q = t then none else some (t, set) }
  | none => d.movePhase n r

/-! ### Measurement sums -/

/-- Add x at index i of a list. -/
def addAt (l : List Nat) (i x : Nat) : List Nat := l.modify i (· + x)

/-- Level and clip sums of a slot at its gain step (R221, R222, R250, R251): `ss` in 1/16 LSB². The windows that have
ended wait for their judgement. -/
def measure (n : Lane) (ss clips : Nat) (e2 : Nat) (win : Nat) (d : Dev) : Dev :=
  let g := d.gain n
  (d.bump48By (R.LANE_ADC_CLIP_LO n) clips).modMs n fun m =>
    let open_ := decide (m.winSlots < win)
    { m with lvl := ((ss, g) :: m.lvl).take 16448, blkSS := addAt m.blkSS g ss, blkSlots := m.blkSlots + 1,
             agcSS := if m.agcEnd then m.agcSS else m.agcSS + ss, agcN := if m.agcEnd then m.agcN else m.agcN + 1,
             agcClip := if m.agcEnd then m.agcClip else m.agcClip + clips,
             winSS := if open_ then m.winSS + ss else m.winSS, winN := if open_ then m.winN + 144 else m.winN,
             winClip := if open_ then m.winClip + clips else m.winClip, winE2 := if open_ then m.winE2 + e2 else m.winE2,
             winSlots := if open_ then m.winSlots + 1 else m.winSlots }

/-- A block of 257 slots ends: its level counts toward signal detect and loss (R266, R267). -/
def blockEnd (n : Lane) (d : Dev) : Dev :=
  let m := (d.lane n).ms
  if m.blkSlots < 257 then d
  else
    let l := levelOf m.blkSS (257 * 144)
    let sd := d.slv (F.LANE_ACQ_CFG_SD_LVL n)
    d.modMs n fun m => { m with blkSS := List.replicate 16 0, blkSlots := 0, above := if sd ≤ l then m.above + 1 else 0,
                                below := if l < sd - 24 then m.below + 1 else 0 }

/-- Length of an acquisition window in slots: a block on the relock hit path's DD (R294). -/
def windowLen (d : Dev) (n : Lane) : Nat := if (d.lane n).rx.hit && d.acq n == 5 then 257 else 1028

/-- The flyleaf's copy of a shadowed lane's state, made from the same samples, is the same (R345, R346). -/
def mirror (n : Lane) (d : Dev) : Dev :=
  if 1 ≤ d.phase ∧ d.phase ≤ 3 ∧ d.target = n ∧ d.spr.copied then
    let l := d.lane n
    d.modSpr fun p => { p with ad := l.ad, fr := l.fr, dsp := l.dsp }
  else d

/-! ### RX level (R222) -/

/-- The level of leaf slots given with their gain steps, as R222 forms it. -/
def levelSlots (l : List (Nat × Nat)) : Int :=
  levelOf (l.foldl (fun acc p => addAt acc p.2 p.1) (List.replicate 16 0)) (144 * l.length)

/-- The level of the quire that ended, its last `k` slots, is written; it is valid when all of them were sampled. -/
def levelQuire (n : Lane) (k : Nat) (d : Dev) : Dev :=
  let l := (d.lane n).ms.lvl.take k
  let d := (d.setFld (F.LANE_RX_LVL_LVL n) (toField 12 (levelSlots l))).setOn (F.LANE_RX_LVL_VALID n) (l.length == k)
  d.modMs n fun m => { m with whole := true }

/-- A lane that samples no slot: no level is valid, and the slots sampled before make part of none that follows (R222). -/
def levelNone (n : Lane) (d : Dev) : Dev :=
  ((d.setFld (F.LANE_RX_LVL_LVL n) (toField 12 (levelSlots []))).setOn (F.LANE_RX_LVL_VALID n) false).modMs n fun m =>
    { m with lvl := [] }

/-- The net phase steps of the quire that ended (R204). DESIGN CHOICE (log 39): at the first boundary after a lock or its loss
they are those since the lane's last boundary of either kind. -/
def foffQuire (n : Lane) (d : Dev) : Dev :=
  (d.setFld (F.LANE_RX_PHSTAT_FOFF n) (toField 20 (d.lane n).ms.steps)).modMs n fun m => { m with steps := 0 }

end Dev

end Sys2Proof.Machine
end

