-- ==== Sys2Proof/Machine/Acquire.lean ====
section
/-! DEFINITION. Acquisition, AGC, presets (chapter 7) and the relock machine of switched-path mode (chapter 8). -/

namespace Sys2Proof.Machine

namespace Dev

/-! ### States (R266, R269) -/

/-- The windows of an acquisition state start afresh. -/
def clearWindow (n : Lane) (d : Dev) : Dev :=
  d.modMs n fun m => { m with winSS := 0, winN := 0, winClip := 0, winSteps := 0, winE2 := 0, winSlots := 0 }

/-- MLSE stops, and the decoding mode falls to hard (R265). -/
def mlseOff (n : Lane) (d : Dev) : Dev :=
  (d.setOn (F.LANE_EQ_STAT_MLSE_ON n) false).modRx n fun r => { r with mlseWhole := false }

/-- The lane leaves DATA: `DATA_VALID` clears, a save is abandoned (R269, R274), and a shadow of it ends (R359). -/
def leaveData (n : Lane) (d : Dev) : Dev :=
  ((d.setOn (F.LANE_EQ_STAT_DATA_VALID n) false).setOn (F.LANE_EQ_STAT_SAVE_BUSY n) false).endShadowOf n 4

/-- The lane enters DATA (R269, R323). -/
def enterData (n : Lane) (d : Dev) : Dev :=
  ((((d.setOn (F.LANE_EQ_STAT_DATA_VALID n) true).raise Blk.lane 0x61 n).bump (R.LANE_ACQ_DONE n)).setReg
    (R.LANE_ACQ_LAST n) (BitVec.ofNat 32 (min (2 ^ 32 - 1) (d.lane n).rx.tSig))).calAcquired n false

/-- The lane enters acquisition state `st`. -/
def setAcq (n : Lane) (st : Nat) (d : Dev) : Dev :=
  let was := d.acq n
  let d := (d.setFld (F.LANE_EQ_STAT_ACQ n) st).setOn (F.LANE_EQ_STAT_SIG n) (decide (2 ≤ st))
  let d := { d with pwr := { d.pwr with dozeQ := d.pwr.dozeQ.set n 0 } }
  let d := d.modRx n fun r => { r with tState := 0, inBand := 0, satRun := 0, timRun := 0, timLast := none, hit := false,
                                       opp := [], oppNone := 0, cand := [],
                                       fgDue := r.fgDue && decide (3 ≤ st) }
  let d := if st < 7 then d.mlseOff n else d
  let d := if st ≤ 3 then d.setOn (F.LANE_EQ_STAT_TIM_LOCK n) false else d.setOn (F.LANE_EQ_STAT_TIM_LOCK n) true
  let d := if was = 10 ∧ st ≠ 10 then d.leaveData n else if was ≠ 10 ∧ st = 10 then d.enterData n else d
  (d.clearWindow n).showFrozen n

/-! ### Loss of lock (R113, R738) -/

/-- Streams, host signals and the mesh link follow a lane's lock and qualification (R55, R60, R302). -/
def lockShown (n : Lane) (d : Dev) : Dev := ((d.updateStreams).hostSignals).linkUpdate n

/-- A gain step that waited for a pilot slot is applied at once without lock (R200). -/
def gainDue (n : Lane) (d : Dev) : Dev :=
  match (d.lane n).rx.gainNext with
  | some g =>
    ((d.agcApply n g).modRx n fun r => { r with gainNext := none }).setOn (F.LANE_RX_AFE_STAT_STEP_PEND n)
      (d.lane n).rx.setNext
  | none => d

/-- What the end of a lane's lock brings: leaves in flight are discarded under `reason`, a waiting gain step is applied,
calibration inputs change, a ring capture triggers, streams, host signals and the mesh link follow. -/
def lockGone (n : Lane) (reason : Nat) (d : Dev) : Dev :=
  ((((d.dropFlight n reason).gainDue n).calRxChange n).capLockLost n).lockShown n

/-- Marker lock ends while the lane stays in RUN: counted, with LANE event 0x11 (R113). -/
def dropLock (n : Lane) (reason : Nat) (d : Dev) : Dev :=
  if !d.on (F.LANE_FMT_STAT_MK_LOCK n) then d
  else (((d.setOn (F.LANE_FMT_STAT_MK_LOCK n) false).bump (R.LANE_LOCK_LOSS n)).raise Blk.lane 0x11 n).lockGone n reason

/-- The relock state. -/
def setBrl (n : Lane) (st : Nat) (d : Dev) : Dev := d.setFld (F.BRL_STAT_STATE n) st

/-- Lock lost without dark or collision (R284, R300): the lane re-enters ACQUIRE, the source held if it was qualified. -/
def relockLost (n : Lane) (d : Dev) : Dev :=
  if !d.spLive n then d
  else if d.brlState n = 6 then
    ((d.setOn (F.BRL_CUR_HELD n) true).setOn (F.BRL_CUR_QUAL n) false).setBrl n 4 |>.endShadowOf n 4
  else if d.brlState n = 5 then d.setBrl n 4 else d

/-! ### Starts (R199, R271, R272) -/

/-- Taps outside the active window are held at 0 (R239). -/
def activeTaps (d : Dev) (n : Lane) (taps : List Int) : List Int :=
  (List.range 48).map fun k => if tapActive (d.lane n).fr.prof (d.lane n).rx.main k then taps.getD k 0 else 0

/-- Taps, h1 and λ of the cold defaults (R271). -/
def loadColdTaps (n : Lane) (d : Dev) : Dev :=
  let taps := d.activeTaps n Adapt.init.taps
  (d.modAd n fun a => { a with taps := taps, h1 := 0, l1 := Adapt.init.l1, l2 := Adapt.init.l2 }).clearGradients n

/-- A cold start's load, timing integrator and phase included. -/
def loadCold (n : Lane) (d : Dev) : Dev :=
  ((d.loadColdTaps n).modAd n fun a => { a with integ := 0 }).modRx n fun r => { r with slew := some (0, false) }

/-- A warm start's load from the preset registers. -/
def loadWarm (n : Lane) (d : Dev) : Dev :=
  let taps := d.activeTaps n ((List.range 48).map fun k => d.sfld (F.LANE_EQ_PRE_TAP n k) * 16384)
  let integ := d.sfld (F.LANE_EQ_PRE_TR_FINT n) * 2 ^ (d.lv (F.LANE_TR_CFG_KI n) + 5)
  let d := d.modAd n fun a =>
    { a with taps := taps, h1 := d.sfld (F.LANE_EQ_PRE_MLSE_H1 n) * 512, l1 := d.sfld (F.LANE_EQ_PRE_MLSE_L1 n) * 65536,
             l2 := d.sfld (F.LANE_EQ_PRE_MLSE_L2 n) * 65536, integ := integ }
  (d.clearGradients n).modRx n fun r => { r with slew := some (d.fld (F.LANE_EQ_PRE_TR_PHASE n), false) }

/-- The AGC's window starts afresh. -/
def dropWindow (n : Lane) (d : Dev) : Dev :=
  d.modMs n fun m => { m with agcSS := 0, agcN := 0, agcClip := 0, agcMoved := false, agcEnd := false }

/-- The end of the AGC state, or the exit from SIG_DET in its place: without history a foreground run starts at the next internal
boundary (R251, R334). -/
def agcStateEnd (n : Lane) (d : Dev) : Dev :=
  let d := (d.modRx n fun r => { r with tAgc := 0, fgDue := !d.on (F.CAL_CTRL_HIST_RX n) }).dropWindow n
  (d.modMs n fun m => { m with whole := false }).modAd n fun a => { a with agcUp := 0, agcDn := 0 }

/-- AGC, or TIMING with AGC off, from `GAIN_SET` (R199, R266, R268). -/
def enterAgc (n : Lane) (d : Dev) : Dev :=
  let d := (d.setGain n (d.lv (F.LANE_RX_AFE_GAIN_SET n))).modRx n fun r => { r with gainNext := none }
  if d.lvOn (F.LANE_RX_AFE_AGC_EN n) then d.setAcq n 2 else (d.agcStateEnd n).setAcq n 3

/-- The start's load (R271). -/
def startLoad (n : Lane) (d : Dev) : Dev :=
  let warm := d.on (F.LANE_EQ_CTRL_PRE_VALID n)
  let d := d.setOn (F.LANE_EQ_STAT_WARM n) warm
  if warm then d.loadWarm n else d.loadCold n

/-- An exit from SIG_DET starts an acquisition: it is counted (R269), MAIN is taken for it (R238, R276), and its times begin
(R266). -/
def acqStarted (n : Lane) (d : Dev) : Dev :=
  ((d.bump (R.LANE_ACQ_START n)).raise Blk.lane 0x60 n).modRx n fun r =>
    { r with main := min 47 (d.lv (F.LANE_EQ_CFG_MAIN n)), tSig := 0, tAgc := 0 }

/-- Signal detect completes (R266). -/
def signalDetect (n : Lane) (d : Dev) : Dev :=
  if d.acq n ≠ 1 ∨ d.spLive n ∨ (d.lane n).ms.above < 16 then d
  else ((d.acqStarted n).startLoad n).enterAgc n

/-- The lane goes to SIG_DET: lock is dropped at once (R267, R276, R738). -/
def toSigDet (n : Lane) (d : Dev) : Dev :=
  let d := (d.dropLock n rNOLOCK).relockLost n
  let d := (d.when (d.spLive n) (setBrl n 1)).lockShown n
  (d.setAcq n 1).modMs n fun m => { m with above := 0, below := 0, blkSS := List.replicate 16 0, blkSlots := 0 }

/-- Signal loss (R267). -/
def signalLoss (n : Lane) (d : Dev) : Dev :=
  if d.acq n < 2 ∨ d.spLive n ∨ (d.lane n).ms.below < 16 then d
  else (((d.bump (R.LANE_SIG_LOSS n)).raise Blk.lane 0x63 n).calRxChange n).toSigDet n

/-- A cause of R359 that arises for a lane in SWITCH waits for Rs (R361); of the relock causes the first one. -/
def afterSwap (x : AfterSwap) (d : Dev) : Dev :=
  d.modSpr fun p =>
    if p.deferred.any fun y => (y == .reacq) == (x == .reacq) then p else { p with deferred := p.deferred ++ [x] }

/-- `REACQ`: as if the signal had been lost, without its event and count (R276, R329, R359); in SWITCH after Rs (R361). -/
def reacquire (n : Lane) (d : Dev) : Dev :=
  if !d.inRun n ∨ d.acq n = 0 then d
  else if d.swapping n then d.afterSwap .reacq
  else ((d.endShadowOf n 4).calRxChange n).toSigDet n

/-! ### AGC (R250 to R253) -/

/-- Clip count above 2^e·2^−4. -/
def clipped16 (clips x : Nat) : Bool := decide (2 ^ x < 16 * clips)

/-- A window's rms lies below LO; above HI. -/
def agcBelow (d : Dev) (n : Lane) (ss samples : Nat) : Bool := rmsBelow ss samples (d.lv (F.LANE_AGC_CFG_LO n))
def agcAbove (d : Dev) (n : Lane) (ss samples : Nat) : Bool := rmsAbove ss samples (d.lv (F.LANE_AGC_CFG_HI n))

/-- The window lies within the band (R253, R266). -/
def agcBand (d : Dev) (n : Lane) (ss samples : Nat) : Bool := !d.agcBelow n ss samples && !d.agcAbove n ss samples

/-- Direction asked for: up, down, or neither; a window that asks for both asks for none. DESIGN CHOICE (log 39). -/
def agcAsk (up down : Bool) : Int := up.toNat - down.toNat

/-- A step due at gain 0 or 15 (R253). -/
def agcStuck (d : Dev) (n : Lane) (ask : Int) : Bool := (ask == 1 && d.gain n == 15) || (ask == -1 && d.gain n == 0)

/-- A window of the AGC state (R250, R253, R266); the gain stays at GAIN_SET while `AGC_EN` is 0 (R199). -/
def agcStateWindow (n : Lane) (d : Dev) : Dev :=
  let m := (d.lane n).ms
  let d := d.laneEvent n 7 1
  let band := d.agcBand n m.winSS m.winN
  let ask := if !d.lvOn (F.LANE_RX_AFE_AGC_EN n) then 0 else agcAsk (d.agcBelow n m.winSS m.winN)
    (d.agcAbove n m.winSS m.winN || clipped16 m.winClip (d.lv (F.LANE_AGC_CFG_CLIPX n)))
  let d := d.when band (setOn (F.LANE_EQ_STAT_AGC_SAT n) false)
  let d := if ask = 0 then d else if d.agcStuck n ask then d.setOn (F.LANE_EQ_STAT_AGC_SAT n) true
    else d.agcApply n ((d.gain n : Int) + ask).toNat
  let sat := d.on (F.LANE_EQ_STAT_AGC_SAT n)
  let d := d.modRx n fun r => { r with inBand := if band then r.inBand + 1 else 0, satRun := if sat then r.satRun + 1 else 0 }
  let r := (d.lane n).rx
  if 2 ≤ r.inBand ∨ 4 ≤ r.satRun then (d.agcStateEnd n).setAcq n 3 else d

/-- A step of the AGC outside the AGC state: at the next pilot slot with marker lock, else at once (R200, R251). -/
def agcStep (n : Lane) (ask : Int) (d : Dev) : Dev :=
  let d := d.modAd n fun a => { a with agcUp := 0, agcDn := 0 }
  if ask = 0 then d
  else if d.agcStuck n ask then d.setOn (F.LANE_EQ_STAT_AGC_SAT n) true
  else
    let g := ((d.gain n : Int) + ask).toNat
    if d.ownBoundary n then
      (d.modRx n fun r => { r with gainNext := some g }).setOn (F.LANE_RX_AFE_STAT_STEP_PEND n) true
    else d.agcApply n g

/-- An AGC window outside the AGC state has ended (R251, R253). -/
def agcWindow (n : Lane) (d : Dev) : Dev :=
  let m := (d.lane n).ms
  if !m.agcEnd ∨ d.acq n < 3 ∨ !d.lvOn (F.LANE_RX_AFE_AGC_EN n) then d
  else
    let below := d.agcBelow n m.agcSS (144 * m.agcN)
    let high := d.agcAbove n m.agcSS (144 * m.agcN) || decide (2 ^ d.lv (F.LANE_AGC_CFG_CLIPX n) < m.agcClip)
    let d := (d.laneEvent n 7 1).when (d.agcBand n m.agcSS (144 * m.agcN)) (setOn (F.LANE_EQ_STAT_AGC_SAT n) false)
    let d := d.dropWindow n
    if m.agcMoved then d
    else
      let d := d.modAd n fun a => { a with agcUp := if below then a.agcUp + 1 else 0, agcDn := if high then a.agcDn + 1 else 0 }
      let a := (d.lane n).ad
      let up := decide (max 1 (d.lv (F.LANE_AGC_CFG_UP_Q n)) ≤ a.agcUp)
      let down := decide (max 1 (d.lv (F.LANE_AGC_CFG_DN_Q n)) ≤ a.agcDn)
      if up || down then d.agcStep n (agcAsk up down) else d

/-- A window of the AGC is over and waits for its judgement; with `AGC_EN` at 0 none is judged (R199, R251). -/
def agcClose (n : Lane) (d : Dev) : Dev :=
  if d.lvOn (F.LANE_RX_AFE_AGC_EN n) then d.modMs n fun m => { m with agcEnd := true } else d.dropWindow n

/-- A quire that the AGC counts ends: the window is over, or a part quire is dropped (R251). -/
def agcQuire (n : Lane) (whole : Bool) (d : Dev) : Dev :=
  if whole then d.agcClose n else if (d.lane n).ms.agcEnd then d else d.dropWindow n

/-! ### Acquisition windows (R266) -/

/-- The mean of e² over the window lies below t LSB². -/
def mseBelow (m : Meas) (t : Nat) : Bool := decide (m.winE2 < t * (m.winSlots * 144) * 2 ^ 64)

/-- Mean e² in 1/16 LSB² (`LANE.EQ_MSEn`). -/
def mseField (m : Meas) : Nat := min 65535 (m.winE2 * 16 / (max 1 (m.winSlots * 144) * 2 ^ 64))

/-- The windows of TIMING (R266). -/
def timingWindow (n : Lane) (steps : Int) (d : Dev) : Dev :=
  let r := (d.lane n).rx
  let run := match r.timLast with
    | some p => if (steps - p).natAbs ≤ 32 then r.timRun + 1 else 0
    | none => 0
  if 4 ≤ run then d.setAcq n (if d.on (F.LANE_EQ_STAT_WARM n) then 5 else 4)
  else d.modRx n fun r => { r with timRun := run, timLast := some steps }

/-- MARKER ends at lock (R266). -/
def markerExit (n : Lane) (d : Dev) : Dev :=
  if d.acq n = 6 then d.setAcq n (if 2 ≤ (d.lane n).fr.prof then 7 else 8) else d

/-- A compatibility lane whose sublayer holds lock already passes MARKER at once (R278). -/
def sublayerExit (n : Lane) (d : Dev) : Dev := if !d.native && d.locked n then d.markerExit n else d

/-- An acquisition window ends (R250, R266, R294). -/
def acqWindow (n : Lane) (d : Dev) : Dev :=
  let m := (d.lane n).ms
  if !d.hasSignal n ∨ m.winSlots < d.windowLen n then d
  else
    let d := d.setFld (F.LANE_EQ_MSE_MSE n) (mseField m)
    let st := d.acq n
    let d := if st = 2 then d.agcStateWindow n
      else if st = 3 then d.timingWindow n m.winSteps
      else if st = 4 ∧ mseBelow m (d.lv (F.LANE_ACQ_CFG_MSE_DD n)) then d.setAcq n 5
      else if st = 5 ∧ mseBelow m (d.lv (F.LANE_ACQ_CFG_MSE_LK n)) then (d.setAcq n 6).sublayerExit n
      else d
    d.clearWindow n

/-! ### Timeouts (R268, R273, R277, R295) -/

/-- Slots of n quires of the lane: received ones on a native lane, internal ones of the compatibility clock (R278). -/
def quiresOf (d : Dev) (k : Nat) : Nat := if d.native then k * 16448 else compatClocks k

/-- The state's bound in slots, if it has one that R268 governs. -/
def acqBound (d : Dev) (n : Lane) : Option Nat :=
  let warm := d.on (F.LANE_EQ_STAT_WARM n)
  let st := d.acq n
  if st = 2 then some (32 * 1028)
  else if st = 3 then some (d.quiresOf (if !warm then 64 else if d.spLive n then 4 else 16))
  else if st = 4 then some (d.quiresOf 128)
  else if st = 5 then if warm ∨ (d.lane n).rx.hit then none else some (d.quiresOf 64)
  else if st = 6 ∨ st = 7 then some (d.quiresOf 2)
  else if st = 8 then some (d.quiresOf 1)
  else none

/-- A timeout is counted, reported and charged (R268, R277). -/
def countTimeout (n : Lane) (d : Dev) : Dev :=
  ((d.raise Blk.lane 0x62 n).bump (R.LANE_ACQ_TO n)).charge 3 n fun d =>
    (d.setOn (F.LANE_EQ_STAT_DEGRADED n) true).raise Blk.lane 0x65 n

/-- An acquisition state exceeds its bound (R268). -/
def acqTimeout (n : Lane) (d : Dev) : Dev :=
  let r := (d.lane n).rx
  if d.acq n = 9 then
    if d.quiresOf 4768 < r.tAgc then (d.countTimeout n).setAcq n 10 else d
  else match d.acqBound n with
    | some b =>
      if b < r.tState then
        let d := d.countTimeout n
        let d := ((d.dropLock n rNOLOCK).relockLost n).lockShown n
        ((d.loadCold n).setOn (F.LANE_EQ_STAT_WARM n) false).enterAgc n
      else d
    | none => d

/-- A warm DD exceeds its bound (R273, R295): cold defaults, BLIND, timing kept. -/
def warmFallback (n : Lane) (d : Dev) : Dev :=
  let r := (d.lane n).rx
  if d.acq n = 5 ∧ d.on (F.LANE_EQ_STAT_WARM n) ∧ !r.hit ∧ d.quiresOf (if d.spLive n then 12 else 32) < r.tState then
    (((d.loadColdTaps n).setOn (F.LANE_EQ_STAT_WARM n) false).raise Blk.lane 0x66 n).setAcq n 4
  else d

/-! ### SAVE (R274) -/

def saveRequest (n : Lane) (d : Dev) : Dev := if d.inData n then d.setOn (F.LANE_EQ_STAT_SAVE_BUSY n) true else d

/-- The integrator as FINT, in 1/4096 step. -/
def fint (d : Dev) (n : Lane) : Int :=
  clampI (-32768) 32767 (roundAway (d.lane n).ad.integ (2 ^ (d.lv (F.LANE_TR_CFG_KI n) + 5)))

/-- A signed value of a 2^−k scale as an 8-bit field. -/
def byteField (x : Int) (k : Nat) : Nat := toField 8 (clampI (-128) 127 (roundAway x (2 ^ k)))

/-- The pending copy at the lane's boundary. DESIGN CHOICE (log 44): FINT, H1, L1 and L2 take the nearest value of their scale, halves
away from zero, held to the field's range. -/
def savePreset (n : Lane) (d : Dev) : Dev :=
  if !d.on (F.LANE_EQ_STAT_SAVE_BUSY n) then d
  else
    let a := (d.lane n).ad
    let d := d.each (List.range 48) fun k d => d.setFld (F.LANE_EQ_PRE_TAP n k) (toField 10 (tapOf (a.taps.getD k 0)))
    let d := ((d.setFld (F.LANE_EQ_PRE_MLSE_H1 n) (byteField a.h1 9)).setFld (F.LANE_EQ_PRE_MLSE_L1 n) (byteField a.l1 16)).setFld
      (F.LANE_EQ_PRE_MLSE_L2 n) (byteField a.l2 16)
    let d := ((d.setFld (F.LANE_EQ_PRE_TR_FINT n) (toField 16 (d.fint n))).setFld (F.LANE_EQ_PRE_TR_GAIN n) (d.gain n)).setFld
      (F.LANE_EQ_PRE_TR_PHASE n) (d.phaseCode n)
    (d.setOn (F.LANE_EQ_STAT_SAVE_BUSY n) false).raise Blk.lane 0x67 n

/-! ### Profile and decoding mode (R133, R134, R262, R263, R265) -/

/-- A change of the profile in force: the tap window, MLSE and their state (R262, R263). -/
def changeProfile (n : Lane) (d : Dev) : Dev :=
  let new := d.profileOf n
  let old := (d.lane n).fr.prof
  let d := d.setFld (F.LANE_EQ_STAT_PROFILE n) new
  if new = old then d
  else
    let d := d.modFr n fun f => { f with prof := new }
    let d := if old < new then d.modRx n fun r => { r with newTaps := (old, 16) :: r.newTaps } else d
    let taps := d.activeTaps n (d.lane n).ad.taps
    let d := d.modAd n fun a => { a with taps := taps }
    let d := if new < 2 then d.mlseOff n
      else if 8 ≤ d.acq n ∧ !d.on (F.LANE_EQ_STAT_MLSE_ON n) then
        (d.setOn (F.LANE_EQ_STAT_MLSE_ON n) true).modDsp n fun x => { x with paths := [0, 0, 0, 0] }
      else d
    d.showFrozen n

/-- The profile's decoding mode. -/
def profileMode (p : Nat) : Nat := if p = 3 then 0 else if p = 2 then 1 else 2

/-- The decoding mode for the quire that begins (R133, R265). DESIGN CHOICE (log 44): on a native lane that does not receive,
`DEC_STAT.MODE` keeps its value. -/
def setMode (n : Lane) (d : Dev) : Dev :=
  let p := if 8 ≤ d.acq n then profileMode (d.lane n).fr.prof else 2
  let m := max p (d.lv (F.LANE_DEC_CFG_LIMIT n))
  (d.modFr n fun f => { f with mode := m }).setFld (F.LANE_DEC_STAT_MODE n) (if d.native then m else 0)

/-- MLSE and CHASE at the lane's boundary (R266); `whole` when MLSE was on for the whole quire that ended. Where the profile in
force has no MLSE, the MLSE state is left by its bound. -/
def chaseBoundary (n : Lane) (whole : Bool) (d : Dev) : Dev :=
  if d.acq n = 8 then
    d.setAcq n (if d.on (F.CAL_CTRL_HIST_RX n) then 10 else 9)
  else if d.acq n = 7 then
    if whole then d.setAcq n 8
    else if (d.lane n).fr.prof < 2 then d
    else ((d.setOn (F.LANE_EQ_STAT_MLSE_ON n) true).modDsp n fun x => { x with paths := [0, 0, 0, 0] }).modRx n fun r =>
      { r with mlseWhole := true }
  else d

/-- CAL_WAIT ends when the receive foreground run is accepted (R266). -/
def calWaitExit (n : Lane) (d : Dev) : Dev :=
  if d.acq n = 9 ∧ d.on (F.CAL_CTRL_HIST_RX n) then d.setAcq n 10 else d

/-! ### Relock (R281 to R311) -/

/-- Entry i of the ribbon table: 18 words, as the window shows them (R312). -/
def ribbonEntry (d : Dev) (n : Lane) (i : Nat) : Ribbon := (d.lane n).brl.table.getD i (List.replicate 18 0)

def ribbonValid (e : Ribbon) : Bool := (e.getD 0 0).getLsbD 31
def ribbonPin (e : Ribbon) : Bool := (e.getD 0 0).getLsbD 30
def ribbonSrc (e : Ribbon) : Nat := (e.getD 0 0).toNat % 65536

def setRibbon (n : Lane) (i : Nat) (e : Ribbon) (d : Dev) : Dev :=
  d.modBrl n fun b =>
    { b with table := (if b.table = [] then List.replicate 64 (List.replicate 18 0) else b.table).set i e }

/-- `BRL.NEXTn` written (R289, R290). -/
def nextWritten (n : Lane) (d : Dev) : Dev :=
  let d := d.modBrl n fun b => { b with judge := b.judge.map fun j => { j with next := true } }
  if d.on (F.BRL_NEXT_VALID n) then d.modBrl n fun b => { b with lookup := some (BitVec.ofNat 16 (d.fld (F.BRL_NEXT_SRC n))) }
  else (d.setOn (F.BRL_STAT_STAGED n) false).modBrl n fun b => { b with lookup := none }

/-- The lookup completes (R289). -/
def lookupDone (n : Lane) (d : Dev) : Dev :=
  match (d.lane n).brl.lookup with
  | none => d
  | some src =>
    let d := d.modBrl n fun b => { b with lookup := none }
    match (List.range 64).find? fun i => ribbonValid (d.ribbonEntry n i) && ribbonSrc (d.ribbonEntry n i) == src.toNat with
    | some i =>
      let e := d.ribbonEntry n i
      ((d.modBrl n fun b => { b with staged := e }).setOn (F.BRL_STAT_STAGED n) true).setFld (F.BRL_STAT_HIT_IDX n) i
    | none => d.setOn (F.BRL_STAT_STAGED n) false

/-- Level over the last k leaf slots, `front` among them: the 64 of a detection (R287, R305). -/
def slotLevel (d : Dev) (n : Lane) (front : List (Nat × Nat)) (k : Nat) : Int := levelSlots (((d.lane n).ms.lvl ++ front).take k)

/-- Level over a subwindow's 16 leaf slots (R284). `front` gives those that ended before the slice began to sample the lane,
latest first, as the lane front end measured them. -/
def windowLevel (d : Dev) (n : Lane) (front : List (Nat × Nat)) : Int :=
  d.slotLevel n front 16

def setLref (n : Lane) (l : Int) (d : Dev) : Dev := d.setFld (F.BRL_STAT_LREF n) (toField 12 l)

/-- The lane enters PRESET, light return lying 64 slots back (R286, R296); light is compared with the new L_ref (R303). DESIGN CHOICE
(log 51): `EQ_STAT.ACQ` reads 1 in PRESET too. -/
def enterPreset (n : Lane) (front : List (Nat × Nat)) (d : Dev) : Dev :=
  let d := ((d.setLref n (d.slotLevel n front 64)).setBrl n 3).modBrl n fun b => { b with since := 64, strong := 0, stronger := 0, loading := false }
  (d.setAcq n 1).acqStarted n

/-- Load a ribbon entry: gain at once, taps, h1, λ, and a slew to its phase (R292). DESIGN CHOICE (log 39): the entry's gain step is
applied also while `AGC_EN` is live at 0 (R199). -/
def loadRibbon (n : Lane) (e : Ribbon) (d : Dev) : Dev :=
  let h := (e.getD 0 0).toNat
  let m := (e.getD 1 0).toNat
  let tap (k : Nat) : Int := signed 10 ((e.getD (2 + k / 3) 0).toNat / 2 ^ (10 * (k % 3)) % 1024) * 16384
  let d := d.modRx n fun r => { r with slew := if d.phaseCode n = h / 2 ^ 20 % 64 then none else some (h / 2 ^ 20 % 64, false) }
  let taps := d.activeTaps n ((List.range 48).map tap)
  let d := d.setGain n (h / 2 ^ 26 % 16)
  (d.modAd n fun a => { a with taps := taps, h1 := signed 8 (m % 256) * 512, l1 := signed 8 (m / 2 ^ 16 % 256) * 65536,
                               l2 := signed 8 (m / 2 ^ 24) * 65536 }).clearGradients n

/-- The interpolator has reached the staged preset's phase: the lane leaves PRESET for DD (R292). -/
def presetDone (n : Lane) (d : Dev) : Dev :=
  if d.brlState n ≠ 3 ∨ !(d.lane n).brl.loading ∨ (d.lane n).rx.slew.isSome then d
  else
    let d := ((d.modBrl n fun b => { b with loading := false }).bump (R.BRL_HIT n)).setBrl n 4
    (d.setAcq n 5).modRx n fun r => { r with hit := true }

/-- The staged or the default preset is loaded (R291 to R293). -/
def presetLoad (n : Lane) (d : Dev) : Dev :=
  if !d.spLive n ∨ d.brlState n ≠ 3 ∨ (d.lane n).brl.lookup.isSome ∨ (d.lane n).brl.loading then d
  else if d.on (F.BRL_STAT_STAGED n) then
    ((d.loadRibbon n (d.lane n).brl.staged).modBrl n fun b => { b with loading := true }).presetDone n
  else (((d.bump (R.BRL_MISS n)).setBrl n 4).startLoad n).enterAgc n

/-- The hit path's DD exceeds its bound (R294). -/
def ribbonFallback (n : Lane) (d : Dev) : Dev :=
  if d.spLive n ∧ d.acq n = 5 ∧ (d.lane n).rx.hit ∧ 514 < (d.lane n).rx.tState then
    (((d.bump (R.BRL_FALLBACK n)).raise Blk.brl 0x76 n).startLoad n).enterAgc n
  else d

/-- Darkness (R285, R301, R307). -/
def darken (n : Lane) (d : Dev) : Dev :=
  let d := (d.endShadowOf n 3).dropLock n rNOLOCK
  let d := ((d.setOn (F.BRL_CUR_HELD n) false).setOn (F.BRL_CUR_QUAL n) false).setBrl n 1
  let d := ((d.bump (R.BRL_DARK n)).raise Blk.brl 0x75 n).setAcq n 1
  (d.calRxChange n).lockShown n

/-- Detection is complete (R287). -/
def detected (n : Lane) (front : List (Nat × Nat)) (d : Dev) : Dev := ((d.endShadowOf n 3).raise Blk.brl 0x70 n).enterPreset n front

/-- Restart on stronger light (R303, R304). -/
def brighten (n : Lane) (front : List (Nat × Nat)) (d : Dev) : Dev :=
  let d := (d.endShadowOf n 3).dropLock n rPREQUAL
  (((d.bump (R.BRL_RESTART n)).raise Blk.brl 0x73 n).setOn (F.BRL_CUR_HELD n) false).enterPreset n front

/-- A collision (R303, R305, R308). -/
def collide (n : Lane) (front : List (Nat × Nat)) (d : Dev) : Dev :=
  let d := (d.endShadowOf n 3).dropLock n rCOLLISION
  let d := (d.setOn (F.BRL_CUR_HELD n) false).setOn (F.BRL_CUR_QUAL n) false
  let d := ((d.bump (R.BRL_COLL n)).raise Blk.brl 0x74 n).enterPreset n front
  let d := d.lockShown n
  d.charge 4 n fun d => (d.setOn (F.BRL_STAT_COLL_DEG n) true).raise Blk.brl 0x79 n

/-- A cause that concerns the lane is applied; in SWITCH it waits for Rs (R361). `front` are the slots of its subwindow that the
slice did not sample. -/
def applyCause (n : Lane) (front : List (Nat × Nat)) (x : AfterSwap) (d : Dev) : Dev :=
  if d.swapping n then d.afterSwap x
  else match x with
    | .reacq => d.reacquire n
    | .dark => d.darken n
    | .restart => d.brighten n front
    | .collision => d.collide n front

def darkness (n : Lane) (d : Dev) : Dev := d.applyCause n [] .dark
def restart (n : Lane) (front : List (Nat × Nat)) (d : Dev) : Dev := d.applyCause n front .restart
def collision (n : Lane) (front : List (Nat × Nat)) (d : Dev) : Dev := d.applyCause n front .collision

/-- The causes that waited for the end of the lane's swap (R361). -/
def applyDeferred (n : Lane) (d : Dev) : Dev :=
  let xs := d.spr.deferred
  (d.modSpr fun p => { p with deferred := [] }).each xs (applyCause n [])

/-- Loss of marker lock under R113: the lane goes back to DD (R266, R737). A marker of another source that is the last one missed
is a collision all the same, which R284 puts before the loss (R303); in SWITCH it waits for Rs (R361). -/
def lockLost (n : Lane) (d : Dev) : Dev :=
  let foreign := d.spLive n && d.brlState n == 6 && (d.lane n).brl.judge.isSome
  let d := if foreign then d.collision n [] else d
  if foreign && !d.swapping n then d else (((d.dropLock n rNOLOCK).relockLost n).lockShown n).setAcq n 5

/-- A marker's source qualifies (R298). -/
def qualifies (d : Dev) (n : Lane) (src : Nat) : Bool :=
  (d.on (F.BRL_NEXT_VALID n) && d.fld (F.BRL_NEXT_SRC n) == src)
    || (d.on (F.BRL_CUR_HELD n) && d.fld (F.BRL_CUR_SRC n) == src) || d.on (F.BRL_NEXT_ANY n)

/-- Qualification by a marker (R297, R299): the leaves after it are delivered. -/
def qualify (n : Lane) (j : Judge) (d : Dev) : Dev :=
  let d := ((d.setFld (F.BRL_CUR_SRC n) j.src).setOn (F.BRL_CUR_QUAL n) true).setOn (F.BRL_CUR_HELD n) false
  let d := d.when (!j.next) (setOn (F.BRL_NEXT_VALID n) false)
  let d := (d.setReg (R.BRL_LAST_RL n) (BitVec.ofNat 32 (min (2 ^ 32 - 1) j.since))).bump (R.BRL_RELOCK n)
  let d := ((d.raise Blk.brl 0x71 n).setBrl n 6).modBrl n fun b => { b with learned := false, wholeQ := false }
  (d.lockShown n).releaseHeld n

/-- The marker of a subwindow is judged at its end (R301, R303, R306): a changed source of a qualified lane is a collision, an
in-sequence marker of an unqualified one qualifies or not. -/
def judgeMarker (n : Lane) (front : List (Nat × Nat)) (d : Dev) : Dev :=
  match (d.lane n).brl.judge with
  | none => d
  | some j =>
    if d.brlState n = 6 then d.collision n front
    else if j.qual then (d.modBrl n fun b => { b with judge := none }).qualify n j
    else (((d.releaseHeld n).setBrl n 5).bump (R.BRL_SRC_MIS n)).raise Blk.brl 0x72 n

/-- What a valid marker means to switched-path mode: it waits for its subwindow's end (R306). A marker of a qualified lane
matters only with another source, one of an unqualified lane only in sequence (R298, R303). -/
def sourceSeen (n : Lane) (src : Nat) (seq : Bool) (d : Dev) : Dev :=
  if !d.spLive n then d
  else if (if d.brlState n = 6 then d.fld (F.BRL_CUR_SRC n) == src else !seq) then d
  else d.modBrl n fun b => { b with judge := some ⟨src, seq, d.qualifies n src, b.since, false⟩ }

/-- A subwindow of 16 slots ends (R284, R285, R303, R306), unless stage 1 of an entry to STANDBY has stopped the detectors (R586):
darkness first, then restart or collision, then the subwindow's marker. -/
def subwindow (n : Lane) (front : List (Nat × Nat)) (d : Dev) : Dev :=
  if !d.spLive n ∨ 2 ≤ d.pwr.sbyDown then d
  else
    let l := d.windowLevel n front
    let det := d.slv (F.BRL_CFG_DET_LVL n)
    let st := d.brlState n
    let lref := d.sfld (F.BRL_STAT_LREF n)
    let d := d.modBrl n fun b =>
      { b with dark := if l < det - 24 then b.dark + 1 else 0, strong := if lref + 24 ≤ l then b.strong + 1 else 0,
               stronger := if lref + 48 ≤ l then b.stronger + 1 else 0 }
    if st = 1 then
      if det ≤ l then (d.setBrl n 2).modBrl n fun b => { b with above := 1 } else d
    else if st = 2 then
      if l < det then d.setBrl n 1
      else
        let d := d.modBrl n fun b => { b with above := b.above + 1 }
        if 4 ≤ (d.lane n).brl.above then d.detected n front else d
    else
      let b := (d.lane n).brl
      if 4 ≤ b.dark then d.darkness n
      else if 4 ≤ (if st = 6 then b.stronger else b.strong) then
        if st = 6 then d.collision n front else d.restart n front
      else d.judgeMarker n front

/-- Switched-path mode became live, or stopped being live, by a press or by the lane's entry to RUN (R281 to R283). Runs of
subwindows begin with it. DESIGN CHOICE (log 51): a lane qualified at once has no relock and keeps its `NEXT`, `CUR.HELD` and L_ref; a
lane without lock is judged by the `RX_LVL` of its last quire, and enters DARK where that is not valid. -/
def relockMode (n : Lane) (was : Bool) (d : Dev) : Dev :=
  let now := d.spLive n
  if now == was then d
  else if now then
    let d := d.modBrl n fun b => { b with above := 0, dark := 0, strong := 0, stronger := 0 }
    if d.on (F.LANE_FMT_STAT_MK_LOCK n) then
      let d := (d.setFld (F.BRL_CUR_SRC n) (d.fld (F.LANE_FMT_RXID_RX_SRC n))).setOn (F.BRL_CUR_QUAL n) true
      ((d.setBrl n 6).modBrl n fun b => { b with learned := false, wholeQ := false }).lockShown n
    else
      let lit := decide (d.slv (F.BRL_CFG_DET_LVL n) ≤ d.sfld (F.LANE_RX_LVL_LVL n)) && d.on (F.LANE_RX_LVL_VALID n)
      (d.setBrl n (if lit then 2 else 1)).setAcq n 1
  else
    let d := (d.judgeLost n).setOn (F.BRL_CUR_QUAL n) false
    let d := (d.setBrl n 0).modRx n fun r => { r with hit := false }
    (d.releaseHeld n).lockShown n

/-- The entry a learned preset goes to (R310): a match, an invalid entry, or the pointer's, with the pointer after. -/
def learnPlace (d : Dev) (n : Lane) : Option (Nat × Nat) :=
  let e := d.ribbonEntry n
  let p := d.fld (F.BRL_STAT_RPTR n)
  let free (q : Nat) : Option Nat := ((List.range 64).map fun i => (q + i) % 64).find? fun i => !ribbonPin (e i)
  match (List.range 64).find? fun i => ribbonValid (e i) && ribbonSrc (e i) == d.fld (F.BRL_CUR_SRC n) with
  | some i => some (i, p)
  | none => match (List.range 64).find? fun i => !ribbonValid (e i) with
    | some i => some (i, p)
    | none => match free p with
      | some i => some (i, (free (i + 1)).getD i)
      | none => none

/-- The 18 words of the lane's present adaptive state as an entry (R309, R312). -/
def learnWords (d : Dev) (n : Lane) (pin : Bool) : Ribbon :=
  let a := (d.lane n).ad
  let t (k : Nat) : Nat := toField 10 (tapOf (a.taps.getD k 0))
  [BitVec.ofNat 32 (2 ^ 31 + pin.toNat * 2 ^ 30 + d.gain n * 2 ^ 26 + d.phaseCode n * 2 ^ 20 + d.fld (F.BRL_CUR_SRC n)),
   BitVec.ofNat 32 (byteField a.l2 16 * 2 ^ 24 + byteField a.l1 16 * 2 ^ 16 + byteField a.h1 9)]
    ++ (List.range 16).map fun j => BitVec.ofNat 32 (t (3 * j + 2) * 2 ^ 20 + t (3 * j + 1) * 2 ^ 10 + t (3 * j))

/-- Learning at a received boundary (R309, R310): once per qualification, at the end of its first whole received quire. -/
def learn (n : Lane) (d : Dev) : Dev :=
  let b := (d.lane n).brl
  if !d.spLive n ∨ d.brlState n ≠ 6 ∨ b.learned then d
  else if !b.wholeQ then d.modBrl n fun b => { b with wholeQ := true }
  else
    let d := d.modBrl n fun b => { b with learned := true }
    if !d.lvOn (F.BRL_CFG_LEARN n) then d
    else match d.learnPlace n with
    | none => d.raise Blk.brl 0x78 n
    | some (i, p) =>
      let d := d.setRibbon n i (d.learnWords n (ribbonPin (d.ribbonEntry n i)))
      ((d.setFld (F.BRL_STAT_RPTR n) p).bump (R.BRL_LEARN n)).raise Blk.brl 0x77 n

/-- L_ref follows the level of a qualified lane (R287). -/
def lrefQuire (n : Lane) (d : Dev) : Dev :=
  if d.spLive n ∧ d.brlState n = 6 ∧ d.on (F.LANE_RX_LVL_VALID n) then d.setFld (F.BRL_STAT_LREF n) (d.fld (F.LANE_RX_LVL_LVL n))
  else d

end Dev

end Sys2Proof.Machine
end

