-- ==== Sys2Proof/Machine/Slot.lean ====
section
/-! DEFINITION. One leaf slot through the receive slice (chapters 6 and 7), with what the slot after it begins with; and the
receive settings that a lane takes up at its boundary. -/

namespace Sys2Proof.Machine

/-- What a slot gives: its 288 hard bits under the live and the opposite precoding setting, and their reliabilities. -/
structure SlotOut where
  bits : List Bool
  opp  : List Bool
  rel  : List Nat

namespace Dev

/-! ### Receive settings of a group-2 press (R44, R120, R155, R201, R205, R254, R279) -/

/-- Registers of lane n applied at its received boundary. -/
def receiveRegs (n : Lane) : List Nat :=
  [R.LANE_RX_AFE n, R.LANE_RX_PHCFG n, R.LANE_ADC_CFG n, R.LANE_EQ_CFG n, R.LANE_AGC_CFG n, R.LANE_MLSE_CFG n,
   R.LANE_TR_CFG n, R.LANE_ACQ_CFG n, R.LANE_DEC_CFG n]

/-- Delivery restarts when a press raises PROFILE on a delivering lane (R726). -/
def restartDelivery (n : Lane) (d : Dev) : Dev :=
  let d := d.discardInFlight n rNOLOCK
  d.each d.entries fun e d => d.modHost (d.txHost n e) fun x => { x with tx := d.lossSignal }

/-- The staged shadows of lane n become live. -/
def applyReceive (n : Lane) (d : Dev) : Dev :=
  if !(d.lane n).rx.pressDue then d
  else
    let was (f : Fld) : Nat := d.lv f
    let get (a : Nat) : Word := Cells.get regReset d.staged a
    let byp := was (F.LANE_ADC_CFG_TRIM_BYP n)
    let gain := was (F.LANE_RX_AFE_GAIN_SET n)
    let peak := was (F.LANE_RX_AFE_PEAK n)
    let agc := was (F.LANE_RX_AFE_AGC_EN n)
    let prof := was (F.LANE_EQ_CFG_PROFILE n)
    let d1 := d.each (receiveRegs n) fun a x => x.setLive a (get a)
    let d := d1.setLive (R.LANE_FMT_CFG n) (putBits (d1.liveWord (R.LANE_FMT_CFG n)) (F.LANE_FMT_CFG_PRE_RX n)
      (getBits (get (R.LANE_FMT_CFG n)) (F.LANE_FMT_CFG_PRE_RX n)))
    let d := { d with staged := d.staged.filter fun c => !((receiveRegs n).contains c.1 || c.1 == R.LANE_FMT_CFG n) }
    let d := d.modRx n fun r => { r with pressDue := false }
    let d := if d.lv (F.LANE_ADC_CFG_TRIM_BYP n) = byp then d else d.calRxChange n
    let d := if d.lv (F.LANE_RX_AFE_GAIN_SET n) = gain ∧ d.lv (F.LANE_RX_AFE_PEAK n) = peak
        ∧ d.lv (F.LANE_RX_AFE_AGC_EN n) = agc then d
      else if d.ownBoundary n then
        (d.modRx n fun r => { r with setNext := true }).setOn (F.LANE_RX_AFE_STAT_STEP_PEND n) true
      else d.applyAfeSet n
    let d := if d.on (F.LANE_RX_PHCFG_FREEZE n) then
        d.modRx n fun r => { r with slew := some (d.lv (F.LANE_RX_PHCFG_PHASE_SET n), true) }
      else d
    if prof < d.lv (F.LANE_EQ_CFG_PROFILE n) ∧ d.receives n ∧ d.deliverLock n then d.restartDelivery n else d

/-! ### Slots -/

/-- Received slots advance. -/
def nextSlot (n : Lane) (d : Dev) : Dev := d.modFr n fun f => { f with slot := f.slot + 1 }

/-- The slot that arrives on lane n is of a kind: the one its frame gives, or any on a lane without a frame of its own. -/
def slotIs (d : Dev) (n : Lane) (kind : SlotKind → Bool) : Bool :=
  !d.ownBoundary n || (decide ((d.lane n).fr.slot < quireSlots) && kind (slotKind (d.lane n).fr.slot))

/-- A slot that the converters sample while the slice stands still, in stage 0 of STANDBY (R586): its codes and its level count
(R221, R222). -/
def stillSlot (n : Lane) (kind : SlotKind → Bool) (rx : RxLeaf) (d : Dev) : Dev :=
  if !d.samples n ∨ !d.slotIs n kind then d
  else
    let ss := ((d.correctCodes n (d.lane n).rx.m rx.codes).map fun c => c.natAbs ^ 2).sum
    let g := d.gain n
    let d := d.bump48By (R.LANE_ADC_CLIP_LO n) (rx.codes.filter fun c => c == 0 || c == 255).length
    let d := d.modMs n fun m => { m with lvl := ((ss, g) :: m.lvl).take 16448 }
    let d := d.modRx n fun r => { r with m := (r.m + rx.codes.length) % 128 }
    d.when (d.ownBoundary n) (nextSlot n)

/-- What the slot that comes next begins with (R44, R212, R216, R252, R258, R263): a boundary's settings, at a pilot slot the update
and what waits for it, at a block's end of a lane without lock the update. DESIGN CHOICE (log 45): what comes without a slot of
its own, such as an internal tick on a lane without lock, is not looked ahead to. -/
def slotBegins (n : Lane) (d : Dev) : Dev :=
  let slot := (d.lane n).fr.slot
  if !d.ownBoundary n then d.when (decide ((d.lane n).ms.blkSlots = 0)) (updateAdapt n)
  else if quireSlots ≤ slot then (d.applyReceive n).changeProfile n
  else match slotKind slot with
    | .pilot _ => ((d.updateAdapt n).rotationSwitch n).pilotStart n
    | _ => d

/-- One leaf slot of converter codes through the receive path; `known` are a pilot slot's symbols on a lane with marker
lock (R255), whose gradients a disturbed pilot leaves out (R256). The later samples are corrected, and the look-ahead of R244
formed, with what the next slot begins with. DESIGN CHOICE (log 45): where that slot begins with an update, which rests on this
slot's decisions, the decisions that adaptation uses take the look-ahead under the values before the update. -/
def receiveSlot (n : Lane) (rx : RxLeaf) (known : Option (List Nat)) (d : Dev) : SlotOut × Dev :=
  let l := d.lane n
  let a := l.ad
  let main := l.rx.main
  let codes := rx.codes
  let cur := d.correctCodes n l.rx.m codes
  let later := ((d.nextSlot n).slotBegins n).correctCodes n (l.rx.m + codes.length) rx.ahead
  let before := List.replicate (47 - l.dsp.hist.length) 0 ++ (l.dsp.hist.take 47).reverse
  let seq := before ++ cur ++ later
  let us := (List.range codes.length).map fun j => ffeOut a.taps main seq (47 + j)
  let usAhead (b : Adapt) : List (Adapt × Int) :=
    (List.range (min 32 (later.length - main))).map fun j => (b, ffeOut b.taps main seq (47 + codes.length + j))
  let pre := d.lvOn (F.LANE_FMT_CFG_PRE_RX n)
  let ys := decideAll a l.dsp.y us
  let on := d.on (F.LANE_EQ_STAT_MLSE_ON n)
  let mlse (b : Adapt) := if on then mlseAll a pre (d.lv (F.LANE_MLSE_CFG_RSCALE n)) l.dsp.paths us (usAhead b) else ([], l.dsp.paths)
  let ml := mlse a
  let dec := match known with
    | some ks => pilotDecisions pre l.dsp.z ks
    | none => if on then ml.1.map fun p => p.1 else ys
  let es := slotErrors a (d.acq n == 4) us l.dsp.z dec
  let e2 := ((slotErrors a false us l.dsp.y ys).map fun e => e.natAbs ^ 2).sum
  let timing := ((us.zip (ys.zip ((l.dsp.u, l.dsp.y) :: us.zip ys))).map fun p =>
    timingError a p.1 p.2.1 p.2.2.1 p.2.2.2).sum
  let skip := known.isSome && l.rx.disturbed
  let gs (v : Nat) : Int := ((es.zip dec).map fun p => if p.2 = v then p.1 else 0).sum
  let gh : Int := ((es.zip (l.dsp.z :: dec)).map fun p => p.1 * levelTable a p.2).sum
  let ss := (cur.map fun c => c.natAbs ^ 2).sum
  let clips := (codes.filter fun c => c == 0 || c == 255).length
  let cap := if d.capSrc = 0 then codes
    else if d.capSrc = 1 then cur.map fun c => BitVec.ofInt 8 (c / 4 + 128)
    else us.map fun u => BitVec.ofNat 8 (clampI 0 255 (u + 128)).toNat
  let d := (d.capSlot n l.fr.slot cap).calSamples n (l.dsp.hist.headD 0) cur later
  let d := d.measure n ss clips e2 (d.windowLen n)
  let d := d.modDsp n fun x =>
    { x with hist := cur.reverse.take 47, u := us.getLastD 0, y := ys.getLastD 0, z := dec.getLastD 0, paths := ml.2,
             gTap := if skip then x.gTap else (List.range 48).map fun k =>
               if tapActive l.fr.prof main k then x.gTap.getD k 0 + tapGradient es seq main k else 0,
             gh := if skip then x.gh else x.gh + gh, g1 := if skip then x.g1 else x.g1 + gs 1,
             g2 := if skip then x.g2 else x.g2 + gs 2 }
  let d := d.modRx n fun r =>
    { r with m := (r.m + codes.length) % 128, tState := r.tState + 1, tSig := r.tSig + 1, tAgc := r.tAgc + 1,
             oppNone := r.oppNone + 1, opp := (r.opp.map (· + 1)).filter (· ≤ 2056),
             cand := (r.cand.map fun c => (c.1, c.2.1, c.2.2 + 1)).filter fun c => decide (c.2.2 ≤ 2056) }
  let d := d.modBrl n fun b => { b with since := b.since + 1 }
  let d := ((d.timingClock n timing).presetDone n).blockEnd n
  let out := (mlse (((d.nextSlot n).slotBegins n).lane n).ad).1
  let xs := if on then out.map fun p => p.2.1 else labels pre l.dsp.y ys
  let rel := if on then out.flatMap fun p => [p.2.2.1, p.2.2.2] else List.replicate (2 * codes.length) 0
  (⟨bitsOfSymbols xs, bitsOfSymbols (labels (!pre) l.dsp.y ys), rel⟩, d)

end Dev

end Sys2Proof.Machine
end

