-- ==== Sys2Proof/Machine/Snapshot.lean ====
section
/-! DEFINITION. Snapshots (R44, R82, R536, R690 to R695): which holding copies a boundary captures, and when a snapshot is
complete. -/

namespace Sys2Proof.Machine

/-- The capture class of an address. -/
def captureOf (a : Nat) : Capture := match regRow a with | some (r, _, _) => r.cap | none => .none

/-- The lane of a received-domain counter: its LANE region, or its BRL registers. -/
def captureLane (a : Nat) : Nat := if a / 0x10000 = 0x1011 then a % 0x10000 / 0x1000 else a % 0x10000 / 0x100

/-- The mapping stream of a receive-side collation register (R83). -/
def captureStream (a : Nat) : Nat :=
  let off := a % 0x10000
  if off < 0x1400 then (off - 0x1000) / 0x40 else if off < 0x1800 then (off - 0x1400) / 4 else (off - 0x1800) / 0x40

namespace Dev

/-- Copy the counters `p` holds of to their holding copies. -/
def capture (p : Nat → Bool) (d : Dev) : Dev := { d with hold := Cells.copyWhere zeroWord p d.regs d.hold }

def setHold (a : Nat) (v : Word) (d : Dev) : Dev := { d with hold := Cells.put zeroWord d.hold a v }

/-- Counters of the internal domains, where their domain is on. -/
def internalCapture (d : Dev) (a : Nat) : Bool := captureOf a == .internal && d.domOn (domainOf a)

/-- Half of the holding copy of `MAP.INFLs` (R82). -/
def captureInfl (s lo : Nat) (d : Dev) : Dev :=
  let a := R.MAP_INFL s
  d.setHold a (putBits (Cells.get zeroWord d.hold a) ⟨a, lo, 16⟩ (getBits (d.reg a) ⟨a, lo, 16⟩))

/-- Receive side of stream s (R82). -/
def captureStreamRx (s : Nat) (d : Dev) : Dev :=
  (((d.capture fun a => captureOf a == .mapRx && captureStream a == s).captureInfl s 16)) |> fun d =>
    { d with mapSnap := d.mapSnap &&& ~~~BitVec.ofNat 16 (2 ^ s) }

/-- Receive side of lane n. -/
def captureLaneRx (n : Lane) (d : Dev) : Dev :=
  (d.capture fun a => captureOf a == .received && captureLane a == n && (a / 0x10000 != 0x1011 || d.domOn (.lfe n))).modRx n
    fun r => { r with snapDue := false }

/-- The lane whose received boundary captures stream s: the lowest with marker lock (R82) that receives. -/
def streamClock (d : Dev) (s : Nat) : Option Lane := (d.streamLanes s).find? d.bounded

/-- The snapshot is complete when every domain has captured (R691). -/
def snapshotCheck (d : Dev) : Dev :=
  if !d.cnt.snapOpen || allLanes.any (fun n => (d.lane n).rx.snapDue) || d.mapSnap != 0 then d
  else
    (((d.setOn F.CNT_SNAP_STAT_DONE true).raise Blk.cnt 0x48 0).pulse 9) |> fun d =>
      { d with cnt := { d.cnt with snapOpen := false } }

/-- Receive captures that no received boundary will make any more: at the internal boundary (R45). -/
def captureUnlocked (d : Dev) : Dev :=
  let d := d.each allLanes fun n d => if (d.lane n).rx.snapDue && !d.bounded n then d.captureLaneRx n else d
  d.each (List.range 16) fun s d =>
    if d.mapSnap.getLsbD s && (d.streamClock s).isNone then d.captureStreamRx s else d

/-- The captures of lane n's received boundary (R44, R82). -/
def captureReceived (n : Lane) (d : Dev) : Dev :=
  let d := if (d.lane n).rx.snapDue then d.captureLaneRx n else d
  let d := d.each (List.range 16) fun s d =>
    if d.mapSnap.getLsbD s && d.streamClock s == some n then d.captureStreamRx s else d
  d.snapshotCheck

/-- A domain with holding copies is off at the boundary (R692). -/
def someOff (d : Dev) : Bool :=
  (List.finRange 9).any (fun s => !d.domOn (.slc s)) || allLanes.any (fun n => !d.domOn (.lfe n)) || !d.domOn .msh

/-- A snapshot is captured at step 1 of a boundary (R690 to R692), `lost` giving each block's `EVLOST`; one that was deferred says
so (R693). -/
def snapshotTake (lost : Nat → Word) (d : Dev) : Dev :=
  let d := d.capture d.internalCapture
  let d := d.each (List.range 31) fun b d => d.setHold (0x10000000 + b * 0x10000 + 0x7F08) (lost b)
  let d := d.each (List.range 16) fun s d => d.captureInfl s 0
  let d := d.bumpFld F.CNT_SNAP_STAT_TAG
  let d := d.setReg R.CNT_SNAP_Q (d.clk.qnum.setWidth 32)
  let d := (d.setOn F.CNT_SNAP_STAT_PEND false).setOn F.CNT_SNAP_STAT_DONE false
  let d := (d.setOn F.CNT_SNAP_STAT_PART d.someOff).setOn F.CNT_SNAP_STAT_DEFER d.cnt.deferred
  let d := if d.cnt.deferred then d.raise Blk.cnt 0x49 0 else d
  let d := d.each allLanes fun n d => d.modRx n fun r => { r with snapDue := true }
  { d with mapSnap := BitVec.allOnes 16, cnt := { d.cnt with snapOpen := true, deferred := false } }

/-- Step 1 of R39: a pending or scheduled snapshot is taken, or deferred while the one before is open (R693). -/
def snapshotStep (scheduled : Bool) (lost : Nat → Word) (d : Dev) : Dev :=
  let d := d.captureUnlocked.snapshotCheck
  if !(scheduled || d.on F.CNT_SNAP_STAT_PEND) then d
  else if d.cnt.snapOpen then
    { d.setOn F.CNT_SNAP_STAT_PEND true with cnt := { d.cnt with deferred := true } }
  else (d.snapshotTake lost).captureUnlocked.snapshotCheck

end Dev

end Sys2Proof.Machine
end

