-- ==== Sys2Proof/Machine/Receive.lean ====
section
/-! DEFINITION. What a lane's receive path does with a slot or a boundary: markers and lock (chapter 3), pilots, decode and
delivery (chapters 2, 4), flyleaf receive steps (chapter 10), and the received quire boundary (R44). -/

namespace Sys2Proof.Machine

namespace Dev

/-! ### The flyleaf in the receive direction (R346, R347, R350) -/

/-- The end of an update interval: adaptation, and the flyleaf's copy of the state (R257, R346). -/
def intervalEnd (n : Lane) (d : Dev) : Dev :=
  let d := d.updateAdapt n
  if (d.phase = 1 ∨ d.phase = 2) ∧ d.target = n ∧ d.spr.feeding then
    (d.modSpr fun p => { p with copied := true }).mirror n
  else d

/-- A received boundary of the shadowed lane before the switch (R346, R347, R349; R370 for a forced swap). Both slices take the same
inputs, so their states differ only by a hardware fault; whether one does is a free value (log 2). -/
def flyReceived (n : Lane) (d : Dev) : Dev :=
  let d := d.mirror n
  let p := d.spr
  let l := d.lane n
  if d.target ≠ n then d
  else if d.phase = 1 then
    if !p.feeding then d.modSpr fun p => { p with feeding := true }
    else if !p.copied then d
    else
      let (same, d) := if d.kind = 3 then (true, d) else let (f, d) := d.takeFree; (!f.getLsbD 0 && p.ad == l.ad && p.fr == l.fr, d)
      if same then (d.setFld F.SPR_STAT_PHASE 2).modSpr fun p => { p with rxOpen := true, txOpen := false, rxOk := false }
      else d.modSpr fun p => { p with copied := false }
  else if d.phase = 2 then d.modSpr fun p => { p with rxOk := p.rxOk || p.rxOpen, wholeQ := true }
  else d

/-- The full test begins (R673). -/
def fullStart (d : Dev) : Dev :=
  let d := (d.endShadow 7).stopTest fun _ => true
  let d := d.each (allLanes.filter d.inRun) fun n d => (d.squelchPwr n true).dropFlight n rNOLOCK
  let items := d.fullItems
  (((d.modBst fun b => { b with full := items, results := 0 }).setFld F.BST_FULL_STATE 1).hostSignals).fullItem

/-- The full test may start: life cycle, ACTIVE, and thermal level NORMAL (R672). -/
def fullAllowed (d : Dev) : Bool := (d.sec.lc == 1 || d.sec.lc == 3) && d.dstate == stACTIVE && d.fld F.THM_STAT_LEVEL == 0

/-- A full test that waited for Rs starts, or is refused where it may start no more (R361, R672). -/
def startFull (d : Dev) : Dev :=
  if !d.spr.testDue then d
  else
    let d := d.modSpr fun p => { p with testDue := false }
    if d.fullAllowed then d.fullStart else d.setFld F.BST_FULL_STATE 3

/-- Rs: the receive switch (R350, R351). -/
def flySwitch (n : Lane) (d : Dev) : Dev :=
  if d.phase = 3 ∧ d.target = n then (((d.mirror n).completeSwap).applyDeferred n).startFull else d

/-! ### Host bits out -/

/-- One slice clock of a compatibility lane through the inner FEC sublayer's decoder, which takes the equaliser's
reliabilities (R122, R278). What it delivers under its lock leaves on the lane's host lane (R123), which so resumes host data:
the spec names no leaf for it. DESIGN CHOICE (log 30). -/
def sublayerSlot (n : Lane) (o : SlotOut) (d : Dev) : Dev :=
  let r := Config.innerFecDecode (d.lane n).rx.fec o.bits o.rel
  let d := d.modRx n fun x => { x with fec := r.1 }
  if !d.locked n || d.hostDown (d.txHost n 0) then d else d.hostBitsOut n 0 r.2

/-! ### Slots -/

/-- The search under the opposite precoding ran two marker periods without a find (R116), the slot just searched among them. -/
def oppTimeout (n : Lane) (d : Dev) : Dev :=
  if d.acq n = 6 ∧ 4112 ≤ (d.lane n).rx.oppNone then
    (d.setOn (F.LANE_FMT_STAT_PRE_MISMATCH n) false).modRx n fun r => { r with opp := [], oppNone := 0 }
  else d

/-- A slot of a lane without its own boundary: samples, the update interval when a block ends (R258), and the AGC's window
of 16,448 slots without lock (R251). DESIGN CHOICE (log 51): after a loss of lock that window goes on from the part quire's sums. -/
def freeSlot (n : Lane) (rx : RxLeaf) (d : Dev) : SlotOut × Dev :=
  let (o, d) := d.receiveSlot n rx none
  let d := if d.native then d else d.sublayerSlot n o
  let d := if (d.lane n).ms.blkSlots = 0 then d.intervalEnd n else d
  let d := d.when (!d.locked n && !(d.lane n).ms.agcEnd && decide (quireSlots ≤ (d.lane n).ms.agcN)) (agcClose n)
  (o, d)

/-- `UPDATE_INTERVAL_END`: with marker lock, at the first symbol of the pilot slot about to be received; in every other
case the slot is received and may end the block (R258). -/
def updateIntervalEnd (n : Lane) (rx : RxLeaf) (d : Dev) : Dev :=
  if !d.receives n then d.when (!d.ownBoundary n) (stillSlot n (fun _ => true) rx)
  else if d.ownBoundary n then
    if (d.lane n).fr.slot < quireSlots then match slotKind (d.lane n).fr.slot with
      | .pilot _ => d.intervalEnd n
      | _ => d
    else d
  else ((d.freeSlot n rx).2.oppTimeout n).mirror n

/-! ### Pilots (R118) -/

def pilotReceived (n : Lane) (rx : RxLeaf) (d : Dev) : Dev :=
  let slot := (d.lane n).fr.slot
  let pilot (k : SlotKind) : Bool := match k with | .pilot _ => true | _ => false
  if !d.receives n then d.when (d.ownBoundary n) (stillSlot n pilot rx)
  else if !d.ownBoundary n ∨ quireSlots ≤ slot then d
  else match slotKind slot with
    | .pilot m =>
      let known := leafSymbols (pilotLeaf m)
      let (o, d) := (d.pilotStart n).receiveSlot n rx (some known)
      let errs := (((leafSymbols o.bits).zip known).filter fun p => p.1 != p.2).length
      let d := (d.bump48By (R.LANE_PILOT_SYM_LO n) 144).bump48By (R.LANE_PILOT_ERR_LO n) errs
      (d.nextSlot n).mirror n
    | _ => d

/-! ### Markers (R108 to R116) -/

/-- A valid marker of a hard-decided slot: strong or weak, with index and content. -/
def validMarker (bits : List Bool) : Option (Bool × Nat × MarkerContent) :=
  if !syncFound bits then none
  else match classifyMarker bits with
    | .strong j c => some (true, j, c)
    | .weak j c => some (false, j, c)
    | .invalid => none

/-- An in-sequence marker: counters, identity and version (R112, R115, R121). -/
def inSequence (n : Lane) (strong : Bool) (c : MarkerContent) (d : Dev) : Dev :=
  let d := d.bump (if strong then R.LANE_MK_STRONG n else R.LANE_MK_WEAK n)
  let d := (d.setFld (F.LANE_FMT_RXID_RX_MESH n) c.mesh.toNat).setFld (F.LANE_FMT_RXID_RX_SRC n) c.src.toNat
  let d := (d.setFld (F.LANE_FMT_RXQ_RX_LQN n) c.lqn.toNat).setFld (F.LANE_FMT_STAT_RX_VER n) c.ver.toNat
  let was := d.on (F.LANE_FMT_STAT_VER_MISMATCH n)
  let d := d.setOn (F.LANE_FMT_STAT_VER_MISMATCH n) (c.ver != 1)
  let d := if c.ver != 1 && !was then d.raise Blk.lane 0x12 n else d
  d.modFr n fun f => { f with miss := 0 }

/-- A marker position while locked (R112, R113). -/
def markerInLock (n : Lane) (j : Nat) (bits : List Bool) (d : Dev) : Dev :=
  let missed (d : Dev) : Dev :=
    (d.bump (R.LANE_MK_MISS n)).modFr n fun f => { f with miss := f.miss + 1 }
  let d := match validMarker bits with
    | some (strong, i, c) =>
      if i = j ∧ c.lqn = (d.lane n).fr.lqn then (d.inSequence n strong c).sourceSeen n c.src.toNat true
      else (missed (d.bump (R.LANE_MK_OOS n))).sourceSeen n c.src.toNat false
    | none => missed d
  if d.ownBoundary n ∧ 4 ≤ (d.lane n).fr.miss then d.lockLost n else d

/-- Marker lock (R111): the marker lies at slot 256 + 2,056j of the quire its LQN numbers, and the descrambler continues
from there (R103). Where in the quire slot 0 arrived follows from the instant of lock, which the marker's command does not give: a
free value (R413, log 2); where that lies before the last tick, it is on the scale of the tick before. DESIGN CHOICE (log 51): the
sums of the block interval in progress are dropped. -/
def declareLock (n : Lane) (strong : Bool) (j : Nat) (c : MarkerContent) (d : Dev) : Dev :=
  let slot := 256 + 2056 * j
  let d := (d.setOn (F.LANE_FMT_STAT_MK_LOCK n) true).setFld (F.LANE_FMT_STAT_RX_LANE n) c.lane.toNat
  let d := (d.setOn (F.LANE_FMT_STAT_PRE_MISMATCH n) false).raise Blk.lane 0x10 n
  let d := d.modFr n fun f =>
    { f with slot := slot, lqn := c.lqn,
             scr := scramblerJump (272 * scrambledBefore slot) (scramblerSeed c.lane.toNat c.lqn) }
  let (w, d) := d.takeFree
  let now := w.toNat % 16384
  let back := slot * 65536 / quireSlots
  let t := if back ≤ 4 * now then d.meshTimeAt now - back else d.clk.was.toNat + 65536 + 4 * now - back
  let d := d.modRx n fun r => { r with cand := [], opp := [], oppNone := 0, block := 0, pay := [], arrive := BitVec.ofNat 64 t }
  let d := (d.modMs n fun m => { m with whole := false }).dropWindow n
  let d := (d.clearGradients n).inSequence n strong c
  let d := (((d.markerExit n).updateStreams).hostSignals).linkUpdate n
  let d := d.modFr n fun f => { f with mode := max 2 (d.lv (F.LANE_DEC_CFG_LIMIT n)) }
  let d := d.setFld (F.LANE_DEC_STAT_MODE n) (max 2 (d.lv (F.LANE_DEC_CFG_LIMIT n)))
  (d.sourceSeen n c.src.toNat true).nextSlot n

/-- Two valid markers 2,056 slots apart follow on (R110). -/
def followsOn (i : Nat) (q : BitVec 24) (j : Nat) (c : MarkerContent) : Bool :=
  (j == i + 1 && c.lqn == q) || (i == 7 && j == 0 && c.lqn == q + 1)

/-- The pattern under the opposite precoding setting (R116). -/
def oppSearch (n : Lane) (found live : Bool) (d : Dev) : Dev :=
  let r := (d.lane n).rx
  if live then
    (d.setOn (F.LANE_FMT_STAT_PRE_MISMATCH n) false).modRx n fun r => { r with opp := [] }
  else if !found then d
  else
    let second := r.opp.contains 2056
    let was := d.on (F.LANE_FMT_STAT_PRE_MISMATCH n)
    let d := d.modRx n fun r => { r with opp := 0 :: r.opp, oppNone := 0 }
    if second && !was then (d.setOn (F.LANE_FMT_STAT_PRE_MISMATCH n) true).raise Blk.lane 0x13 n else d

/-- The search without lock, in state MARKER (R108, R110). -/
def markerSearch (n : Lane) (o : SlotOut) (d : Dev) : Dev :=
  let d := d.oppSearch n (syncFound o.opp) (syncFound o.bits)
  match validMarker o.bits with
  | none => d
  | some (strong, j, c) =>
    let pair := (d.lane n).rx.cand.any fun p => p.2.2 == 2056 && followsOn p.1 p.2.1 j c
    if strong || pair then d.declareLock n strong j c
    else d.modRx n fun r => { r with cand := (j, c.lqn, 0) :: r.cand }

/-- `MARKER_RECEIVED`. DESIGN CHOICE (log 38): a locked receiver tests the marker slots of its own frame only; a marker
elsewhere is not looked for and not counted in `MK_OOS`. -/
def markerReceived (n : Lane) (rx : RxLeaf) (d : Dev) : Dev :=
  let marker (k : SlotKind) : Bool := match k with | .marker _ => true | _ => false
  if !d.native then d
  else if !d.receives n then d.stillSlot n marker rx
  else if d.ownBoundary n then
    if (d.lane n).fr.slot < quireSlots then match slotKind (d.lane n).fr.slot with
      | .marker j =>
        let (o, d) := d.receiveSlot n rx none
        ((d.markerInLock n j o.bits).nextSlot n).mirror n
      | _ => d
    else d
  else
    let (o, d) := d.freeSlot n rx
    ((if d.acq n = 6 then d.markerSearch n o else d).oppTimeout n).mirror n

/-! ### Decode and delivery (R76 to R79, R142 to R151) -/

/-- Events of the slice banks for a decoded leaf (R684). -/
def decodeEvents (n : Lane) (mode : Nat) (x : Decoded) (d : Dev) : Dev :=
  ((d.laneEvent n 2 1).laneEvent n 3 (if mode = 3 then 1 else 2 ^ chaseBits mode)).laneEvent n 4 x.rej

/-- `LEAF_DECODE`: a data or stitch slot of a locked lane is decoded in the mode in force and descrambled (R142). -/
def leafDecode (n : Lane) (rx : RxLeaf) (d : Dev) : Dev :=
  let slot := (d.lane n).fr.slot
  let coded (k : SlotKind) : Bool := match k with | .data _ | .stitch _ => true | _ => false
  if !d.ownBoundary n then d
  else if !d.receives n then d.stillSlot n coded rx
  else if !d.slotIs n coded then d
  else
    let (o, d) := d.receiveSlot n rx none
    let mode := (d.lane n).fr.mode
    let x := innerDecode mode o.bits o.rel
    let r := scramble (d.lane n).fr.scr x.bits
    let d := (d.modFr n fun q => { q with scr := r.2 }).decodeEvents n mode x
    ((d.leafOut n slot r.1 x).nextSlot n).mirror n

/-! ### Compatibility lanes (R123, R278) -/

/-- The inner FEC sublayer gains or loses its lock. -/
def compatLock (n : Lane) (gained : Bool) (d : Dev) : Dev :=
  if d.native ∨ !d.receives n ∨ d.locked n = gained then d
  else
    let d := d.modRx n fun r => { r with pmdLock := gained }
    if gained then
      (((d.modMs n fun m => { m with whole := false }).dropWindow n).markerExit n).updateStreams.hostSignals
    else
      let d := ((((d.discardInFlight n rNOLOCK).calRxChange n).capLockLost n).updateStreams).hostSignals
      if 7 ≤ d.acq n then d.setAcq n 5 else d

/-! ### Receive settings of a group-2 press (R44, R120, R155, R201, R205, R254, R279) -/

/-- The checks at step 2 (R254, R279), and the shadows that wait for the lane's boundary. `CFG_ERR` stays until a press
passes both checks. DESIGN CHOICE (log 51): a press that fails both queues one event 0x64. -/
def stageReceive (n : Lane) (d : Dev) : Dev :=
  let agcBad := decide (d.fld (F.LANE_AGC_CFG_HI n) < d.fld (F.LANE_AGC_CFG_LO n) + 8)
  let mainBad := decide (48 ≤ d.fld (F.LANE_EQ_CFG_MAIN n))
  let put (a : Nat) (v : Word) (d : Dev) : Dev := { d with staged := Cells.put regReset d.staged a v }
  let d := d.each (receiveRegs n) fun a d =>
    if a = R.LANE_AGC_CFG n ∧ agcBad then put a (d.liveWord a) d
    else if a = R.LANE_EQ_CFG n ∧ mainBad then
      put a (putBits (d.reg a) (F.LANE_EQ_CFG_MAIN n) (d.lv (F.LANE_EQ_CFG_MAIN n))) d
    else put a (d.reg a) d
  let d := put (R.LANE_FMT_CFG n) (d.reg (R.LANE_FMT_CFG n)) d
  let d := (d.setOn (F.LANE_EQ_STAT_CFG_ERR n) (agcBad || mainBad)).modRx n fun r => { r with pressDue := true }
  let d := if agcBad then d.raise Blk.lane 0x64 n else d
  if mainBad && !agcBad then d.raise Blk.lane 0x64 n else d

/-! ### The received quire boundary (R44, R45) -/

/-- What a lane without a received boundary of its own takes up at the internal one: a GAIN_SET or PEAK press still waiting
(R201), and written trims (R212). -/
def internalTakeUp (n : Lane) (d : Dev) : Dev :=
  let d := if (d.lane n).rx.setNext then (d.applyAfeSet n).setOn (F.LANE_RX_AFE_STAT_STEP_PEND n) false else d
  d.takeUpTrims n

/-- What every lane does at its received boundary, or at the internal one in its stead: `clk` is the host clock of the
quire at which it falls. -/
def receivedQuire (n : Lane) (clk : Nat) (d : Dev) : Dev :=
  let whole := (d.lane n).ms.whole
  let mlse := (d.lane n).rx.mlseWhole
  let t := d.meshTimeAt clk
  let d := d.calMark n true
  let d := d.modRx n fun r =>
    { r with arrive := BitVec.ofNat 64 t, flushed := [],
             newTaps := (r.newTaps.map fun p => (p.1, p.2 - 1)).filter fun p => p.2 != 0 }
  let d := ((d.captureReceived n).savePreset n).learn n
  let d := ((d.levelQuire n (if d.native then quireSlots else d.endedClocks)).foffQuire n).lrefQuire n
  let d := d.when (d.locked n) (agcQuire n whole)
  let d := ((d.applyReceive n).changeProfile n).setMode n
  let d := (d.chaseBoundary n mlse).calBegin n true
  let d := ((d.rotationQuire n).trimLimits n).when (!d.ownBoundary n) (internalTakeUp n)
  let d := d.helloQuire n
  let d := if d.phase = 3 then d.flySwitch n else d.flyReceived n
  d.capBoundary n

/-- `RECEIVED_QUIRE_BOUNDARY`: a lane with marker lock whose received quire has ended; the next line quire begins (R92, R103). In
stage 0 of STANDBY the level of the quire is formed alone (R222, R586). -/
def receivedBoundary (n : Lane) (clk : Nat) (d : Dev) : Dev :=
  if !d.samples n ∨ !d.ownBoundary n ∨ (d.lane n).fr.slot ≠ quireSlots then d
  else if !d.receives n then (d.modFr n fun f => { f with slot := 0 }).levelQuire n quireSlots
  else
    let d := d.modFr n fun f =>
      let q := f.lqn + 1
      { f with slot := 0, lqn := q, scr := scramblerSeed (d.fld (F.LANE_FMT_STAT_RX_LANE n)) q }
    d.receivedQuire n clk

/-- The received boundary of a lane in RUN that has none of its own (R45). -/
def internalReceived (n : Lane) (d : Dev) : Dev :=
  if !d.receives n ∨ d.ownBoundary n then d else d.receivedQuire n 0

end Dev

end Sys2Proof.Machine
end

