-- ==== Sys2Proof/Machine/Store.lean ====
section
/-! DEFINITION. Fuses, image verification, attestation, the journal and the record store (chapter 19). -/

namespace Sys2Proof.Machine

/-- The number of a little-endian byte list. -/
def natLE (l : List Byte) : Nat := l.foldr (fun b a => 256 * a + b.toNat) 0

/-- A little-endian byte list of a number, n bytes. -/
def bytesLE (n v : Nat) : List Byte := (List.range n).map fun i => BitVec.ofNat 8 (v / 2 ^ (8 * i))

/-- Bytes `lo` to `lo + n − 1` of a list. -/
def slice (l : List Byte) (lo n : Nat) : List Byte := (l.drop lo).take n

/-- An ASCII string's bytes. -/
def ascii (s : String) : List Byte := s.toList.map fun c => BitVec.ofNat 8 c.toNat

/-- One byte of the CRC-32 of R626: IEEE 802.3, reflected. -/
def crc32Byte (crc : Nat) (b : Byte) : Nat :=
  (List.range 8).foldl (fun c _ => if c % 2 = 1 then (c / 2) ^^^ 0xEDB88320 else c / 2) (crc ^^^ b.toNat)

/-- CRC-32 of a byte list (R626). -/
def crc32 (l : List Byte) : Nat := (l.foldl crc32Byte 0xFFFFFFFF) ^^^ 0xFFFFFFFF

/-! ### Headers and images (R626 to R629) -/

/-- A header copy is valid (R627). -/
def headerValid (h : List Byte) : Bool :=
  h.length == 256 && natLE (slice h 0 4) == 0x4A524448 && natLE (slice h 252 4) == crc32 (slice h 0 252)
    && decide (100 ≤ natLE (slice h 10 1) ∧ natLE (slice h 10 1) ≤ 200)

/-- SEQ s1 is later than s2 (R627). -/
def seqLater (s1 s2 : Nat) : Bool :=
  let x := (s1 + 2 ^ 32 - s2) % 2 ^ 32
  decide (1 ≤ x ∧ x < 2 ^ 31)

/-- The header copy the boot ROM uses, if any (R627). -/
def chooseHeader (h0 h1 : List Byte) : Option Nat :=
  if headerValid h0 then
    if headerValid h1 && seqLater (natLE (slice h1 4 4)) (natLE (slice h0 4 4)) then some 1 else some 0
  else if headerValid h1 then some 1 else none

/-- MAGIC and the largest body of each KIND (R628). -/
def kindMagic (kind : Nat) : Nat :=
  if kind = 1 then 0x4A524446 else if kind = 2 then 0x4A524458 else if kind = 3 then 0x4A524443 else 0x4A524452

def kindBody (kind : Nat) : Nat :=
  if kind = 1 then 458752 else if kind = 2 then 98304 else if kind = 3 then 32768 else 0

def allZero (l : List Byte) : Bool := l.all fun b => b == 0

/-- Every read of a slot completes, at its first or second try (R624, R629 check 2). -/
def readsDone (i : ImageIn) : Bool := i.late.all fun k => decide (i.late.count k < 2)

/-- R629 check 3: MAGIC, KIND and BODY_LEN agree and the reserved bytes are 0. CODE_LEN is no reserved field: no check reads it. -/
def imageForm (kind : Nat) (i : ImageIn) : Bool :=
  let h := i.header
  h.length == 256 && natLE (slice h 0 4) == kindMagic kind && natLE (slice h 8 1) == kind
    && natLE (slice h 4 4) == i.body.length && decide (i.body.length ≤ kindBody kind)
    && allZero (slice h 10 2) && allZero (slice h 28 36) && allZero (slice h 192 64)

def imageSvn (i : ImageIn) : Nat := natLE (slice i.header 9 1)
def imageEntry (i : ImageIn) : Nat := natLE (slice i.header 16 4)
def imageHash (i : ImageIn) : BitVec 512 := BitVec.ofNat 512 (natBE (slice i.header 64 64))

/-- The context strings of image and report signatures (R629, R647). -/
def signContext : List Byte := ascii "JORIDE"
def attestContext : List Byte := ascii "JORIDE-ATT"

/-- The slot of R641 that checks an image of a kind. -/
def kindKey (s : SecSt) (kind : Nat) : OtpSlot := if kind = 1 then s.fwKey else s.mmKey

/-- The result code of R629 for an image of a kind. -/
def verifyImage (s : SecSt) (kind : Nat) (i : ImageIn) : Nat :=
  let h := i.header
  let pk := slice h 128 64
  let dev := natLE (slice h 20 8)
  if !readsDone i then 2
  else if !imageForm kind i then 3
  else if !(kindKey s kind).enrolled then 4
  else if (shake pk).toNat / 2 ^ 256 ≠ (kindKey s kind).bits.toNat then 5
  else if dev ≠ 0 ∧ dev ≠ s.devId.toNat then 6
  else if kind = 1 ∧ imageSvn i < s.roll then 7
  else if !slhVerify pk (slice h 0 192) i.sig signContext then 8
  else if shake i.body ≠ imageHash i then 9
  else 1

namespace Dev

def modSec (f : SecSt → SecSt) (d : Dev) : Dev := { d with sec := f d.sec }

/-! ### Fuses (R639, R641 to R645) -/

/-- The SEC and SYS words that show fuses follow them (R641, R656). -/
def showOtp (d : Dev) : Dev :=
  let d := (d.setFld F.SEC_LC_STATE d.sec.lc).setFld F.SEC_ROLL_COUNT d.sec.roll
  let d := d.setOn F.SEC_LC_PEND d.sec.lcNext.isSome
  let d := (d.setOn F.SEC_KEYSTAT_FWKEY d.sec.fwKey.enrolled).setOn F.SEC_KEYSTAT_MAINT d.sec.maint.enrolled
  d.setOn F.SEC_KEYSTAT_MMKEY d.sec.mmKey.enrolled

/-- The key buffer, byte 0 most significant (R644). -/
def keyBuffer (d : Dev) : BitVec 256 :=
  BitVec.ofNat 256 (natBE ((List.range 8).flatMap fun w => wordBytes (d.reg (R.SEC_KEYBUF w))))

/-- A request for fuse programming that passed its checks starts, or waits for the one under way; one with the same target as one
under way or waiting is done with it. Fuses are programmed one request at a time (log 48). -/
def otpGo (op : OtpOp) (d : Dev) : Dev :=
  match d.sec.otpOp with
  | none => d.modSec fun s => { s with otpOp := some op }
  | some r => if op = r ∨ op ∈ d.sec.otpQ then d else d.modSec fun s => { s with otpQ := s.otpQ ++ [op] }

/-- A key for this slot, or for any (`none`), is under way or waits. -/
def keyDue (slot : Option Nat) (d : Dev) : Bool :=
  (d.sec.otpOp.toList ++ d.sec.otpQ).any fun
    | .key k _ => slot.all fun s => s == k
    | _ => false

/-- `SEC.ENROL.GO` (R644). DESIGN CHOICE (log 48): a slot whose key is being programmed, or waits, is not empty. -/
def enrol (d : Dev) : Dev :=
  let slot := d.fld F.SEC_ENROL_SLOT
  let empty := if slot = 0 then !d.sec.mmKey.sealed else slot = 1 && !d.sec.maint.sealed
  if d.sec.lc = 1 ∧ empty ∧ !d.keyDue (some slot) then (d.otpGo (.key slot d.keyBuffer)).setOn F.SEC_KEYSTAT_ENBUSY true
  else d.setFld F.SEC_KEYSTAT_ENRES 2

/-- `SEC.LC_REQ.GO` with the return token as it reads (R643). -/
def lcRequest (token : ImageIn) (d : Dev) : Dev :=
  let t := d.fld F.SEC_LC_REQ_TARGET
  let s := d.sec
  let returned := verifyImage s 4 token == 1 && natLE (slice token.header 20 8) == s.devId.toNat
  let ok := (s.lc == 1 && t == 2 && s.mmKey.enrolled && s.maint.enrolled) || (s.lc == 2 && t == 3 && returned) || t == 4
  if ok then d.otpGo (.life t) else d

/-- `SEC.CTRL.ROLLFWD` (R639, R641): toward the running firmware's SVN, of 128 steps at most. -/
def rollfwd (d : Dev) : Dev :=
  let svn := min 128 (d.fld F.SEC_ROLL_SVN)
  if d.fld F.SEC_BOOTSTAT_TRIES = 0 ∧ d.sec.roll < svn ∧ d.sec.lc ≠ 4 then d.otpGo (.roll svn) else d

/-- A key slot programmed over the bits already blown; its seal is blown only when key and CRC match (R645). -/
def programSlot (k : OtpSlot) (v : BitVec 256) : OtpSlot :=
  let bits := k.bits ||| v
  let crc := k.crc ||| keyCrc v
  { bits := bits, crc := crc, sealed := bits == v && crc == keyCrc v }

/-- A programming operation completes (R639, R643 to R645): a life-cycle state counts once its seal is blown, and the highest one does;
the next request starts. -/
def otpDone (d : Dev) : Dev :=
  let next (s : SecSt) : SecSt := { s with otpOp := s.otpQ.head?, otpQ := s.otpQ.tail }
  match d.sec.otpOp with
  | none => d
  | some (.life t) =>
    ((d.modSec fun s => next { s with lcNext := some (max t (s.lcNext.getD 0)) }).showOtp).raise Blk.sec 0xF6 0
  | some (.roll svn) => ((d.modSec fun s => next { s with roll := max s.roll svn }).showOtp).raise Blk.sec 0xF5 0
  | some (.key slot v) =>
    let k := programSlot (if slot = 0 then d.sec.mmKey else d.sec.maint) v
    let d := d.modSec fun s => if slot = 0 then next { s with mmKey := k } else next { s with maint := k }
    let d := (d.setFld F.SEC_KEYSTAT_ENRES (if k.sealed then 1 else 3)).setOn F.SEC_KEYSTAT_ENBUSY (d.keyDue none)
    (d.each (List.range 8) fun w d => d.setReg (R.SEC_KEYBUF w) 0).showOtp

/-- A reset or loss of supply interrupts a programming operation and drops those that wait: which of its fuses are blown is free, but
CRC bits are blown after all key bits, and the seal last (R639, R645). -/
def otpInterrupt (d : Dev) : Dev :=
  let d := d.modSec fun s => { s with otpQ := [] }
  match d.sec.otpOp with
  | none => d
  | some (.life _) => d.modSec fun s => { s with otpOp := none }
  | some (.roll svn) =>
    let (w, d) := d.takeFree
    d.modSec fun s => { s with otpOp := none, roll := s.roll + w.toNat % (svn - s.roll + 1) }
  | some (.key slot v) =>
    let c := d.freeCtr
    let mask := BitVec.ofNat 256 (natBE ((List.range 8).flatMap fun i => wordBytes (Config.free (c + i))))
    let cm := if v &&& ~~~mask = 0 then (Config.free (c + 8)).setWidth 16 else 0
    let part (k : OtpSlot) : OtpSlot := { k with bits := k.bits ||| (v &&& mask), crc := k.crc ||| (keyCrc v &&& cm) }
    ({ d with freeCtr := c + 9 }).modSec fun s =>
      if slot = 0 then { s with otpOp := none, mmKey := part s.mmKey } else { s with otpOp := none, maint := part s.maint }

/-! ### What the stores are sent (R624, R652) -/

def modNvm (f : NvmSt → NvmSt) (d : Dev) : Dev := { d with nvm := f d.nvm }

/-- Commands go to the store on a chip select, after those of the same access or as the first of a new one. -/
def storeSends (fresh : Bool) (cs : Nat) (l : List StoreCmd) (d : Dev) : Dev :=
  d.modNvm fun n => { n with sent := (if fresh then [] else n.sent) ++ l.map fun c => (cs, c) }

/-- The offset of an image slot in the boot store (R625); slot B is true. -/
def slotBase (kind : Nat) (b : Bool) : Nat :=
  if kind = 1 then (if b then 0x090000 else 0x010000)
  else if kind = 2 then (if b then 0x130000 else 0x110000)
  else if kind = 3 then (if b then 0x160000 else 0x150000)
  else 0x170000

/-- The 8D reads of a slot: image header, signature and body (R624, R628). -/
def slotRead (kind : Nat) (b : Bool) (i : ImageIn) (d : Dev) : StoreCmd :=
  .read8D d.nvm.hdr.rdcmd (slotBase kind b) d.nvm.hdr.dummy (30048 + i.body.length) 1000

/-! ### Hash engine (R640, R647, R648) -/

/-- SK.seed, SK.prf and PK.seed of the attestation key (R647), by number. -/
def attestSeed (d : Dev) (k : Nat) : List Byte :=
  Slh.part (shake256 (d.sec.devSec ++ bytesLE 1 d.sec.lc ++ ascii "JORIDE-ATT-KEY") 96) k

/-- The attestation public key (R647). -/
def attestKey (d : Dev) : List Byte := slhKey (d.attestSeed 0) (d.attestSeed 2)

/-- A report's signature (R647), its randomiser free (log 52). -/
def attestSign (d : Dev) (report : List Byte) : List Byte :=
  slhSign (d.attestSeed 0) (d.attestSeed 1) (d.attestSeed 2) (bytesBE 32 (Config.signRandom d.freeCtr).toNat) attestContext report

/-- The 256-byte report (R647), values little-endian. -/
def attestReport (d : Dev) : List Byte :=
  bytesLE 4 0x4A524441 ++ bytesLE 8 d.sec.devId.toNat ++ bytesLE 1 d.sec.lc ++ bytesLE 1 d.sec.roll
    ++ bytesLE 1 (d.fld F.SEC_ROLL_SVN) ++ bytesLE 1 0 ++ bytesLE 8 d.clk.qnum.toNat ++ bytesLE 8 d.pwr.rtc.toNat
    ++ ((List.range 8).flatMap fun w => wordBytes (d.reg (R.SEC_ATT_NONCE w)))
    ++ bytesBE 64 d.sec.fwHash.toNat ++ bytesBE 64 d.sec.extHash.toNat ++ bytesBE 64 d.sec.cfgHash.toNat

/-- Two operations are the same operation (R648). -/
def sameHash : HashOp → HashOp → Bool
  | .verify .., .verify .. => true
  | .attest .., .attest .. => true
  | .journal, .journal => true
  | _, _ => false

/-- A GO reaches the hash engine: it is ignored beside the same operation running or waiting, waits behind another, or starts (R648). -/
def hashGo (op : HashOp) (d : Dev) : Dev :=
  if (d.sec.hash.toList ++ d.sec.hashQ).any (sameHash op) then d
  else if d.sec.hash.isNone ∧ d.sec.hashQ = [] then d.modSec fun s => { s with hash := some op }
  else d.modSec fun s => { s with hashQ := s.hashQ ++ [op] }

/-- `SEC.VCMD.GO` (R640). -/
def verifyGo (d : Dev) : Dev :=
  (d.hashGo (.verify (d.fld F.SEC_VCMD_KIND) (d.fld F.SEC_VCMD_SLOT))).setFld F.SEC_VSTAT_STATE 1

/-- `SEC.ATT_CTRL.GO` (R647), which builds the report. RETIRED uses no device secret (R642): the GO ends as an error there (log 48). -/
def attestGo (d : Dev) : Dev :=
  let a := (d.reg R.SEC_ATT_ADDR).toNat
  if d.fld F.SEC_ATT_STAT_STATE = 1 then d
  else if d.sec.lc ≠ 4 ∧ a % 4 = 0 ∧ 0x100000 ≤ a ∧ a + 30048 ≤ 0x140000 then
    (d.hashGo (.attest a d.attestReport)).setFld F.SEC_ATT_STAT_STATE 1
  else d.setFld F.SEC_ATT_STAT_STATE 3

/-- A waiting operation starts when none runs (R648). -/
def hashStart (d : Dev) : Dev :=
  match d.sec.hash, d.sec.hashQ with
  | none, op :: q => d.modSec fun s => { s with hash := some op, hashQ := q }
  | _, _ => d

/-- Write bytes as whole words from a word-aligned address. -/
def storeBytes (a : Nat) (l : List Byte) (d : Dev) : Dev :=
  d.each (List.range ((l.length + 3) / 4)) fun w d => d.storeWord (a + 4 * w) (bytesWord (slice l (4 * w) 4))

/-! ### Journal (R649 to R651) -/

/-- Address of journal word i in the retention SRAM. -/
def jnlAddr (i : Nat) : Nat := memBase 3 + 4 * i

/-- The commit record for a cause, with the number of body words used (R649); its reads are reads of the retention SRAM (R471, R473,
log 10). -/
def commitRecord (cause len : Nat) (d : Dev) : List Word × Dev :=
  let (seq, _, d) := d.readMem 3 (jnlAddr 1) srcLoad
  let (ws, d) := d.readWords 3 srcLoad ((List.range len).map fun i => jnlAddr (8 + i))
  let body := ws.flatMap wordBytes
  let head : List Word := [0x4A4E4C31, seq + 1, BitVec.ofNat 32 (cause * 2 ^ 24 + len),
    d.pwr.rtc.setWidth 32, BitVec.ofNat 32 (d.pwr.rtc.toNat / 2 ^ 32), d.pwr.rtcSub.setWidth 32,
    BitVec.ofNat 32 (crc32 body)]
  (head ++ [BitVec.ofNat 32 (crc32 (head.flatMap wordBytes))], d)

/-- Write the commit record (R650). How many body words are used the spec does not say: a free value (log 2). -/
def writeCommit (cause : Nat) (d : Dev) : Dev :=
  let (w, d) := d.takeFree
  let (r, d) := d.commitRecord cause (w.toNat % 2041)
  let d := d.each ((List.range 8).zip r) fun p d => d.storeWord (jnlAddr p.1) p.2
  let d := (d.setFld F.SEC_JNL_STAT_SEQ (r.getD 1 0).toNat).setFld F.SEC_JNL_STAT_CAUSE cause
  d.setOn F.SEC_JNL_STAT_DIRTY false

/-- A commit falls due (R650): it starts, or follows the one running. -/
def commitDue (cause : Nat) (d : Dev) : Dev :=
  if d.sec.jnlRun.isSome then d.modSec fun s => { s with jnlQ := s.jnlQ ++ [cause] }
  else (d.modSec fun s => { s with jnlRun := some cause }).setOn F.SEC_JNL_STAT_BUSY true

/-- The running commit completes with SEC event 0xF4, and a waiting one starts (R650). -/
def commitDone (d : Dev) : Dev :=
  match d.sec.jnlRun with
  | none => d
  | some c =>
    let d := (d.writeCommit c).raise Blk.sec 0xF4 c
    match d.sec.jnlQ with
    | [] => (d.modSec fun s => { s with jnlRun := none }).setOn F.SEC_JNL_STAT_BUSY false
    | x :: q => d.modSec fun s => { s with jnlRun := some x, jnlQ := q }

/-- Commits of a cause end without a record: what remains of them is left out (R617). -/
def dropCommit (cause : Nat) (d : Dev) : Dev :=
  let q := d.sec.jnlQ.filter fun c => c != cause
  if d.sec.jnlRun = some cause then
    (d.modSec fun s => { s with jnlRun := q.head?, jnlQ := q.tail }).setOn F.SEC_JNL_STAT_BUSY (!q.isEmpty)
  else d.modSec fun s => { s with jnlQ := q }

/-- Commits running and waiting complete: a stalled write waits for them (R650). -/
def commitAll (d : Dev) : Dev := d.each (d.sec.jnlRun.toList ++ d.sec.jnlQ) fun _ d => d.commitDone

/-- A write of the covered bits of journal word i (R649, R650): a store to the retention SRAM, partial or, by the processor, with
error injection (R475, R490). -/
def jnlWrite (m : Master) (mask v : Word) (i : Nat) (d : Dev) : Dev :=
  let d := d.commitAll
  let a := jnlAddr i
  if i < 8 then d
  else
    let d := if mask ≠ BitVec.allOnes 32 then d.mergeStore 3 a fun w => (w &&& ~~~mask) ||| (v &&& mask)
      else if m = .cpuM ∨ m = .cpuU then d.cpuStoreWord 3 a v
      else d.storeWord a v
    d.setOn F.SEC_JNL_STAT_DIRTY true

/-- A read of journal word i: the corrected word, or the stored bits of a damaged one (log 10). -/
def jnlRead (i : Nat) (d : Dev) : Word × Dev :=
  let (w, _, d) := d.readMem 3 (jnlAddr i) srcLoad
  (w, d)

/-- The check at start (R651), which reads the journal (R471, R473). -/
def journalCheck (d : Dev) : Dev :=
  let (r, d) := d.readWords 3 srcLoad ((List.range 8).map jnlAddr)
  let w (i : Nat) : Word := r.getD i 0
  let len := (w 2).toNat % 2 ^ 24
  let (b, d) := d.readWords 3 srcLoad (if len ≤ 2040 then (List.range len).map fun i => jnlAddr (8 + i) else [])
  let body := b.flatMap wordBytes
  let ok := w 0 == 0x4A4E4C31 && decide (len ≤ 2040) && (w 6).toNat == crc32 body
    && (w 7).toNat == crc32 ((List.range 7).flatMap fun i => wordBytes (w i))
  d.setOn F.SEC_JNL_STAT_VALID ok

/-- The running operation completes (R640, R647, R651); `img` is the slot a verification reads. -/
def hashDone (img : ImageIn) (d : Dev) : Dev :=
  match d.sec.hash with
  | none => d
  | some (.verify kind slot) =>
    let d := d.modSec fun s => { s with hash := none }
    let d := d.storeSends true 0 [d.slotRead kind (slot == 1) img]
    let d := (d.setFld F.SEC_VSTAT_RESULT (verifyImage d.sec kind img)).setFld F.SEC_VSTAT_SVN (imageSvn img)
    (d.setFld F.SEC_VSTAT_STATE 2).raise Blk.sec 0xF2 0
  | some (.attest a rep) =>
    let d := d.modSec fun s => { s with hash := none }
    if d.sec.lc = 4 then d.setFld F.SEC_ATT_STAT_STATE 3
    else ((d.takeFree.2.storeBytes a (rep ++ d.attestSign rep)).setFld F.SEC_ATT_STAT_STATE 2).raise Blk.sec 0xF3 0
  | some .journal => (d.modSec fun s => { s with hash := none }).journalCheck

/-- The attestation public key appears (R647); a RETIRED part does not use its secret (R642). -/
def attestKeyReady (d : Dev) : Dev :=
  if d.sec.lc = 4 ∨ !d.cpu.running then d
  else (d.each (List.range 16) fun w d => d.setReg (R.SEC_ATT_PK w) (bytesWord (slice d.attestKey (4 * w) 4))).setOn
    F.SEC_ATT_STAT_PKV true

/-- The boot ROM's journal check takes the hash engine (R648, R651): at once when it is free, else behind what runs and waits. -/
def startJournalCheck (d : Dev) : Dev :=
  let d := d.hashGo .journal
  if d.sec.hash = some .journal then d.hashDone ⟨[], [], [], []⟩ else d

/-! ### Record store (R637, R652 to R655) -/

def nvmAddr (d : Dev) : Nat := d.fld F.NVM_ADDR_HI_ADDR * 2 ^ 32 + (d.reg R.NVM_ADDR_LO).toNat

def setNvmAddr (a : Nat) (d : Dev) : Dev :=
  (d.setReg R.NVM_ADDR_LO (BitVec.ofNat 32 a)).setFld F.NVM_ADDR_HI_ADDR (a / 2 ^ 32)

/-- The operation ends with an error code, and NVM event 0xF8 (R656). -/
def nvmFail (err : Nat) (d : Dev) : Dev :=
  (((d.setFld F.NVM_STAT_STATE 3).setFld F.NVM_STAT_ERR err).raise Blk.nvm 0xF8 0).modNvm fun n =>
    { n with accessing := false, abort := false }

/-- Bytes addressed by a request. -/
def nvmSpan (d : Dev) : Nat := if d.fld F.NVM_CMD_OP = 2 then 2 ^ d.nvm.hdr.ersz else d.fld F.NVM_LEN_LEN

/-- The request fails the checks of R654; an erase's LEN alone is ignored. -/
def nvmBadRequest (d : Dev) : Bool :=
  let op := d.fld F.NVM_CMD_OP
  let a := d.nvmAddr
  let len := d.fld F.NVM_LEN_LEN
  let top := if d.on F.NVM_ADDR_HI_CS then 2 ^ d.nvm.hdr.rsize else 2 ^ 24
  op == 3
    || (op == 2 && a % 2 ^ d.nvm.hdr.ersz != 0)
    || a % (if d.on F.NVM_CMD_AUTO then 128 else 4) != 0
    || (op != 2 && !d.on F.NVM_CMD_AUTO && (len % 4 != 0 || decide (len < 4) || decide (128 < len)
        || a / 128 != (a + len - 1) / 128))
    || (op != 2 && d.on F.NVM_CMD_AUTO && (len == 0 || len % 128 != 0))
    || decide (top < a + d.nvmSpan)

/-- Two byte ranges meet. -/
def overlap (a n b m : Nat) : Bool := decide (a < b + m ∧ b < a + n)

/-- A program or erase of the boot store touches what runs or is in use (R637). -/
def nvmProtected (d : Dev) : Bool :=
  let hit (b m : Nat) : Bool := overlap d.nvmAddr d.nvmSpan b m
  !d.on F.NVM_ADDR_HI_CS && d.fld F.NVM_CMD_OP != 0
    && ((d.cpu.running && hit (slotBase 1 (d.on F.SEC_BOOTSTAT_FW)) 0x80000)
      || (d.nvm.hdrUsed && hit (if d.on F.SEC_BOOTSTAT_HDR then 0x1000 else 0) 0x1000)
      || (d.fld F.SEC_BOOTSTAT_EXT == 1 && hit (slotBase 2 false) 0x20000)
      || (d.fld F.SEC_BOOTSTAT_EXT == 2 && hit (slotBase 2 true) 0x20000)
      || (d.fld F.SEC_BOOTSTAT_CFG == 1 && hit (slotBase 3 false) 0x10000)
      || (d.fld F.SEC_BOOTSTAT_CFG == 2 && hit (slotBase 3 true) 0x10000))

/-- The class budget in bytes, `none` without limit; class 3 acts as class 0 in DEPLOYED (R655). -/
def nvmBudget (d : Dev) : Option Nat :=
  let c := d.fld F.NVM_BUDGET_CLASS
  if c = 3 then if d.sec.lc = 2 then some (16 * 2 ^ 20) else none
  else some (if c = 0 then 16 * 2 ^ 20 else if c = 1 then 64 * 2 ^ 20 else 256 * 2 ^ 20)

/-- A program would take USED above the budget (R655). -/
def nvmOverBudget (d : Dev) : Bool :=
  d.fld F.NVM_CMD_OP == 1 && d.on F.NVM_ADDR_HI_CS
    && match d.nvmBudget with
      | some b => decide (b < (d.reg R.NVM_USED).toNat + d.fld F.NVM_LEN_LEN)
      | none => false

/-- An access to a store begins (R652): on the record store a die select first where bits [36:32] change, then the operation's command
with bits [31:0], and the status polls of a program or erase. -/
def nvmAccess (d : Dev) : Dev :=
  let n := d.nvm
  let h := n.hdr
  let a := d.nvmAddr
  let low := a % 2 ^ 32
  let k := if n.auto then 128 else d.fld F.NVM_LEN_LEN
  let die : List StoreCmd := if n.cs = 1 ∧ h.dscmd ≠ 0 ∧ a / 2 ^ 32 ≠ n.die then [.dieSelect h.dscmd (a / 2 ^ 32)] else []
  let ops : List StoreCmd :=
    if n.op = 0 then [.read8D h.rdcmd low h.dummy k 1000]
    else if n.op = 1 then
      [.program8D h.pgcmd low (((List.range 32).flatMap fun w => wordBytes (d.reg (R.NVM_WBUF w))).take k),
        .status8D h.stcmd h.busyBit h.tpg]
    else [.erase8D h.ercmd low, .status8D h.stcmd h.busyBit (1000 * h.ter)]
  (d.modNvm fun n => { n with accessing := true, die := if n.cs = 1 then a / 2 ^ 32 else n.die }).storeSends true n.cs (die ++ ops)

/-- `NVM.CMD.GO` (R653, R654). A program stream's buffer has room at once: NVM_WR pulses (R501). -/
def nvmGo (d : Dev) : Dev :=
  if d.fld F.NVM_STAT_STATE = 1 then d
  else if d.nvmBadRequest then d.nvmFail 4
  else if d.nvmProtected then d.nvmFail 1
  else if d.nvmOverBudget then (d.nvmFail 2).raise Blk.nvm 0xF9 0
  else
    let op := d.fld F.NVM_CMD_OP
    let auto := d.on F.NVM_CMD_AUTO && op != 2
    let cs := d.fld F.NVM_ADDR_HI_CS
    let d := d.modNvm fun n => { n with op := op, auto := auto, cs := cs, addr := d.nvmAddr, accessing := false, abort := false }
    let d := ((d.setFld F.NVM_STAT_STATE 1).setFld F.NVM_STAT_ERR 0).setFld F.NVM_STAT_REMAIN
      (if op = 2 then 0 else d.fld F.NVM_LEN_LEN)
    if auto ∧ op = 1 then d.pulse 6 else d.nvmAccess

/-- `NVM.CMD.ABORT` (R656): the operation stops after the block in progress. -/
def nvmAbort (d : Dev) : Dev :=
  if d.fld F.NVM_STAT_STATE ≠ 1 then d
  else if d.nvm.accessing then d.modNvm fun n => { n with abort := true }
  else d.nvmFail 5

/-- Bytes programmed on the record store count in USED, saturating (R655, R656). -/
def countUsed (k : Nat) (d : Dev) : Dev :=
  if d.nvm.cs = 1 then d.setReg R.NVM_USED (BitVec.ofNat 32 (min (2 ^ 32 - 1) ((d.reg R.NVM_USED).toNat + k))) else d

/-- Read bytes go to the buffer. -/
def fillRbuf (data : List Byte) (d : Dev) : Dev :=
  d.each (List.range (data.length / 4)) fun w d =>
    d.setReg (if w = 31 then R.NVM_RBUF31 else R.NVM_RBUF w) (bytesWord (slice data (4 * w) 4))

/-- A store access completes (R652, R653). -/
def nvmDone (data : List Byte) (d : Dev) : Dev :=
  if d.fld F.NVM_STAT_STATE ≠ 1 ∨ !d.nvm.accessing then d
  else
    let n := d.nvm
    let left := d.fld F.NVM_STAT_REMAIN
    let k := if n.auto then 128 else left
    let d := if n.op = 0 then d.fillRbuf ((data ++ List.replicate 128 0).take k) else if n.op = 1 then d.countUsed k else d
    let d := d.modNvm fun n => { n with accessing := false }
    let d := d.setFld F.NVM_STAT_REMAIN (left - k)
    let d := if n.auto then d.setNvmAddr (d.nvmAddr + 128) else d
    let d := if n.auto ∧ n.op = 0 then d.pulse 5 else d
    if n.abort then d.nvmFail 5
    else if left ≤ k then d.setFld F.NVM_STAT_STATE 2
    else if n.op = 1 then d.pulse 6
    else d

/-- A read of `NVM.RBUF31` releases the block in a read stream: the next is read (R653). -/
def rbufRelease (d : Dev) : Dev :=
  if d.fld F.NVM_STAT_STATE = 1 ∧ d.nvm.auto ∧ d.nvm.op = 0 then d.nvmAccess else d

/-- A write of `NVM.WBUF31` starts the program of the block in a program stream (R653). -/
def wbufStart (d : Dev) : Dev :=
  if d.fld F.NVM_STAT_STATE = 1 ∧ d.nvm.auto ∧ d.nvm.op = 1 then d.nvmAccess else d

/-- A store access times out (R652): ERR 3, and one event of class 12. -/
def nvmTimeout (d : Dev) : Dev :=
  if d.fld F.NVM_STAT_STATE ≠ 1 ∨ !d.nvm.accessing then d
  else (d.nvmFail 3).charge 12 0 fun d => (d.setOn F.NVM_STAT_DEGRADED true).raise Blk.nvm 0xFA 0

/-- The budget window ends when its RTC seconds have passed (R655). -/
def budgetEnd (d : Dev) : Dev :=
  if d.reg R.NVM_WIN_LEFT = 0 then (d.setReg R.NVM_USED 0).setReg R.NVM_WIN_LEFT 86400 else d

/-- One RTC second of the budget window. -/
def budgetSecond (d : Dev) : Dev :=
  if d.reg R.NVM_WIN_LEFT = 0 then d else d.setReg R.NVM_WIN_LEFT (d.reg R.NVM_WIN_LEFT - 1)

end Dev

end Sys2Proof.Machine
end

