-- ==== Sys2Proof/Machine/Power.lean ====
section
/-! DEFINITION. The power manager (chapter 17): lane states, reset of the data path, entry to ACTIVE and STANDBY, supplies,
start and restart of the management domain, RTC, watchdog, core supply; and the orderly thermal stop (R616). -/

namespace Sys2Proof.Machine

/-- A lane's state as its front end powers up: the ribbon table stays (R288), units wait on for their replacement (R220),
calibration runs in progress go on (R326), and so do the slot, and the units counted in that it ends, or discards where the lane
sends nothing (R79, R80). -/
def LaneSt.anew (l : LaneSt) : LaneSt :=
  let t := l.tx
  { LaneSt.init with
    brl := l.brl, rx := { RxSt.init with rep0 := l.rx.rep0, rep1 := l.rx.rep1 },
    tx := { TxSt.init with slot := t.slot, beat := t.beat, blkA := t.blkA, blkB := t.blkB, endA := t.endA, endB := t.endB },
    cal := l.cal.map fun c => if c.phase = 0 then CalItem.init else c }

namespace Dev

def modThm (f : ThmSt → ThmSt) (d : Dev) : Dev := { d with thm := f d.thm }

def modPwr (f : PwrSt → PwrSt) (d : Dev) : Dev := { d with pwr := f d.pwr }

def setState (st : Nat) (d : Dev) : Dev := d.setFld F.PWR_STAT_DSTATE st

/-! ### Lanes (R575 to R579, R340, R341) -/

/-- The live MODE; 3 acts as 1 (R576). -/
def laneMode (d : Dev) (n : Lane) : Nat := let m := d.lv (F.PWR_LANE_CFG_MODE n); if m = 3 then 1 else m

/-- Runs of a lane end and its calibration history goes with its front end (R333). -/
def calLaneOff (n : Lane) (d : Dev) : Dev :=
  let d := d.each (List.finRange 4) fun i d => (d.calEnd n i).setOn (calPend n i) false
  (d.setOn (F.CAL_CTRL_HIST_RX n) false).setOn (F.CAL_CTRL_HIST_TX n) false

/-- The lane leaves RUN (R113, R116, R162, R231, R341): its leaves in flight are discarded under NO_LOCK, and it gives up its
slice. `st` is the lane state it goes to. -/
def laneStop (n : Lane) (st : Nat) (d : Dev) : Dev :=
  let d := ((d.transmitterStop n).capLaneStop n).dropFlight n rNOLOCK
  let d := (d.setOn (F.LANE_FMT_STAT_MK_LOCK n) false).setOn (F.LANE_FMT_STAT_PRE_MISMATCH n) false
  let d := (d.modRx n fun r => { r with pmdLock := false }).setAcq n 0
  let d := ((d.setOn (F.BRL_CUR_QUAL n) false).setOn (F.BRL_CUR_HELD n) false).setBrl n 0
  let d := (d.setFld (laneStat n) st).release n
  ((d.updateStreams).hostSignals).linkUpdate n

/-- The front end powers off. -/
def frontEndOff (n : Lane) (d : Dev) : Dev := (d.calLaneOff n).domainDown (.lfe n)

/-- The front end powers up with its registers at reset, its units in place (R208, R516), and its gain step, peaking and swing as
the power-up list sets them (R178, R198, R199). `ADC_STAT.DEGRADED` stays till a reset of the data path (R220). DESIGN CHOICE
(log 44): `DEC_STAT.DEGRADED` and `EQ_STAT.DEGRADED` read their reset 0 until the lane's level next rises to T. -/
def frontEndStart (n : Lane) (d : Dev) : Dev :=
  let deg := d.on (F.LANE_ADC_STAT_DEGRADED n)
  let d := (((d.domainUp (.lfe n)).modLane n LaneSt.anew).adcInit n).afeInit n
  let d := if deg then d.setOn (F.LANE_ADC_STAT_DEGRADED n) true else d
  d.modTx n fun t => { t with vsw := swingOf (d.lv (F.LANE_TX_CFG_SWING n)) }

/-- A front end that is off powers up. -/
def frontEndUp (n : Lane) (d : Dev) : Dev := if d.domOn (.lfe n) then d else d.frontEndStart n

/-- A data-path domain powers up. -/
def powerUp (x : Dom) (d : Dev) : Dev :=
  match x with
  | .lfe n => d.frontEndStart n
  | .msh => (d.domainUp .msh).meshStart
  | _ => d.domainUp x

/-- The slice of a lane that enters RUN: the adaptive, frame and symbol state start afresh, in the profile in force. -/
def laneBegin (n : Lane) (s : Nat) (d : Dev) : Dev :=
  let d := (d.assign n s).setFld (laneStat n) 2
  let d := if d.domOn (.slc (Fin.ofNat 9 s)) then d else d.domainUp (.slc (Fin.ofNat 9 s))
  let d := d.modLane n fun l =>
    { l with ad := Adapt.init, dsp := Dsp.init, ms := Meas.init, fr := { Frame.init with mode := 2, prof := d.profileOf n } }
  let d := d.setFld (F.LANE_EQ_STAT_PROFILE n) (d.profileOf n)
  let d := (d.modTx n fun t => { t with start := 1 }).setAcq n 1
  (d.relockMode n false).linkUpdate n

/-- A lane enters RUN (R340, R575). A slice under test is taken when no other is free, ending the test (R667). -/
def laneRun (n : Lane) (d : Dev) : Dev :=
  let d := if (d.takeSlice n).isSome then d else d.stopTest fun t => t.part == 0
  let bit := BitVec.ofNat 8 (2 ^ (n : Nat))
  match d.takeSlice n with
  | none =>
    if d.pwr.noSlice.getLsbD n then d
    else (d.modPwr fun p => { p with noSlice := p.noSlice ||| bit }).raise Blk.spr 0x89 n
  | some s =>
    let d := d.modPwr fun p => { p with noSlice := p.noSlice &&& ~~~bit, wakeDue := p.wakeDue &&& ~~~bit }
    ((d.frontEndUp n).laneBegin n s).updateFly

/-- LANE-OFF. -/
def laneOff (n : Lane) (d : Dev) : Dev :=
  let bit := BitVec.ofNat 8 (2 ^ (n : Nat))
  let d := d.modPwr fun p => { p with wakeDue := p.wakeDue &&& ~~~bit, noSlice := p.noSlice &&& ~~~bit }
  ((if d.inRun n then d.laneStop n 0 else d.setFld (laneStat n) 0).frontEndOff n).updateFly

/-- `LANE_DOZE_ENTRY` (R576, R577): a MODE 2 lane has been in SIG_DET for 2^DOZE_EXP whole quires. -/
def laneDoze (n : Lane) (d : Dev) : Dev :=
  if !d.active ∨ d.pwr.sbyDown ≠ 0 ∨ !d.inRun n ∨ d.laneMode n ≠ 2 ∨ d.spLive n ∨ d.acq n ≠ 1 ∨ d.swapping n
      ∨ d.pwr.dozeQ[n] < 2 ^ d.lv (F.PWR_LANE_CFG_DOZE_EXP n) + 1 then d
  else (((d.laneStop n 1).updateFly).bump R.PWR_DOZES).raise Blk.pwr 0xD4 n

/-- Half-periods of 400 ns to 600 ns that alternate between a level at or above `lvl` and one 3 dB below (R578): `hi` is whether the
first is to be high. -/
def alternates (lvl : Int) (hi : Bool) : List (Int × Nat) → Bool
  | [] => true
  | (l, ns) :: r =>
    decide (400 ≤ ns ∧ ns ≤ 600) && (if hi then decide (lvl ≤ l) else decide (l < lvl - 24)) && alternates lvl (!hi) r

/-- The detector recognises what it saw (R578). -/
def recognised (lvl : Int) : WakeSource → Bool
  | .light ms => decide (16 ≤ ms.length) && (ms.take 16).all fun l => decide (lvl ≤ l)
  | .wakePattern hs => decide (100 ≤ hs.length) && (alternates lvl true (hs.take 100) || alternates lvl false (hs.take 100))

/-- WAKE selects the source; 3 acts as 2 (R578, R601). -/
def wakeSelects (w : Nat) : WakeSource → Bool
  | .light _ => w != 1
  | .wakePattern _ => w != 0

/-- `LANE_WAKE` (R578, R579): a dozing lane recognises a source that WAKE selects, while its detector runs (R586). -/
def laneWake (n : Lane) (src : WakeSource) (d : Dev) : Dev :=
  let taken := wakeSelects (d.lv (F.PWR_LANE_CFG_WAKE n)) src && recognised (d.slv (F.PWR_LANE_CFG_DOZE_LVL n)) src
  if !d.active ∨ 2 ≤ d.pwr.sbyDown ∨ d.fld (laneStat n) ≠ 1 ∨ !taken ∨ d.pwr.wakeDue.getLsbD n then d
  else
    let d := d.modPwr fun p => { p with wakeDue := p.wakeDue ||| BitVec.ofNat 8 (2 ^ (n : Nat)) }
    (d.bump R.PWR_WAKES).raise Blk.pwr 0xD5 n

/-- One lane at an internal boundary (R576). -/
def laneModeTick (n : Lane) (d : Dev) : Dev :=
  let st := d.fld (laneStat n)
  let m := d.laneMode n
  let d := d.modPwr fun p => { p with dozeQ := p.dozeQ.set n (if d.acq n = 1 ∧ st = 2 then p.dozeQ[n] + 1 else 0) }
  if d.swapping n then d
  else if m = 0 then if st = 0 then d else d.laneOff n
  else if st = 2 then d
  else if m = 1 ∨ st = 0 ∨ d.pwr.wakeDue.getLsbD n then d.laneRun n
  else d

def laneModes (d : Dev) : Dev :=
  if !d.active || d.pwr.sbyDown != 0 || d.thm.stop != 0 || d.pwr.lossQ.isSome || d.fullRunning then d else d.each allLanes laneModeTick

/-- Host groups follow their lanes in ACTIVE (R22, R51). -/
def hostGroups (d : Dev) : Dev :=
  if !d.active then d
  else d.each (List.finRange 4) fun k d =>
    if d.groupWanted k then if d.domOn (.hg k) then d else d.domainUp (.hg k)
    else if d.domOn (.hg k) && !d.wokenUp (.hg k) then d.domainDown (.hg k) else d

/-! ### The data path as a whole (R516, R569) -/

def dataDomains : List Dom :=
  (List.finRange 9).map .slc ++ (List.finRange 8).map .lfe ++ (List.finRange 4).map .hg ++ [.msh]

def isDataDomain : Dom → Bool
  | .mgt | .aon => false
  | _ => true

/-- Content in flight toward the line has no leaf slot left: LANE_DOWN (R79). -/
def dropInFlightTx (d : Dev) : Dev :=
  d.each (List.range 16) fun s d => let k := d.fld (inflTx s); if k = 0 then d else d.txDisc s rLANEDOWN k

/-- Every ribbon table is cleared, staged presets with it (R288). -/
def clearRibbons (d : Dev) : Dev := d.each allLanes fun n d => (d.modBrl n fun _ => BrlSt.init).setOn (F.BRL_STAT_STAGED n) false

/-- No stream has a delineator outside ACTIVE (R66). -/
def endDelineators (d : Dev) : Dev := { d.setReg R.FEC_STAT 0 with streams := Vector.replicate 16 ⟨0, 0⟩ }

/-- Every data-path domain powers off; every lane is in LANE-OFF (R575), ribbon tables are cleared (R288) and delineators end
(R66). -/
def powerOffData (d : Dev) : Dev :=
  let d := (d.stopTest fun t => t.part == 0).each allLanes fun n d =>
    (if d.inRun n then d.laneStop n 0 else d.setFld (laneStat n) 0).calLaneOff n
  let d := ((d.dropInFlightTx.clearRibbons.endDelineators.shadowReset).modSpr fun p => { p with testDue := false }).each
    dataDomains domainDown
  (d.modPwr fun p => { p with woken := [], sbyWait := 0, sbyStage := 0, sbyAsked := false, sbyDown := 0, sbyForce := false,
                              sbyDone := false, sbyRetry := false, wakeDue := 0, noSlice := 0 }).updateFly

/-- The collation counters of MAP and the monitor counters of FEC. -/
def ledgerReg (a : Nat) : Bool := decide (0x10051000 ≤ a ∧ a < 0x10057F00) || decide (0x10060100 ≤ a ∧ a < 0x10067F00)

/-- A reset of the data path (R516): registers of its domains and the ledgers take their reset values, the levels of classes
0 to 5 are cleared (R662), any shadow ends (R362), and a capture of a lane that was in RUN stops (R231). A domain that stays on
for an access powers off and on again, with its pairs of the power-up list (R635). -/
def dataPathReset (d : Dev) : Dev :=
  let d := (d.stopTest fun t => t.part == 0).each (allLanes.filter d.inRun) capLaneStop
  let d := d.resetWords fun a => ledgerReg a || (isDataDomain (domainOf a) && resetBy (domainOf a) a)
  let d := (d.clearRibbons.clearBuckets fun c => decide (c ≤ 5)).each allLanes fun n d =>
    (((d.calLaneOff n).setOn (F.CAL_STAT_DEGRADED n) false).setOn (F.BRL_STAT_COLL_DEG n) false).setFld (laneStat n) 0
  let d := (((d.setReg R.HST_LSTAT 0).shadowReset).modSpr fun p => { p with testDue := false }).endDelineators
  let d := d.each allLanes release
  let d := { d with host := Vector.replicate 16 HostSt.init,
                    lanes := Vector.ofFn fun n => { d.lanes[n].anew with tx := TxSt.init } }
  d.each (dataDomains.filter d.domOn) powerUp

/-- The slice that R33 gives lane n. -/
def homeSlice (d : Dev) (n : Lane) : Slice := if d.retired = (n : Nat) then 8 else Fin.ofNat 9 n

/-- The domains of an entry to ACTIVE: MSH, the host groups in use, and the front end and slice of every lane with live MODE 1 or
2 (R584). -/
def entryDomains (d : Dev) : List Dom :=
  .msh :: ((List.finRange 4).filter fun (k : Fin 4) => d.groupWanted k).map Dom.hg
    ++ (allLanes.filter fun n => d.laneMode n != 0).flatMap fun n => [.lfe n, .slc (d.homeSlice n)]

/-- The data path powers up: the domains of the entry that are off. None of them is on for an access only any more (R571). -/
def powerUpData (d : Dev) : Dev :=
  let xs := d.entryDomains
  let d := d.each (xs.filter fun x => !d.domOn x) powerUp
  d.modPwr fun p => { p with entry := xs, woken := p.woken.filter fun q => !xs.contains q.1 }

/-- Lanes start with the slices of R33; lanes in LANE-OFF have none (R38). A lane whose live MODE changed since its front end
was or was not powered up waits for the next boundary (R576), or loses the front end (R569). -/
def startLanes (d : Dev) : Dev :=
  let d := d.assignAll
  let d := d.each allLanes release
  let d := d.each (allLanes.filter fun n => d.domOn (.lfe n)) fun n d =>
    if d.laneMode n ≠ 0 then d.laneBegin n (d.homeSlice n) else if d.wokenUp (.lfe n) then d else d.frontEndOff n
  ((d.updateFly).hostSignals).hostGroups

/-- Each entry to ACTIVE queues a test of every free slice that is not retired (R664). -/
def queueFree (d : Dev) : Dev := d.each ((List.range 9).filter fun s => d.sliceFree s) queueTest

/-! ### Entering ACTIVE (R584, R618) -/

/-- `DSTATE` may leave STANDBY for ACTIVE (R572, R566, R618): the throttle record of R618 is judged by `ok`. -/
def mayActivate (ok : Bool) (d : Dev) : Bool :=
  d.dstate == stSTANDBY && d.mgmt.ready && !d.lowPower && !d.pwr.heldOff && d.thm.stop == 0 && d.pwr.lossQ.isNone
    && !d.pwr.restDue && ok

/-- The entry to ACTIVE begins. -/
def beginActive (d : Dev) : Dev := ((d.setState stToACTIVE).dataPathReset).powerUpData

/-- `ACTIVE_ENTRY`: the first boundary at which every domain of the entry is on, ready with its power-up (R584). The record of a
thermal shutdown ends (R618), and so does the cause that keeps bias DACs safe since STANDBY was entered (R439). -/
def activeEntry (d : Dev) : Dev :=
  if d.dstate ≠ stToACTIVE ∨ !d.on F.CLK_STAT_TICK_RUN ∨ !d.pwr.entry.all d.domOn then d
  else
    let d := ({ d with hkp := { d.hkp with causeSby := false } }.setState stACTIVE).applyClkCfg
    ((d.modPwr fun p => { p with shutRec := false }).startLanes.queueFree).raise Blk.pwr 0xD3 0

/-! ### Entering STANDBY (R585 to R591) -/

/-- Registers of the domains a stage holds, with each domain's `PWR.DOM` bit. Host groups hold no register (R540). -/
def stageSpans (k : Nat) : List (Nat × Nat × Nat) :=
  if k = 0 then (List.range 9).flatMap fun s => let b := 0x10080000 + s * 0x10000; [(s, b, b + 0x7F00), (s, b + 0x8000, b + 0xFF00)]
  else if k = 1 then (List.range 8).flatMap fun n =>
    let b := 0x10110000 + n * 0x1000
    let z := if n = 7 then 0xF00 else 0x1000
    [(9 + n, b, b + z), (9 + n, b + 0x8000, b + 0x8000 + z)]
  else if k = 3 then [(21, 0x10150000, 0x10157F00), (21, 0x10158000, 0x1015FF00)] else []

/-- The domain and reason of a refusal of stage k (R586): DMA, then CAL_COMMIT or CREDITS. -/
def stageRefusal (d : Dev) (k : Nat) : Option (Nat × Nat) :=
  let dma := (stageSpans k).find? fun x => (List.range 8).any fun c => d.dmaIn x.2.1 x.2.2 c
  match dma with
  | some x => some (x.1, 1)
  | none =>
    if k = 1 then (allLanes.find? fun n => (List.finRange 4).any fun i => 3 ≤ (d.calItem n i).phase).map fun n => (9 + n, 2)
    else if k = 3 ∧ d.meshHolds then some (21, 3) else none

/-- A stage takes its quiescence at the boundary at which it is asked (R586). -/
def stageAsk (k : Nat) (d : Dev) : Dev :=
  let d := d.modPwr fun p => { p with sbyStage := k, sbyAsked := true, sbyForce := false, sbyDown := k + 1 }
  if k = 0 then
    d.each (allLanes.filter d.inRun) fun n d => (d.squelchPwr n true).dropFlight n rNOLOCK
  else if k = 2 then d.each (List.finRange 16) fun h d => d.modHost h fun x => { x with tx := .idle }
  else d

/-- The stages asked so far resume, and the lanes restart acquisition as if REACQ had been written (R587). DESIGN CHOICE (log 24):
the squelch of the stages is one that the device removes at an internal boundary (R182), and goes at this one. -/
def stagesResume (d : Dev) : Dev :=
  let d := d.modPwr fun p => { p with sbyDown := 0, sbyAsked := false, sbyForce := false }
  (d.each (allLanes.filter d.inRun) fun n d => (d.squelchPwr n false).reacquire n).hostSignals

/-- `PWR.SBY_STAT` records a refusal. -/
def recordRefusal (k : Nat) (r : Nat × Nat) (d : Dev) : Dev :=
  ((d.setFld F.PWR_SBY_STAT_STAGE k).setFld F.PWR_SBY_STAT_DOM r.1).setFld F.PWR_SBY_STAT_REASON r.2

/-- An attempt's refusal: every stage resumes, and the next attempt waits (R587). -/
def stageRefuse (k : Nat) (d : Dev) : Dev :=
  let d := d.stagesResume.modPwr fun p => { p with sbyWait := 2 ^ d.fld F.PWR_SBY_CFG_RETRY_EXP, sbyRetry := true }
  (d.bump R.PWR_SBY_REFUSE).raise Blk.pwr 0xD1 k

/-- The last attempt forces the stage; it counts as quiesced at the next boundary (R588). -/
def stageForce (k : Nat) (d : Dev) : Dev :=
  let d := d.each (List.finRange 8) fun c d =>
    if (stageSpans k).any fun x => d.dmaIn x.2.1 x.2.2 c then d.dmaAbort c else d
  let d := if k = 1 then d.each (allLanes.filter fun n => (List.finRange 4).any fun i => 3 ≤ (d.calItem n i).phase) calAbortAll
    else if k = 3 then d.dropHeld else d
  let d := (d.setOn F.PWR_SBY_STAT_FORCED true).modPwr fun p => { p with sbyForce := true }
  (d.bump R.PWR_SBY_FORCED).raise Blk.pwr 0xD2 k

/-- Stage k has quiesced: the next is asked, or all four have (R586, R589). -/
def stageDone (k : Nat) (d : Dev) : Dev :=
  if k < 3 then d.stageAsk (k + 1)
  else
    let d := (d.modPwr fun p => { p with sbyAsked := false, sbyDone := true }).clearRibbons
    if d.on F.PWR_SBY_CFG_BSAFE then
      ({ d with hkp := { d.hkp with causeSby := true } }).biasSafe
    else d

/-- The answer of the stage asked. A slice in SWITCH answers at the first boundary after Rs. -/
def stageAnswer (d : Dev) : Dev :=
  let k := d.pwr.sbyStage
  if d.pwr.sbyForce then d.stageDone k
  else if k = 0 ∧ 3 ≤ d.phase then d
  else match d.stageRefusal k with
    | none => d.stageDone k
    | some r =>
      let d := d.recordRefusal k r
      if d.pwr.sbyTry ≤ d.fld F.PWR_SBY_CFG_RETRY then d.stageRefuse k else d.stageForce k

/-- The attempt of the entry, which `PWR.SBY_STAT` shows. -/
def sbyAttempt (k : Nat) (d : Dev) : Dev := (d.modPwr fun p => { p with sbyTry := k }).setFld F.PWR_SBY_STAT_ATTEMPT k

/-- B0 (R585). -/
def standbyStart (d : Dev) : Dev :=
  let d := ((d.endShadow 6).startLeaving).modPwr fun p => { p with sbyWait := 4, sbyRetry := false, sbyDone := false }
  (d.sbyAttempt 1).setOn F.PWR_SBY_STAT_FORCED false

/-- STANDBY is entered (R589). -/
def standbyEntered (d : Dev) : Dev := ((d.setState stSTANDBY).powerOffData).raise Blk.pwr 0xD0 0

/-- The STANDBY entry at an internal boundary. A retry's stage 0 is asked by `STANDBY_RETRY`. -/
def standbyTick (d : Dev) : Dev :=
  if d.dstate ≠ stToSTANDBY then d
  else if d.pwr.sbyTry = 0 then d.standbyStart
  else if d.pwr.sbyDone then d.standbyEntered
  else if d.pwr.sbyAsked then d.stageAnswer
  else if 1 < d.pwr.sbyWait then d.modPwr fun p => { p with sbyWait := p.sbyWait - 1 }
  else
    let d := d.modPwr fun p => { p with sbyWait := 0 }
    if d.pwr.sbyRetry then d else d.stageAsk 0

/-- `STANDBY_RETRY`: 2^RETRY_EXP quires after a refusal the next attempt starts at stage 0 (R587). -/
def standbyRetry (d : Dev) : Dev :=
  if d.dstate ≠ stToSTANDBY ∨ !d.pwr.sbyRetry ∨ d.pwr.sbyWait ≠ 0 then d
  else ((d.modPwr fun p => { p with sbyRetry := false }).sbyAttempt (d.pwr.sbyTry + 1)).stageAsk 0

/-- The power manager follows the low-power request (R566, R572): an entry begins once none is in progress. `ok` is R618's
judgement. -/
def followRequest (ok : Bool) (d : Dev) : Dev :=
  if d.dstate = stACTIVE ∧ d.lowPower ∧ d.thm.stop = 0 ∧ d.pwr.lossQ.isNone ∧ !d.fullRunning then
    ((d.setState stToSTANDBY).sbyAttempt 0).stopTest fun _ => true
  else if d.mayActivate ok then d.beginActive
  else d

/-! ### Orderly thermal stop (R616, R617) -/

/-- Step 4: the data path is off and held off by policy; the device is in STANDBY under ModuleFault. What remains of step 3 is left
out (R617). -/
def finishStop (d : Dev) : Dev :=
  if d.thm.stop = 0 then d
  else
    let d := d.dropCommit 2
    (({ d with thm := { d.thm with stop := 0 } }).modPwr fun p => { p with heldOff := true }).setState stSTANDBY |>.powerOffData

/-- Steps 2 to 4 as far as they have come: every DGASP is sent, then the journal is committed, then step 4. -/
def stopProgress (d : Dev) : Dev :=
  let d := if d.thm.stop = 1 ∧ !(allLanes.any fun n => d.linkUp n && (d.link n).gaspDue) then
      ({ d with thm := { d.thm with stop := 2 } }).commitDue 2
    else d
  if d.thm.stop = 2 ∧ d.sec.jnlRun ≠ some 2 ∧ !d.sec.jnlQ.contains 2 then d.finishStop else d

/-- An entry to STANDBY or ACTIVE in progress ends (R574, R616). -/
def endEntry (d : Dev) : Dev :=
  let d := if d.dstate = stToACTIVE then (d.setState stSTANDBY).powerOffData
    else if d.dstate = stToSTANDBY then d.setState stACTIVE else d
  d.modPwr fun p => { p with sbyAsked := false, sbyRetry := false, sbyDone := false }

/-- Entry to SHUTDOWN: an entry in progress ends, and the stop begins. The steps of a loss of main supply come before it. -/
def beginStop (d : Dev) : Dev :=
  let d := d.modPwr fun p => { p with shutRec := true }
  if d.pwr.lossQ.isSome then d else
  let d := d.endEntry.stopTest fun _ => true
  let d := (d.each (allLanes.filter d.inRun) fun n d => d.squelchPwr n true).biasSafe
  let d := if d.domOn .msh then d.startLeaving.gasp else d
  ({ d with thm := { d.thm with stop := 1 } }).stopProgress

/-! ### The management domain (R27, R516, R573, R621) -/

/-- MGT is off: the host PLL and the tick stop with it, and the device is in the given state. An unlocked session ends, and its event
waits for MGT to run (R563). -/
def mgtDown (st : Nat) (d : Dev) : Dev :=
  let d := if d.mgmt.unlocked then
      (d.modMgmt fun m => { m with unlocked := false }).modPwr fun p => { p with late := p.late ++ [(Blk.mgt, 0xC1)] }
    else d
  let d := (d.otpInterrupt.setState st).domainDown .mgt
  let d := { d with bst := BstSt.init, cpu := CpuSt.init, thm := ThmSt.init, emptied := true }
  ((d.setReg R.CLK_STAT 0).setOn F.HKP_SYNC_EN false).modPwr fun p =>
    { p with restDue := false, booted := false, mrst := 0, wdt := 0 }

/-- MGT powers up (R516; `FLY` by log 44): its registers and memories start afresh, and the start-up sequence is due. What the
always-on domain holds stays, a retirement with it, so redundancy reads exhausted (R372, R373); the record store's address
window and the CMIS pages start again. -/
def mgtUp (d : Dev) : Dev :=
  let m := d.mgmt
  let tries := d.fld F.SEC_BOOTSTAT_TRIES
  let d := (d.resetWords (resetBy .mgt)).clearBuckets fun c => decide (8 ≤ c)
  let keep : List Host.Cell → List Host.Cell := List.filter fun c => decide (memBase 3 ≤ c.1)
  let d := { d with latch := [], clk := Clk.init, hkp := HkpSt.init, cpu := CpuSt.init, dma := DmaSt.init, bst := BstSt.init,
                    thm := ThmSt.init, nvm := { NvmSt.init with die := d.nvm.die }, cnt := CntSt.init, cap := CapSt.init, spr := SprSt.init, mapSnap := 0,
                    powerList := [], mem := keep d.mem, chk := keep d.chk, emptied := true,
                    host := Vector.replicate 16 HostSt.init, lanes := Vector.replicate 8 LaneSt.init,
                    ecc := { EccSt.init with remaps := d.ecc.remaps.filter fun r => r.1 == 3 } }
  let kept : MgmtSt := { MgmtSt.init with lpmode := m.lpmode, resetLow := m.resetLow, nonces := m.nonces,
                                          lockout := m.lockout, lockQ := m.lockQ, fails := m.fails }
  let d := d.modMgmt fun _ => kept
  let d := d.modPwr fun p => { p with restCmd := false, avsTarget := 750, avsFlight := none, avsStop := false, avsCmds := [] }
  let d := d.modSec fun s => { s with lc := s.lcAtStart, lcNext := none, hash := none, hashQ := [], restartDue := false,
                                      fwHash := 0, extHash := 0, cfgHash := 0 }
  let d := (((d.setFld F.SYS_MRST_CAUSE 0).setFld F.SEC_BOOTSTAT_TRIES tries).setOn (domBit .mgt) true).setOn F.SPR_STAT_EXHAUSTED
    (decide (d.retired ≠ 15))
  ((d.setOn F.PWR_STAT_VBAK_OK d.pwr.vbak).setState stSTANDBY).showOtp.when
    (decide (d.retired = 8) || decide (2 ≤ d.fld (F.BST_SRES_RESULT 8))) updateFly

/-- Start-up from REST, once RESET_N is recognised high. -/
def startUp (d : Dev) : Dev := if d.dstate = stREST ∧ !d.mgmt.resetLow then d.mgtUp else d

/-! ### Supplies (R572, R596 to R598) -/

/-- POR: what the always-on domain held is gone (R572, R662); MGT is off. Fuses, pin levels and the draws of free values
stay. -/
def powerOnReset (st : Nat) (d : Dev) : Dev :=
  let m := d.mgmt
  let x := Dev.init
  let x := { x with freeCtr := d.freeCtr, emptied := true,
                    sec := { SecSt.init with devId := d.sec.devId, grade := d.sec.grade, devSec := d.sec.devSec, lc := d.sec.lcAtStart,
                                             fwKey := d.sec.fwKey, mmKey := d.sec.mmKey, maint := d.sec.maint, roll := d.sec.roll },
                    mgmt := { MgmtSt.init with lpmode := m.lpmode, resetLow := m.resetLow, nonces := m.nonces },
                    pwr := { PwrSt.init with mainOk := d.pwr.mainOk, vbak := d.pwr.vbak } }
  (x.setState st).setOn (domBit .mgt) false

/-- The main supplies are valid (R572): OFF and HOLD are left for REST, and the device starts up. -/
def suppliesValid (d : Dev) : Dev :=
  let d := d.modPwr fun p => { p with mainOk := true, validDue := p.lossQ.isSome }
  if d.dstate = stOFF then (d.powerOnReset stREST).startUp
  else if d.dstate = stHOLD then (d.setState stREST).startUp
  else d

/-- `VBAK_OK` follows the backup supply while MGT is on (R596). -/
def showVbak (d : Dev) : Dev := if d.domOn .mgt then d.setOn F.PWR_STAT_VBAK_OK d.pwr.vbak else d

/-- VBAK rises to 1.6 V: in OFF the always-on domain starts from it (R572). -/
def vbakPresent (d : Dev) : Dev :=
  let d := d.modPwr fun p => { p with vbak := true }
  if d.dstate = stOFF then d.powerOnReset stHOLD else d.showVbak

/-- Steps 4 and 5 of R597: the data path and MGT power off, and the journal is sealed after the commits before it (R650); the device is
in HOLD, or in OFF without a supply of the always-on domain (R572). Main supplies that have become valid meanwhile act now (R598). -/
def lossFinish (d : Dev) : Dev :=
  let d := (d.each (allLanes.filter d.inRun) fun n d => d.squelchPwr n true).commitAll
  let st := if d.pwr.vbak || d.pwr.mainOk then stHOLD else stOFF
  let valid := d.pwr.validDue
  let d := (((d.setState st).powerOffData).mgtDown st).writeCommit 1
  let d := (d.modPwr fun p => { p with lossQ := none, validDue := false, heldOff := false }).modNvm fun _ => NvmSt.init
  if valid then d.suppliesValid else d

/-- A leaf slot of the lane begins in loss of main supply: once its DGASP leaf has left the output, three slots after it was
formed (R166, R172), the lane is squelched (R597). -/
def gaspClock (n : Lane) (d : Dev) : Dev :=
  let k := (d.link n).gaspLeft
  if k = 0 ∨ !d.slotOpen n then d
  else (d.modLink n fun l => { l with gaspLeft := k - 1 }).when (k == 1) (squelchPwr n true)

/-- A boundary passes in loss of main supply: step 4 follows once every DGASP has left, or after two whole quires. DESIGN CHOICE (log 26):
it falls at a boundary. -/
def lossTick (d : Dev) : Dev :=
  match d.pwr.lossQ with
  | none => d
  | some k => if 2 ≤ k ∨ !d.gasping then d.lossFinish else d.modPwr fun p => { p with lossQ := some (k + 1) }

/-- The tick has stopped, or the domains are to go off: nothing is left to wait for. -/
def lossStopped (d : Dev) : Dev := if d.pwr.lossQ.isSome ∧ !d.on F.CLK_STAT_TICK_RUN then d.lossFinish else d

/-- VBAK falls below 1.6 V: with the main supplies absent the device is off (R572). -/
def vbakLoss (d : Dev) : Dev :=
  let d := d.modPwr fun p => { p with vbak := false }
  if d.pwr.mainOk then d.showVbak
  else if d.dstate = stHOLD then d.setState stOFF
  else if d.pwr.lossQ.isSome then d.lossFinish
  else d.showVbak

/-- A loss is counted, and its event queued once MGT next runs (R598). -/
def countLoss (d : Dev) : Dev :=
  (d.bump R.PWR_MAIN_LOSS).modPwr fun p => { p with late := p.late ++ [(Blk.pwr, 0xD9)], validDue := false }

/-- Steps 1 to 3 of R597: any transition in progress ends, lanes without an UP link are squelched, the bias DACs go safe, and a DGASP
falls due on every UP link. Whether VDD_IO and the other rails hold long enough for steps 2 and 3 is outside the device: a free
value (log 2). -/
def lossBegin (d : Dev) : Dev :=
  let d := d.endEntry.modPwr fun p => { p with lossQ := some 0 }
  let d := { d with thm := { d.thm with stop := 0 } }
  let (w, d) := d.takeFree
  if w.getLsbD 0 then d.lossFinish
  else
    let d := d.each (allLanes.filter fun n => d.inRun n && !d.linkUp n) fun n d => d.squelchPwr n true
    let d := (({ d with hkp := { d.hkp with causeSup := true } }).biasSafe).gasp
    if d.active && d.pwr.sbyDown == 0 && d.on F.CLK_STAT_TICK_RUN && d.gasping then d else d.lossFinish

/-- VDD_IO falls below 1.62 V (R597, R598). The steps run once; a further loss in them, or in HOLD after VDD_IO had returned, is
counted, and takes HOLD to OFF without VBAK (R572). -/
def mainSupplyLoss (d : Dev) : Dev :=
  let returned := d.pwr.mainOk
  let d := d.modPwr fun p => { p with mainOk := false }
  if d.dstate < stREST then
    if returned && d.dstate == stHOLD then (if d.pwr.vbak then d.countLoss else d.setState stOFF) else d
  else if d.pwr.lossQ.isSome then if returned then d.countLoss else d
  else d.countLoss.lossBegin

/-- VDD_IO has been at or above 1.66 V for 1 ms (R596): the always-on domain runs from it again. HOLD is left, and the cause of R438
gone, when the main supplies are valid (R439, R572). -/
def mainSupplyReturn (d : Dev) : Dev := d.modPwr fun p => { p with mainOk := true }

/-! ### RESET_N, LPMODE and REST (R553, R554, R573, R580) -/

/-- `RESET_N` recognised low: the data path and MGT turn off, whatever transition is in progress (R574). The steps of a loss of main
supply complete (R598). -/
def resetLow (d : Dev) : Dev :=
  let d := d.modMgmt fun m => { m with resetLow := true, busy := [], rdata := [] }
  if d.dstate < stREST then d
  else if d.pwr.lossQ.isSome then d.lossFinish
  else
    let d := d.each (allLanes.filter d.inRun) fun n d => d.squelchPwr n true
    (((d.dropDynamic.setState stREST).powerOffData).mgtDown stREST).modPwr fun p => { p with restCmd := false, heldOff := false }

def resetRelease (d : Dev) : Dev := (d.modMgmt fun m => { m with resetLow := false }).startUp

/-- A recognised change of LPMODE (R554); in REST entered by `PWR.CTRL.REST` it wakes MGT (R580). -/
def lpmodeChange (level : Bool) (d : Dev) : Dev :=
  if d.mgmt.lpmode = level then d
  else
    let d := d.modMgmt fun m => { m with lpmode := level }
    if d.domOn .mgt then d.raise Blk.mgt 0xC6 0
    else if d.pwr.restCmd then
      ((d.startUp).modPwr fun p => { p with late := p.late ++ [(Blk.mgt, 0xC6)] })
    else d

/-- `PWR.CTRL.REST` (R573): MGT turns off at the next internal boundary. -/
def restRequest (d : Dev) : Dev := if d.dstate = stSTANDBY then d.modPwr fun p => { p with restDue := true } else d

/-- REST is entered at an internal boundary. -/
def restTick (d : Dev) : Dev :=
  if d.pwr.restDue ∧ d.dstate = stSTANDBY then
    ((d.stopTest fun _ => true).powerOffData.mgtDown stREST).modPwr fun p => { p with restCmd := true }
  else d

/-! ### RTC (R581, R582) -/

/-- Seconds of `PWR.RTC_SET` and `PWR.RTC_ALM`. -/
def rtcSet (d : Dev) : BitVec 48 :=
  BitVec.ofNat 48 (d.fld F.PWR_RTC_SET_HI_SEC * 2 ^ 32 + (d.reg R.PWR_RTC_SET_LO).toNat)

def rtcAlm (d : Dev) : BitVec 48 :=
  BitVec.ofNat 48 (d.fld F.PWR_RTC_ALM_HI_SEC * 2 ^ 32 + (d.reg R.PWR_RTC_ALM_LO).toNat)

/-- An alarm falls due (R581). -/
def alarmCheck (d : Dev) : Dev :=
  if d.on F.PWR_RTC_CTRL_ALM_EN && d.pwr.rtcSub == 0 && d.pwr.rtc == d.rtcAlm then
    d.modPwr fun p => { p with alarmDue := true }
  else d

/-- One edge of the 32.768 kHz clock at the RTC: a LOAD acts, or the count advances. -/
def rtcEdge (d : Dev) : Dev :=
  if d.pwr.loadDue then
    (d.modPwr fun p => { p with rtc := d.rtcSet, rtcSub := 0, loadDue := false }).alarmCheck
  else if d.pwr.rtcSub = 0x7FFF then
    let d := (d.modPwr fun p => { p with rtc := p.rtc + 1, rtcSub := 0 }).alarmCheck
    d.budgetSecond
  else d.modPwr fun p => { p with rtcSub := p.rtcSub + 1 }

/-- `RTC_ALARM`: an alarm that fell due (R581). In REST entered by `PWR.CTRL.REST` it wakes MGT (R580). -/
def rtcAlarm (d : Dev) : Dev :=
  if !d.pwr.alarmDue then d
  else
    let d := d.modPwr fun p => { p with alarmDue := false }
    if d.domOn .mgt then d.raise Blk.pwr 0xD8 0
    else
      let d := d.modPwr fun p => { p with late := p.late ++ [(Blk.pwr, 0xD8)] }
      if d.pwr.restCmd then d.startUp else d

/-! ### Watchdog and restart of the management domain (R477, R478) -/

/-- One cycle of the watchdog's clock. -/
def wdtEdge (d : Dev) : Dev := if d.domOn .mgt then d.modPwr fun p => { p with wdt := p.wdt + 1 } else d

/-- Any write to `SYS.WDT_KICK`. -/
def wdtKick (d : Dev) : Dev := d.modPwr fun p => { p with wdt := 0 }

/-- The watchdog expires. -/
def watchdogExpiry (d : Dev) : Dev :=
  if d.domOn .mgt && d.on F.SYS_WDT_CFG_EN && d.pwr.mrst == 0 && decide (d.fld F.SYS_WDT_CFG_PERIOD * 32 ≤ d.pwr.wdt) then
    d.modPwr fun p => { p with mrst := 1 }
  else d

/-- The cause of a restart that is due, 0 none: a halt under R476 is cause 2. -/
def restartCause (d : Dev) : Nat := if d.pwr.mrst ≠ 0 then d.pwr.mrst else if d.cpu.halted then 2 else 0

/-- SRAM contents, remaps and word tracking are lost (R478, R662); the retention SRAM keeps its own. -/
def loseSrams (d : Dev) : Dev :=
  let keep : List Host.Cell → List Host.Cell := List.filter fun c => decide (memBase 3 ≤ c.1)
  ({ d with mem := keep d.mem, chk := keep d.chk }).modEcc fun e =>
    { e with remaps := e.remaps.filter fun r => r.1 == 3, track := [] }

/-- Operations that do not survive a restart are abandoned (R489, R648, R653); the record store keeps the die it was sent (R652). -/
def abandonWork (d : Dev) : Dev :=
  let d := (d.eccRestart.otpInterrupt.setOn F.SEC_KEYSTAT_ENBUSY false).setFld F.SEC_VSTAT_STATE 0
  let d := if d.fld F.SEC_ATT_STAT_STATE = 1 then d.setFld F.SEC_ATT_STAT_STATE 0 else d
  let d := (d.setOn F.SEC_ATT_STAT_PKV false).modSec fun s =>
    { s with hash := none, hashQ := [], fwHash := 0, extHash := 0, cfgHash := 0, restartDue := false }
  (d.setReg R.NVM_STAT 0).modNvm fun n => { NvmSt.init with die := n.die }

/-- A restart of the management domain starts the exclusions, BAD flags and readings again (R736). -/
def thermalRestart (d : Dev) : Dev :=
  let d := d.each (List.range 16) fun k d => d.setReg (R.THM_T k) 0
  (d.setReg R.THM_EXCL 0).modThm fun t => { t with relatch := true }

/-- A register word, outside the ECC, CNT, DMA and HKP blocks, that a restart of the management domain takes back to its reset value
(R516): interrupt enables and access records of SYS, and the port's configuration (log 15). -/
def restartWord (a : Nat) : Bool :=
  a == R.SYS_IRQ_EN || decide (0x10000060 ≤ a ∧ a < 0x10000080) || decide (0x101B0000 ≤ a ∧ a < 0x101B0010)

/-- A byte of the page store that a restart leaves, since traffic runs on through it (R478, R733): the low-power controls of byte 26
and the host-lane controls of pages 10h and 13h (log 15). -/
def keptByte (k : Nat) : Bool := k == 26 || k % 65536 / 256 == 0x11 || k % 65536 / 256 == 0x14

/-- What a restart takes back in the SYS and MGT blocks, the holding copies of every `EVLOST` (R700), and the page store. -/
def restartBlocks (d : Dev) : Dev :=
  let d := (d.resetWords restartWord).setFld F.SYS_RT_OVR 0
  ({ d with hold := d.hold.filter fun c => c.1 % 0x10000 != 0x7F08 }).modMgmt fun m =>
    { m with pages := m.pages.filter fun c => keptByte c.1, busy := [], ready := false, rdata := [], resp := [] }

/-- `MANAGEMENT_RESTART` (R478): the data path runs on, and the start-up sequence is due. -/
def managementRestart (d : Dev) : Dev :=
  let cause := d.restartCause
  if cause = 0 ∨ !d.domOn .mgt then d
  else
    let d := ((d.setFld F.SYS_MRST_CAUSE cause).bumpFld F.SYS_MRST_COUNT).endSession
    let d := (d.stopTest fun t => t.part == 3).abandonWork.loseSrams
    let d := ((d.hkpRestart.thermalRestart.cntReset.dmaReset).clearBuckets fun c => decide (8 ≤ c)).setOn
      F.PWR_AVS_STAT_DEGRADED false
    let d := d.restartBlocks.modPwr fun p =>
      { p with mrst := 0, wdt := 0, booted := false, avsStop := false, late := p.late ++ [(Blk.sys, 0x02)] }
    let d := d.modSec fun s => { s with lc := s.lcAtStart, lcNext := none }
    ({ d with latch := [], cpu := d.cpu.restarted, powerList := [], emptied := true }).showOtp

/-! ### Core supply (R592 to R595) -/

def avsNow (d : Dev) : Nat := d.fld F.PWR_AVS_STAT_VNOW

/-- Send a request for v mV: a write of Vout and the Status read that follows it, on the rail of `AVS_CFG` (R592, R593). -/
def avsRequest (v : Nat) (d : Dev) : Dev :=
  let rail := d.fld F.PWR_AVS_CFG_RAIL
  (d.modPwr fun p => { p with avsFlight := some v, avsCmds := [.writeVout rail v, .readStatus rail] }).setOn F.PWR_AVS_STAT_BUSY true

/-- With none in flight, the next request toward the target, at most 25 mV away (R593, R595). -/
def avsNext (d : Dev) : Dev :=
  let now := d.avsNow
  let t := d.pwr.avsTarget
  if d.pwr.avsFlight.isSome || d.pwr.avsStop || t == now then d
  else d.avsRequest (if now ≤ t then min t (now + 25) else max t (now - 25))

/-- A write of `PWR.AVS_VSET` (R593). -/
def avsVset (v : Word) (d : Dev) : Dev :=
  let mv := v.toNat % 1024
  if 650 ≤ mv ∧ mv ≤ 850 then
    (((d.setFld F.PWR_AVS_VSET_MV mv).setOn F.PWR_AVS_STAT_RANGE_ERR false).modPwr fun p => { p with avsTarget := mv }).avsNext
  else d.setOn F.PWR_AVS_STAT_RANGE_ERR true

/-- The request in flight ends. -/
def avsIdle (d : Dev) : Dev := (d.modPwr fun p => { p with avsFlight := none, avsCmds := [] }).setOn F.PWR_AVS_STAT_BUSY false

/-- The request in flight is acknowledged (R593). -/
def avsAck (d : Dev) : Dev :=
  match d.pwr.avsFlight with
  | none => d
  | some v => ((d.setFld F.PWR_AVS_STAT_VNOW v).avsIdle).avsNext

/-- The request in flight is not acknowledged within 1 ms (R594): one request for the last voltage, unless requests have
stopped; one event of class 10. -/
def avsTimeout (d : Dev) : Dev :=
  match d.pwr.avsFlight with
  | none => d
  | some _ =>
    let d := if d.pwr.avsStop then d.avsIdle else d.avsRequest d.avsNow
    ((d.bump R.PWR_AVS_TO).raise Blk.pwr 0xD6 0).charge 10 0 fun d =>
      ((d.setOn F.PWR_AVS_STAT_DEGRADED true).modPwr fun p => { p with avsStop := true }).raise Blk.pwr 0xD7 0

end Dev

end Sys2Proof.Machine
end

