-- ==== Sys2Proof/Machine/Thermal.lean ====
section
/-! DEFINITION. Thermal protection (chapter 18): samples, judgement, levels, throttle, safe profile, orderly stop. -/

namespace Sys2Proof.Machine

namespace Dev

/-- A live threshold in quarter degrees. -/
def thr (d : Dev) (f : Fld) : Int := 4 * (d.lv f : Int)

/-- HYST in quarter degrees; 0 acts as 1 °C (R619). -/
def hyst (d : Dev) : Int := 4 * (max 1 (d.lv F.THM_CFG_HYST) : Nat)

def thmLevel (d : Dev) : Nat := d.fld F.THM_STAT_LEVEL

/-! ### Readings (R603 to R606) -/

/-- The reading lies within −50 to +150 °C. -/
def inThermRange (r : Int) : Bool := decide (-200 ≤ r ∧ r ≤ 600)

def excluded (d : Dev) (k : Nat) : Bool := d.on ⟨R.THM_EXCL, k, 1⟩

/-- Plausible under R604, for the sample's readings in quarter degrees. -/
def plausible (d : Dev) (rs : List Int) (k : Nat) : Bool :=
  let r := rs.getD k 0
  let lim : Int := 4 * (max 1 (d.lv F.THM_CFG_NBR_LIM) : Nat)
  let nbrs := [(k + 15) % 16, (k + 1) % 16].filter fun j => !d.excluded j && inThermRange (rs.getD j 0)
  inThermRange r && (nbrs.isEmpty || nbrs.any fun j => decide ((r - rs.getD j 0).natAbs ≤ lim.toNat))

/-- A reading is recorded; one not among the plausible `ok` is counted and charged to its sensor (R605). -/
def takeReading (rs : List Int) (ok : List Nat) (k : Nat) (d : Dev) : Dev :=
  let d := d.setFld (F.THM_T_TEMP k) (toField 11 (rs.getD k 0))
  if ok.contains k then d.setOn (F.THM_T_BAD k) false
  else
    let d := (d.setOn (F.THM_T_BAD k) true).bump R.THM_SBAD
    d.charge 11 k fun d => (d.setOn ⟨R.THM_EXCL, k, 1⟩ true).raise Blk.thm 0xE6 k

/-! ### Throttle and levels (R607 to R616) -/

/-- Enforcement of throttle (R614, R666). -/
def enforce (d : Dev) : Dev :=
  ((((d.setOn F.THM_STAT_ENF true).bump R.THM_ENFS).raise Blk.thm 0xE3 0).endShadow 5).stopTest fun _ => true

/-- A sample is to be acted on at this boundary (R609). -/
def judgementDue (d : Dev) : Bool := d.thm.sampling && decide (1 ≤ d.thm.age)

/-- The grace count has run out (R614). -/
def graceOver (d : Dev) : Bool := decide (2 ≤ d.thmLevel) && decide (d.lv F.THM_GRACE_GRACE * 1024 ≤ d.thm.grace)

/-- Throttle takes effect at the boundary in progress, whose quire the grace count has yet to take (R349, R614). -/
def throttleNext (d : Dev) : Bool :=
  decide (2 ≤ d.thmLevel) && decide (d.lv F.THM_GRACE_GRACE * 1024 ≤ d.thm.grace + 1) && !d.on F.THM_STAT_ENF

/-- The swap commits at Bs (R350); on a compatibility lane the receive switch is at the same boundary. -/
def swapCommit (d : Dev) : Dev :=
  let d := d.commitSwap
  if d.native then d else d.flySwitch d.target

/-- A commit that waited for this boundary's judgement is decided (R349): throttle that takes effect at it ends the shadow. -/
def commitHeld (d : Dev) : Dev :=
  if !d.spr.commitDue then d
  else
    let d := d.modSpr fun p => { p with commitDue := false }
    if d.phase ≠ 2 then d else if d.graceOver && !d.on F.THM_STAT_ENF then d.endShadow 5 else d.swapCommit

/-- Entry actions of a level (R612, R613, R616); self-tests end as NORMAL is left (R666, R673). -/
def enterLevel (l : Nat) (d : Dev) : Dev :=
  let d := d.setFld F.THM_STAT_LEVEL l
  let d := if l = 1 then (d.stopTest fun _ => true).fullAbandon else d
  if l = 1 then ((d.latchFlag 9 2).bump R.THM_WARNS).raise Blk.thm 0xE0 0
  else if l = 2 then
    let d := ((d.latchFlag 9 0).setOn F.THM_STAT_REQ true).bump R.THM_REQS
    let d := (d.raise Blk.thm 0xE2 0).modThm fun t => { t with grace := 0 }
    if d.graceOver && !d.on F.THM_STAT_ENF then d.enforce else d
  else ((d.bump R.THM_SHUTS).raise Blk.thm 0xE5 0).beginStop

/-- A fall of the level to l (R612, R615). In the safe profile ENF stays (R607). -/
def fallTo (l : Nat) (d : Dev) : Dev :=
  let from2 := decide (2 ≤ d.thmLevel)
  let d := d.setFld F.THM_STAT_LEVEL l
  let d := if !from2 then d
    else
      let d := d.setOn F.THM_STAT_REQ false
      if d.on F.THM_STAT_SAFE then d else (d.setOn F.THM_STAT_ENF false).raise Blk.thm 0xE4 0
  if l = 0 then d.raise Blk.thm 0xE1 0 else d

/-- The level after a judged temperature (R610, R611). -/
def judgeLevel (tj : Int) (d : Dev) : Dev :=
  let w := d.thr F.THM_CFG_WARN
  let t := d.thr F.THM_CFG_THROT
  let up := if d.thr F.THM_CFG_SHUT ≤ tj then 3 else if t ≤ tj then 2 else if w ≤ tj then 1 else 0
  let cur := d.thmLevel
  if cur < up then d.each ((List.range 4).filter fun l => decide (cur < l ∧ l ≤ up)) enterLevel
  else if cur = 2 ∧ tj < t - d.hyst then d.fallTo (if tj < w - d.hyst then 0 else 1)
  else if cur = 1 ∧ tj < w - d.hyst then d.fallTo 0
  else d

/-- The safe profile (R607), judged after the level. -/
def judgeSafe (vcnt : Nat) (d : Dev) : Dev :=
  if vcnt < 4 then
    if d.on F.THM_STAT_SAFE then d
    else
      let d := (d.setOn F.THM_STAT_SAFE true).raise Blk.thm 0xE7 vcnt
      if d.on F.THM_STAT_ENF then d else d.enforce
  else if !d.on F.THM_STAT_SAFE then d
  else
    let d := (d.setOn F.THM_STAT_SAFE false).raise Blk.thm 0xE9 0
    let d := if d.graceOver || !d.on F.THM_STAT_ENF then d else (d.setOn F.THM_STAT_ENF false).raise Blk.thm 0xE4 0
    d.setOn F.THM_STAT_REQ (decide (2 ≤ d.thmLevel))

/-- FAST of R608 for a judged temperature. -/
def nearThreshold (d : Dev) (tj : Int) : Bool :=
  [F.THM_CFG_WARN, F.THM_CFG_THROT, F.THM_CFG_SHUT].any fun f => decide ((tj - d.thr f).natAbs ≤ 20)

/-- A sample falls due (R608, R618) and starts at step 4 of a boundary (R603). -/
def thermalSample (d : Dev) : Dev :=
  let due := if d.on F.THM_STAT_FAST then 4 else 96
  if !d.domOn .mgt || !d.on F.CLK_STAT_TICK_RUN || d.thm.sampling then d
  else if d.thm.started ∧ d.thm.age < due then d
  else d.modThm fun t => { t with age := 0, started := true, sampling := true }

/-- The CMIS flags of the level in force latch again after a restart (R736). -/
def relatchFlags (d : Dev) : Dev :=
  if !d.thm.relatch then d
  else
    let d := d.modThm fun t => { t with relatch := false }
    let d := if 1 ≤ d.thmLevel then d.latchFlag 9 2 else d
    if 2 ≤ d.thmLevel then d.latchFlag 9 0 else d

/-- The device acts on a sample one quire after it started (R609). Readings are in 1/256 °C, rounded to quarter
degrees, halves up (R603). -/
def thermalJudgement (readings : List Int) (d : Dev) : Dev :=
  if !d.judgementDue ∨ !d.domOn .mgt then d
  else
    let rs := readings.map fun x => roundUp x 64
    let d := d.modThm fun t => { t with sampling := false, acted := true }
    let ok := (List.range 16).filter fun k => d.plausible rs k
    let d := d.each (List.range 16) (takeReading rs ok)
    let used := ok.filter fun k => !d.excluded k
    let vcnt := used.length
    let d := (d.setFld F.THM_STAT_VCNT vcnt).calTemperatures rs used
    let d := d.relatchFlags
    match used with
    | [] => d.judgeSafe 0
    | k :: ks =>
      let tj := ks.foldl (fun m j => max m (rs.getD j 0)) (rs.getD k 0)
      let d := (d.setFld F.THM_STAT_TJ (toField 11 tj)).setTempMonitor (64 * tj)
      let d := d.setOn F.THM_STAT_FAST (d.nearThreshold tj)
      let stopping := d.thm.stop != 0
      let d := d.judgeLevel tj
      let d := d.judgeSafe vcnt
      if stopping && decide (d.thr F.THM_CFG_SHUT + 16 ≤ tj) then d.finishStop else d

/-- Throttle is enforced when the grace time ends (R614); a judgement due at the same boundary comes first (R615). -/
def throttleEnforce (d : Dev) : Dev :=
  if d.graceOver && !d.on F.THM_STAT_ENF && !d.judgementDue then d.enforce else d

/-- One internal quire passes for the thermal manager. -/
def thermalTick (d : Dev) : Dev :=
  d.modThm fun t => { t with age := t.age + 1, grace := if 2 ≤ d.thmLevel then t.grace + 1 else 0 }

/-- Press check of group 0 (R619): WARN < THROT < SHUT ≤ 125. -/
def thermalPress (d : Dev) : Dev :=
  let w := d.fld F.THM_CFG_WARN
  let t := d.fld F.THM_CFG_THROT
  let s := d.fld F.THM_CFG_SHUT
  if w < t ∧ t < s ∧ s ≤ 125 then (d.pressWords [R.THM_CFG, R.THM_GRACE]).setOn F.THM_STAT_CFG_ERR false
  else (d.setOn F.THM_STAT_CFG_ERR true).raise Blk.thm 0xE8 0

/-- ACTIVE is allowed (R618): a first sample has been acted on, and while the record of a thermal shutdown stands, Tj
lies below THROT − HYST on at least one reading. -/
def thermalAllows (d : Dev) : Bool :=
  d.thm.acted && (!d.pwr.shutRec ||
    (decide (1 ≤ d.fld F.THM_STAT_VCNT) && decide (d.sfld F.THM_STAT_TJ < d.thr F.THM_CFG_THROT - d.hyst)))

/-- `THERMAL_JUDGEMENT`: a sample that waits is acted on, and an entry to ACTIVE that it allows begins (R609, R618). -/
def thermalAct (readings : List Int) (d : Dev) : Dev :=
  if !d.judgementDue ∨ !d.domOn .mgt then d
  else
    let d := (d.thermalJudgement readings).commitHeld
    d.followRequest d.thermalAllows

end Dev

end Sys2Proof.Machine
end

