-- ==== Sys2Proof/Machine/Bus.lean ====
section
/-! DEFINITION. The register bus (chapter 15): what an address names, who may reach it, what a read returns and does, and
what a write stores and starts. A command stands for the clock in which its access is served, so no stall appears. -/

namespace Sys2Proof.Machine

/-! ### Places (R696 to R699, R520) -/

/-- What a word of register space names. -/
inductive Place where
  | live (r : RegRow) | hold (r : RegRow) | evq (b : Nat) | evstat (b : Nat) | evlost (b : Nat) | evlostHold (b : Nat)
  deriving DecidableEq, Repr

/-- Block b exists (R696). -/
def blockExists (b : Nat) : Bool := decide (b < 31) && b != 7

/-- A block guarded in every register, its event registers among them (R696, R699). -/
def wholeGuarded (b : Nat) : Bool := decide (8 ≤ b ∧ b ≤ 16) || [24, 25, 28, 29, 30].contains b

/-- The block number of a register address. -/
def blockOf (a : Nat) : Nat := (a - 0x10000000) / 0x10000

/-- What the word at a register address names, `none` where no register is (R515, R697, R698). -/
def place (a : Nat) : Option Place :=
  if a < 0x10000000 ∨ 0x10200000 ≤ a ∨ a % 4 ≠ 0 then none
  else
    let b := blockOf a
    let off := a % 0x10000
    if blockExists b && off == 0x7F00 then some (.evq b)
    else if blockExists b && off == 0x7F04 then some (.evstat b)
    else if blockExists b && off == 0x7F08 then some (.evlost b)
    else if blockExists b && off == 0xFF08 then some (.evlostHold b)
    else match regRow a with
      | some (r, _, _) => some (.live r)
      | none =>
        if off < 0x8000 then none
        else match regRow (a - 0x8000) with
          | some (r, _, _) => if r.cap = .none then none else some (.hold r)
          | none => none

/-- Guarded (R699). -/
def Place.guarded : Place → Bool
  | .live r | .hold r => r.guarded
  | .evq b | .evstat b | .evlost b | .evlostHold b => wholeGuarded b

/-- The word holds an RQ field. -/
def Place.queue : Place → Bool
  | .evq _ => true
  | .live r => r.rq != 0
  | _ => false

/-- The bytes of an access width. -/
def widthBytes : Width → Nat
  | .byte => 1
  | .half => 2
  | .word => 4

/-- An address of the alias region. -/
def isAlias (a : Nat) : Bool := decide (0x20000000 ≤ a ∧ a < 0x24000000)

/-- The register word an access reaches, and the bit of an alias word (R520). -/
def busTarget (a : Nat) : Nat × Option Nat :=
  if isAlias a then (0x10000000 + (a - 0x20000000) / 128 * 4, some ((a - 0x20000000) / 4 % 32)) else (a - a % 4, none)

/-- The bits of the word that an access of a width covers. -/
def coverMask (a : Nat) (w : Width) : Word := BitVec.ofNat 32 ((2 ^ (8 * widthBytes w) - 1) * 2 ^ (8 * (a % 4)))

/-- The bytes of a word that a read of a width returns. -/
def narrowRead (a : Nat) (w : Width) (v : Word) : Word := BitVec.ofNat 32 (v.toNat / 2 ^ (8 * (a % 4)) % 2 ^ (8 * widthBytes w))

/-! ### Masters (R509) -/

def masterIndex : Master → Nat
  | .cpuM => 0
  | .cpuU => 1
  | .dma => 2
  | .debug => 3
  | .host => 4
  | .mesh => 5

/-- The counter of a master's denials (R538, R544). -/
def denyCounter : Master → Option Nat
  | .cpuM => none
  | .cpuU => some R.SYS_DENY_USER
  | .dma => some R.SYS_DENY_DMA
  | .debug => some R.SYS_DENY_DBG
  | .host => some R.SYS_DENY_HOST
  | .mesh => some R.SYS_DENY_MESH

/-- The master may wake a domain (R509). -/
def wakes : Master → Bool
  | .dma | .mesh => false
  | _ => true

namespace Dev

/-- Trusted at this moment (R509, R539). -/
def trusted (d : Dev) : Master → Bool
  | .cpuM => true
  | .debug => d.sec.lc == 1 || d.sec.lc == 3
  | .host => d.mgmt.unlocked
  | _ => false

/-- A denied access is counted for its master, with its address (R538). -/
def denyAccess (m : Master) (a : Nat) (d : Dev) : Dev :=
  match denyCounter m with
  | some c => (d.bump c).setReg R.SYS_DENY_ADDR (BitVec.ofNat 32 a)
  | none => d

/-- A misaligned or unmapped access is counted (R514, R515). -/
def badAccess (a : Nat) (d : Dev) : Dev := (d.bump R.SYS_BADACC).setReg R.SYS_BAD_ADDR (BitVec.ofNat 32 a)

/-! ### Domains an access wakes (R541, R542, R571) -/

/-- Held off by policy: the data path after a thermal shutdown or without firmware, a retired slice. -/
def heldDomain (d : Dev) (x : Dom) : Bool :=
  (isDataDomain x && d.pwr.heldOff) || (match x with | .slc s => d.retired == (s : Nat) | _ => false)

/-- The state and configuration require the domain (R569, R570). -/
def required (d : Dev) (x : Dom) : Bool :=
  (d.dstate == stToACTIVE && d.pwr.entry.contains x) || match x with
  | .slc s => d.active && ((d.laneOf s).isSome || d.flyleaf == (s : Nat) || d.fld F.SPR_STAT_TESTING == (s : Nat) || d.shadows s)
  | .lfe n => d.active && d.fld (laneStat n) != 0
  | .hg k => d.active && d.groupWanted k
  | .msh => d.active
  | .mgt | .aon => true

/-- A domain powers up for an access. -/
def wakeDomain (x : Dom) (d : Dev) : Dev :=
  if d.domOn x then d
  else
    let d := match x with
      | .mgt => d.startUp
      | _ => d.powerUp x
    if isDataDomain x then d.modPwr fun p => { p with woken := p.woken ++ [(x, 0)] } else d

/-- The idle time of a domain that an access woke starts again. -/
def touch (x : Dom) (d : Dev) : Dev :=
  d.modPwr fun p => { p with woken := p.woken.map fun q => if q.1 = x then (x, 0) else q }

/-- `DOMAIN_IDLE_OFF`: 1,024 quires without an access (R571). -/
def idleOff (x : Dom) (d : Dev) : Dev :=
  if d.pwr.woken.any fun p => p.1 == x && decide (1024 ≤ p.2) then
    if d.required x then d.modPwr fun p => { p with woken := p.woken.filter fun q => q.1 != x }
    else match x with
    | .lfe n => d.frontEndOff n
    | _ => d.domainDown x
  else d

/-- The SRAM that the debug port reaches at an address (R463, R465): not the retention SRAM (R464). -/
def debugSram (a : Nat) : Option Nat := match memOf a with | some 3 => none | x => x

/-- The bus is there: MGT is on, or the debug port wakes it from REST (R541), unless RESET_N is low. -/
def busUp (m : Master) (d : Dev) : Dev := if m = .debug ∧ !d.domOn .mgt then d.startUp else d

/-- The debug port's access is not one that wakes no domain: a guarded register admits trusted masters alone (R538). DESIGN CHOICE
(log 10): so does an SRAM, debug access being for trusted states (R646). -/
def admits (d : Dev) (m : Master) (a : Nat) : Bool :=
  d.trusted m || match place (busTarget a).1 with | some p => !p.guarded | none => (debugSram a).isNone

/-- An access is judged (R514, R515, R538, R541, R542, R419, R591): how it ends, and the device before it is performed. -/
def judge (m : Master) (a : Nat) (w : Width) (read : Bool) (d : Dev) : Access × Dev :=
  if a % widthBytes w ≠ 0 ∨ (isAlias a ∧ w ≠ .word) then (.bad, d.badAccess a)
  else
    let reg := (busTarget a).1
    match place reg with
    | none => (.bad, d.badAccess a)
    | some p =>
      if (p.guarded && !d.trusted m) || (m == .mesh && read && p.queue && !isAlias a) then (.denied, d.denyAccess m a)
      else
        let x := domainOf reg
        if d.domOn x then (.done, d.touch x)
        else if wakes m && !d.heldDomain x then if d.dstate = stToSTANDBY then (.stalled, d) else (.done, d.wakeDomain x)
        else (.off, d)

/-- The access would wait for STANDBY (R591). A command stands for the clock in which an access is served, so a stalled one does
nothing, and its master presents it again. -/
def stalls (d : Dev) (m : Master) (a : Nat) (w : Width) (read : Bool) : Bool := (d.judge m a w read).1 == .stalled

/-! ### Reads -/

/-- The word of a queued event (R531). -/
def evWord (e : Ev) : Word := BitVec.ofNat 32 (e.code.toNat * 2 ^ 24 + e.lane.toNat * 2 ^ 20 + e.qlow.toNat)

/-- The head entry of a queue, or 0 (R527). -/
def headWord (q : EvQ) : Word := match q.q with | e :: _ => evWord e | [] => 0

/-- The queue of block b. -/
def queueOf (q : Vector EvQ 32) (b : Nat) : EvQ := q[Fin.ofNat 32 b]

/-- The lane and window word of a ribbon-window address (R312). -/
def ribbonPlace (a : Nat) : Option (Lane × Nat) :=
  let off := a % 0x100
  if a / 0x10000 = 0x1012 ∧ a % 0x10000 < 0x800 ∧ 0x40 ≤ off ∧ off < 0x88 then
    some (Fin.ofNat 8 (a % 0x10000 / 0x100), (off - 0x40) / 4)
  else none

/-- The journal word a `SEC.JNL_Wk` address shows (R649). -/
def jnlPlace (d : Dev) (a : Nat) : Option Nat :=
  if 0x101C0100 ≤ a ∧ a < 0x101C0200 then some (64 * d.fld F.SEC_JNL_PAGE_PAGE + (a - 0x101C0100) / 4) else none

/-- `SYS.IRQ_PEND` (R461). -/
def irqPend (q : Vector EvQ 32) : Word :=
  BitVec.ofNat 32 (((List.range 31).filter fun b => !(queueOf q b).q.isEmpty).map fun b => 2 ^ b).sum

/-- `FLT.LVL` for the instance `FLT.SEL` selects, and `FLT.LSUM` (R675). -/
def fltLevel (d : Dev) : Word :=
  let b := d.bucket (d.fld F.FLT_SEL_CLS) (d.fld F.FLT_SEL_INST)
  BitVec.ofNat 32 (b.lasting.toNat * 2 ^ 31 + b.level)

def fltSum (d : Dev) : Word :=
  BitVec.ofNat 32 (((List.range 13).filter fun c => d.flt.any fun b => b.cls == c && b.lasting).map fun c => 2 ^ c).sum

/-- The head sample as `CNT.SMP_ENT2` shows it (R683). -/
def sampleWord (d : Dev) : Word :=
  match d.cnt.samples with
  | x :: _ => BitVec.ofNat 32 (2 ^ 31 + x.machine.toNat * 2 ^ 30 + x.lat)
  | [] => 0

/-- `SPR.ASSIGN`: the nibble of a lane outside RUN reads 0xF (R38). DESIGN CHOICE (log 44): so it is from the power-up of MGT on, when
every lane is in LANE-OFF, though the reset word of the map is 0x7654_3210 (R700). -/
def assignWord (d : Dev) : Word :=
  BitVec.ofNat 32 (allLanes.foldl (fun w (n : Lane) => w + (if d.inRun n then d.carrier n else 15) * 16 ^ (n : Nat)) 0)

/-- `CAL.STAT`: EST is 1 while receive or transmit estimation goes on (R315, R319). -/
def calStatWord (d : Dev) (a : Nat) : Word :=
  let n : Lane := Fin.ofNat 8 ((a - R.CAL_STAT 0) / 0x100)
  putBits (d.reg a) (F.CAL_STAT_EST n) (d.receives n || d.transmitEst n).toNat

/-- `BST.STAT`: WAIT follows its conditions (R518, R665). -/
def testStatWord (d : Dev) : Word := putBits (d.reg R.BST_STAT) F.BST_STAT_WAIT d.waitReason

/-- What a live register that no stored word holds reads. -/
def derivedWord (q : Vector EvQ 32) (d : Dev) (a : Nat) : Option Word :=
  if a = R.SYS_IRQ_PEND then some (irqPend q)
  else if a = R.SPR_ASSIGN then some (d.assignWord)
  else if 0x10130000 ≤ a ∧ a < 0x10130800 ∧ a % 0x100 = 0x10 then some (d.calStatWord a)
  else if a = R.BST_STAT then some d.testStatWord
  else if a = R.SYS_ID then some (BitVec.ofNat 32 (0xA1 + d.sec.grade.toNat * 256))
  else if a = R.CLK_QNUM_LO then some (d.clk.qnum.setWidth 32)
  else if a = R.CLK_QNUM_HI then some (BitVec.ofNat 32 (d.clk.qnum.toNat / 2 ^ 32))
  else if a = R.PWR_RTC_SUB then some (d.pwr.rtcSub.setWidth 32)
  else if a = R.ECC_ULOG then some (d.ecc.ulog.headD 0)
  else if a = R.CNT_SMP_STAT then some (putBits (d.reg a) F.CNT_SMP_STAT_COUNT d.cnt.samples.length)
  else if a = R.CNT_SMP_ENT0 then some ((d.cnt.samples.head?.map Sample.pc).getD 0)
  else if a = R.CNT_SMP_ENT1 then some ((d.cnt.samples.head?.map Sample.insn).getD 0)
  else if a = R.CNT_SMP_ENT2 then some d.sampleWord
  else if a = R.FLT_LVL then some d.fltLevel
  else if a = R.FLT_LSUM then some d.fltSum
  else match ribbonPlace a with
    | some (n, w) => some ((d.ribbonEntry n (d.fld (F.BRL_RB_IDX_IDX n))).getD w 0)
    | none => match d.jnlPlace a with
      | some i => some (d.jnlRead i).1
      | none => if blockOf a = 21 then d.meshDerived a else none

/-- What a word of register space holds. -/
def placeWord (q : Vector EvQ 32) (d : Dev) (a : Nat) : Place → Word
  | .live _ => (d.derivedWord q a).getD (d.reg a)
  | .hold _ => Cells.get zeroWord d.hold (a - 0x8000)
  | .evq b => headWord (queueOf q b)
  | .evstat b => let n := (queueOf q b).q.length; BitVec.ofNat 32 ((if n = 0 then 0 else 2 ^ 31) + n)
  | .evlost b => (queueOf q b).lost
  | .evlostHold _ => Cells.get zeroWord d.hold (a - 0x8000)

/-- The live address of a register or of its holding copy. -/
def liveAddr (a : Nat) : Nat := if (regRow a).isNone && decide (0x8000 ≤ a % 0x10000) then a - 0x8000 else a

/-- The LO word of a pair whose read latches the word that follows (R28, R81, R338, R536, R678, R685). -/
def isLo (d : Dev) (a : Nat) : Bool :=
  match regRow (liveAddr a) with
  | some (r, i, j) => latchBases.contains r.base
      || (r.name == "SLCs.PMCk" && ((j == 0 && d.lvOn (F.SLC_PM_CFG_CH01 i)) || (j == 2 && d.lvOn (F.SLC_PM_CFG_CH23 i))))
  | none => false

/-- The key of a master's latch for an address. -/
def latchKey (m : Master) (a : Nat) : Nat := masterIndex m * 2 ^ 32 + a

def setLatch (m : Master) (a : Nat) (v : Word) (d : Dev) : Dev :=
  { d with latch := Cells.put zeroWord d.latch (latchKey m a) v }

def getLatch (d : Dev) (m : Master) (a : Nat) : Word := Cells.get zeroWord d.latch (latchKey m a)

/-- The word read from a latch and not from the register. -/
def isLatched (d : Dev) (a : Nat) : Bool :=
  a == R.PWR_RTC_SEC_LO || a == R.PWR_RTC_SEC_HI || (decide (4 ≤ a) && d.isLo (a - 4))

/-- What a read does besides returning the word: pops, latches, journal checks (R28, R512, R518, R582, R653). -/
def readEffect (q : Vector EvQ 32) (m : Master) (a : Nat) (p : Place) (d : Dev) : Dev :=
  match p with
  | .evq b => { d with popped := b :: d.popped }
  | _ =>
    if d.isLo a then
      let v := match place (a + 4) with | some p' => d.placeWord q (a + 4) p' | none => 0
      d.setLatch m (a + 4) v
    else if a = R.PWR_RTC_SUB then
      (d.setLatch m R.PWR_RTC_SEC_LO (d.pwr.rtc.setWidth 32)).setLatch m R.PWR_RTC_SEC_HI
        (BitVec.ofNat 32 (d.pwr.rtc.toNat / 2 ^ 32))
    else if a = R.ECC_ULOG then d.modEcc fun e => { e with ulog := e.ulog.tail }
    else if a = R.CNT_SMP_ENT2 then d.samplePop
    else if a = R.NVM_RBUF31 then d.rbufRelease
    else match d.jnlPlace a with
      | some i => (d.jnlRead i).2
      | none => d

/-- Record what an access returned. -/
def returned (r : Access) (v : Word) (d : Dev) : Dev := { d with busRes := r, busWord := v }

/-- The debug port reads an SRAM (R472): the stored bits of a damaged word, with the error flag. -/
def debugRead (m : Nat) (a : Nat) (w : Width) (d : Dev) : Dev :=
  if a % widthBytes w ≠ 0 then d.returned .bad 0
  else
    let (v, bad, d) := d.readMem m (a - a % 4) srcDebug
    d.returned (if bad then .damaged else .done) (narrowRead a w v)

/-- The debug port stores to an SRAM (R475). -/
def debugWrite (m : Nat) (a : Nat) (w : Width) (v : Word) (d : Dev) : Dev :=
  if a % widthBytes w ≠ 0 then d.returned .bad 0
  else
    (if w = .word then d.storeWord a v else d.partialStore m (a - a % 4) (a % 4) (widthBytes w) v).returned .done 0

/-- The debug port's way to an SRAM at this address. -/
def debugWay (m : Master) (a : Nat) : Option Nat := if m = .debug then debugSram a else none

/-- A master's read (R510 to R515, R520, R521, R527). -/
def busRead (q : Vector EvQ 32) (m : Master) (a : Nat) (w : Width) (d : Dev) : Dev :=
  let d := d.when (d.admits m a) (busUp m)
  if !d.domOn .mgt then d.returned (if d.admits m a then .off else .denied) 0
  else match debugWay m a with
  | some k => if d.admits m a then d.debugRead k a w else (d.denyAccess m a).returned .denied 0
  | none =>
  match d.judge m a w true with
    | (.done, d) =>
      let (reg, bit) := busTarget a
      match place reg with
      | none => d.returned .bad 0
      | some p =>
        let v := if d.isLatched reg then d.getLatch m reg else d.placeWord q reg p
        match bit with
        | some b => d.returned .done (BitVec.ofNat 32 (v.getLsbD b).toNat)
        | none => (d.readEffect q m reg p).returned .done (narrowRead a w v)
    | (r, d) => d.returned r 0

end Dev

/-! ### Writes -/

/-- A write as it reaches a register word: its master, the bits it covers, its data in place, whether the word's lowest
byte is addressed, and what comes with it from outside (the clock within the quire of R417, the return token of R643). -/
structure Wr where
  m     : Master
  mask  : Word
  data  : Word
  low   : Bool
  clk   : Option Nat
  token : Option ImageIn
  deriving DecidableEq, Repr

namespace Dev

/-- The word that a write merges into. -/
def heldWord (d : Dev) (m : Master) (a : Nat) : Word :=
  match ribbonPlace a with
  | some (n, w) => (d.ribbonEntry n (d.fld (F.BRL_RB_IDX_IDX n))).getD w 0
  | none => match d.jnlPlace a with
    | some _ => 0
    | none => if 0x101A0040 ≤ a ∧ a < 0x101A00C0 ∧ a % 16 = 8 then d.getLatch m (a + 1) else d.reg a

/-- `SYS.RT.DONE` (R462). -/
def rtDone (d : Dev) : Dev := { d with cpu := { d.cpu with quirePend := false, slotSeen := true } }

def writeSys (a : Nat) (new t : Word) (x : Wr) (d : Dev) : Dev :=
  if a = R.SYS_RT then if t.getLsbD 0 then d.rtDone else d
  else if a = R.SYS_WDT_KICK then if x.low then d.wdtKick else d
  else d.setReg a new

def writePwr (a : Nat) (new t : Word) (d : Dev) : Dev :=
  if a = R.PWR_CTRL then if t.getLsbD 0 then d.restRequest else d
  else if a = R.PWR_WAKE_TX then d.each (allLanes.filter fun (n : Lane) => t.getLsbD n) fun n d => d.wakeTx n
  else if a = R.PWR_RTC_CTRL then
    let d := d.setReg a new
    if t.getLsbD 0 then d.modPwr fun p => { p with loadDue := true } else d
  else if a = R.PWR_AVS_VSET then d.avsVset new
  else d.setReg a new

/-- `CLK.PRESS` ORs its groups into the pending mask (R533). -/
def pressRequest (g : Nat) (d : Dev) : Dev :=
  d.setFld F.CLK_PRESS_STAT_PEND ((d.fld F.CLK_PRESS_STAT_PEND) ||| g)

def writeClk (a : Nat) (new t : Word) (d : Dev) : Dev :=
  if a = R.CLK_PRESS then d.pressRequest t.toNat else d.setReg a new

/-- A write to a slice counter clears its overflow bit (R685). -/
def writeSlc (s off : Nat) (a : Nat) (new : Word) (d : Dev) : Dev :=
  if 0x10 ≤ off ∧ off < 0x20 then (d.elapse.setReg a new).setOn ⟨R.SLC_PM_OVF s, (off - 0x10) / 4, 1⟩ false else d.setReg a new

/-- The write covers bits of a field of the word. -/
def covers (x : Wr) (f : Fld) : Bool := x.mask.toNat / 2 ^ f.lo % 2 ^ f.w != 0

/-- A master write to a result register is an input change of each item that writes it (R329). -/
def resultWritten (n : Lane) (a : Nat) (x : Wr) (d : Dev) : Dev :=
  d.each (List.finRange 4) fun i d =>
    if (calFields n i).any fun f => f.1.addr == a && covers x f.1 then d.calInputChange n i 2 else d

/-- The LANE block (chapters 4 to 7). -/
def writeLane (n : Lane) (a : Nat) (new t : Word) (x : Wr) (d : Dev) : Dev :=
  if a = R.LANE_ADC_RET n then d.adcRetWrite n new
  else
    let d := (d.setReg a new).when (trimAddr n a) (trimBy n false ([0, 1, 2].filter fun k => covers x (trimField a k)) a)
    if a = R.LANE_TX_CFG n then d.squelchNow n
    else if a = R.LANE_EQ_CTRL n then
      let d := d.showFrozen n
      let d := if t.getLsbD 4 then d.saveRequest n else d
      if t.getLsbD 0 then d.reacquire n else d
    else d.resultWritten n a x

/-- The BRL block (chapter 8). -/
def writeBrl (a : Nat) (new : Word) (d : Dev) : Dev :=
  match ribbonPlace a with
  | some (n, w) =>
    let i := d.fld (F.BRL_RB_IDX_IDX n)
    d.setRibbon n i ((d.ribbonEntry n i).set w new)
  | none =>
    let n : Lane := Fin.ofNat 8 (a % 0x10000 / 0x100)
    let d := d.setReg a new
    if a = R.BRL_NEXT n then d.nextWritten n else d

/-- The CAL block: a capture's or a run's ABORT takes effect over what is written with it (R226, R330). -/
def writeCal (a : Nat) (new t : Word) (d : Dev) : Dev :=
  let n : Lane := Fin.ofNat 8 (a % 0x10000 / 0x100)
  if a = R.CAL_CAP_CTRL then if t.getLsbD 1 then d.capAbort else if t.getLsbD 0 then d.capStart else d
  else if a = R.CAL_CMD n then
    if t.getLsbD 4 then d.calAbortAll n
    else d.each ((List.finRange 4).filter fun (i : Fin 4) => t.getLsbD i) fun i d => d.calTrigger n i
  else d.setReg a new

/-- `SPR.CTRL.SWAP` (R358): a request waits until R356 lets it start, several in the order they came. -/
def swapRequest (d : Dev) : Dev :=
  let n : Lane := Fin.ofNat 8 (d.fld F.SPR_CTRL_LANE)
  if d.phase ≠ 0 ∨ !d.inRun n ∨ d.spr.cmd.contains n then d else d.modSpr fun p => { p with cmd := p.cmd ++ [n] }

/-- The SPR block: SWAP is judged before ABORT; `SPR.RET` takes effect at the next boundary, once (R373, R375). -/
def writeSpr (a : Nat) (new t : Word) (d : Dev) : Dev :=
  if a = R.SPR_CTRL then
    let d := d.setReg a new
    let d := if t.getLsbD 4 then d.swapRequest else d
    if t.getLsbD 5 then d.endShadow 7 else d
  else if a = R.SPR_RET then
    if d.retired = 15 ∧ new.toNat % 16 ≤ 8 then
      d.modSpr fun p => { p with retDue := some (Fin.ofNat 9 (new.toNat % 16)) }
    else d
  else d.setReg a new

/-- The clock within the quire at which a slot is armed, free where the write does not bring it (log 2). -/
def armAt (k : Nat) (clk : Option Nat) (d : Dev) : Dev :=
  match clk with
  | some c => d.arm k c
  | none => let (w, d) := d.takeFree; d.arm k (w.toNat % 16384)

def writeMsh (a : Nat) (new t : Word) (x : Wr) (d : Dev) : Dev :=
  if a = R.MSH_TX_CTRL then if t.getLsbD 0 then d.sendLocal else d
  else if a = R.MSH_RX_CTRL then if t.getLsbD 0 then d.ringPop else d
  else
    let d := d.setReg a new
    if t.getLsbD 31 then d.armAt ((a - R.MSH_SCHED_CTRL 0) / 16) x.clk else d

def writeHkp (a : Nat) (new t : Word) (d : Dev) : Dev :=
  if a = R.HKP_BCTRL then if t.getLsbD 0 then d.safeClear else d
  else
    let was := d.on F.HKP_SEQ_CFG_EN
    let d := d.setReg a new
    if a = R.HKP_SEQ_CFG then d.entryInList.seqEnabled was
    else if a = R.HKP_UREQ ∧ t.getLsbD 31 then d.ureqGo else d

/-- The DMA block (R497, R498, R505): NEXT, then ABORT, which takes effect over START. -/
def writeDma (a : Nat) (new t : Word) (d : Dev) : Dev :=
  let c : Fin 8 := Fin.ofNat 8 (a % 0x1000 / 0x40)
  let k := a % 0x40
  let d := d.dmaSettle c
  if k = 0x10 then
    let d := if t.getLsbD 2 then d.dmaNext c else d
    if t.getLsbD 1 then d.dmaAbort c else if t.getLsbD 0 then d.dmaStart c else d
  else if k < 0x10 then if d.dmaState c = 0 ∨ d.dmaState c = 3 then d.setReg a new else d
  else if d.on (F.DMA_STAT_SH_VALID c) then d else d.setReg a new

def writeEcc (a : Nat) (new t : Word) (x : Wr) (d : Dev) : Dev :=
  if a = R.ECC_REMAP_REQ then if x.low then d.remapReq (t.toNat / 16384) (t.toNat % 16384) else d
  else if a = R.ECC_SCRUB_CTRL then
    if t.getLsbD 1 then if d.scrubRunning then d.scrubEnd 3 else d
    else if t.getLsbD 0 then d.scrubStart else d
  else d.setReg a new

/-- `BST.FULL.GO` (R672, R673). It would end any shadow under R359 cause 7, so in SWITCH the test waits for Rs (R361). -/
def fullGo (d : Dev) : Dev :=
  if d.fullRunning then d
  else if !d.fullAllowed then d.setFld F.BST_FULL_STATE 3
  else if 3 ≤ d.phase then d.modSpr fun p => { p with testDue := true }
  else d.fullStart

def writeBst (a : Nat) (new t : Word) (d : Dev) : Dev :=
  if a = R.BST_FULL then if t.getLsbD 31 then d.fullGo else d
  else
    let d := d.setReg a new
    if a = R.BST_MCMD ∧ t.getLsbD 31 then d.mcmdGo else d

/-- The CNT block: `PMCi_HI` goes to the master's buffer, `PMCi_LO` sets all 48 bits (R681); what counts changes with the write
(R688). -/
def writeCnt (a : Nat) (new t : Word) (x : Wr) (d : Dev) : Dev :=
  if a = R.CNT_SNAP then if t.getLsbD 0 then d.setOn F.CNT_SNAP_STAT_PEND true else d
  else if 0x101A0040 ≤ a ∧ a < 0x101A00C0 then
    let i := (a - 0x101A0040) / 16
    if a % 16 = 8 then d.setLatch x.m (a + 1) new
    else if a % 16 = 4 then
      ((d.elapse.setReg a new).setReg (a + 4) (d.getLatch x.m (a + 5))).setOn ⟨R.CNT_OVF, i, 1⟩ false
    else d.elapse.setReg a new
  else
    let was := d.on F.CNT_SMP_CFG_EN
    let d := (d.when (a == R.CNT_FRZ) elapse).setReg a new
    if a = R.CNT_SMP_CFG then d.samplerEnabled was else d

/-- Firmware is ready (R551); the power manager follows the low-power request (R572). -/
def readyWritten (d : Dev) : Dev :=
  let d := d.modMgmt fun m => { m with ready := true }
  d.followRequest d.thermalAllows

def writeMgt (a : Nat) (new t : Word) (d : Dev) : Dev :=
  if a = R.MGT_WCTRL then
    let d := if t.getLsbD 0 then d.endBusy .firmware else d
    if t.getLsbD 1 then d.readyWritten else d
  else d.setReg a new

/-- A return token that did not come with the write: whether the store holds a valid one is free (log 2). -/
def lcRequestAt (token : Option ImageIn) (d : Dev) : Dev :=
  match token with
  | some i => d.lcRequest i
  | none =>
    let (w, d) := d.takeFree
    if d.sec.lc = 2 ∧ d.fld F.SEC_LC_REQ_TARGET = 3 then
      if w.getLsbD 0 then d.otpGo (.life 3) else d
    else d.lcRequest ⟨[0, 0], [], [], []⟩

/-- `SEC.CTRL` (R638, R639): CONFIRM is taken before ROLLFWD. -/
def secControl (t : Word) (d : Dev) : Dev :=
  let d := if t.getLsbD 0 then d.setFld F.SEC_BOOTSTAT_TRIES 0 else d
  let d := if t.getLsbD 2 then d.rollfwd else d
  if t.getLsbD 1 then d.modSec fun s => { s with restartDue := true } else d

def writeSec (a : Nat) (new t : Word) (x : Wr) (d : Dev) : Dev :=
  if a = R.SEC_CTRL then d.secControl t
  else if a = R.SEC_ATT_CTRL then if t.getLsbD 0 then d.attestGo else d
  else if a = R.SEC_JNL_CMD then if t.getLsbD 0 then d.commitDue 3 else d
  else match d.jnlPlace a with
    | some i => d.jnlWrite x.m x.mask x.data i
    | none =>
      let d := d.setReg a new
      if !t.getLsbD 31 then d
      else if a = R.SEC_LC_REQ then d.lcRequestAt x.token
      else if a = R.SEC_VCMD then d.verifyGo
      else if a = R.SEC_ENROL then d.enrol
      else d

def writeNvm (a : Nat) (new t : Word) (d : Dev) : Dev :=
  let d := d.setReg a new
  if a = R.NVM_CMD then if t.getLsbD 30 then d.nvmAbort else if t.getLsbD 31 then d.nvmGo else d
  else if a = R.NVM_WBUF 31 then d.wbufStart
  else d

/-- A write of `FLT.CLSc` waits for the next internal boundary (R661). -/
def writeFlt (a : Nat) (new : Word) (d : Dev) : Dev :=
  let d := d.setReg a new
  if a < 0x101E0034 then { d with clsWritten := d.clsWritten ||| BitVec.ofNat 13 (2 ^ ((a - 0x101E0000) / 4)) } else d

/-- The write as the register's block takes it: RW and RB bits merged, WT bits as triggers (R511, R515, R519). -/
def busStore (x : Wr) (a : Nat) (r : RegRow) (d : Dev) : Dev :=
  let rw := BitVec.ofNat 32 (r.rw ||| r.rb)
  let new := (d.heldWord x.m a &&& ~~~(x.mask &&& rw)) ||| (x.data &&& x.mask &&& rw)
  let t := x.data &&& x.mask &&& BitVec.ofNat 32 r.wt
  if (x.mask &&& BitVec.ofNat 32 (r.rw ||| r.rb ||| r.wt)) = 0 then d
  else
    let b := blockOf a
    if b = 0 then d.writeSys a new t x
    else if b = 1 then d.writePwr a new t
    else if b = 3 then d.writeClk a new (if x.low then t else 0)
    else if b = 4 then (d.setReg a new).hostSignals
    else if 8 ≤ b ∧ b ≤ 16 then d.writeSlc (b - 8) (a % 0x10000) a new
    else if b = 17 then d.writeLane (Fin.ofNat 8 (a % 0x10000 / 0x1000)) a new t x
    else if b = 18 then d.writeBrl a new
    else if b = 19 then d.writeCal a new t
    else if b = 20 then d.writeSpr a new t
    else if b = 21 then d.writeMsh a new t x
    else if b = 22 then d.writeHkp a new t
    else if b = 23 then d.writeDma a new t
    else if b = 24 then d.writeEcc a new t x
    else if b = 25 then d.writeBst a new t
    else if b = 26 then d.writeCnt a new t x
    else if b = 27 then d.writeMgt a new t
    else if b = 28 then d.writeSec a new t x
    else if b = 29 then d.writeNvm a new t
    else if b = 30 then d.writeFlt a new
    else d.setReg a new

/-- A master's write, of a register or of an alias word (R510 to R515, R520 to R523). Holding copies and event registers
are RO. -/
def busWriteAt (clk : Option Nat) (token : Option ImageIn) (m : Master) (a : Nat) (w : Width) (v : Word) (d : Dev) : Dev :=
  let d := d.when (d.admits m a) (busUp m)
  if !d.domOn .mgt then d.returned (if d.admits m a then .off else .denied) 0
  else match debugWay m a with
  | some k => if d.admits m a then d.debugWrite k a w v else (d.denyAccess m a).returned .denied 0
  | none =>
  match d.judge m a w false with
    | (.done, d) =>
      let (reg, bit) := busTarget a
      match place reg with
      | some (.live r) =>
        let x : Wr := match bit with
          | some b => ⟨m, BitVec.ofNat 32 (2 ^ b), BitVec.ofNat 32 ((v.getLsbD 0).toNat * 2 ^ b), v.getLsbD 0, clk, token⟩
          | none => ⟨m, coverMask a w, v <<< (8 * (a % 4)), a % 4 == 0, clk, token⟩
        (d.busStore x reg r).returned .done 0
      | _ => d.returned .done 0
    | (r, d) => d.returned r 0

def busWrite (m : Master) (a : Nat) (w : Width) (v : Word) (d : Dev) : Dev := d.busWriteAt none none m a w v

end Dev

end Sys2Proof.Machine
end

