-- ==== Sys2Proof/Machine/Insn.lean ====
section
/-! DEFINITION. The instructions of RV32I with the M and C extensions, Zicsr and Zifencei (R457): their words, and what they
compute. The spec names the extensions and leaves their content to the RISC-V architecture: PRESUMED (log 12). -/

namespace Sys2Proof.Machine

/-- A computation on two register values. -/
inductive AluOp where
  | add | sub | sll | slt | sltu | xor | srl | sra | or | and
  | mul | mulh | mulhsu | mulhu | div | divu | rem | remu
  deriving DecidableEq, Repr

/-- The condition of a branch. -/
inductive Cond where
  | eq | ne | lt | ge | ltu | geu
  deriving DecidableEq, Repr

/-- What a CSR instruction does with its source. -/
inductive CsrOp where
  | write | set | clear
  deriving DecidableEq, Repr

/-- An instruction; a compressed one is the instruction it stands for. -/
inductive Insn where
  | lui (rd : Fin 32) (v : Word)
  | auipc (rd : Fin 32) (v : Word)
  | jal (rd : Fin 32) (off : Word)
  | jalr (rd rs1 : Fin 32) (off : Word)
  | branch (c : Cond) (rs1 rs2 : Fin 32) (off : Word)
  | load (w : Width) (sext : Bool) (rd rs1 : Fin 32) (off : Word)
  | store (w : Width) (rs1 rs2 : Fin 32) (off : Word)
  | aluImm (op : AluOp) (rd rs1 : Fin 32) (imm : Word)
  | alu (op : AluOp) (rd rs1 rs2 : Fin 32)
  | fence | wfi | ecall | ebreak | mret
  | csr (op : CsrOp) (n : Nat) (rd src : Fin 32) (imm : Bool)
  deriving DecidableEq, Repr

/-! ### Instruction words -/

/-- A compressed instruction. -/
def isShort (w : Word) : Bool := w.toNat % 4 != 3

/-- n bits of an instruction word from bit lo. -/
def insnBits (w : Word) (lo n : Nat) : Nat := w.toNat / 2 ^ lo % 2 ^ n

/-- A register number. -/
def regNo (x : Nat) : Fin 32 := ⟨x % 32, Nat.mod_lt _ (by decide)⟩

/-- An n-bit immediate, sign-extended. -/
def signedImm (n x : Nat) : Word := (BitVec.ofNat n x).signExtend 32

/-- An unsigned immediate. -/
def unsignedImm (x : Nat) : Word := BitVec.ofNat 32 x

/-- The computation that funct3 names, without M. -/
def baseOp (f3 : Nat) : AluOp := [.add, .sll, .slt, .sltu, .xor, .srl, .or, .and].getD f3 .add

/-- The computation that funct3 names in M. -/
def mulOp (f3 : Nat) : AluOp := [.mul, .mulh, .mulhsu, .mulhu, .div, .divu, .rem, .remu].getD f3 .mul

/-- A word of the SYSTEM opcode. -/
def decodeSystem (w : Word) : Option Insn :=
  let f3 := insnBits w 12 3
  if w = 0x00000073 then some .ecall
  else if w = 0x00100073 then some .ebreak
  else if w = 0x30200073 then some .mret
  else if w = 0x10500073 then some .wfi
  else if f3 % 4 = 0 then none
  else some (.csr (if f3 % 4 = 1 then .write else if f3 % 4 = 2 then .set else .clear) (insnBits w 20 12)
    (regNo (insnBits w 7 5)) (regNo (insnBits w 15 5)) (decide (4 ≤ f3)))

/-- A 32-bit instruction word. -/
def decodeLong (w : Word) : Option Insn :=
  let b (lo n : Nat) : Nat := insnBits w lo n
  let f3 := b 12 3
  let f7 := b 25 7
  let rd := regNo (b 7 5)
  let rs1 := regNo (b 15 5)
  let rs2 := regNo (b 20 5)
  let immI := signedImm 12 (b 20 12)
  match b 0 7 with
  | 0x37 => some (.lui rd (unsignedImm (b 12 20 * 4096)))
  | 0x17 => some (.auipc rd (unsignedImm (b 12 20 * 4096)))
  | 0x6F => some (.jal rd (signedImm 21 (b 31 1 * 2 ^ 20 + b 12 8 * 2 ^ 12 + b 20 1 * 2 ^ 11 + b 21 10 * 2)))
  | 0x67 => if f3 = 0 then some (.jalr rd rs1 immI) else none
  | 0x63 =>
    let off := signedImm 13 (b 31 1 * 2 ^ 12 + b 7 1 * 2 ^ 11 + b 25 6 * 2 ^ 5 + b 8 4 * 2)
    match f3 with
    | 0 => some (.branch .eq rs1 rs2 off)
    | 1 => some (.branch .ne rs1 rs2 off)
    | 4 => some (.branch .lt rs1 rs2 off)
    | 5 => some (.branch .ge rs1 rs2 off)
    | 6 => some (.branch .ltu rs1 rs2 off)
    | 7 => some (.branch .geu rs1 rs2 off)
    | _ => none
  | 0x03 =>
    match f3 with
    | 0 => some (.load .byte true rd rs1 immI)
    | 1 => some (.load .half true rd rs1 immI)
    | 2 => some (.load .word true rd rs1 immI)
    | 4 => some (.load .byte false rd rs1 immI)
    | 5 => some (.load .half false rd rs1 immI)
    | _ => none
  | 0x23 =>
    let off := signedImm 12 (f7 * 32 + b 7 5)
    match f3 with
    | 0 => some (.store .byte rs1 rs2 off)
    | 1 => some (.store .half rs1 rs2 off)
    | 2 => some (.store .word rs1 rs2 off)
    | _ => none
  | 0x13 =>
    if f3 = 1 then if f7 = 0 then some (.aluImm .sll rd rs1 (unsignedImm (b 20 5))) else none
    else if f3 = 5 then
      if f7 = 0 then some (.aluImm .srl rd rs1 (unsignedImm (b 20 5)))
      else if f7 = 0x20 then some (.aluImm .sra rd rs1 (unsignedImm (b 20 5))) else none
    else some (.aluImm (baseOp f3) rd rs1 immI)
  | 0x33 =>
    if f7 = 0 then some (.alu (baseOp f3) rd rs1 rs2)
    else if f7 = 1 then some (.alu (mulOp f3) rd rs1 rs2)
    else if f7 = 0x20 ∧ f3 = 0 then some (.alu .sub rd rs1 rs2)
    else if f7 = 0x20 ∧ f3 = 5 then some (.alu .sra rd rs1 rs2) else none
  | 0x0F => if f3 < 2 then some .fence else none
  | 0x73 => decodeSystem w
  | _ => none

/-- A compressed instruction of quadrant 0. -/
def decodeShort0 (w : Word) : Option Insn :=
  let b (lo n : Nat) : Nat := insnBits w lo n
  let rdS := regNo (8 + b 2 3)
  let rsS := regNo (8 + b 7 3)
  let off := unsignedImm (b 10 3 * 8 + b 6 1 * 4 + b 5 1 * 64)
  match b 13 3 with
  | 0 =>
    let imm := b 11 2 * 16 + b 7 4 * 64 + b 6 1 * 4 + b 5 1 * 8
    if imm = 0 then none else some (.aluImm .add rdS 2 (unsignedImm imm))
  | 2 => some (.load .word true rdS rsS off)
  | 6 => some (.store .word rsS rdS off)
  | _ => none

/-- A compressed instruction of quadrant 1. -/
def decodeShort1 (w : Word) : Option Insn :=
  let b (lo n : Nat) : Nat := insnBits w lo n
  let rd := regNo (b 7 5)
  let rsS := regNo (8 + b 7 3)
  let rtS := regNo (8 + b 2 3)
  let imm := signedImm 6 (b 12 1 * 32 + b 2 5)
  let jump := signedImm 12 (b 12 1 * 2 ^ 11 + b 11 1 * 16 + b 9 2 * 256 + b 8 1 * 1024 + b 7 1 * 64 + b 6 1 * 128 + b 3 3 * 2 + b 2 1 * 32)
  let skip := signedImm 9 (b 12 1 * 256 + b 10 2 * 8 + b 5 2 * 64 + b 3 2 * 2 + b 2 1 * 32)
  match b 13 3 with
  | 0 => some (.aluImm .add rd rd imm)
  | 1 => some (.jal 1 jump)
  | 2 => some (.aluImm .add rd 0 imm)
  | 3 =>
    if b 12 1 = 0 ∧ b 2 5 = 0 then none
    else if rd = 2 then
      some (.aluImm .add 2 2 (signedImm 10 (b 12 1 * 512 + b 6 1 * 16 + b 5 1 * 64 + b 3 2 * 128 + b 2 1 * 32)))
    else some (.lui rd (signedImm 18 (b 12 1 * 2 ^ 17 + b 2 5 * 2 ^ 12)))
  | 4 =>
    match b 10 2 with
    | 0 => if b 12 1 = 0 then some (.aluImm .srl rsS rsS (unsignedImm (b 2 5))) else none
    | 1 => if b 12 1 = 0 then some (.aluImm .sra rsS rsS (unsignedImm (b 2 5))) else none
    | 2 => some (.aluImm .and rsS rsS imm)
    | _ =>
      if b 12 1 = 0 then some (.alu ([AluOp.sub, .xor, .or, .and].getD (b 5 2) .sub) rsS rsS rtS) else none
  | 5 => some (.jal 0 jump)
  | 6 => some (.branch .eq rsS 0 skip)
  | _ => some (.branch .ne rsS 0 skip)

/-- A compressed instruction of quadrant 2. -/
def decodeShort2 (w : Word) : Option Insn :=
  let b (lo n : Nat) : Nat := insnBits w lo n
  let rd := regNo (b 7 5)
  let rs2 := regNo (b 2 5)
  match b 13 3 with
  | 0 => if b 12 1 = 0 then some (.aluImm .sll rd rd (unsignedImm (b 2 5))) else none
  | 2 => if rd = 0 then none else some (.load .word true rd 2 (unsignedImm (b 12 1 * 32 + b 4 3 * 4 + b 2 2 * 64)))
  | 4 =>
    if b 12 1 = 0 then
      if rs2 = 0 then if rd = 0 then none else some (.jalr 0 rd 0) else some (.alu .add rd 0 rs2)
    else if rs2 = 0 then if rd = 0 then some .ebreak else some (.jalr 1 rd 0)
    else some (.alu .add rd rd rs2)
  | 6 => some (.store .word 2 rs2 (unsignedImm (b 9 4 * 4 + b 7 2 * 64)))
  | _ => none

/-- The instruction a word holds, `none` for one outside the extensions. -/
def decodeInsn (w : Word) : Option Insn :=
  match w.toNat % 4 with
  | 0 => decodeShort0 w
  | 1 => decodeShort1 w
  | 2 => decodeShort2 w
  | _ => decodeLong w

/-! ### Results -/

/-- A register value as a signed number, and the high word of a product. -/
def highWord (x : Int) : Word := BitVec.ofInt 32 (x.fdiv (2 ^ 32))

/-- What a computation gives; a division by zero gives all ones or the dividend. -/
def AluOp.result (op : AluOp) (a b : Word) : Word :=
  let sh := b.toNat % 32
  match op with
  | .add => a + b
  | .sub => a - b
  | .sll => a <<< sh
  | .slt => if a.toInt < b.toInt then 1 else 0
  | .sltu => if a.toNat < b.toNat then 1 else 0
  | .xor => a ^^^ b
  | .srl => a >>> sh
  | .sra => a.sshiftRight sh
  | .or => a ||| b
  | .and => a &&& b
  | .mul => a * b
  | .mulh => highWord (a.toInt * b.toInt)
  | .mulhsu => highWord (a.toInt * b.toNat)
  | .mulhu => highWord (a.toNat * b.toNat)
  | .div => if b = 0 then BitVec.allOnes 32 else BitVec.ofInt 32 (a.toInt.tdiv b.toInt)
  | .divu => if b = 0 then BitVec.allOnes 32 else BitVec.ofNat 32 (a.toNat / b.toNat)
  | .rem => if b = 0 then a else BitVec.ofInt 32 (a.toInt.tmod b.toInt)
  | .remu => if b = 0 then a else BitVec.ofNat 32 (a.toNat % b.toNat)

/-- A branch's condition holds. -/
def Cond.holds (c : Cond) (a b : Word) : Bool :=
  match c with
  | .eq => a == b
  | .ne => a != b
  | .lt => decide (a.toInt < b.toInt)
  | .ge => decide (b.toInt ≤ a.toInt)
  | .ltu => decide (a.toNat < b.toNat)
  | .geu => decide (b.toNat ≤ a.toNat)

/-- What a CSR instruction writes to a CSR that holds `old`. -/
def CsrOp.result (op : CsrOp) (old src : Word) : Word :=
  match op with
  | .write => src
  | .set => old ||| src
  | .clear => old &&& ~~~src

/-! ### Control and status registers (R459, R460) -/

abbrev csrMSTATUS : Nat := 0x300
abbrev csrMIE : Nat := 0x304
abbrev csrMTVEC : Nat := 0x305
abbrev csrMEPC : Nat := 0x341
abbrev csrMCAUSE : Nat := 0x342
abbrev csrMTVAL : Nat := 0x343
abbrev csrMIP : Nat := 0x344
abbrev csrMCYCLE : Nat := 0xB00
abbrev csrMINSTRET : Nat := 0xB02

/-- The machine CSRs: identity, trap set-up and handling, the PMP entries, the counters and their unused fellows, which read
0. `time` is not among them (R459). -/
def csrKnown (n : Nat) : Bool :=
  [0xF11, 0xF12, 0xF13, 0xF14, 0xF15, 0x300, 0x301, 0x304, 0x305, 0x306, 0x30A, 0x310, 0x31A, 0x320, 0x340, 0x341, 0x342,
    0x343, 0x344, 0xC00, 0xC02, 0xC80, 0xC82].contains n
    || decide (0x323 ≤ n ∧ n < 0x340) || decide (0x3A0 ≤ n ∧ n < 0x3A4) || decide (0x3B0 ≤ n ∧ n < 0x3C0)
    || (decide (0xB00 ≤ n ∧ n < 0xB20) && n != 0xB01) || (decide (0xB80 ≤ n ∧ n < 0xBA0) && n != 0xB81)

/-- A CSR access that raises no illegal instruction: the CSR exists, it is not a read-only one that is written, and the mode
is machine mode; the counters a user mode could read are closed to it (R459). -/
def csrAllowed (user : Bool) (n : Nat) (writes : Bool) : Bool :=
  csrKnown n && !user && !(n / 1024 == 3 && writes)

/-- The CSRs that hold what was written to them, whole: mscratch, mcause, mtval and the counters. -/
def csrPlain (n : Nat) : Bool := [0x340, 0x342, 0x343, 0xB00, 0xB02, 0xB80, 0xB82].contains n

end Sys2Proof.Machine
end

