-- ==== Sys2Proof/Machine/Cpu.lean ====
section
/-! DEFINITION. The control processor (chapter 13): instruction fetches and what the instructions do, loads and stores over
the memory map of R463, physical memory protection, traps, interrupts and the double fault. The RISC-V architecture's own
rules that the spec cites by name are PRESUMED (log 12). -/

namespace Sys2Proof.Machine

/-! ### State of the processor -/

namespace Dev

def modCpu (f : CpuSt → CpuSt) (d : Dev) : Dev := { d with cpu := f d.cpu }

def csr (d : Dev) (n : Nat) : Word := Cells.get zeroWord d.cpu.csr n

def setCsr (n : Nat) (v : Word) (d : Dev) : Dev := d.modCpu fun c => { c with csr := Cells.put zeroWord c.csr n v }

/-- Read a general register; x0 reads 0. -/
def getX (d : Dev) (r : Fin 32) : Word := if r = 0 then 0 else d.cpu.x[r]

/-- Write a general register; a write of x0 is dropped. -/
def setX (r : Fin 32) (v : Word) (d : Dev) : Dev :=
  if r = 0 then d else d.modCpu fun c => { c with x := c.x.set r v }

/-- A 64-bit machine counter and its high half 128 above advance by k. -/
def csrAdd (n k : Nat) (d : Dev) : Dev :=
  let c := (d.csr (n + 0x80)).toNat * 2 ^ 32 + (d.csr n).toNat + k
  (d.setCsr n (BitVec.ofNat 32 c)).setCsr (n + 0x80) (BitVec.ofNat 32 (c / 2 ^ 32))

/-- The load, store or `mret` fetched is performed. -/
def opDone (d : Dev) : Dev := d.modCpu fun c => { c with op := none }

/-- The processor executes: started by the boot ROM, MGT on, not halted. -/
def executing (d : Dev) : Bool := d.cpu.running && !d.cpu.halted && d.domOn .mgt

/-- Between instructions: none is fetched and not yet performed. -/
def between (d : Dev) : Bool := d.executing && d.cpu.op.isNone

/-- One instruction retires (R459, R679, R682). -/
def retire (d : Dev) : Dev := ((d.cpuEvent 2 1).csrAdd csrMINSTRET 1).sampleRetired

/-- The processor's mode becomes user mode or machine mode; the clocks before it were the mode's that ends (R679). -/
def toMode (user : Bool) (d : Dev) : Dev :=
  (if d.cpu.user = user then d else d.elapse).modCpu fun c => { c with user := user }

/-- A trap is taken: the pc and the cause are saved, interrupts off, machine mode, the pc at the vector (log 12). -/
def trap (cause : Nat) (intr : Bool) (epc tval : Word) (d : Dev) : Dev :=
  let d := d.cpuEvent (if intr then 9 else 10) 1
  let st := (d.csr csrMSTATUS).toNat
  let keep := st - st / 8 % 2 * 8 - st / 128 % 2 * 128 - st / 2048 % 4 * 2048
  let new := keep + st / 8 % 2 * 128 + (if d.cpu.user then 0 else 3 * 2048)
  let d := ((d.setCsr csrMEPC epc).setCsr csrMCAUSE (BitVec.ofNat 32 (intr.toNat * 2 ^ 31 + cause))).setCsr csrMTVAL tval
  let d := d.setCsr csrMSTATUS (BitVec.ofNat 32 new)
  let v := (d.csr csrMTVEC).toNat
  let base := v - v % 4
  (d.toMode false).modCpu fun c => { c with pc := BitVec.ofNat 32 (if intr && v % 4 == 1 then base + 4 * cause else base) }

/-- An exception of the instruction last fetched. -/
def exception (cause : Nat) (tval : Word) (d : Dev) : Dev := d.trap cause false d.cpu.ipc tval

/-! ### Physical memory protection (R457, R467, R468; log 12) -/

/-- The byte of PMP entry i's configuration and its address register. -/
def pmpCfg (d : Dev) (i : Nat) : Nat := (d.csr (0x3A0 + i / 4)).toNat / 256 ^ (i % 4) % 256
def pmpAddr (d : Dev) (i : Nat) : Nat := (d.csr (0x3B0 + i)).toNat

/-- The bytes that entry i covers, first and one past the last. -/
def pmpRange (d : Dev) (i : Nat) : Nat × Nat :=
  let a := d.pmpAddr i
  match d.pmpCfg i / 8 % 4 with
  | 0 => (0, 0)
  | 1 => (if i = 0 then 0 else 4 * d.pmpAddr (i - 1), 4 * a)
  | 2 => (4 * a, 4 * a + 4)
  | _ => let x := a ^^^ (a + 1); (4 * (a - a % (x + 1)), 4 * (a - a % (x + 1)) + 4 * (x + 1))

/-- An access of n bytes at a, with permission bit `p` (0 read, 1 write, 2 execute), passes the PMP in a mode: the lowest
entry that any of its bytes lies in decides. -/
def pmpAllows (d : Dev) (user : Bool) (a n p : Nat) : Bool :=
  match (List.range 16).find? fun i => decide ((d.pmpRange i).1 < a + n) && decide (a < (d.pmpRange i).2) with
  | none => !user
  | some i =>
    let r := d.pmpRange i
    decide (r.1 ≤ a ∧ a + n ≤ r.2) && ((!user && d.pmpCfg i / 128 == 0) || (d.pmpCfg i / 2 ^ p % 2 == 1))

/-- The mode a load or store is judged in. -/
def dataUser (d : Dev) : Bool :=
  if d.cpu.user then true else (d.csr csrMSTATUS).getLsbD 17 && (d.csr csrMSTATUS).toNat / 2048 % 4 != 3

/-! ### Control and status registers (R459, R460; log 12) -/

/-- What an instruction reads from a CSR: pending interrupts from their causes, the counters' user names, the identity that the
spec does not give. -/
def csrRead (q : Vector EvQ 32) (n : Nat) (d : Dev) : Word :=
  if n = csrMIP then
    BitVec.ofNat 32 (d.cpu.memPend.toNat * 2 ^ 16 + d.cpu.quirePend.toNat * 2 ^ 17 +
      ((irqPend q &&& d.reg R.SYS_IRQ_EN) != 0).toNat * 2 ^ 11)
  else if [0x301, 0xF11, 0xF12, 0xF13, 0xF15].contains n then Config.csrId n
  else if n / 0x100 = 0xC then d.csr (n - 0x100)
  else d.csr n

/-- `mstatus` as written: MIE, MPIE, MPRV, TW and MPP are held; which legal mode an MPP of 1 or 2 becomes is free. -/
def mstatusWrite (v : Word) (d : Dev) : Dev :=
  let keep := v.toNat % 16 / 8 * 8 + v.toNat / 128 % 2 * 128 + v.toNat / 2 ^ 17 % 2 * 2 ^ 17 + v.toNat / 2 ^ 21 % 2 * 2 ^ 21
  let mpp := v.toNat / 2048 % 4
  if mpp = 0 ∨ mpp = 3 then d.setCsr csrMSTATUS (BitVec.ofNat 32 (keep + mpp * 2048))
  else
    let (x, d) := d.takeFree
    d.setCsr csrMSTATUS (BitVec.ofNat 32 (keep + x.toNat % 2 * 3 * 2048))

/-- A byte of a PMP configuration as written: a locked entry keeps its own; of a write permission without a read one, which
legal permission it becomes is free. -/
def pmpByte (old new free : Nat) : Nat :=
  if old / 128 = 1 then old
  else
    let rw := if new % 4 = 2 then [0, 1, 3].getD (free % 3) 0 else new % 4
    new / 128 * 128 + new / 4 % 8 * 4 + rw

/-- A PMP configuration register as written. -/
def pmpCfgWrite (n : Nat) (v : Word) (d : Dev) : Dev :=
  let old := (d.csr n).toNat
  let (x, d) := d.takeFree
  let part (k : Nat) : Nat := pmpByte (old / 256 ^ k % 256) (v.toNat / 256 ^ k % 256) (x.toNat / 256 ^ k % 256)
  d.setCsr n (BitVec.ofNat 32 (part 0 + part 1 * 256 + part 2 * 256 ^ 2 + part 3 * 256 ^ 3))

/-- The PMP address register i is locked: by its own entry, or by the next one whose range it begins. -/
def pmpAddrLocked (d : Dev) (i : Nat) : Bool :=
  d.pmpCfg i / 128 == 1 || (decide (i < 15) && d.pmpCfg (i + 1) / 128 == 1 && d.pmpCfg (i + 1) / 8 % 4 == 1)

/-- A CSR as an instruction writes it; bits with no function stay as they are. Whether the enable of the memory-error
interrupt, which R460 disregards, holds what is written is free. -/
def csrWrite (n : Nat) (v : Word) (d : Dev) : Dev :=
  if csrPlain n then d.setCsr n v
  else if n = csrMSTATUS then d.mstatusWrite v
  else if n = csrMIE then
    let (x, d) := d.takeFree
    d.setCsr csrMIE ((v &&& 0x20800) ||| (x &&& 0x10000))
  else if n = csrMTVEC then d.setCsr csrMTVEC (v &&& 0xFFFFFFFD)
  else if n = csrMEPC then d.setCsr csrMEPC (v &&& 0xFFFFFFFE)
  else if 0x3A0 ≤ n ∧ n < 0x3A4 then d.pmpCfgWrite n v
  else if 0x3B0 ≤ n ∧ n < 0x3C0 ∧ !d.pmpAddrLocked (n - 0x3B0) then d.setCsr n v
  else d

/-! ### Fetch (R463, R472, R476) -/

/-- An instruction access fault caused by a damaged word, or the halt it makes (R476). -/
def fetchDamaged (a : Nat) (d : Dev) : Dev :=
  if d.cpu.memFlag then d.modCpu fun c => { c with halted := true }
  else (d.modCpu fun c => { c with memFlag := true }).exception 1 (BitVec.ofNat 32 a)

/-- The half-words of the instruction at the pc, from the words it lies in; `none` where one is damaged, with its
address. -/
def fetchWord (pc : Nat) (d : Dev) : (Except Nat Word) × Dev :=
  let a := pc - pc % 4
  let (w, bad, d) := d.readMem 0 a srcFetch
  if bad then (.error a, d)
  else if pc % 4 = 0 then (.ok w, d)
  else
    let lo := w.toNat / 65536
    if lo % 4 ≠ 3 then (.ok (BitVec.ofNat 32 lo), d)
    else
      let (v, bad, d) := d.readMem 0 (a + 4) srcFetch
      if bad then (.error (a + 4), d) else (.ok (BitVec.ofNat 32 (lo + v.toNat % 65536 * 65536)), d)

/-- The bytes of the instruction lie in a region that allows a fetch (R463). -/
def fetchRegion (a n : Nat) : Bool := decide (a + n ≤ 0x80000) || decide (0x600000 ≤ a ∧ a + n ≤ 0x610000)

/-- An illegal instruction, or one that breaks: what the RISC-V architecture leaves to the device stands in `mtval`. -/
def exceptionFree (cause : Nat) (d : Dev) : Dev :=
  let (x, d) := d.takeFree
  d.exception cause x

/-- A register takes a value and the instruction of n bytes retires. -/
def writes (rd : Fin 32) (v : Word) (n : Nat) (d : Dev) : Dev :=
  ((d.modCpu fun c => { c with pc := c.pc + BitVec.ofNat 32 n }).setX rd v).retire

/-- A jump or a taken branch retires (R679). -/
def jumps (rd : Fin 32) (v target : Word) (d : Dev) : Dev :=
  (((d.modCpu fun c => { c with pc := target }).setX rd v).cpuEvent 5 1).retire

/-- A load, a store or `mret` waits for its own command. -/
def waits (o : PendingOp) (n : Nat) (d : Dev) : Dev :=
  d.modCpu fun c => { c with op := some o, pc := c.pc + BitVec.ofNat 32 n }

/-- A CSR instruction: it reads the old value and writes, but for set and clear with a zero source field. -/
def csrInsn (q : Vector EvQ 32) (op : CsrOp) (k : Nat) (rd src : Fin 32) (imm : Bool) (n : Nat) (d : Dev) : Dev :=
  let wr := op == .write || src != 0
  if !csrAllowed d.cpu.user k wr then d.exceptionFree 2
  else
    let old := d.csrRead q k
    let v := op.result old (if imm then BitVec.ofNat 32 src else d.getX src)
    let d := d.writes rd old n
    if wr then d.csrWrite k v else d

/-- The instruction of n bytes at the pc acts. `wfi` waits for no time at all. -/
def runInsn (q : Vector EvQ 32) (i : Insn) (n : Nat) (d : Dev) : Dev :=
  let pc := d.cpu.pc
  let next := pc + BitVec.ofNat 32 n
  match i with
  | .lui rd v => d.writes rd v n
  | .auipc rd v => d.writes rd (pc + v) n
  | .jal rd off => d.jumps rd next (pc + off)
  | .jalr rd rs1 off => d.jumps rd next ((d.getX rs1 + off) &&& 0xFFFFFFFE)
  | .branch c rs1 rs2 off => if c.holds (d.getX rs1) (d.getX rs2) then d.jumps 0 0 (pc + off) else d.writes 0 0 n
  | .load w sext rd rs1 off => d.waits (.load rd (d.getX rs1 + off) w sext) n
  | .store w rs1 rs2 off => d.waits (.store (d.getX rs1 + off) w (d.getX rs2)) n
  | .aluImm op rd rs1 imm => d.writes rd (op.result (d.getX rs1) imm) n
  | .alu op rd rs1 rs2 => d.writes rd (op.result (d.getX rs1) (d.getX rs2)) n
  | .fence | .wfi => d.writes 0 0 n
  | .ecall => d.exception (if d.cpu.user then 8 else 11) 0
  | .ebreak => d.exceptionFree 3
  | .mret => if d.cpu.user then d.exceptionFree 2 else d.waits .mret n
  | .csr op k rd src imm => d.csrInsn q op k rd src imm n

/-- An instruction word acts: an illegal-instruction exception where it holds no instruction of R457. -/
def runWord (q : Vector EvQ 32) (w : Word) (d : Dev) : Dev :=
  let w := if isShort w then BitVec.ofNat 32 (w.toNat % 65536) else w
  let d := d.modCpu fun c => { c with insn := w }
  match decodeInsn w with
  | none => d.exceptionFree 2
  | some i => d.runInsn q i (if isShort w then 2 else 4)

/-- `INSTRUCTION_FETCH`: the instruction at the pc is fetched and acts, `stalled` clocks later than it might; a load, a store
or `mret` then waits for its own command, and no other instruction is fetched before it. What the boot ROM holds is free. -/
def fetch (q : Vector EvQ 32) (stalled : Nat) (d : Dev) : Dev :=
  if !d.between then d
  else
    let pc := d.cpu.pc.toNat
    let d := (d.modCpu fun c => { c with ipc := c.pc, iuser := c.user }).cpuEvent 6 stalled
    if !fetchRegion pc 2 || !d.pmpAllows d.cpu.user pc 2 2 then d.exception 1 (BitVec.ofNat 32 pc)
    else
      let (w, d) := if 0x80000 ≤ pc then (let (x, d) := d.takeFree; (Except.ok x, d)) else d.fetchWord pc
      match w with
      | .error a => d.fetchDamaged a
      | .ok w =>
        if !isShort w && (!fetchRegion (pc + 2) 2 || !d.pmpAllows d.cpu.user (pc + 2) 2 2) then
          d.exception 1 (BitVec.ofNat 32 (pc + 2))
        else d.runWord q w

/-! ### Loads and stores (R458, R463, R472, R475) -/

/-- Where an address leads (R463): an SRAM the processor reaches, the boot ROM, or register and alias space. -/
inductive Region where
  | sram (m : Nat) | rom | regs | nowhere
  deriving DecidableEq, Repr

def regionOf (a : Nat) : Region :=
  if a < 0x80000 then .sram 0
  else if 0x100000 ≤ a ∧ a < 0x140000 then .sram 1
  else if 0x200000 ≤ a ∧ a < 0x600000 then .sram 2
  else if 0x600000 ≤ a ∧ a < 0x610000 then .rom
  else if (0x10000000 ≤ a ∧ a < 0x10200000) ∨ isAlias a then .regs
  else .nowhere

/-- The loaded bytes extended to a word. -/
def extend (w : Width) (sext : Bool) (v : Word) : Word :=
  match w with
  | .word => v
  | .half => if sext then (v.setWidth 16).signExtend 32 else v
  | .byte => if sext then (v.setWidth 8).signExtend 32 else v

/-- The processor's master. -/
def cpuMaster (d : Dev) : Master := if d.cpu.user then .cpuU else .cpuM

/-- Events of the stalls of an access (R679). -/
def accessClocks (k : AccessClocks) (d : Dev) : Dev := (d.cpuEvent 7 k.stalled).cpuEvent 8 k.bus

/-- A load from address a. -/
def loadAt (q : Vector EvQ 32) (a : Nat) (w : Width) (sext : Bool) (rd : Fin 32) (k : AccessClocks) (d : Dev) : Dev :=
  let d := d.accessClocks k
  let t := BitVec.ofNat 32 a
  let done (v : Word) (d : Dev) : Dev := ((d.setX rd (extend w sext v)).cpuEvent 3 1).retire
  if a % widthBytes w ≠ 0 then (d.when (regionOf a == .regs) (badAccess a)).exception 4 t
  else if !d.pmpAllows d.dataUser a (widthBytes w) 0 then d.exception 5 t
  else match regionOf a with
    | .sram m =>
      let (v, bad, d) := d.readMem m (a - a % 4) srcLoad
      if bad then ((((d.setX rd 0).cpuEvent 3 1).retire).modCpu fun c => { c with memPend := true })
      else done (narrowRead a w v) d
    | .rom => let (v, d) := d.takeFree; done (narrowRead 0 w v) d
    | .regs =>
      let d := d.busRead q d.cpuMaster a w
      if d.busRes = .off then d.exception 5 t
      else if d.busRes = .bad ∧ isAlias a ∧ w ≠ .word then d.exception 4 t
      else done d.busWord d
    | .nowhere => d.exception 5 t

/-- A store to address a. -/
def storeAt (a : Nat) (w : Width) (v : Word) (k : AccessClocks) (d : Dev) : Dev :=
  let d := d.accessClocks k
  let t := BitVec.ofNat 32 a
  let done (d : Dev) : Dev := (d.cpuEvent 4 1).retire
  if a % widthBytes w ≠ 0 then (d.when (regionOf a == .regs) (badAccess a)).exception 6 t
  else if !d.pmpAllows d.dataUser a (widthBytes w) 1 then d.exception 7 t
  else match regionOf a with
    | .sram m =>
      done (if w = .word then d.cpuStoreWord m a v else d.partialStore m (a - a % 4) (a % 4) (widthBytes w) v)
    | .regs =>
      let d := d.busWrite d.cpuMaster a w v
      if d.busRes = .off then d.exception 7 t
      else if d.busRes = .bad ∧ isAlias a ∧ w ≠ .word then d.exception 6 t
      else done d
    | .rom | .nowhere => d.exception 7 t

/-- A register access of the processor that waits for STANDBY (R591): its instruction waits with it. -/
def waiting (d : Dev) (a : Nat) (w : Width) (read : Bool) : Bool :=
  regionOf a == .regs && d.pmpAllows d.dataUser a (widthBytes w) (if read then 0 else 1) && d.stalls d.cpuMaster a w read

/-- `PROCESSOR_LOAD`: the load that was fetched. -/
def load (q : Vector EvQ 32) (k : AccessClocks) (d : Dev) : Dev :=
  if !d.executing then d
  else match d.cpu.op with
    | some (.load rd a w sext) => if d.waiting a.toNat w true then d else d.opDone.loadAt q a.toNat w sext rd k
    | _ => d

/-- `PROCESSOR_STORE`: the store that was fetched. -/
def store (k : AccessClocks) (d : Dev) : Dev :=
  if !d.executing then d
  else match d.cpu.op with
    | some (.store a w v) => if d.waiting a.toNat w false then d else d.opDone.storeAt a.toNat w v k
    | _ => d

/-! ### Interrupts and `mret` (R460, R476) -/

/-- Interrupts that obey `mstatus.MIE` and their `mie` bit are taken. -/
def intOpen (d : Dev) (bit : Nat) : Bool :=
  (d.cpu.user || (d.csr csrMSTATUS).getLsbD 3) && (d.csr csrMIE).getLsbD bit

def interrupt (cause : Nat) (d : Dev) : Dev := d.trap cause true d.cpu.pc 0

/-- `MEMORY_ERROR_INTERRUPT`: taken whatever `mstatus` and `mie` hold, or a halt (R460, R474, R476). -/
def memoryErrorInterrupt (d : Dev) : Dev :=
  if !d.between || !d.cpu.memPend then d
  else
    let d := d.modCpu fun c => { c with memPend := false }
    if d.cpu.memFlag then d.modCpu fun c => { c with halted := true }
    else (d.modCpu fun c => { c with memFlag := true }).interrupt 16

/-- `QUIRE_INTERRUPT`: it stays pending until `SYS.RT.DONE`. -/
def quireInterrupt (d : Dev) : Dev :=
  if d.between && !d.cpu.memPend && d.cpu.quirePend && d.intOpen 17 then d.interrupt 17 else d

/-- `MACHINE_EXTERNAL_INTERRUPT`. -/
def externalInterrupt (q : Vector EvQ 32) (d : Dev) : Dev :=
  if d.between && !d.cpu.memPend && (irqPend q &&& d.reg R.SYS_IRQ_EN) != 0 && d.intOpen 11 then d.interrupt 11 else d

/-- `MRET`: the mode, the interrupt enable and the pc return, and the memory-error flag is cleared. -/
def mret (d : Dev) : Dev :=
  if !d.executing || d.cpu.op != some .mret then d
  else
    let st := (d.csr csrMSTATUS).toNat
    let mpp := st / 2048 % 4
    let keep := st - st / 8 % 2 * 8 - st / 128 % 2 * 128 - mpp * 2048 - (if mpp = 3 then 0 else st / 2 ^ 17 % 2 * 2 ^ 17)
    let d := d.retire.setCsr csrMSTATUS (BitVec.ofNat 32 (keep + st / 128 % 2 * 8 + 128))
    (d.toMode (mpp != 3)).modCpu fun c => { c with op := none, pc := d.csr csrMEPC, memFlag := false }

end Dev

end Sys2Proof.Machine
end

