-- ==== Sys2Proof/Machine/Press.lean ====
section
/-! DEFINITION. Step 2 of a quire boundary (R39): press groups (R532 to R535), with the mapping change of R63 to R65, and
fault classes (R661). -/

namespace Sys2Proof.Machine

namespace Dev

/-! ### Group 1 (R62 to R65) -/

/-- The MAP shadows pass the check of R63. -/
def mapValid (d : Dev) : Bool :=
  let m := d.fld F.MAP_MODE_MODE
  let rxa := allLanes.map fun n => d.fld (F.MAP_REMAP_RXA n)
  let rxb := allLanes.map fun n => d.fld (F.MAP_REMAP_RXB n)
  let txa := allLanes.map fun n => d.fld (F.MAP_REMAP_TXA n)
  let txb := allLanes.map fun n => d.fld (F.MAP_REMAP_TXB n)
  if m < 4 then decide (rxa ++ rxb).Nodup && decide (txa ++ txb).Nodup
  else m == 4 && decide rxa.Nodup && decide txa.Nodup

/-- The live fields that define stream s: the lane format, its entries with the host lanes they name, and the polarity of
those host lanes (R65). -/
def streamKey (d : Dev) (s : Nat) : Option (Bool × List (Lane × Nat × HostLane × HostLane × Bool × Bool)) :=
  if d.streamCount ≤ s then none
  else some (d.native, (d.streamEntries s).map fun p =>
    let r := d.rxHost p.1 p.2
    let t := d.txHost p.1 p.2
    (p.1, p.2, r, t, d.lvOn ⟨R.HST_POL, r, 1⟩, d.lvOn ⟨R.HST_POL, 16 + t, 1⟩))

/-- Content in flight of a changed stream toward the line is discarded under FLUSH_CFG (R65). -/
def flushTx (s : Nat) (d : Dev) : Dev := let k := d.fld (inflTx s); if k = 0 then d else d.txDisc s rFLUSH k

/-- A lane of a changed stream: no unit in progress is left in its interleave blocks, its received block is flushed for the
changed streams it carried, and what it receives for those it carries now is flushed until its next received slot 0 (R65,
R36). -/
def flushLane (n : Lane) (old new changed : List Nat) (d : Dev) : Dev :=
  let d := d.modTx n fun t => { t with endA := none, endB := none }
  let d := d.each (old.filter changed.contains) (flushStream n)
  d.modRx n fun r => { r with flushed := (r.flushed ++ new.filter changed.contains).dedup }

/-- The line format of lane n changes between native and compatibility (R58). A marker lock ends as every one does in RUN
(R113). DESIGN CHOICE (log 38): a lock held under the old format ends with it, and the lane acquires again from DD. The framing
and decoding registers read 0 on a compatibility lane (R125, R156); `DEC_STAT.DEGRADED` shows the fault window again on a native
one. -/
def formatChange (n : Lane) (d : Dev) : Dev :=
  let d := if d.on (F.LANE_FMT_STAT_MK_LOCK n) then d.dropLock n rNOLOCK else if d.acq n < 7 then d else d.lockGone n rNOLOCK
  let d := if d.acq n < 7 then d else d.setAcq n 5
  let d := d.modRx n fun r => { r with pmdLock := false, fec := 0 }
  let d := d.each [R.LANE_FMT_STAT n, R.LANE_FMT_RXID n, R.LANE_FMT_RXQ n, R.LANE_DEC_STAT n] fun a d => d.setReg a 0
  d.setOn (F.LANE_DEC_STAT_DEGRADED n) (d.native && (d.bucket 1 n).lasting)

/-- The press of group 1. -/
def pressMap (d : Dev) : Dev :=
  let old := d
  let ok := d.mapValid
  let d := d.pressWords [R.HST_POL, R.FEC_CFG]
  let d := if ok then
      (d.pressWords (R.MAP_MODE :: allLanes.map fun n => R.MAP_REMAP n)).setOn F.MAP_STAT_CFG_ERR false
    else (d.setOn F.MAP_STAT_CFG_ERR true).raise Blk.map 0x01 0
  let changed := (List.range 16).filter fun s => old.streamKey s != d.streamKey s
  if changed.isEmpty then d
  else
    let d := d.each changed flushTx
    let d := d.each allLanes fun n d =>
      let o := old.laneStreams n
      let w := d.laneStreams n
      if (o ++ w).any changed.contains then d.flushLane n o w changed else d
    let d := d.each changed fun s d => d.resetDelineator (Fin.ofNat 16 s)
    let es := changed.flatMap d.streamEntries
    let d := d.each es fun p d => d.modHost (d.rxHost p.1 p.2) fun x => { x with rxBits := 0, rxLeft := 5440, rxAlign := none }
    let d := d.each es fun p d => d.modHost (d.txHost p.1 p.2) fun x => { x with txBits := 0 }
    let d := if old.native = d.native then d else d.each allLanes formatChange
    let d := d.each allLanes fun n d => d.relockMode n (old.spLive n)
    (d.each allLanes linkUpdate).updateStreams.hostSignals

/-! ### The other groups -/

/-- Group 0: lane power modes and thermal settings (R601, R619). -/
def pressPower (d : Dev) : Dev := (d.pressWords (allLanes.map fun n => R.PWR_LANE_CFG n)).thermalPress

/-- The line format of lane n from the next transmit quire; `PRE_RX` waits for the received boundary (R120). -/
def pressFormat (n : Lane) (d : Dev) : Dev :=
  let rx := d.lv (F.LANE_FMT_CFG_PRE_RX n)
  d.setLive (R.LANE_FMT_CFG n) (putBits (d.reg (R.LANE_FMT_CFG n)) (F.LANE_FMT_CFG_PRE_RX n) rx)

/-- Group 2 on lane n: relock and calibration settings at once, the transmit part at the boundary, the receive part staged
for the lane's received boundary (R120, R155, R164, R254, R279, R534). -/
def pressLane (n : Lane) (d : Dev) : Dev :=
  let sp := d.spLive n
  let d := (d.pressWords [R.BRL_CFG n, R.CAL_CFG n, R.CAL_TOL n, R.CAL_TGT n]).relockMode n sp
  if !d.domOn (.lfe n) then d
  else
    let d := ((d.pressTransmit n).stageReceive n).pressFormat n
    if d.receives n then d else d.applyReceive n

/-- Group 3: slice events (R686). -/
def pressSlices (d : Dev) : Dev :=
  d.pressWords (((List.finRange 9).filter fun s => d.domOn (.slc s)).map fun (s : Slice) => R.SLC_PM_CFG s)

/-- Step 2 of R39: every due group, then `PEND` cleared, `LAST` set and CLK event 0x05 (R533, R535). -/
def pressStep (mask : Nat) (d : Dev) : Dev :=
  if mask = 0 then d
  else
    let d := if mask.testBit 0 then d.pressPower else d
    let d := if mask.testBit 1 then d.pressMap else d
    let d := if mask.testBit 2 then d.each allLanes pressLane else d
    let d := if mask.testBit 3 then d.pressSlices else d
    ((d.setFld F.CLK_PRESS_STAT_PEND 0).setFld F.CLK_PRESS_STAT_LAST mask).raise Blk.clk 0x05 0

/-! ### Fault classes (R661) -/

/-- The action of a class at lasting fault, for an instance (R663). -/
def classAction (c i : Nat) (d : Dev) : Dev :=
  match c with
  | 0 => (d.setOn (hostDegraded (Fin.ofNat 16 i)) true).raise Blk.hst 0x03 i
  | 1 => (d.setOn (F.LANE_DEC_STAT_DEGRADED i) d.native).raise Blk.lane 0x20 i
  | 2 => d.sarLasting (Fin.ofNat 8 (i / 130)) (Fin.ofNat 2 (i % 130 / 65)) (i % 65)
  | 3 => (d.setOn (F.LANE_EQ_STAT_DEGRADED i) true).raise Blk.lane 0x65 i
  | 4 => (d.setOn (F.BRL_STAT_COLL_DEG i) true).raise Blk.brl 0x79 i
  | 5 => (d.setOn (F.CAL_STAT_DEGRADED i) true).raise Blk.cal 0x54 i
  | 6 | 7 => d.sliceLasting i
  | 8 => d.slotLasting i
  | 9 => d.setOn F.HKP_SEQ_STAT_DEGRADED true
  | 10 => ((d.setOn F.PWR_AVS_STAT_DEGRADED true).modPwr fun p => { p with avsStop := true }).raise Blk.pwr 0xD7 0
  | 11 => (d.setOn ⟨R.THM_EXCL, i, 1⟩ true).raise Blk.thm 0xE6 i
  | 12 => (d.setOn F.NVM_STAT_DEGRADED true).raise Blk.nvm 0xFA 0
  | _ => d

/-- An instance is judged against its class's new setting. -/
def rejudge (b : Bucket) (d : Dev) : Dev :=
  let t := d.faultT b.cls
  let reached := decide (t ≤ b.level)
  let d := d.setBucket { b with level := min t b.level, timer := d.faultPeriod b.cls, lasting := reached }
  if reached && !b.lasting then (d.reportLasting b.cls b.inst).classAction b.cls b.inst
  else if !reached && b.lasting then d.endLasting b.cls b.inst
  else d

/-- `FLT.CLSc` written since the last boundary takes effect: first the leak of the quire that ended, under the old
setting. -/
def classUpdate (c : Nat) (d : Dev) : Dev :=
  if !d.clsWritten.getLsbD c then d
  else
    let mine (d : Dev) : List Bucket := d.flt.filter fun b => b.cls == c
    let d := d.each (mine d) fun b d => d.leak b.cls b.inst
    let d := d.pressWords [R.FLT_CLS c]
    d.each (mine d) fun b d => d.rejudge (d.bucket b.cls b.inst)

def classUpdates (d : Dev) : Dev := { (d.each (List.range 13) classUpdate) with clsWritten := 0 }

end Dev

end Sys2Proof.Machine
end

