-- ==== Sys2Proof/Machine/Tick.lean ====
section
/-! DEFINITION. The internal quire boundary (R39 to R46): the end of the old quire, the five steps, and what the chapters
place at it. -/

namespace Sys2Proof.Machine

namespace Dev

/-! ### The quire that ends -/

/-- What the quire that ends counts (R41, R186, R366, R459, R660, R678, R679). -/
def quireEnd (d : Dev) : Dev :=
  let d := (d.clocksPass (8192 - d.cnt.clocks)).when (d.meshOn && decide (d.pwr.sbyDown < 4)) meshAge
  let d := d.modSpr fun p => { p with holdoff := p.holdoff - 1 }
  let d := ((d.each allLanes fun n d => d.calMark n false).each allLanes frontEndQuire).modClk fun c => { c with compatQ := (c.compatQ + 1) % 15 }
  (d.csrAdd csrMCYCLE 8192).leakTimers

/-! ### Quire number and schedule (R15, R410, R411, R416 to R418) -/

/-- The quire numbers that a boundary takes on when the number moves from `q0` to `q1`: none when it stays, and none of
those that a step passes over (R411). -/
def quireNumbers (step : Bool) (q0 q1 : BitVec 48) : List Nat :=
  if q1 = q0 then [] else if step then [q1.toNat] else if q1 = q0 + 2 then [(q0 + 1).toNat, q1.toNat] else [q1.toNat]

/-- Mesh time advances; slots that fall due fire; the answer tells whether a snapshot falls due by them, and the press groups
they bring. -/
def timeStep (d : Dev) : (Bool × Nat) × Dev :=
  let q0 := d.clk.qnum
  let step := d.meshOn && d.msh.stepNext.isSome
  let ahead := if d.meshOn && d.msh.stepNext.any (fun s => decide (0 < s)) then some (d.meshTime + 65536) else none
  let d := d.advanceMesh
  let d := d.capQuire (quireNumbers step q0 d.clk.qnum)
  let due := [0, 1].filter d.schedDue
  let snap := due.any fun k => d.on (F.MSH_SCHED_CTRL_SNAP k)
  let mask := due.foldl (fun m k => m ||| d.fld (F.MSH_SCHED_CTRL_PRESS k)) 0
  ((snap, mask), d.each due (schedFire ahead))

/-! ### The flyleaf (R344 to R352, R363 to R366) -/

/-- The register word and its bits that a software write changes to 1 (R511, R522). -/
def swBits (w : SwWrite) : Nat × Word :=
  match busTarget w.addr with
  | (reg, some b) => (reg, BitVec.ofNat 32 ((w.value.getLsbD 0).toNat * 2 ^ b))
  | (reg, none) => (reg, (w.value <<< (8 * (w.addr % 4))) &&& coverMask w.addr w.width)

/-- A software write of the commit clock that the bus performs. -/
def writeLands (d : Dev) (w : SwWrite) : Bool := (d.judge w.master w.addr w.width false).1 == .done

/-- A write of `SPR.CTRL.ABORT` in the cycle of the commit decision (R361). -/
def abortLands (ws : List SwWrite) (d : Dev) : Bool :=
  ws.any fun w => (swBits w).1 == R.SPR_CTRL && (swBits w).2.getLsbD 5 && d.writeLands w

/-- The swap at an internal boundary: the transmit window opens, or the swap commits, which a write of ABORT in the same
cycle stops (R361), as does throttle that takes effect at this boundary (R349), for which a commit waits for a judgement still to
come at it; an undone swap's crossbar returns. -/
def swapTick (ws : List SwWrite) (d : Dev) : Dev :=
  let p := d.spr
  let d := d.modSpr fun x => { x with age := x.age + 1 }
  if d.phase = 2 then
    let ready := if d.kind = 3 then p.wholeQ else p.txOpen && p.rxOk
    if ready then
      if d.abortLands ws then d
      else if d.thm.sampling then d.modSpr fun x => { x with commitDue := true }
      else if d.throttleNext then d.endShadow 5
      else d.swapCommit
    else d.modSpr fun x => { x with txOpen := true }
  else if d.phase = 4 then d.modSpr fun x => { x with wholeQ := true }
  else d

/-- A rotation that is due and cannot start waits (R365). -/
def showPaused (d : Dev) : Dev :=
  let can := match d.rotationTarget with | some n => d.shadowAllowed n | none => false
  d.setOn F.SPR_STAT_PAUSED (d.on F.SPR_STAT_ROT_DUE && !can && !(d.phase != 0 && d.kind == 0))

/-- SPR settings take effect; the rotation period counts and saturates (R363, R373, R375). A test of a retired slice stops (R371),
and an entry to ACTIVE that waits for the slice goes on with that which replaces it (R33, R584). -/
def rotationTick (d : Dev) : Dev :=
  let d := d.pressWords [R.SPR_CFG]
  let d := if d.lvOn F.SPR_CFG_ROT_EN && !d.exhausted then
      d.setReg R.SPR_ROTQ (BitVec.ofNat 32 (min (2 ^ 32 - 1) ((d.reg R.SPR_ROTQ).toNat + 1))) else d
  let d := match d.spr.retDue with
    | some s =>
      let d := d.modSpr fun p => { p with retDue := none }
      if d.retired = 15 then d.sliceLasting s else d
    | none => d
  let d := d.when (decide (d.retired < 9) && d.fld F.SPR_STAT_TESTING == d.retired) (stopTest fun t => t.part == 0)
  d.when (d.dstate == stToACTIVE && d.pwr.entry.any fun x => x == .slc (Fin.ofNat 9 d.retired) && decide (d.retired < 9)) powerUpData

/-- `ROTATION_DUE` (R363, R366). -/
def rotationDue (d : Dev) : Dev :=
  let e := max 16 (d.lv F.SPR_CFG_ROT_EXP)
  if d.lvOn F.SPR_CFG_ROT_EN && !d.exhausted && !d.on F.SPR_STAT_ROT_DUE && d.spr.holdoff == 0
      && decide (2 ^ e ≤ (d.reg R.SPR_ROTQ).toNat) then
    (d.setOn F.SPR_STAT_ROT_DUE true).showPaused
  else d

/-- `SHADOW_START`: the swap due starts at a boundary at which R356 holds (R344, R357, R358). -/
def shadowStart (d : Dev) : Dev :=
  match d.dueShadow with
  | some (n, k) =>
    if (d.lane n).tx.slot ≠ 0 then d
    else
      let d := if k = 1 then d.modSpr fun p => { p with cmd := p.cmd.filter (· != n) } else d
      (d.beginShadow n k).showPaused
  | none => d.showPaused

/-- `CONVERGE_TIMEOUT`: three quires after B0 (R344). -/
def convergeTimeout (d : Dev) : Dev := if d.phase = 1 ∧ 3 ≤ d.spr.age then d.endShadow 1 else d

/-- `SHADOW_MISMATCH` (R348, R352, R684): before the commit the shadow ends, after it the swap is undone; a forced swap makes
no comparison (R370). -/
def shadowMismatch (d : Dev) : Dev :=
  if (d.phase ≠ 2 ∧ d.phase ≠ 3) ∨ d.kind = 3 then d
  else
    let d := d.sliceEvent d.spr.shadow 10 1
    if d.phase = 2 then d.endShadow 2
    else (d.setFld F.SPR_STAT_PHASE 4).modSpr fun p => { p with wholeQ := false }

/-- `SWAP_UNDO`: the transmit crossbar is back at the outgoing slice (R352, R366, R368, R370). -/
def swapUndo (d : Dev) : Dev :=
  if d.phase ≠ 4 ∨ !d.spr.wholeQ then d
  else
    let n := d.target
    let car := d.carrier n
    let k := d.kind
    let d := (d.shadowOver.bump R.SPR_UNDOS).raise Blk.spr 0x83 n
    let d := d.when (k == 0) rotationFailed
    let d := if k = 2 then d.repairFailed car else d.blameTest car
    ((d.sliceFreed d.spr.shadow).updateFly.applyDeferred n).startFull

/-! ### Step 3 (R331, R326, R171, R214) -/

/-- The registers that item i of lane n is about to write. -/
def commitRegs (d : Dev) (n : Lane) (i : Fin 4) : List Nat :=
  let c := d.calItem n i
  if c.phase ≠ 3 ∨ d.calHeld n i then []
  else (((calFields n i).zip c.result).filter fun x => x.2.isSome).map fun x => x.1.1.addr

/-- Calibration at step 3: commits, or rejections where a software write of the same clock reaches a word of the result, itself
or through an alias (R523); then the runs that start and the windows that begin. -/
def calStep (ws : List SwWrite) (d : Dev) : Dev :=
  let landing := (ws.filter d.writeLands).map fun w => (busTarget w.addr).1
  let d := d.each allLanes fun n d => d.each (List.finRange 4) fun i d =>
    if (d.commitRegs n i).any landing.contains then d.calReject n i 2 else d.calCommit n i
  (d.each allLanes calDueRuns).each allLanes fun n d => d.calBegin n false

/-- The software writes of the commit clock: they belong to the quire that begins, so that what waits for a boundary waits
for the next one (R13, R46). -/
def swWrites (ws : List SwWrite) (d : Dev) : Dev := d.each ws fun w d => d.busWrite w.master w.addr w.width w.value

/-! ### Steps 4 and 5 -/

/-- Housekeeping and thermal sampling (R433, R435, R444, R608). -/
def sampleStep (d : Dev) : Dev := ((d.modHkp fun h => { h with sub := 0 }).biasGoals.adcTick).thermalTick

/-- The real-time slot begins (R462, R501). -/
def slotStep (d : Dev) : Dev :=
  let d := if d.cpu.slotSeen then d else (d.bumpFld F.SYS_RT_OVR).raise Blk.sys 0x01 0
  ((d.modCpu fun c => { c with quirePend := true, slotSeen := false })).pulse 7

/-! ### The boundary -/

/-- The level of a lane that does not receive, at an internal boundary: that of a quire which stage 0 of STANDBY or the asking of
stage 0 or 1 ended (R222, R586), else none. -/
def levelStill (n : Lane) (d : Dev) : Dev :=
  if d.active && (d.pwr.sbyDown == 1 || d.pwr.sbyDown == 2) && !d.fullRunning && d.inRun n && d.carried n then
    d.when (!d.ownBoundary n) (levelQuire n (if d.native then quireSlots else d.endedClocks))
  else d.levelNone n

/-- A powered front end that does not receive, at an internal boundary: its level, a press still staged (R44), the profile in force
(R45, R262), its trims. -/
def unreceived (n : Lane) (d : Dev) : Dev := (((d.levelStill n).applyReceive n).changeProfile n).takeUpTrims n

/-- Lanes at an internal boundary: transmit slot 0 begins, and lanes without a received boundary of their own have theirs
(R45, R92). -/
def laneStep (inp : TickInput) (d : Dev) : Dev :=
  let d := d.each allLanes fun n d => (d.transmitTick n (inp.convLock.getLsbD n)).mirrorTx n
  (d.each allLanes fun n d => if d.receives n then d.internalReceived n else d.when (d.domOn (.lfe n)) (unreceived n)).swapTick inp.writes |>.capPast

/-- The power manager at an internal boundary (R22, R51, R571, R576, R585 to R589). -/
def powerStep (d : Dev) : Dev :=
  let d := d.standbyTick.laneModes.hostGroups
  d.modPwr fun p => { p with woken := p.woken.map fun x => (x.1, x.2 + 1) }

/-- Counts and requests that wait for a boundary (R23, R563, R566, R573, R616, R638). -/
def waitStep (d : Dev) : Dev :=
  let d := d.sessionTick.modClk fun c => { c with refQ := c.refQ + 1 }
  let d := if d.sec.restartDue then (d.modPwr fun p => { p with mrst := 3 }).modSec fun s => { s with restartDue := false }
    else d
  let d := d.restTick
  ((d.followRequest d.thermalAllows).stopProgress).lossTick

/-- The quire tick runs. -/
def ticking (d : Dev) : Bool := d.domOn .mgt && d.on F.CLK_STAT_TICK_RUN

/-- The counters that a software write of the commit clock sets. -/
def pmcWritten (ws : List SwWrite) (d : Dev) (i : Nat) : Bool :=
  ws.any fun w => (busTarget w.addr).1 == R.CNT_PMC_LO i && d.writeLands w

/-- `QUIRE_TICK`: `lost` gives each block's `EVLOST` for the snapshot. Without a running tick there is no
boundary. A counter that a software write sets in the same clock counts the boundary on top of it (R524). -/
def quireTick (lost : Nat → Word) (inp : TickInput) (d : Dev) : Dev :=
  if !d.ticking then d
  else
    let (due, d) := d.quireEnd.timeStep
    let d := d.snapshotStep due.1 lost
    let (late, now) := (d.countersOf 13).partition (d.pmcWritten inp.writes)
    let d := d.each now fun i d => d.pmcAdd i 1
    let d := ((d.pressStep (d.fld F.CLK_PRESS_STAT_PEND ||| due.2)).classUpdates).rotationTick
    let d := (d.powerStep.laneStep inp)
    let d := d.calStep inp.writes
    let d := if 4 ≤ d.pwr.sbyDown then d else d.meshTick
    let d := (d.sampleStep.slotStep.waitStep.showPaused.swWrites inp.writes).each late fun i d => d.pmcAdd i 1
    { d with cnt := { d.cnt with clocks := 0 } }

end Dev

end Sys2Proof.Machine
end

