-- ==== Sys2Proof/Machine/AcquireCmds.lean ====
section
/-! DEFINITION. Commands of acquisition, adaptation and the ribbon relock.
One meaning per command. -/

namespace Sys2Proof.Machine

/-- `AGC_WINDOW_END` (R251). -/
def execAgcWindowEnd (n : Lane) (s : State) : Host.Outcome State Fault Refusal := .next (commit s (s.dev.agcWindow n))

/-- `ACQ_WINDOW_END` (R266). -/
def execAcqWindowEnd (n : Lane) (s : State) : Host.Outcome State Fault Refusal := .next (commit s (s.dev.acqWindow n))

/-- `SIGNAL_DETECT` (R266). -/
def execSignalDetect (n : Lane) (s : State) : Host.Outcome State Fault Refusal :=
  .next (commit s (s.dev.signalDetect n))

/-- `SIGNAL_LOSS` (R267). -/
def execSignalLoss (n : Lane) (s : State) : Host.Outcome State Fault Refusal := .next (commit s (s.dev.signalLoss n))

/-- `ACQ_TIMEOUT` (R268). -/
def execAcqTimeout (n : Lane) (s : State) : Host.Outcome State Fault Refusal := .next (commit s (s.dev.acqTimeout n))

/-- `WARM_FALLBACK` (R273). -/
def execWarmFallback (n : Lane) (s : State) : Host.Outcome State Fault Refusal :=
  .next (commit s (s.dev.warmFallback n))

/-- `UPDATE_INTERVAL_END` (R257). -/
def execUpdateIntervalEnd (n : Lane) (rx : RxLeaf) (s : State) : Host.Outcome State Fault Refusal :=
  .next (commit s (s.dev.updateIntervalEnd n rx))

/-- `REACQ` (R276). -/
def execReacq (m : Master) (n : Lane) (v : Word) (s : State) : Host.Outcome State Fault Refusal :=
  .next (commit s (s.dev.busWrite m (R.LANE_EQ_CTRL n) .word v))

/-- `SAVE` (R274). -/
def execSave (m : Master) (n : Lane) (v : Word) (s : State) : Host.Outcome State Fault Refusal :=
  .next (commit s (s.dev.busWrite m (R.LANE_EQ_CTRL n) .word v))

/-- `EQ_FREEZE_WRITE` (R261). -/
def execEqFreezeWrite (m : Master) (n : Lane) (v : Word) (s : State) : Host.Outcome State Fault Refusal :=
  .next (commit s (s.dev.busWrite m (R.LANE_EQ_CTRL n) .word v))

/-- `INTERP_FREEZE_WRITE` (R206). -/
def execInterpFreezeWrite (m : Master) (n : Lane) (v : Word) (s : State) : Host.Outcome State Fault Refusal :=
  .next (commit s (s.dev.busWrite m (R.LANE_RX_PHCFG n) .word v))

/-- `BRL_NEXT_WRITE` (R289). -/
def execBrlNextWrite (m : Master) (n : Lane) (v : Word) (s : State) : Host.Outcome State Fault Refusal :=
  .next (commit s (s.dev.busWrite m (R.BRL_NEXT n) .word v))

/-- `RIBBON_LOOKUP_DONE` (R289). -/
def execRibbonLookupDone (n : Lane) (s : State) : Host.Outcome State Fault Refusal :=
  .next (commit s (s.dev.lookupDone n))

/-- `SUBWINDOW_END` (R284). -/
def execSubwindowEnd (n : Lane) (front : List (Nat × Nat)) (s : State) : Host.Outcome State Fault Refusal :=
  .next (commit s (if s.dev.receives n then s.dev.subwindow n front else s.dev))

/-- `PRESET_LOAD` (R292). -/
def execPresetLoad (n : Lane) (s : State) : Host.Outcome State Fault Refusal := .next (commit s (s.dev.presetLoad n))

/-- `RIBBON_FALLBACK` (R294). -/
def execRibbonFallback (n : Lane) (s : State) : Host.Outcome State Fault Refusal :=
  .next (commit s (s.dev.ribbonFallback n))

end Sys2Proof.Machine
end

