-- ==== Sys2Proof/Machine/BusCmds.lean ====
section
/-! DEFINITION. Commands of the register bus and the domains an access wakes.
One meaning per command. -/

namespace Sys2Proof.Machine

/-- The address of `blk.EVQ` (R526, R697). -/
def evqAddr (b : Fin 32) : Nat := 0x10007F00 + b * 0x10000

/-- An access of master m to a register of domain x wakes it (R509, R541, R542), if the master is one that the domain's registers
admit: those of a slice are all guarded (R538, R699). During an entry to STANDBY it stalls (R591). -/
def accessWake (m : Master) (x : Dom) (d : Dev) : Dev :=
  let open' := match x with | .slc _ => d.trusted m | _ => true
  if x = .mgt then d.busUp m
  else if d.domOn .mgt && wakes m && !d.heldDomain x && open' && d.dstate != Dev.stToSTANDBY then d.wakeDomain x
  else d

/-- `REGISTER_WRITE` (R510). -/
def execRegisterWrite (m : Master) (addr : Nat) (w : Width) (v : Word) (s : State) : Host.Outcome State Fault Refusal :=
  .next (commit s (s.dev.busWrite m addr w v))

/-- `ALIAS_WRITE` (R522). -/
def execAliasWrite (m : Master) (addr : Nat) (v : Word) (s : State) : Host.Outcome State Fault Refusal :=
  .next (commit s (if isAlias addr then s.dev.busWrite m addr .word v else s.dev))

/-- `EVENT_QUEUE_READ` (R527). -/
def execEventQueueRead (m : Master) (blk : Fin 32) (w : Width) (s : State) : Host.Outcome State Fault Refusal :=
  .next (commit s (s.dev.busRead s.evq m (evqAddr blk) w))

/-- `CLK_PRESS_WRITE` (R533). -/
def execClkPressWrite (m : Master) (v : Word) (s : State) : Host.Outcome State Fault Refusal :=
  .next (commit s (s.dev.busWrite m R.CLK_PRESS .word v))

/-- `DOMAIN_WAKE` (R541). -/
def execDomainWake (m : Master) (dom : Dom) (s : State) : Host.Outcome State Fault Refusal :=
  .next (commit s (accessWake m dom s.dev))

/-- `DOMAIN_IDLE_OFF` (R571). -/
def execDomainIdleOff (dom : Dom) (s : State) : Host.Outcome State Fault Refusal :=
  .next (commit s (s.dev.idleOff dom))

end Sys2Proof.Machine
end

