-- ==== Sys2Proof/Machine/ClockCmds.lean ====
section
/-! DEFINITION. Commands of the clocks, the quire boundary and the host side.
One meaning per command. -/

namespace Sys2Proof.Machine

/-- `QUIRE_TICK` (R39). -/
def execQuireTick (inp : TickInput) (s : State) : Host.Outcome State Fault Refusal :=
  .next (commitTick s (s.dev.quireTick (fun b => (Dev.queueOf s.evq b).lost) inp))

/-- `RECEIVED_QUIRE_BOUNDARY` (R44). -/
def execReceivedQuireBoundary (n : Lane) (clk : Fin 16384) (s : State) : Host.Outcome State Fault Refusal :=
  .next (commit s (s.dev.receivedBoundary n clk))

/-- `HOST_PLL_LOCK` (R27). -/
def execHostPllLock (s : State) : Host.Outcome State Fault Refusal := .next (commit s s.dev.pllLock)

/-- `HOST_PLL_LOCK_LOSS` (R27). -/
def execHostPllLockLoss (s : State) : Host.Outcome State Fault Refusal := .next (commit s s.dev.pllLoss.lossStopped)

/-- `TSRC_LANE_LOSS` (R21). -/
def execTsrcLaneLoss (s : State) : Host.Outcome State Fault Refusal := .next (commit s s.dev.timingLoss)

/-- `TSRC_LANE_RECOVERY` (R22). -/
def execTsrcLaneRecovery (s : State) : Host.Outcome State Fault Refusal := .next (commit s s.dev.timingRecovery)

/-- `REF_RANGE_CHECK` (R23). -/
def execRefRangeCheck (count : Nat) (s : State) : Host.Outcome State Fault Refusal :=
  .next (commit s (s.dev.refCheck count))

/-- `LO_WORD_READ` (R28). -/
def execLoWordRead (m : Master) (addr : Nat) (s : State) : Host.Outcome State Fault Refusal :=
  .next (commit s (if s.dev.isLo (busTarget addr).1 || (Dev.debugWay m addr).isSome then s.dev.busRead s.evq m addr .word else s.dev))

/-- `HOST_LANE_LOST` (R52). -/
def execHostLaneLost (h : HostLane) (s : State) : Host.Outcome State Fault Refusal :=
  .next (commit s (s.dev.hostLaneLost h))

/-- `HOST_LANE_RESTORED` (R52). -/
def execHostLaneRestored (h : HostLane) (s : State) : Host.Outcome State Fault Refusal :=
  .next (commit s (s.dev.hostLaneRestored h))

/-- `ALIGNMENT_MARKER_SET` (R67). -/
def execAlignmentMarkerSet (t : Stream) (valid : Bool) (pos : List Nat) (s : State) : Host.Outcome State Fault Refusal :=
  .next (commit s (if valid ∧ pos.length ≠ (s.dev.streamHosts t).length then s.dev else s.dev.markerSet t valid pos))

/-- `HOST_CODEWORD_DECODE` (R73). -/
def execHostCodewordDecode (t : Stream) (word : List (BitVec 10 × HostLane)) (s : State) : Host.Outcome State Fault Refusal :=
  .next (commit s (s.dev.monitorDecode t word))

end Sys2Proof.Machine
end

