-- ==== Sys2Proof/Machine/Beat.lean ====
section
/-! DEFINITION. One beat of the DMA engine (R494, R495, R500, R503, R506). -/

namespace Sys2Proof.Machine

namespace Dev

/-- How a beat's read or write ended: the word, or the error of R506. -/
inductive BeatEnd where
  | ok (w : Word) | damaged | domain
  deriving DecidableEq, Repr

/-- The beat's read of one word, from an SRAM or a register. -/
def beatRead (q : Vector EvQ 32) (a : Nat) (d : Dev) : BeatEnd × Dev :=
  match memOf a with
  | some m =>
    let (w, bad, d) := d.readMem m a srcDma
    (if bad then .damaged else .ok w, d)
  | none =>
    let d := d.busRead q .dma a .word
    (if d.busRes = .off then .domain else .ok d.busWord, d)

/-- The beat's write of one word; false when its domain is off. -/
def beatWrite (a : Nat) (w : Word) (d : Dev) : Bool × Dev :=
  match memOf a with
  | some _ => (true, d.storeWord a w)
  | none =>
    let d := d.busWrite .dma a .word w
    (d.busRes != .off, d)

/-- `DMA_BEAT`: `COUNT` falls with the read, the addresses advance with the write. A write that halts its own channel leaves the live
registers as they are at that beat (R506). -/
def dmaBeat (q : Vector EvQ 32) (d : Dev) : Dev :=
  match d.dmaBeatDue with
  | none => d
  | some c =>
    let src := (d.reg (R.DMA_SRC c)).toNat
    let dst := (d.reg (R.DMA_DST c)).toNat
    let d := (d.dmaBurstStart c).devEvent 11 1
    match d.beatRead q src with
    | (.damaged, d) => d.dmaHalt c 3 src
    | (.domain, d) => d.dmaHalt c 4 src
    | (.ok w, d) =>
      let d := d.setFld (F.DMA_COUNT_COUNT c) (d.fld (F.DMA_COUNT_COUNT c) - 4)
      match d.beatWrite dst w with
      | (true, d) => d.when (d.dmaState c == 2) (dmaBeatDone c)
      | (false, d) => d.dmaHalt c 4 dst

end Dev

end Sys2Proof.Machine
end

