-- ==== Sys2Proof/Machine/DmaCmds.lean ====
section
/-! DEFINITION. Commands of the DMA engine.
One meaning per command. -/

namespace Sys2Proof.Machine

/-- `DMA_START` (R496). -/
def execDmaStart (m : Master) (c : Fin 8) (v : Word) (s : State) : Host.Outcome State Fault Refusal :=
  .next (commit s (s.dev.busWrite m (R.DMA_CTRL c) .word v))

/-- `DMA_NEXT` (R497). -/
def execDmaNext (m : Master) (c : Fin 8) (v : Word) (s : State) : Host.Outcome State Fault Refusal :=
  .next (commit s (s.dev.busWrite m (R.DMA_CTRL c) .word v))

/-- `DMA_ABORT` (R506). -/
def execDmaAbort (m : Master) (c : Fin 8) (v : Word) (s : State) : Host.Outcome State Fault Refusal :=
  .next (commit s (s.dev.busWrite m (R.DMA_CTRL c) .word v))

/-- `DMA_REQUEST` (R499). -/
def execDmaRequest (line : Fin 32) (s : State) : Host.Outcome State Fault Refusal :=
  .next (commit s (s.dev.dmaLine line))

/-- `DMA_ACTIVATE` (R502). -/
def execDmaActivate (s : State) : Host.Outcome State Fault Refusal := .next (commit s s.dev.dmaActivate)

/-- `DMA_BEAT` (R494). -/
def execDmaBeat (s : State) : Host.Outcome State Fault Refusal := .next (commit s (s.dev.dmaBeat s.evq))

/-- `DMA_COMPLETE` (R504). -/
def execDmaComplete (s : State) : Host.Outcome State Fault Refusal := .next (commit s s.dev.dmaComplete)

end Sys2Proof.Machine
end

