-- ==== Sys2Proof/Machine/HousekeepingCmds.lean ====
section
/-! DEFINITION. Commands of housekeeping.
One meaning per command. -/

namespace Sys2Proof.Machine

/-- `SUBINTERVAL_START` (R433). -/
def execSubintervalStart (s : State) : Host.Outcome State Fault Refusal := .next (commit s s.dev.subinterval)

/-- `SAFE_CLR` (R439). -/
def execSafeClr (m : Master) (v : Word) (s : State) : Host.Outcome State Fault Refusal :=
  .next (commit s (s.dev.busWrite m R.HKP_BCTRL .word v))

/-- `CONVERSION_CLOSE` (R451). -/
def execConversionClose (mean : Int) (sat : Bool) (s : State) : Host.Outcome State Fault Refusal :=
  .next (commit s (s.dev.conversionResult mean sat))

/-- `CONVERSION_FAULT` (R453). -/
def execConversionFault (s : State) : Host.Outcome State Fault Refusal := .next (commit s s.dev.noResult)

/-- `UREQ_GO` (R448). -/
def execUreqGo (m : Master) (v : Word) (s : State) : Host.Outcome State Fault Refusal :=
  .next (commit s (s.dev.busWrite m R.HKP_UREQ .word v))

/-- `SEQUENCER_ENABLE` (R447). -/
def execSequencerEnable (m : Master) (v : Word) (s : State) : Host.Outcome State Fault Refusal :=
  .next (commit s (s.dev.busWrite m R.HKP_SEQ_CFG .word v))

end Sys2Proof.Machine
end

