-- ==== Sys2Proof/Machine/LineCmds.lean ====
section
/-! DEFINITION. Commands of the line: leaves sent and received, the transmitter, sample queues, compatibility lock.
One meaning per command. -/

namespace Sys2Proof.Machine

/-- The slice sends leaf slot `slot` of lane n's quire: the transmitter runs, in native mode, with the quire tick running. -/
def sending (d : Dev) (n : Lane) : Bool :=
  d.native && d.slotOpen n && decide (2 ≤ (d.lane n).tx.start)

/-- The stitch leaf that the coming slot takes from the mesh, 0 in a slot of another kind (R384, R385). -/
def slotStitch (d : Dev) (n : Lane) : BitVec 272 × Dev :=
  match slotKind (d.lane n).tx.slot with
  | .stitch w => if sending d n then d.stitchOut n w else (0, d)
  | _ => (0, d)

/-- `TRANSMIT_LEAF` (R86). -/
def execTransmitLeaf (n : Lane) (ab : BitVec 544 × BitVec 544) (smp : Byte) (s : State) : Host.Outcome State Fault Refusal :=
  let (w, d) := slotStitch (s.dev.gaspClock n) n
  .next (commit s (d.transmitLeaf n ab.1 ab.2 w smp).stopProgress)

/-- `MARKER_RECEIVED` (R109). -/
def execMarkerReceived (n : Lane) (rx : RxLeaf) (s : State) : Host.Outcome State Fault Refusal :=
  .next (commit s (s.dev.markerReceived n rx))

/-- `PILOT_LEAF_RECEIVED` (R118). -/
def execPilotLeafReceived (n : Lane) (rx : RxLeaf) (s : State) : Host.Outcome State Fault Refusal :=
  .next (commit s (s.dev.pilotReceived n rx))

/-- `LEAF_DECODE` (R145). -/
def execLeafDecode (n : Lane) (rx : RxLeaf) (s : State) : Host.Outcome State Fault Refusal :=
  .next (commit s (s.dev.leafDecode n rx))

/-- `QUEUE_FAULT` (R173). -/
def execQueueFault (n : Lane) (cause : QueueCause) (s : State) : Host.Outcome State Fault Refusal :=
  .next (commit s (s.dev.queueFault n cause))

/-- `SWING_MOVE_DONE` (R179). -/
def execSwingMoveDone (n : Lane) (s : State) : Host.Outcome State Fault Refusal := .next (commit s (s.dev.endSwing n))

/-- `TRANSMITTER_START` (R184). -/
def execTransmitterStart (n : Lane) (s : State) : Host.Outcome State Fault Refusal :=
  .next (commit s (s.dev.transmitterStart n))

/-- `COMPAT_LANE_LOCK` (R123). -/
def execCompatLaneLock (n : Lane) (gained : Bool) (s : State) : Host.Outcome State Fault Refusal :=
  .next (commit s (s.dev.compatLock n gained))

end Sys2Proof.Machine
end

