-- ==== Sys2Proof/Machine/Remote.lean ====
section
/-! DEFINITION. The remote access engine: queued REG_READ and REG_WRITE requests (R419 to R422). -/

namespace Sys2Proof.Machine

namespace Dev

/-- COUNT and ADDR of a request, and its data words. -/
def reqCount (s : Stitch) : Nat := (s.pay.getD 2 0).toNat
def reqAddr (s : Stitch) : Nat := natBE ((s.pay.drop 4).take 4)
def reqWord (s : Stitch) (i : Nat) : Word := BitVec.ofNat 32 (natBE ((s.pay.drop (8 + 4 * i)).take 4))

/-- The status above 1 that a request as a whole earns, 0 where it may be executed (R421): the enable is judged first, then
format, address, write mask, domains. The registers count as in force since the last boundary (R429). -/
def requestStatus (write : Bool) (s : Stitch) (d : Dev) : Nat :=
  let n := reqCount s
  let a := reqAddr s
  if !d.lvOn (if write then F.MSH_RA_CFG_WR_EN else F.MSH_RA_CFG_RD_EN) then 2
  else if n = 0 ∨ 32 < n ∨ s.pay.length ≠ (if write then 8 + 4 * n else 8) then 5
  else if a % 4 ≠ 0 ∨ a < 0x10000000 ∨ 0x10200000 < a + 4 * n ∨ a / 0x10000 ≠ (a + 4 * n - 1) / 0x10000 then 3
  else if write && !(d.liveWord R.MSH_RA_WMASK).getLsbD (blockOf a) then 2
  else if (List.range n).any fun i => (place (a + 4 * i)).isSome && !d.domOn (domainOf (a + 4 * i)) then 4
  else 0

/-- The words of a REG_READ, and whether any was denied (R419). -/
def remoteReadWords (q : Vector EvQ 32) (s : Stitch) (d : Dev) : List Word × Bool × Dev :=
  (List.range (reqCount s)).foldl (fun (x : List Word × Bool × Dev) i =>
    let d := x.2.2.busRead q .mesh (reqAddr s + 4 * i) .word
    (x.1 ++ [d.busWord], x.2.1 || d.busRes == .denied, d)) ([], false, d)

/-- The words of a REG_WRITE, in ascending order (R422). -/
def remoteWriteWords (s : Stitch) (d : Dev) : Bool × Dev :=
  (List.range (reqCount s)).foldl (fun (x : Bool × Dev) i =>
    let d := x.2.busWrite .mesh (reqAddr s + 4 * i) .word (reqWord s i)
    (x.1 || d.busRes == .denied, d)) (false, d)

/-- The request at the head leaves the queue and is counted (R422). -/
def servedHead (d : Dev) : Dev := (d.modMsh fun m => { m with requests := m.requests.tail }).bump R.MSH_RA_SERVED

/-- `REMOTE_REG_READ`: the REG_READ at the head. -/
def remoteRead (q : Vector EvQ 32) (d : Dev) : Dev :=
  match d.msh.requests with
  | s :: _ =>
    if s.type ≠ 2 ∨ !d.domOn .msh then d
    else
      let e := d.requestStatus false s
      let d := d.servedHead
      if e ≠ 0 then d.respond s e []
      else
        let (ws, denied, d) := d.remoteReadWords q s
        d.respond s denied.toNat ws
  | [] => d

/-- `REMOTE_REG_WRITE`: the REG_WRITE at the head. -/
def remoteWrite (d : Dev) : Dev :=
  match d.msh.requests with
  | s :: _ =>
    if s.type ≠ 3 ∨ !d.domOn .msh then d
    else
      let e := d.requestStatus true s
      let d := d.servedHead
      if e ≠ 0 then d.respond s e []
      else
        let (denied, d) := d.remoteWriteWords s
        d.respond s denied.toNat []
  | [] => d

end Dev

end Sys2Proof.Machine
end

