-- ==== Sys2Proof/Machine/MeshCmds.lean ====
section
/-! DEFINITION. Commands of the stitch mesh.
One meaning per command. -/

namespace Sys2Proof.Machine

/-- `HELLO_RECEIVED` (R387). -/
def execHelloReceived (n : Lane) (s : State) : Host.Outcome State Fault Refusal :=
  .next (commit s (s.dev.helloReceived n))

/-- `HELLO_TIMEOUT` (R387). -/
def execHelloTimeout (n : Lane) (s : State) : Host.Outcome State Fault Refusal :=
  .next (commit s (s.dev.helloTimeout n))

/-- `TIME_LEAF_RECEIVED` (R414). -/
def execTimeLeafReceived (n : Lane) (s : State) : Host.Outcome State Fault Refusal :=
  .next (commit s (s.dev.timeLeafReceived n))

/-- `STITCH_RECEIVED` (R404). -/
def execStitchReceived (n : Lane) (s : State) : Host.Outcome State Fault Refusal :=
  .next (commit s (s.dev.stitchReceived n))

/-- `REMOTE_REG_READ` (R422). -/
def execRemoteRegRead (s : State) : Host.Outcome State Fault Refusal := .next (commit s (s.dev.remoteRead s.evq))

/-- `REMOTE_REG_WRITE` (R422). -/
def execRemoteRegWrite (s : State) : Host.Outcome State Fault Refusal := .next (commit s s.dev.remoteWrite)

/-- `ROUTE_ADVERTISE` (R397). -/
def execRouteAdvertise (s : State) : Host.Outcome State Fault Refusal := .next (commit s s.dev.routeAdvertise)

/-- `ROUTE_EXPIRY` (R399). -/
def execRouteExpiry (s : State) : Host.Outcome State Fault Refusal := .next (commit s s.dev.routeExpiry)

/-- `STITCH_AGED` (R408). -/
def execStitchAged (s : State) : Host.Outcome State Fault Refusal := .next (commit s s.dev.stitchAged)

/-- `ADDRESS_SELF_ASSIGNED` (R393). -/
def execAddressSelfAssigned (s : State) : Host.Outcome State Fault Refusal :=
  .next (commit s s.dev.addressSelfAssigned)

/-- `ARM` (R417). -/
def execArm (m : Master) (k : Fin 2) (clk : Fin 16384) (v : Word) (s : State) : Host.Outcome State Fault Refusal :=
  .next (commit s (s.dev.busWriteAt (some clk) none m (R.MSH_SCHED_CTRL k) .word v))

/-- `SEND` (R423). -/
def execSend (m : Master) (v : Word) (s : State) : Host.Outcome State Fault Refusal :=
  .next (commit s (s.dev.busWrite m R.MSH_TX_CTRL .word v))

/-- `STITCH_SENT` (R423). -/
def execStitchSent (s : State) : Host.Outcome State Fault Refusal := .next (commit s s.dev.stitchSent)

/-- `POP` (R424). -/
def execPop (m : Master) (v : Word) (s : State) : Host.Outcome State Fault Refusal :=
  .next (commit s (s.dev.busWrite m R.MSH_RX_CTRL .word v))

end Sys2Proof.Machine
end

