-- ==== Sys2Proof/Machine/Windows.lean ====
section
/-! DEFINITION. The register windows and `POPEVQ` of the management port (R557 to R560), as the host master of R509. -/

namespace Sys2Proof.Machine

namespace Dev

/-- WBASEk. -/
def windowBase (d : Dev) (k : Nat) : Nat := natBE ((List.range 4).map fun i => d.pageByte (maint (160 + 4 * (k - 1) + i)))

/-- A window base that R559 accepts. -/
def windowBaseOk (b : Nat) : Bool :=
  b % 4 == 0 && decide (0x10000000 ≤ b ∧ b + 128 ≤ 0x10200000) && b / 0x10000 == (b + 127) / 0x10000

/-- The WSTAT code of an access at address a (R559, R560): a denied word is 1, and 4 where its whole block is guarded and no
session is unlocked (log 22). -/
def wstatOf (a : Nat) (d : Dev) : Nat :=
  match d.busRes with
  | .denied => if wholeGuarded (blockOf a) && !d.mgmt.unlocked then 4 else 1
  | .off => 2
  | _ => 0

def setWstat (n : Nat) (d : Dev) : Dev := d.setPageByte (maint 131) (BitVec.ofNat 8 n)

/-- A window operation restarts the session's idle time (R563). -/
def windowOp (d : Dev) : Dev := d.modMgmt fun m => { m with sessQ := 0 }

/-- The host may not pop by a window: a word that holds an RQ field and would be admitted reads 0 (R559). -/
def windowSkips (d : Dev) (a : Nat) : Bool :=
  match place a with
  | some p => p.queue && (!p.guarded || d.mgmt.unlocked)
  | none => false

/-- Word i of a fetch, with the highest WSTAT code so far. -/
def fetchRegister (q : Vector EvQ 32) (k base i : Nat) (x : Nat × Dev) : Nat × Dev :=
  let a := base + 4 * i
  let key := pageKey (0x80 + k) 0 (128 + 4 * i)
  if x.2.windowSkips a then (x.1, x.2.setPageBytes key [0, 0, 0, 0])
  else
    let d := x.2.busRead q .host a .word
    (max x.1 (d.wstatOf a), d.setPageBytes key (bytesBE 4 d.busWord.toNat))

/-- Fetch window k (R557). -/
def fetchWindow (q : Vector EvQ 32) (k : Nat) (d : Dev) : Dev :=
  let base := d.windowBase k
  let d := d.windowOp
  if !windowBaseOk base then d.setWstat 3
  else
    let (code, d) := (List.range 32).foldl (fun x i => fetchRegister q k base i x) (0, d)
    d.setWstat code

/-- A fetch of window k waits for STANDBY (R591). -/
def fetchWaits (d : Dev) (k : Nat) : Bool :=
  (List.range 32).any fun i => d.stalls .host (d.windowBase k + 4 * i) .word true

/-- `WINDOW_FETCH`: a page selection's fetch; with none to make, the port engine ends the selection or the storing it is at. -/
def windowFetch (q : Vector EvQ 32) (d : Dev) : Dev :=
  match d.mgmt.busy.findSome? fun b => match b with | .fetch k => some k | _ => none with
  | some k => if d.fetchWaits k then d else (d.fetchWindow q k).endBusy (.fetch k)
  | none => d.endBusy .engine

/-- `REFRESH`. -/
def windowRefresh (q : Vector EvQ 32) (d : Dev) : Dev :=
  match d.mgmt.busy.findSome? fun b => match b with | .refresh k => some k | _ => none with
  | some k => if d.fetchWaits k then d else (d.fetchWindow q k).endBusy (.refresh k)
  | none => d

/-- The byte last written at a window offset. -/
def writtenAt (bytes : List (Nat × Byte)) (o : Nat) : Option Byte := (bytes.reverse.find? fun p => p.1 == o).map Prod.snd

/-- The accesses that write register i of a window (R558): its bytes by register offset, whole, by half or by byte. -/
def wordWrites (bytes : List (Nat × Byte)) (a i : Nat) : List (Nat × Width × Word) :=
  let b := (List.range 4).map fun o => writtenAt bytes (128 + 4 * i + 3 - o)
  let half (o : Nat) : List (Nat × Width × Word) :=
    match b.getD o none, b.getD (o + 1) none with
    | some x, some y => [(a + o, .half, BitVec.ofNat 32 (x.toNat + 256 * y.toNat))]
    | some x, none => [(a + o, .byte, x.setWidth 32)]
    | none, some y => [(a + o + 1, .byte, y.setWidth 32)]
    | none, none => []
  match half 0, half 2 with
  | [(_, .half, x)], [(_, .half, y)] => [(a, .word, BitVec.ofNat 32 (x.toNat + 65536 * y.toNat))]
  | l, h => l ++ h

/-- The accesses of a window write, in ascending order (R558). -/
def windowAccesses (base : Nat) (bytes : List (Nat × Byte)) : List (Nat × Width × Word) :=
  (List.range 32).flatMap fun i => wordWrites bytes (base + 4 * i) i

/-- The register writes of a window write. -/
def writeRegisters (base : Nat) (bytes : List (Nat × Byte)) (d : Dev) : Dev :=
  let (code, d) := (windowAccesses base bytes).foldl (fun (x : Nat × Dev) w =>
    let d := x.2.busWrite .host w.1 w.2.1 w.2.2
    (max x.1 (d.wstatOf w.1), d)) (0, d)
  d.setWstat code

/-- `WINDOW_WRITE`: the bytes written to window page 80h + k. -/
def windowWrite (d : Dev) : Dev :=
  match d.mgmt.busy.findSome? fun b => match b with | .write k l => some (k, l) | _ => none with
  | some (k, bytes) =>
    let base := d.windowBase k
    if (windowAccesses base bytes).any fun w => d.stalls .host w.1 w.2.1 false then d else
    let d := d.each bytes fun p d => d.setPageByte (pageKey (0x80 + k) 0 p.1) p.2
    let d := d.windowOp
    let d := if windowBaseOk base then d.writeRegisters base bytes else d.setWstat 3
    d.endBusy (.write k bytes)
  | none => d

/-- `POPEVQ`: the queue of block POPBLK is read as the host master (R560). -/
def popEvq (q : Vector EvQ 32) (d : Dev) : Dev :=
  if !d.mgmt.busy.contains .popevq then d
  else
    let b := (d.pageByte (maint 130)).toNat
    let a := 0x10000000 + b * 0x10000 + 0x7F00
    let d := if b < 32 then (d.windowOp).busRead q .host a .word else (d.windowOp).returned .bad 0
    ((d.setPageBytes (maint 132) (bytesBE 4 d.busWord.toNat)).setWstat (d.wstatOf a)).endBusy .popevq

end Dev

end Sys2Proof.Machine
end

