-- ==== Sys2Proof/Machine/PortCmds.lean ====
section
/-! DEFINITION. Commands of the management port.
One meaning per command. -/

namespace Sys2Proof.Machine

/-- A session command at its service: it acts while its busy cause stands, which it then ends (R548, R560). -/
def session (b : Busy) (f : Dev → Dev) (d : Dev) : Dev := if d.mgmt.busy.contains b then (f d).endBusy b else d

/-- `MGMT_PORT_WRITE` (R548): `addr` is the bus address with the offset of the first byte. -/
def execMgmtPortWrite (addr : BitVec 7 × Byte) (data : List Byte) (s : State) : Host.Outcome State Fault Refusal :=
  .next (commit s (s.dev.portWrite addr data))

/-- `MGMT_PORT_READ` (R555). -/
def execMgmtPortRead (addr : BitVec 7 × Byte) (len : Nat) (s : State) : Host.Outcome State Fault Refusal :=
  .next (commit s (s.dev.portRead addr len))

/-- `WINDOW_FETCH` (R557). -/
def execWindowFetch (s : State) : Host.Outcome State Fault Refusal := .next (commit s (s.dev.windowFetch s.evq))

/-- `WINDOW_WRITE` (R558). -/
def execWindowWrite (s : State) : Host.Outcome State Fault Refusal := .next (commit s s.dev.windowWrite)

/-- `NEWNONCE` (R561). -/
def execNewnonce (s : State) : Host.Outcome State Fault Refusal :=
  .next (commit s (session .newnonce Dev.newNonce s.dev))

/-- `SUBMIT` (R561). -/
def execSubmit (s : State) : Host.Outcome State Fault Refusal := .next (commit s (session .submit Dev.submit s.dev))

/-- `LOCK` (R563). -/
def execLock (s : State) : Host.Outcome State Fault Refusal := .next (commit s (session .lock Dev.endSession s.dev))

/-- `REFRESH` (R557). -/
def execRefresh (s : State) : Host.Outcome State Fault Refusal := .next (commit s (s.dev.windowRefresh s.evq))

/-- `POPEVQ` (R560). -/
def execPopevq (s : State) : Host.Outcome State Fault Refusal := .next (commit s (s.dev.popEvq s.evq))

/-- `SESSION_IDLE_TIMEOUT` (R563). -/
def execSessionIdleTimeout (s : State) : Host.Outcome State Fault Refusal := .next (commit s s.dev.sessionIdle)

/-- `LOCKOUT_EXPIRY` (R562). -/
def execLockoutExpiry (s : State) : Host.Outcome State Fault Refusal := .next (commit s s.dev.lockoutOver)

/-- `SETDASA` (R546). -/
def execSetdasa (staticAddr dynAddr : BitVec 7) (s : State) : Host.Outcome State Fault Refusal :=
  .next (commit s (s.dev.setdasa staticAddr dynAddr))

/-- `ENTDAA` (R546). -/
def execEntdaa (dynAddr : BitVec 7) (won : Bool) (s : State) : Host.Outcome State Fault Refusal :=
  .next (commit s (s.dev.entdaa dynAddr won))

/-- `RSTDAA` (R546). -/
def execRstdaa (s : State) : Host.Outcome State Fault Refusal := .next (commit s s.dev.rstdaa)

/-- `GETPID` (R546). -/
def execGetpid (s : State) : Host.Outcome State Fault Refusal := .next (commit s s.dev.getpid)

/-- `GETBCR` (R546). -/
def execGetbcr (s : State) : Host.Outcome State Fault Refusal := .next (commit s (s.dev.answerFree 1))

/-- `GETDCR` (R546). -/
def execGetdcr (s : State) : Host.Outcome State Fault Refusal := .next (commit s (s.dev.answerFree 1))

/-- `GETSTATUS` (R546). -/
def execGetstatus (s : State) : Host.Outcome State Fault Refusal := .next (commit s (s.dev.answerFree 2))

/-- `GETMWL` (R546). -/
def execGetmwl (s : State) : Host.Outcome State Fault Refusal := .next (commit s (s.dev.answerFree 2))

/-- `GETMRL` (R546). -/
def execGetmrl (s : State) : Host.Outcome State Fault Refusal := .next (commit s (s.dev.answerFree 2))

/-- `ENEC` (R546). -/
def execEnec (_mask : Byte) (s : State) : Host.Outcome State Fault Refusal := .next (commit s s.dev)

/-- `DISEC` (R546). -/
def execDisec (_mask : Byte) (s : State) : Host.Outcome State Fault Refusal := .next (commit s s.dev)

/-- `WCTRL_DONE` (R548). -/
def execWctrlDone (m : Master) (v : Word) (s : State) : Host.Outcome State Fault Refusal :=
  .next (commit s (s.dev.busWrite m R.MGT_WCTRL .word v))

/-- `READY` (R551). -/
def execReady (m : Master) (v : Word) (s : State) : Host.Outcome State Fault Refusal :=
  .next (commit s (s.dev.busWrite m R.MGT_WCTRL .word v))

end Sys2Proof.Machine
end

