-- ==== Sys2Proof/Machine/PowerCmds.lean ====
section
/-! DEFINITION. Commands of the power manager and the thermal controller.
One meaning per command. -/

namespace Sys2Proof.Machine

/-- `RESET_N_LOW` (R553). -/
def execResetNLow (s : State) : Host.Outcome State Fault Refusal := .next (commit s s.dev.resetLow)

/-- `RESET_N_RELEASE` (R553). -/
def execResetNRelease (s : State) : Host.Outcome State Fault Refusal := .next (commit s s.dev.resetRelease)

/-- `LPMODE_CHANGE` (R554). -/
def execLpmodeChange (level : Bool) (s : State) : Host.Outcome State Fault Refusal :=
  .next (commit s (s.dev.lpmodeChange level))

/-- `LOW_POWER_REQUEST_CHANGE` (R566). -/
def execLowPowerRequestChange (s : State) : Host.Outcome State Fault Refusal :=
  .next (commit s (s.dev.followRequest s.dev.thermalAllows))

/-- `STANDBY_RETRY` (R587). -/
def execStandbyRetry (s : State) : Host.Outcome State Fault Refusal := .next (commit s s.dev.standbyRetry)

/-- `ACTIVE_ENTRY` (R584). -/
def execActiveEntry (s : State) : Host.Outcome State Fault Refusal := .next (commit s s.dev.activeEntry)

/-- `REST` (R573). -/
def execRest (m : Master) (v : Word) (s : State) : Host.Outcome State Fault Refusal :=
  .next (commit s (s.dev.busWrite m R.PWR_CTRL .word v))

/-- `SUPPLIES_VALID` (R572). -/
def execSuppliesValid (s : State) : Host.Outcome State Fault Refusal := .next (commit s s.dev.suppliesValid)

/-- `VBAK_PRESENT` (R572). -/
def execVbakPresent (s : State) : Host.Outcome State Fault Refusal := .next (commit s s.dev.vbakPresent)

/-- `VBAK_LOSS` (R572). -/
def execVbakLoss (s : State) : Host.Outcome State Fault Refusal := .next (commit s s.dev.vbakLoss)

/-- `MAIN_SUPPLY_LOSS` (R597). -/
def execMainSupplyLoss (s : State) : Host.Outcome State Fault Refusal := .next (commit s s.dev.mainSupplyLoss)

/-- `MAIN_SUPPLY_RETURN` (R596). -/
def execMainSupplyReturn (s : State) : Host.Outcome State Fault Refusal := .next (commit s s.dev.mainSupplyReturn)

/-- `LANE_DOZE_ENTRY` (R577). -/
def execLaneDozeEntry (n : Lane) (s : State) : Host.Outcome State Fault Refusal := .next (commit s (s.dev.laneDoze n))

/-- `LANE_WAKE` (R579). -/
def execLaneWake (n : Lane) (src : WakeSource) (s : State) : Host.Outcome State Fault Refusal :=
  .next (commit s (s.dev.laneWake n src))

/-- `WAKE_TX` (R583). -/
def execWakeTx (m : Master) (v : Word) (s : State) : Host.Outcome State Fault Refusal :=
  .next (commit s (s.dev.busWrite m R.PWR_WAKE_TX .word v))

/-- `WAKE_PATTERN_END` (R583). -/
def execWakePatternEnd (n : Lane) (s : State) : Host.Outcome State Fault Refusal :=
  .next (commit s (s.dev.wakePatternEnd n))

/-- `RTC_ALARM` (R581). -/
def execRtcAlarm (s : State) : Host.Outcome State Fault Refusal := .next (commit s s.dev.rtcAlarm)

/-- `LOAD` (R582). -/
def execLoad (m : Master) (v : Word) (s : State) : Host.Outcome State Fault Refusal :=
  .next (commit s (s.dev.busWrite m R.PWR_RTC_CTRL .word v))

/-- `RTC_SUB_READ` (R582). -/
def execRtcSubRead (m : Master) (s : State) : Host.Outcome State Fault Refusal :=
  .next (commit s (s.dev.busRead s.evq m R.PWR_RTC_SUB .word))

/-- `AVS_VSET_WRITE` (R593). -/
def execAvsVsetWrite (m : Master) (v : Word) (s : State) : Host.Outcome State Fault Refusal :=
  .next (commit s (s.dev.busWrite m R.PWR_AVS_VSET .word v))

/-- `AVS_REQUEST_ACK` (R593). -/
def execAvsRequestAck (s : State) : Host.Outcome State Fault Refusal := .next (commit s s.dev.avsAck)

/-- `AVS_TIMEOUT` (R594). -/
def execAvsTimeout (s : State) : Host.Outcome State Fault Refusal := .next (commit s s.dev.avsTimeout)

/-- `THERMAL_SAMPLE` (R603). -/
def execThermalSample (s : State) : Host.Outcome State Fault Refusal := .next (commit s s.dev.thermalSample)

/-- `THERMAL_JUDGEMENT` (R609). -/
def execThermalJudgement (readings : List Int) (s : State) : Host.Outcome State Fault Refusal :=
  .next (commitThermal s (s.dev.thermalAct readings))

/-- `THROTTLE_ENFORCE` (R614). -/
def execThrottleEnforce (s : State) : Host.Outcome State Fault Refusal := .next (commit s s.dev.throttleEnforce)

/-- `ORDERLY_STOP_TIMEOUT` (R617). -/
def execOrderlyStopTimeout (s : State) : Host.Outcome State Fault Refusal := .next (commit s s.dev.finishStop)

end Sys2Proof.Machine
end

