-- ==== Sys2Proof/Machine/ProcessorCmds.lean ====
section
/-! DEFINITION. Commands of the processor and its memories.
One meaning per command. -/

namespace Sys2Proof.Machine

/-- `INSTRUCTION_FETCH` (R472). -/
def execInstructionFetch (stalled : Nat) (s : State) : Host.Outcome State Fault Refusal :=
  .next (commit s (s.dev.fetch s.evq stalled))

/-- `PROCESSOR_LOAD` (R472). -/
def execProcessorLoad (clk : AccessClocks) (s : State) : Host.Outcome State Fault Refusal :=
  .next (commit s (s.dev.load s.evq clk))

/-- `PROCESSOR_STORE` (R475). -/
def execProcessorStore (clk : AccessClocks) (s : State) : Host.Outcome State Fault Refusal :=
  .next (commit s (s.dev.store clk))

/-- `MEMORY_ERROR_INTERRUPT` (R476). -/
def execMemoryErrorInterrupt (s : State) : Host.Outcome State Fault Refusal :=
  .next (commit s s.dev.memoryErrorInterrupt)

/-- `QUIRE_INTERRUPT` (R460). -/
def execQuireInterrupt (s : State) : Host.Outcome State Fault Refusal := .next (commit s s.dev.quireInterrupt)

/-- `MACHINE_EXTERNAL_INTERRUPT` (R460). -/
def execMachineExternalInterrupt (s : State) : Host.Outcome State Fault Refusal :=
  .next (commit s (s.dev.externalInterrupt s.evq))

/-- `MRET` (R476). -/
def execMret (s : State) : Host.Outcome State Fault Refusal := .next (commit s s.dev.mret)

/-- `DONE` (R462). -/
def execDone (m : Master) (v : Word) (s : State) : Host.Outcome State Fault Refusal :=
  .next (commit s (s.dev.busWrite m R.SYS_RT .word v))

/-- `WDT_KICK` (R477). -/
def execWdtKick (m : Master) (v : Word) (s : State) : Host.Outcome State Fault Refusal :=
  .next (commit s (s.dev.busWrite m R.SYS_WDT_KICK .word v))

/-- `WATCHDOG_EXPIRY` (R477). -/
def execWatchdogExpiry (s : State) : Host.Outcome State Fault Refusal := .next (commit s s.dev.watchdogExpiry)

/-- `MANAGEMENT_RESTART` (R478). -/
def execManagementRestart (s : State) : Host.Outcome State Fault Refusal := .next (commit s s.dev.managementRestart)

/-- `REMAP_REQ` (R483). -/
def execRemapReq (m : Master) (v : Word) (s : State) : Host.Outcome State Fault Refusal :=
  .next (commit s (s.dev.busWrite m R.ECC_REMAP_REQ .word v))

/-- `ULOG_READ` (R518). -/
def execUlogRead (m : Master) (s : State) : Host.Outcome State Fault Refusal :=
  .next (commit s (s.dev.busRead s.evq m R.ECC_ULOG .word))

/-- `SCRUB_START` (R486). -/
def execScrubStart (m : Master) (v : Word) (s : State) : Host.Outcome State Fault Refusal :=
  .next (commit s (s.dev.busWrite m R.ECC_SCRUB_CTRL .word v))

/-- `SCRUB_WORD` (R487). -/
def execScrubWord (clocks : Nat) (s : State) : Host.Outcome State Fault Refusal :=
  .next (commit s (s.dev.scrubWord clocks))

/-- `SCRUB_ABORT` (R489). -/
def execScrubAbort (m : Master) (v : Word) (s : State) : Host.Outcome State Fault Refusal :=
  .next (commit s (s.dev.busWrite m R.ECC_SCRUB_CTRL .word v))

end Sys2Proof.Machine
end

