-- ==== Sys2Proof/Machine/SampleCmds.lean ====
section
/-! DEFINITION. Commands of the sampling units, sample capture and background calibration.
One meaning per command. -/

namespace Sys2Proof.Machine

/-- `ROTATION_STEP_DUE` (R215). -/
def execRotationStepDue (n : Lane) (m0 m1 : MatchSums) (s : State) : Host.Outcome State Fault Refusal :=
  .next (commit s (s.dev.rotationStep n m0 m1))

/-- `ROTATION_SWITCH` (R216). -/
def execRotationSwitch (n : Lane) (s : State) : Host.Outcome State Fault Refusal :=
  .next (commit s (s.dev.rotationSwitch n))

/-- `OFFLINE_CHECK_DONE` (R216). -/
def execOfflineCheckDone (n : Lane) (c : Fin 2) (meas : OfflineMeas) (s : State) : Host.Outcome State Fault Refusal :=
  .next (commit s (s.dev.offlineCheck n c meas))

/-- `ADC_RET_WRITE` (R220). -/
def execAdcRetWrite (m : Master) (n : Lane) (v : Word) (s : State) : Host.Outcome State Fault Refusal :=
  .next (commit s (s.dev.busWrite m (R.LANE_ADC_RET n) .word v))

/-- `CAPTURE_START` (R226). -/
def execCaptureStart (m : Master) (v : Word) (s : State) : Host.Outcome State Fault Refusal :=
  .next (commit s (s.dev.busWrite m R.CAL_CAP_CTRL .word v))

/-- `CAPTURE_ABORT` (R231). -/
def execCaptureAbort (m : Master) (v : Word) (s : State) : Host.Outcome State Fault Refusal :=
  .next (commit s (s.dev.busWrite m R.CAL_CAP_CTRL .word v))

/-- `CAPTURE_TRIGGER` (R228). -/
def execCaptureTrigger (s : State) : Host.Outcome State Fault Refusal := .next (commit s s.dev.capTrigger)

/-- `CAPTURE_DONE` (R232). -/
def execCaptureDone (s : State) : Host.Outcome State Fault Refusal := .next (commit s s.dev.capDone)

/-- `CAL_RUN` (R323). -/
def execCalRun (m : Master) (n : Lane) (v : Word) (s : State) : Host.Outcome State Fault Refusal :=
  .next (commit s (s.dev.busWrite m (R.CAL_CMD n) .word v))

/-- `CAL_ABORT` (R330). -/
def execCalAbort (m : Master) (n : Lane) (v : Word) (s : State) : Host.Outcome State Fault Refusal :=
  .next (commit s (s.dev.busWrite m (R.CAL_CMD n) .word v))

/-- `CAL_WINDOW_END` (R326). -/
def execCalWindowEnd (n : Lane) (i : Fin 4) (w : Nat) (s : State) : Host.Outcome State Fault Refusal :=
  .next (commit s (s.dev.calWindowEnd n i w))

/-- `CAL_TAKE_UP` (R331). -/
def execCalTakeUp (n : Lane) (i : Fin 4) (s : State) : Host.Outcome State Fault Refusal :=
  .next (commit s (s.dev.calTakeUp n i))

end Sys2Proof.Machine
end

