-- ==== Sys2Proof/Machine/Boot.lean ====
section
/-! DEFINITION. The start-up sequence of the boot ROM (R621 to R636). -/

namespace Sys2Proof.Machine

/-! ### Configuration records (R633 to R635) -/

/-- Every field value of a word is one its field map defines and its chapter does not reject (R63, R164, R220, R225 to
R227, R254, R279, R390, R423, R496, R501, R593, R619, R663, R671). -/
def configValueOk (a v : Nat) : Bool :=
  let f (lo w : Nat) : Nat := v / 2 ^ lo % 2 ^ w
  if a = R.MAP_MODE then decide (f 0 3 ≤ 4)
  else if a = R.THM_CFG then decide (f 8 8 < f 16 8 ∧ f 16 8 < f 24 8 ∧ f 24 8 ≤ 125)
  else if a = R.PWR_AVS_VSET then decide (650 ≤ f 0 10 ∧ f 0 10 ≤ 850)
  else if a = R.SPR_RET then decide (f 0 4 ≤ 8) || f 0 4 == 15
  else if a = R.CAL_CAP_CFG then decide (f 28 2 ≠ 3 ∧ f 30 2 ≠ 3 ∧ f 0 10 + f 10 10 + 1 ≤ 1024)
  else if a = R.MSH_ADDR then f 31 1 == 0 || assignable (f 0 16)
  else if a = R.MSH_TX_HDR then (f 12 4 == 2 || f 12 4 == 3 || f 12 4 == 7) && decide (f 0 8 ≤ 250)
  else if a = R.FLT_SEL then decide (f 16 5 ≤ 12)
  else if a = R.BST_MCMD then decide (f 0 10 + f 16 10 < segments (f 28 2))
  else if a = R.ECC_SCRUB_BASE ∨ a = R.ECC_SCRUB_END then v % 4 == 0
  else if a / 0x400 = 0x10170000 / 0x400 then
    let o := a % 0x40
    if o = 0xC then !(decide (10 ≤ f 16 5 ∧ f 16 5 ≤ 15))
    else if o = 8 ∨ o = 0x20 then v != 0 && v % 16 == 0
    else v % 16 == 0 && Dev.dmaRegion v 16
  else if a / 0x10000 = 0x1011 then
    let o := a % 0x1000
    if o = 0x30C then decide (f 8 4 ≤ 8)
    else if o = 0x700 then decide (f 16 6 < 48)
    else if o = 0x704 then decide (f 16 8 + 8 ≤ f 24 8)
    else if o = 0x630 then (decide (f 0 7 ≤ 64) || f 0 7 == 127) && (decide (f 8 7 ≤ 64) || f 8 7 == 127)
    else true
  else true

/-- The reason code of a REG pair that is not valid (R634), 0 for a valid one. -/
def regPairReason (a v : Nat) : Nat :=
  match place a with
  | some (.live r) =>
    let b := blockOf a
    let m := r.rw ||| r.rb
    if b = 26 ∨ b = 28 ∨ b = 29 ∨ a = R.MGT_WCTRL ∨ m = 0 then 3
    else if v - (v &&& m) ≠ 0 ∨ !configValueOk a v then 4
    else 0
  | _ => 3

/-- Address and value of each pair of a REG record. -/
def regPairs (l : List Byte) : List (Nat × Nat) :=
  (List.range (l.length / 8)).map fun i => (natLE (slice l (8 * i) 4), natLE (slice l (8 * i + 4) 4))

/-- One record of a configuration body: its offset, TYPE, and its value bytes; `none` for the remainder that a LEN past the
body leaves (R634). -/
structure ConfigRecord where
  off  : Nat
  type : Nat
  body : Option (List Byte)
  deriving DecidableEq, Repr

/-- The records of a body (R633), at most `fuel` of them. -/
def configRecords : Nat → Nat → List Byte → List ConfigRecord
  | 0, _, _ => []
  | fuel + 1, off, l =>
    if l = [] then []
    else
      let n := natLE (slice l 2 2)
      if l.length < 4 ∨ l.length < 4 + n then [⟨off, natLE (slice l 0 2), none⟩]
      else
        let k := 4 + (n + 3) / 4 * 4
        ⟨off, natLE (slice l 0 2), some (slice l 4 n)⟩ :: configRecords fuel (off + k) (l.drop k)

namespace Dev

/-- The pairs of a record that lie in a data-path domain (R635). -/
def dataPairs (l : List Byte) : List (Nat × Nat) := (regPairs l).filter fun p => isDataDomain (domainOf p.1)

/-- The reason a record is rejected for, 0 where it is applied (R634, R635, R656). -/
def recordReason (d : Dev) (r : ConfigRecord) : Nat :=
  match r.body with
  | none => 2
  | some l =>
    let b (i : Nat) : Nat := (l.getD i 0).toNat
    match r.type with
    | 1 =>
      if l.length % 8 ≠ 0 ∨ l.length < 8 ∨ 512 < l.length then 2
      else match (regPairs l).find? fun p => regPairReason p.1 p.2 != 0 with
        | some p => regPairReason p.1 p.2
        | none => if 512 < d.powerList.length + (dataPairs l).length then 5 else 0
    | 2 =>
      if l.length < 4 ∨ l.length ≠ 4 + b 3 then 2
      else if 2 < b 0 ∨ 1 < b 1 ∨ b 2 < 128 ∨ 256 < b 2 + b 3 then 4 else 0
    | 3 =>
      if l.length ≠ 4 then 2
      else if 15 < b 0 ∨ natLE (slice l 2 2) < 650 ∨ 850 < natLE (slice l 2 2) then 4 else 0
    | 4 => if l.length ≠ 2 then 2 else 0
    | 5 => if l.length ≠ 1 then 2 else if 3 < b 0 then 4 else 0
    | _ => 1

/-- A pair of the power-up list, with its two words in the reserved region of data SRAM (R635). -/
def listPair (p : Nat × Nat) (d : Dev) : Dev :=
  let a := 0x137000 + 8 * d.powerList.length
  (({ d with powerList := d.powerList ++ [(p.1, BitVec.ofNat 32 p.2)] }.storeWord a (BitVec.ofNat 32 p.1)).storeWord (a + 4)
    (BitVec.ofNat 32 p.2))

/-- A REG pair: into the power-up list, or written at once (R635). -/
def applyPair (p : Nat × Nat) (d : Dev) : Dev :=
  if isDataDomain (domainOf p.1) then d.listPair p
  else d.busWrite .cpuM p.1 .word (BitVec.ofNat 32 p.2)

/-- A valid record is applied; on a start after a management restart no AVS record is (R636). -/
def applyRecord (warm : Bool) (type : Nat) (l : List Byte) (d : Dev) : Dev :=
  let b (i : Nat) : Nat := (l.getD i 0).toNat
  match type with
  | 1 => d.each (regPairs l) applyPair
  | 2 => d.setPageBytes (pageKey (b 0) (b 1) (b 2)) (l.drop 4)
  | 3 => if warm then d else (d.setFld F.PWR_AVS_CFG_RAIL (b 0)).avsVset (BitVec.ofNat 32 (natLE (slice l 2 2)))
  | 5 => d.setFld F.NVM_BUDGET_CLASS (b 0)
  | _ => d

/-- A record is judged and counted, and applied where it is valid (R634). -/
def takeRecord (warm : Bool) (r : ConfigRecord) (d : Dev) : Dev :=
  let e := d.recordReason r
  if e = 0 then (d.applyRecord warm r.type (r.body.getD [])).bumpFld F.SEC_CFGREC_APPLIED
  else
    let d := if d.fld F.SEC_CFGREC_REJ = 0 then (d.setFld F.SEC_CFGERR_REASON e).setFld F.SEC_CFGERR_OFFSET r.off else d
    d.bumpFld F.SEC_CFGREC_REJ

/-- The PRESS mask of a record that is applied. -/
def recordPress (d : Dev) (r : ConfigRecord) : Nat :=
  if r.type = 4 ∧ d.recordReason r = 0 then natLE (slice (r.body.getD []) 0 2) else 0

/-- The configuration is applied in body order, then pressed once; after a management restart there is no press (R634,
R636). -/
def applyConfig (warm : Bool) (body : List Byte) (d : Dev) : Dev :=
  let rs := configRecords body.length 0 body
  let d := d.each rs (takeRecord warm)
  let g := rs.foldl (fun m r => m ||| d.recordPress r) 0
  let d := if warm ∨ g = 0 then d else d.pressRequest g
  if d.fld F.SEC_CFGREC_REJ = 0 then d else d.raise Blk.sec 0xF1 0

/-! ### Images (R630, R631) -/

/-- Slot A is false, slot B true. -/
def fwSlot (s : BootStore) (b : Bool) : ImageIn := if b then s.fwB else s.fwA
def extSlot (s : BootStore) (b : Bool) : Option ImageIn := if b then s.extB else s.extA
def cfgSlot (s : BootStore) (b : Bool) : Option ImageIn := if b then s.cfgB else s.cfgA

/-- The firmware slots in the order tried, with whether the trial slot is bypassed (R630). -/
def slotOrder (d : Dev) (h : List Byte) : List Bool × Bool :=
  let pref := natLE (slice h 8 1) == 1
  let fell := natLE (slice h 9 1) == 1 && decide (2 ≤ d.fld F.SEC_BOOTSTAT_TRIES)
  (if fell then [!pref, pref] else [pref, !pref], fell)

/-- Try one firmware slot: its result is recorded; the running slot so far is kept. -/
def trySlot (s : BootStore) (b : Bool) (x : Option Bool × Dev) : Option Bool × Dev :=
  if x.1.isSome then x
  else
    let e := verifyImage x.2.sec 1 (fwSlot s b)
    let d := (x.2.storeSends false 0 [x.2.slotRead 1 b (fwSlot s b)]).setFld (if b then F.SEC_BOOTSTAT_FAILB else F.SEC_BOOTSTAT_FAILA) e
    (if e = 1 then some b else none, d)

/-- The slot that supplies an image of kind k, the firmware's letter first (R631). -/
def pickSlot (d : Dev) (k : Nat) (get : Bool → Option ImageIn) (fw : Bool) : Option Bool :=
  [fw, !fw].find? fun b => match get b with
    | some i => verifyImage d.sec k i == 1
    | none => false

/-- The EXT or CFG code of `SEC.BOOTSTAT`. -/
def slotCode (present : Bool) : Option Bool → Nat
  | some false => 1
  | some true => 2
  | none => if present then 3 else 0

/-- The reads of the slots of kind k that are tried, as far as the one that is taken (R624, R631). -/
def slotReads (k : Nat) (get : Bool → Option ImageIn) (fw : Bool) (pick : Option Bool) (d : Dev) : Dev :=
  let tried := if pick = some fw then [fw] else [fw, !fw]
  d.storeSends false 0 (tried.filterMap fun b => (get b).map fun i => d.slotRead k b i)

/-- The extension is loaded: code, of the 64 KiB that R466 gives it, to 0x0007_0000, the rest to 0x0013_8000 (R466, R628). -/
def loadExtension (s : BootStore) (fw : Bool) (d : Dev) : Dev :=
  let pick := d.pickSlot 2 (extSlot s) fw
  let d := d.slotReads 2 (extSlot s) fw pick
  let d := d.setFld F.SEC_BOOTSTAT_EXT (slotCode (s.extA.isSome || s.extB.isSome) pick)
  match pick with
  | none => d.modSec fun x => { x with extHash := 0 }
  | some b => match extSlot s b with
    | none => d
    | some i =>
      let n := min 65536 (natLE (slice i.header 12 4))
      let d := (d.storeBytes 0x70000 (i.body.take n)).storeBytes 0x138000 ((i.body.drop n).take 0x8000)
      d.modSec fun x => { x with extHash := imageHash i }

/-- A configuration slot that may be applied unsigned: it fails with code 4 in MANUFACTURE (R642). -/
def unsignedSlot (s : BootStore) (d : Dev) (b : Bool) : Bool :=
  d.sec.lc == 1 && match cfgSlot s b with
    | some i => verifyImage d.sec 3 i == 4
    | none => false

/-- The configuration is verified and applied (R631, R642). -/
def loadConfig (s : BootStore) (fw warm : Bool) (d : Dev) : Dev :=
  let signed := d.pickSlot 3 (cfgSlot s) fw
  let d := d.slotReads 3 (cfgSlot s) fw signed
  let pick := signed <|> [fw, !fw].find? (unsignedSlot s d)
  let d := d.setFld F.SEC_BOOTSTAT_CFG (slotCode (s.cfgA.isSome || s.cfgB.isSome) pick)
  let d := d.setOn F.SEC_BOOTSTAT_UNSIGNED (signed.isNone && pick.isSome)
  match pick with
  | none => d.modSec fun x => { x with cfgHash := 0 }
  | some b => match cfgSlot s b with
    | none => d
    | some i => (d.applyConfig warm i.body).modSec fun x => { x with cfgHash := imageHash i }

/-! ### The sequence -/

/-- No firmware runs (R632): READY, and the data path held off, which lower memory shows as ModuleFault (`cmisState`). -/
def noFirmware (d : Dev) : Dev :=
  let d := if d.dstate = stSTANDBY then d else (d.setState stSTANDBY).powerOffData
  (d.modPwr fun p => { p with heldOff := true }).modMgmt fun m => { m with ready := true }

/-- The firmware is loaded and entered in machine mode, with every PMP entry OFF (R466, R467, R630). -/
def enterFirmware (i : ImageIn) (d : Dev) : Dev :=
  let d := (d.storeBytes 0 i.body).modSec fun x => { x with fwHash := imageHash i }
  let d := d.setFld F.SEC_ROLL_SVN (imageSvn i)
  { d with cpu := { d.cpu.restarted with running := true, pc := BitVec.ofNat 32 (imageEntry i) } }

/-- The fields of a header that serve the stores' accesses (R626). -/
def storeHeader (h : List Byte) : StoreHeader :=
  let n (lo w : Nat) : Nat := natLE (slice h lo w)
  { xclk := n 10 1, dummy := n 11 1, rdcmd := n 12 2,
    entry := (List.range 4).map fun i => slice h (17 + 8 * i) (min 7 (n (16 + 8 * i) 1)),
    pgcmd := n 48 2, ercmd := n 50 2, stcmd := n 52 2, busyBit := n 54 1, ersz := n 55 1, dscmd := n 56 2, tpg := n 58 2,
    ter := n 60 2, rsize := min 37 (n 62 1) }

/-- Steps 4 to 8 of R621: the headers are read in 1S mode, and the entry sequences of the one in use lead to 8D mode (R624). -/
def startFirmware (s : BootStore) (warm : Bool) (d : Dev) : Dev :=
  let d := d.storeSends true 0 [.read1S 0x03 0 256, .read1S 0x03 0x1000 256]
  match chooseHeader s.hdr0 s.hdr1 with
  | none => d.noFirmware
  | some c =>
    let h := if c = 0 then s.hdr0 else s.hdr1
    let d := (d.setFld F.SEC_BOOTSTAT_HDR c).modNvm fun n => { n with hdr := storeHeader h, hdrUsed := true }
    let d := d.storeSends false 0 (d.nvm.hdr.entry.map .enter1S)
    let (order, fell) := d.slotOrder h
    let pref := natLE (slice h 8 1) == 1
    let d := d.setOn F.SEC_BOOTSTAT_FELLBACK fell
    let (run, d) := order.foldl (fun x b => trySlot s b x) (none, d)
    match run with
    | none => d.noFirmware
    | some b =>
      let tried := b == pref || fell == false
      let d := d.setOn F.SEC_BOOTSTAT_FW b
      let d := if b == pref then d else d.raise Blk.sec 0xF0 b.toNat
      let d := (d.loadExtension s b).loadConfig s b warm
      let t := d.fld F.SEC_BOOTSTAT_TRIES
      let d := if natLE (slice h 9 1) = 1 ∧ tried then d.setFld F.SEC_BOOTSTAT_TRIES (min 3 (t + 1)) else d
      d.enterFirmware (fwSlot s b)

/-- The provisioning record of a part in BLANK (R641, R642): fuses are blown over those already blown, the firmware key unless it is
enrolled, and MANUFACTURE, in which parts leave Luhel, for the next start (log 48). -/
def provision (p : Provision) (d : Dev) : Dev :=
  (d.modSec fun s =>
    { s with devId := s.devId ||| p.devId, grade := s.grade || p.grade,
             devSec := (List.range 32).map fun i => s.devSec.getD i 0 ||| p.devSec.getD i 0,
             fwKey := if s.fwKey.enrolled then s.fwKey else programSlot s.fwKey p.fwKey,
             lcNext := some (max 1 (s.lcNext.getD 0)) }).showOtp

/-- Events that waited for MGT are queued (R477, R581, R598). -/
def flushLate (d : Dev) : Dev :=
  (d.each d.pwr.late fun p d => d.raise p.1 p.2 0).modPwr fun p => { p with late := [] }

/-- `BOOT_SEQUENCE`, once after each start of MGT: OTP and the checker tests (R484, R485; `chkFail` names the memories whose
checker fails), the journal's check (R651), then headers and images. A part in BLANK
or RETIRED runs no firmware, and one in BLANK takes a provisioning record (R642). -/
def bootSequence (s : BootStore) (chkFail : BitVec 4) (d : Dev) : Dev :=
  if !d.domOn .mgt || d.pwr.booted then d
  else
    let warm := d.fld F.SYS_MRST_CAUSE != 0
    let d := (d.modPwr fun p => { p with booted := true }).flushLate.showOtp.startJournalCheck
    let tries := d.fld F.SEC_BOOTSTAT_TRIES
    let d := ((d.setReg R.SEC_BOOTSTAT 0).setFld F.SEC_BOOTSTAT_TRIES tries).setReg R.SEC_CFGREC 0
    let d := { d.setReg R.SEC_CFGERR 0 with powerList := [] }
    let d := d.modNvm fun n => { n with hdrUsed := false, sent := [] }
    let d := (d.setFld F.SEC_ROLL_SVN 0).setFld F.ECC_STAT_CHK_FAIL chkFail.toNat
    if chkFail ≠ 0 then d
    else if d.sec.lc = 1 ∨ d.sec.lc = 2 ∨ d.sec.lc = 3 then d.startFirmware s warm
    else if d.sec.lc = 0 then (match s.prov with | some p => d.provision p | none => d).noFirmware
    else d.noFirmware

end Dev

end Sys2Proof.Machine
end

