-- ==== Sys2Proof/Machine/SecurityCmds.lean ====
section
/-! DEFINITION. Commands of the start, the security block and the record store.
One meaning per command. -/

namespace Sys2Proof.Machine

/-- The TAP takes up an instruction (R646), and SAMPLE and EXTEST capture the output pins. PRESUMED (log 49): as IEEE 1149.1 has it. -/
def tapTake (ir : Nat) (p : Pins) (d : Dev) : Dev :=
  let op := Config.tapOp ir
  { d with tap := some ir, boundary := if op = .sample ∨ op = .extest then some p else d.boundary }

/-- `BOOT_SEQUENCE` (R621). -/
def execBootSequence (store : BootStore) (chkFail : BitVec 4) (s : State) : Host.Outcome State Fault Refusal :=
  .next (commit s (s.dev.bootSequence store chkFail))

/-- `CONFIRM` (R638). -/
def execConfirm (m : Master) (v : Word) (s : State) : Host.Outcome State Fault Refusal :=
  .next (commit s (s.dev.busWrite m R.SEC_CTRL .word v))

/-- `ROLLFWD` (R639). -/
def execRollfwd (m : Master) (v : Word) (s : State) : Host.Outcome State Fault Refusal :=
  .next (commit s (s.dev.busWrite m R.SEC_CTRL .word v))

/-- `VERIFY_SLOT` (R640). -/
def execVerifySlot (m : Master) (v : Word) (s : State) : Host.Outcome State Fault Refusal :=
  .next (commit s (s.dev.busWrite m R.SEC_VCMD .word v))

/-- `LC_REQUEST` (R643). -/
def execLcRequest (m : Master) (v : Word) (token : ImageIn) (s : State) : Host.Outcome State Fault Refusal :=
  .next (commit s (s.dev.busWriteAt none (some token) m R.SEC_LC_REQ .word v))

/-- `ENROL` (R644). -/
def execEnrol (m : Master) (v : Word) (s : State) : Host.Outcome State Fault Refusal :=
  .next (commit s (s.dev.busWrite m R.SEC_ENROL .word v))

/-- `ATTEST` (R647). -/
def execAttest (m : Master) (v : Word) (s : State) : Host.Outcome State Fault Refusal :=
  .next (commit s (s.dev.busWrite m R.SEC_ATT_CTRL .word v))

/-- `HASH_OP_START` (R648). -/
def execHashOpStart (s : State) : Host.Outcome State Fault Refusal := .next (commit s s.dev.hashStart)

/-- `HASH_OP_DONE` (R648). -/
def execHashOpDone (img : ImageIn) (s : State) : Host.Outcome State Fault Refusal :=
  .next (commit s (s.dev.hashDone img))

/-- `JOURNAL_COMMIT` (R650). -/
def execJournalCommit (m : Master) (v : Word) (s : State) : Host.Outcome State Fault Refusal :=
  .next (commit s (s.dev.busWrite m R.SEC_JNL_CMD .word v))

/-- `JOURNAL_COMMIT_DONE` (R650). -/
def execJournalCommitDone (s : State) : Host.Outcome State Fault Refusal :=
  .next (commit s s.dev.commitDone.stopProgress)

/-- `ATTESTATION_PUBLIC_KEY_READY` (R647). -/
def execAttestationPublicKeyReady (s : State) : Host.Outcome State Fault Refusal :=
  .next (commit s s.dev.attestKeyReady)

/-- `OTP_PROGRAMMING_DONE` (R644). -/
def execOtpProgrammingDone (s : State) : Host.Outcome State Fault Refusal := .next (commit s s.dev.otpDone)

/-- `TAP_INSTRUCTION` (R646). -/
def execTapInstruction (ir : Nat) (s : State) : Host.Outcome State Fault Refusal :=
  .next (commit s (tapTake ir s.pins s.dev))

/-- `NVM_READ` (R653). -/
def execNvmRead (m : Master) (v : Word) (s : State) : Host.Outcome State Fault Refusal :=
  .next (commit s (s.dev.busWrite m R.NVM_CMD .word v))

/-- `NVM_PROGRAM` (R653). -/
def execNvmProgram (m : Master) (v : Word) (s : State) : Host.Outcome State Fault Refusal :=
  .next (commit s (s.dev.busWrite m R.NVM_CMD .word v))

/-- `NVM_ERASE` (R652). -/
def execNvmErase (m : Master) (v : Word) (s : State) : Host.Outcome State Fault Refusal :=
  .next (commit s (s.dev.busWrite m R.NVM_CMD .word v))

/-- `NVM_ABORT` (R656). -/
def execNvmAbort (m : Master) (v : Word) (s : State) : Host.Outcome State Fault Refusal :=
  .next (commit s (s.dev.busWrite m R.NVM_CMD .word v))

/-- `NVM_OP_DONE` (R653). -/
def execNvmOpDone (data : List Byte) (s : State) : Host.Outcome State Fault Refusal :=
  .next (commit s (s.dev.nvmDone data))

/-- `NVM_TIMEOUT` (R652). -/
def execNvmTimeout (s : State) : Host.Outcome State Fault Refusal := .next (commit s s.dev.nvmTimeout)

/-- `RBUF31_READ` (R653). -/
def execRbuf31Read (m : Master) (s : State) : Host.Outcome State Fault Refusal :=
  .next (commit s (s.dev.busRead s.evq m R.NVM_RBUF31 .word))

/-- `WBUF31_WRITE` (R653). -/
def execWbuf31Write (m : Master) (v : Word) (s : State) : Host.Outcome State Fault Refusal :=
  .next (commit s (s.dev.busWrite m (R.NVM_WBUF 31) .word v))

/-- `BUDGET_WINDOW_END` (R655). -/
def execBudgetWindowEnd (s : State) : Host.Outcome State Fault Refusal := .next (commit s s.dev.budgetEnd)

end Sys2Proof.Machine
end

