-- ==== Sys2Proof/Machine/SpareCmds.lean ====
section
/-! DEFINITION. Commands of the flyleaf.
One meaning per command. -/

namespace Sys2Proof.Machine

/-- `ROTATION_DUE` (R363). -/
def execRotationDue (s : State) : Host.Outcome State Fault Refusal := .next (commit s s.dev.rotationDue)

/-- `SWAP` (R358). -/
def execSwap (m : Master) (v : Word) (s : State) : Host.Outcome State Fault Refusal :=
  .next (commit s (s.dev.busWrite m R.SPR_CTRL .word v))

/-- `SHADOW_START` (R345). -/
def execShadowStart (s : State) : Host.Outcome State Fault Refusal := .next (commit s s.dev.shadowStart)

/-- `CONVERGE_TIMEOUT` (R344). -/
def execConvergeTimeout (s : State) : Host.Outcome State Fault Refusal := .next (commit s s.dev.convergeTimeout)

/-- `SHADOW_MISMATCH` (R348). -/
def execShadowMismatch (s : State) : Host.Outcome State Fault Refusal := .next (commit s s.dev.shadowMismatch)

/-- `SWAP_UNDO` (R352). -/
def execSwapUndo (s : State) : Host.Outcome State Fault Refusal := .next (commit s s.dev.swapUndo)

/-- `SPR_ABORT` (R359). -/
def execSprAbort (m : Master) (v : Word) (s : State) : Host.Outcome State Fault Refusal :=
  .next (commit s (s.dev.busWrite m R.SPR_CTRL .word v))

/-- `SPR_RET_WRITE` (R373). -/
def execSprRetWrite (m : Master) (v : Word) (s : State) : Host.Outcome State Fault Refusal :=
  .next (commit s (s.dev.busWrite m R.SPR_RET .word v))

end Sys2Proof.Machine
end

