-- ==== Sys2Proof/Machine/TestCmds.lean ====
section
/-! DEFINITION. Commands of self-test, fault counting and the counters.
One meaning per command. -/

namespace Sys2Proof.Machine

/-- A test ends: an item of the full test, or an in-service test (R668, R673, R674). -/
def testDone (r : TestRun) (d : Dev) : Dev :=
  if d.fullRunning && !d.bst.full.isEmpty then d.fullItemDone r else d.testEnd r

/-- The full test ends: the data path is reset and restarts (R33, R516, R674). It does not where the data path is off or on its way to
it: in a thermal stop or after it (R616), or in loss of main supply. -/
def fullDone (d : Dev) : Dev :=
  if !d.fullRunning || !d.bst.full.isEmpty then d
  else
    let d := ((d.showIdle.setFld F.BST_FULL_STATE 2).setReg R.BST_FULLRES d.bst.results).raise Blk.bst 0x2B 0
    if !d.active ∨ d.thm.stop ≠ 0 ∨ d.pwr.heldOff ∨ d.pwr.lossQ.isSome then d else
    let d := d.dataPathReset
    let d := d.powerUpData.startLanes
    d.each Dev.allLanes fun n d => d.squelchPwr n false

/-- A performance counter that counts an event takes one more increment at its last value (R679, R680, R688). -/
def pmcLast (i : Fin 8) (d : Dev) : Dev :=
  let e := d.fld (F.CNT_PMC_CFG_EVT i)
  if d.count48 (R.CNT_PMC_LO i) = 2 ^ 48 - 1 ∧ !d.frozen ∧ 1 ≤ e ∧ e ≤ 13 then d.pmcAdd i 1 else d

/-- `FAULT_LEAK` (R658). -/
def execFaultLeak (c : Fin 13) (inst : Nat) (s : State) : Host.Outcome State Fault Refusal :=
  .next (commit s (s.dev.leak c inst))

/-- `SELF_TEST_START` (R665). -/
def execSelfTestStart (s : State) : Host.Outcome State Fault Refusal := .next (commit s s.dev.testStart)

/-- `SELF_TEST_DONE` (R668). -/
def execSelfTestDone (r : TestRun) (s : State) : Host.Outcome State Fault Refusal :=
  .next (commit s (testDone r s.dev))

/-- `MCMD_GO` (R671). -/
def execMcmdGo (m : Master) (v : Word) (s : State) : Host.Outcome State Fault Refusal :=
  .next (commit s (s.dev.busWrite m R.BST_MCMD .word v))

/-- `FULL_GO` (R672). -/
def execFullGo (m : Master) (v : Word) (s : State) : Host.Outcome State Fault Refusal :=
  .next (commit s (s.dev.busWrite m R.BST_FULL .word v))

/-- `FULL_TEST_DONE` (R674). -/
def execFullTestDone (s : State) : Host.Outcome State Fault Refusal := .next (commit s (fullDone s.dev))

/-- `SNAP` (R690). -/
def execSnap (m : Master) (v : Word) (s : State) : Host.Outcome State Fault Refusal :=
  .next (commit s (s.dev.busWrite m R.CNT_SNAP .word v))

/-- `FREEZE` (R688). -/
def execFreeze (m : Master) (v : Word) (s : State) : Host.Outcome State Fault Refusal :=
  .next (commit s (s.dev.busWrite m R.CNT_FRZ .word v))

/-- `PMC_HI_WRITE` (R681). -/
def execPmcHiWrite (m : Master) (i : Fin 8) (v : Word) (s : State) : Host.Outcome State Fault Refusal :=
  .next (commit s (s.dev.busWrite m (R.CNT_PMC_HI i) .word v))

/-- `PMC_LO_WRITE` (R681). -/
def execPmcLoWrite (m : Master) (i : Fin 8) (v : Word) (s : State) : Host.Outcome State Fault Refusal :=
  .next (commit s (s.dev.busWrite m (R.CNT_PMC_LO i) .word v))

/-- `PMC_WRAP` (R680). -/
def execPmcWrap (i : Fin 8) (s : State) : Host.Outcome State Fault Refusal := .next (commit s (pmcLast i s.dev))

/-- `SAMPLE_RECORD` (R682). -/
def execSampleRecord (latency : Nat) (s : State) : Host.Outcome State Fault Refusal :=
  .next (commit s (s.dev.recordSample latency))

/-- `SMP_ENT2_READ` (R683). -/
def execSmpEnt2Read (m : Master) (s : State) : Host.Outcome State Fault Refusal :=
  .next (commit s (s.dev.busRead s.evq m R.CNT_SMP_ENT2 .word))

end Sys2Proof.Machine
end

