-- ==== Sys2Proof/Machine/Dispatch.lean ====
section
/-! DEFINITION. One arm per command. -/

namespace Sys2Proof.Machine

def exec (i : Instr) (s : State) : Host.Outcome State Fault Refusal :=
  match i with
  | .quireTick inp => Sys2Proof.Machine.execQuireTick inp s
  | .receivedQuireBoundary n clk => Sys2Proof.Machine.execReceivedQuireBoundary n clk s
  | .hostPllLock => Sys2Proof.Machine.execHostPllLock s
  | .hostPllLockLoss => Sys2Proof.Machine.execHostPllLockLoss s
  | .tsrcLaneLoss => Sys2Proof.Machine.execTsrcLaneLoss s
  | .tsrcLaneRecovery => Sys2Proof.Machine.execTsrcLaneRecovery s
  | .refRangeCheck count => Sys2Proof.Machine.execRefRangeCheck count s
  | .loWordRead m addr => Sys2Proof.Machine.execLoWordRead m addr s
  | .hostLaneLost h => Sys2Proof.Machine.execHostLaneLost h s
  | .hostLaneRestored h => Sys2Proof.Machine.execHostLaneRestored h s
  | .alignmentMarkerSet t valid pos => Sys2Proof.Machine.execAlignmentMarkerSet t valid pos s
  | .hostCodewordDecode t word => Sys2Proof.Machine.execHostCodewordDecode t word s
  | .transmitLeaf n ab smp => Sys2Proof.Machine.execTransmitLeaf n ab smp s
  | .markerReceived n rx => Sys2Proof.Machine.execMarkerReceived n rx s
  | .pilotLeafReceived n rx => Sys2Proof.Machine.execPilotLeafReceived n rx s
  | .leafDecode n rx => Sys2Proof.Machine.execLeafDecode n rx s
  | .faultLeak c inst => Sys2Proof.Machine.execFaultLeak c inst s
  | .queueFault n cause => Sys2Proof.Machine.execQueueFault n cause s
  | .swingMoveDone n => Sys2Proof.Machine.execSwingMoveDone n s
  | .transmitterStart n => Sys2Proof.Machine.execTransmitterStart n s
  | .agcWindowEnd n => Sys2Proof.Machine.execAgcWindowEnd n s
  | .acqWindowEnd n => Sys2Proof.Machine.execAcqWindowEnd n s
  | .signalDetect n => Sys2Proof.Machine.execSignalDetect n s
  | .signalLoss n => Sys2Proof.Machine.execSignalLoss n s
  | .acqTimeout n => Sys2Proof.Machine.execAcqTimeout n s
  | .warmFallback n => Sys2Proof.Machine.execWarmFallback n s
  | .updateIntervalEnd n rx => Sys2Proof.Machine.execUpdateIntervalEnd n rx s
  | .reacq m n v => Sys2Proof.Machine.execReacq m n v s
  | .save m n v => Sys2Proof.Machine.execSave m n v s
  | .eqFreezeWrite m n v => Sys2Proof.Machine.execEqFreezeWrite m n v s
  | .interpFreezeWrite m n v => Sys2Proof.Machine.execInterpFreezeWrite m n v s
  | .rotationStepDue n m0 m1 => Sys2Proof.Machine.execRotationStepDue n m0 m1 s
  | .rotationSwitch n => Sys2Proof.Machine.execRotationSwitch n s
  | .offlineCheckDone n c meas => Sys2Proof.Machine.execOfflineCheckDone n c meas s
  | .adcRetWrite m n v => Sys2Proof.Machine.execAdcRetWrite m n v s
  | .captureStart m v => Sys2Proof.Machine.execCaptureStart m v s
  | .captureAbort m v => Sys2Proof.Machine.execCaptureAbort m v s
  | .captureTrigger => Sys2Proof.Machine.execCaptureTrigger s
  | .captureDone => Sys2Proof.Machine.execCaptureDone s
  | .brlNextWrite m n v => Sys2Proof.Machine.execBrlNextWrite m n v s
  | .ribbonLookupDone n => Sys2Proof.Machine.execRibbonLookupDone n s
  | .subwindowEnd n front => Sys2Proof.Machine.execSubwindowEnd n front s
  | .presetLoad n => Sys2Proof.Machine.execPresetLoad n s
  | .ribbonFallback n => Sys2Proof.Machine.execRibbonFallback n s
  | .calRun m n v => Sys2Proof.Machine.execCalRun m n v s
  | .calAbort m n v => Sys2Proof.Machine.execCalAbort m n v s
  | .calWindowEnd n k w => Sys2Proof.Machine.execCalWindowEnd n k w s
  | .calTakeUp n k => Sys2Proof.Machine.execCalTakeUp n k s
  | .rotationDue => Sys2Proof.Machine.execRotationDue s
  | .swap m v => Sys2Proof.Machine.execSwap m v s
  | .shadowStart => Sys2Proof.Machine.execShadowStart s
  | .convergeTimeout => Sys2Proof.Machine.execConvergeTimeout s
  | .shadowMismatch => Sys2Proof.Machine.execShadowMismatch s
  | .swapUndo => Sys2Proof.Machine.execSwapUndo s
  | .sprAbort m v => Sys2Proof.Machine.execSprAbort m v s
  | .sprRetWrite m v => Sys2Proof.Machine.execSprRetWrite m v s
  | .helloReceived n => Sys2Proof.Machine.execHelloReceived n s
  | .helloTimeout n => Sys2Proof.Machine.execHelloTimeout n s
  | .timeLeafReceived n => Sys2Proof.Machine.execTimeLeafReceived n s
  | .stitchReceived n => Sys2Proof.Machine.execStitchReceived n s
  | .remoteRegRead => Sys2Proof.Machine.execRemoteRegRead s
  | .remoteRegWrite => Sys2Proof.Machine.execRemoteRegWrite s
  | .routeAdvertise => Sys2Proof.Machine.execRouteAdvertise s
  | .routeExpiry => Sys2Proof.Machine.execRouteExpiry s
  | .stitchAged => Sys2Proof.Machine.execStitchAged s
  | .addressSelfAssigned => Sys2Proof.Machine.execAddressSelfAssigned s
  | .arm m k clk v => Sys2Proof.Machine.execArm m k clk v s
  | .send m v => Sys2Proof.Machine.execSend m v s
  | .stitchSent => Sys2Proof.Machine.execStitchSent s
  | .pop m v => Sys2Proof.Machine.execPop m v s
  | .subintervalStart => Sys2Proof.Machine.execSubintervalStart s
  | .safeClr m v => Sys2Proof.Machine.execSafeClr m v s
  | .conversionClose mean sat => Sys2Proof.Machine.execConversionClose mean sat s
  | .conversionFault => Sys2Proof.Machine.execConversionFault s
  | .ureqGo m v => Sys2Proof.Machine.execUreqGo m v s
  | .sequencerEnable m v => Sys2Proof.Machine.execSequencerEnable m v s
  | .instructionFetch stalled => Sys2Proof.Machine.execInstructionFetch stalled s
  | .processorLoad clk => Sys2Proof.Machine.execProcessorLoad clk s
  | .processorStore clk => Sys2Proof.Machine.execProcessorStore clk s
  | .memoryErrorInterrupt => Sys2Proof.Machine.execMemoryErrorInterrupt s
  | .quireInterrupt => Sys2Proof.Machine.execQuireInterrupt s
  | .machineExternalInterrupt => Sys2Proof.Machine.execMachineExternalInterrupt s
  | .mret => Sys2Proof.Machine.execMret s
  | .done m v => Sys2Proof.Machine.execDone m v s
  | .wdtKick m v => Sys2Proof.Machine.execWdtKick m v s
  | .watchdogExpiry => Sys2Proof.Machine.execWatchdogExpiry s
  | .managementRestart => Sys2Proof.Machine.execManagementRestart s
  | .remapReq m v => Sys2Proof.Machine.execRemapReq m v s
  | .ulogRead m => Sys2Proof.Machine.execUlogRead m s
  | .scrubStart m v => Sys2Proof.Machine.execScrubStart m v s
  | .scrubWord clocks => Sys2Proof.Machine.execScrubWord clocks s
  | .scrubAbort m v => Sys2Proof.Machine.execScrubAbort m v s
  | .dmaStart m c v => Sys2Proof.Machine.execDmaStart m c v s
  | .dmaNext m c v => Sys2Proof.Machine.execDmaNext m c v s
  | .dmaAbort m c v => Sys2Proof.Machine.execDmaAbort m c v s
  | .dmaRequest line => Sys2Proof.Machine.execDmaRequest line s
  | .dmaActivate => Sys2Proof.Machine.execDmaActivate s
  | .dmaBeat => Sys2Proof.Machine.execDmaBeat s
  | .dmaComplete => Sys2Proof.Machine.execDmaComplete s
  | .registerWrite m addr w v => Sys2Proof.Machine.execRegisterWrite m addr w v s
  | .aliasWrite m addr v => Sys2Proof.Machine.execAliasWrite m addr v s
  | .eventQueueRead m blk w => Sys2Proof.Machine.execEventQueueRead m blk w s
  | .clkPressWrite m v => Sys2Proof.Machine.execClkPressWrite m v s
  | .domainWake m dom => Sys2Proof.Machine.execDomainWake m dom s
  | .domainIdleOff dom => Sys2Proof.Machine.execDomainIdleOff dom s
  | .mgmtPortWrite addr data => Sys2Proof.Machine.execMgmtPortWrite addr data s
  | .mgmtPortRead addr len => Sys2Proof.Machine.execMgmtPortRead addr len s
  | .windowFetch => Sys2Proof.Machine.execWindowFetch s
  | .windowWrite => Sys2Proof.Machine.execWindowWrite s
  | .newnonce => Sys2Proof.Machine.execNewnonce s
  | .submit => Sys2Proof.Machine.execSubmit s
  | .lock => Sys2Proof.Machine.execLock s
  | .refresh => Sys2Proof.Machine.execRefresh s
  | .popevq => Sys2Proof.Machine.execPopevq s
  | .sessionIdleTimeout => Sys2Proof.Machine.execSessionIdleTimeout s
  | .lockoutExpiry => Sys2Proof.Machine.execLockoutExpiry s
  | .setdasa staticAddr dynAddr => Sys2Proof.Machine.execSetdasa staticAddr dynAddr s
  | .entdaa dynAddr won => Sys2Proof.Machine.execEntdaa dynAddr won s
  | .rstdaa => Sys2Proof.Machine.execRstdaa s
  | .getpid => Sys2Proof.Machine.execGetpid s
  | .getbcr => Sys2Proof.Machine.execGetbcr s
  | .getdcr => Sys2Proof.Machine.execGetdcr s
  | .getstatus => Sys2Proof.Machine.execGetstatus s
  | .getmwl => Sys2Proof.Machine.execGetmwl s
  | .getmrl => Sys2Proof.Machine.execGetmrl s
  | .enec mask => Sys2Proof.Machine.execEnec mask s
  | .disec mask => Sys2Proof.Machine.execDisec mask s
  | .wctrlDone m v => Sys2Proof.Machine.execWctrlDone m v s
  | .ready m v => Sys2Proof.Machine.execReady m v s
  | .resetNLow => Sys2Proof.Machine.execResetNLow s
  | .resetNRelease => Sys2Proof.Machine.execResetNRelease s
  | .lpmodeChange level => Sys2Proof.Machine.execLpmodeChange level s
  | .lowPowerRequestChange => Sys2Proof.Machine.execLowPowerRequestChange s
  | .standbyRetry => Sys2Proof.Machine.execStandbyRetry s
  | .activeEntry => Sys2Proof.Machine.execActiveEntry s
  | .rest m v => Sys2Proof.Machine.execRest m v s
  | .suppliesValid => Sys2Proof.Machine.execSuppliesValid s
  | .vbakPresent => Sys2Proof.Machine.execVbakPresent s
  | .vbakLoss => Sys2Proof.Machine.execVbakLoss s
  | .mainSupplyLoss => Sys2Proof.Machine.execMainSupplyLoss s
  | .mainSupplyReturn => Sys2Proof.Machine.execMainSupplyReturn s
  | .laneDozeEntry n => Sys2Proof.Machine.execLaneDozeEntry n s
  | .laneWake n src => Sys2Proof.Machine.execLaneWake n src s
  | .wakeTx m v => Sys2Proof.Machine.execWakeTx m v s
  | .wakePatternEnd n => Sys2Proof.Machine.execWakePatternEnd n s
  | .rtcAlarm => Sys2Proof.Machine.execRtcAlarm s
  | .load m v => Sys2Proof.Machine.execLoad m v s
  | .rtcSubRead m => Sys2Proof.Machine.execRtcSubRead m s
  | .avsVsetWrite m v => Sys2Proof.Machine.execAvsVsetWrite m v s
  | .avsRequestAck => Sys2Proof.Machine.execAvsRequestAck s
  | .avsTimeout => Sys2Proof.Machine.execAvsTimeout s
  | .thermalSample => Sys2Proof.Machine.execThermalSample s
  | .thermalJudgement readings => Sys2Proof.Machine.execThermalJudgement readings s
  | .throttleEnforce => Sys2Proof.Machine.execThrottleEnforce s
  | .bootSequence store chkFail => Sys2Proof.Machine.execBootSequence store chkFail s
  | .confirm m v => Sys2Proof.Machine.execConfirm m v s
  | .rollfwd m v => Sys2Proof.Machine.execRollfwd m v s
  | .verifySlot m v => Sys2Proof.Machine.execVerifySlot m v s
  | .lcRequest m v token => Sys2Proof.Machine.execLcRequest m v token s
  | .enrol m v => Sys2Proof.Machine.execEnrol m v s
  | .attest m v => Sys2Proof.Machine.execAttest m v s
  | .hashOpStart => Sys2Proof.Machine.execHashOpStart s
  | .hashOpDone img => Sys2Proof.Machine.execHashOpDone img s
  | .journalCommit m v => Sys2Proof.Machine.execJournalCommit m v s
  | .journalCommitDone => Sys2Proof.Machine.execJournalCommitDone s
  | .nvmRead m v => Sys2Proof.Machine.execNvmRead m v s
  | .nvmProgram m v => Sys2Proof.Machine.execNvmProgram m v s
  | .nvmErase m v => Sys2Proof.Machine.execNvmErase m v s
  | .nvmAbort m v => Sys2Proof.Machine.execNvmAbort m v s
  | .nvmOpDone data => Sys2Proof.Machine.execNvmOpDone data s
  | .nvmTimeout => Sys2Proof.Machine.execNvmTimeout s
  | .rbuf31Read m => Sys2Proof.Machine.execRbuf31Read m s
  | .wbuf31Write m v => Sys2Proof.Machine.execWbuf31Write m v s
  | .budgetWindowEnd => Sys2Proof.Machine.execBudgetWindowEnd s
  | .selfTestStart => Sys2Proof.Machine.execSelfTestStart s
  | .selfTestDone r => Sys2Proof.Machine.execSelfTestDone r s
  | .mcmdGo m v => Sys2Proof.Machine.execMcmdGo m v s
  | .fullGo m v => Sys2Proof.Machine.execFullGo m v s
  | .fullTestDone => Sys2Proof.Machine.execFullTestDone s
  | .snap m v => Sys2Proof.Machine.execSnap m v s
  | .freeze m v => Sys2Proof.Machine.execFreeze m v s
  | .pmcHiWrite m k v => Sys2Proof.Machine.execPmcHiWrite m k v s
  | .pmcLoWrite m k v => Sys2Proof.Machine.execPmcLoWrite m k v s
  | .pmcWrap k => Sys2Proof.Machine.execPmcWrap k s
  | .sampleRecord latency => Sys2Proof.Machine.execSampleRecord latency s
  | .smpEnt2Read m => Sys2Proof.Machine.execSmpEnt2Read m s
  | .compatLaneLock n gained => Sys2Proof.Machine.execCompatLaneLock n gained s
  | .orderlyStopTimeout => Sys2Proof.Machine.execOrderlyStopTimeout s
  | .attestationPublicKeyReady => Sys2Proof.Machine.execAttestationPublicKeyReady s
  | .otpProgrammingDone => Sys2Proof.Machine.execOtpProgrammingDone s
  | .tapInstruction ir => Sys2Proof.Machine.execTapInstruction ir s

end Sys2Proof.Machine
end

