-- ==== Sys2Proof/Machine/Idle.lean ====
section
/-! DEFINITION. What passes on an empty queue: one cycle of the 32.768 kHz clock (log 11). -/

namespace Sys2Proof.Machine

/-- The RTC counts in every state but OFF (R581); the watchdog counts while MGT is on (R477). -/
def idleDev (d : Dev) : Dev := if d.dstate = Dev.stOFF then d else d.rtcEdge.wdtEdge

/-- One cycle of the 32.768 kHz clock passes. -/
def idle (s : State) : State := commit s (idleDev s.dev)

end Sys2Proof.Machine
end

