-- ==== Sys2Proof/Safety.lean ====
section
/-! DEFINITION. What holds of the block between commands: nothing raised is left unqueued, no event queue holds more than
its 16 entries, and the output pins stand as the device drives them; and
the terms in which the statements speak of a command. -/

namespace Sys2Proof.Machine

/-- Nothing raised, popped or emptied is left over from a command (R526). -/
def Dev.settled (d : Dev) : Bool := d.raised.isEmpty && d.popped.isEmpty && !d.emptied

/-- The device without its register words and without what a command raised: memory, live values, holding copies, every
lane and engine. -/
def Dev.rest (d : Dev) : Dev := { d with regs := [], raised := [], popped := [], emptied := false }

/-- Every event queue holds at most 16 entries (R526, R529). -/
def queuesBounded (q : Vector EvQ 32) : Prop := ∀ b : Fin 32, (q[b]).q.length ≤ 16

/-- The invariant of every step. -/
structure State.Inv (s : State) : Prop where
  settled : s.dev.settled = true
  queues  : queuesBounded s.evq
  pins    : s.pins = pinsOf s.dev

end Sys2Proof.Machine

namespace Sys2Proof.Claims

open Sys2Proof.Machine

/-- The command answers a next state of which P holds. -/
def Answers (c : Instr) (s : State) (P : State → Prop) : Prop := ∃ t, exec c s = .next t ∧ P t

/-- Every register word is as before, but those listed and `MGT.STAT`, which follows its causes (R568). -/
def Kept (as : List Nat) (s t : State) : Prop := ∀ a, a ≠ R.MGT_STAT → a ∉ as → t.dev.reg a = s.dev.reg a

/-- The events of the command, (block, code, lane) in order, each queued in its block with the quire number of that
moment or lost there (R526, R529); no other queue changes. -/
def Events (es : List (Nat × Nat × Nat)) (s t : State) : Prop :=
  ∀ b : Fin 32, t.evq[b] = (es.filter fun e => e.1 == b.val).foldl
    (fun q e => q.push ⟨BitVec.ofNat 8 e.2.1, BitVec.ofNat 4 e.2.2, t.dev.clk.qnum.setWidth 20⟩) s.evq[b]

/-- The frame: of the registers only those listed changed, of the rest of the device only what `d` differs in (all memory,
live values, lanes and engines stay), the events listed are queued, and the commands that wait still wait. -/
structure Frame (as : List Nat) (d : Dev) (es : List (Nat × Nat × Nat)) (s t : State) : Prop where
  regs    : Kept as s t
  rest    : t.dev.rest = d.rest
  events  : Events es s t
  pending : t.pending = s.pending

/-- The command answers a next state whose registers are those of `d` (but `MGT.STAT`), in the frame of `d`. -/
def Yields (c : Instr) (s : State) (d : Dev) (as : List Nat) (es : List (Nat × Nat × Nat)) : Prop :=
  Answers c s fun t => (∀ a, a ≠ R.MGT_STAT → t.dev.reg a = d.reg a) ∧ Frame as d es s t

/-- The command answers the next state that ends with the device at `d`: its registers and all the rest as `d` has them,
the events it raised queued. -/
def Ends (c : Instr) (s : State) (d : Dev) : Prop := Answers c s fun t => t = commit s d

end Sys2Proof.Claims
end

