-- ==== Sys2Proof/Certificates/Slice0/Obligations.lean ====
section
/-! DEFINITION. The statements about the block, for the provers. -/

namespace Sys2Proof.Claims

open Sys2Proof.Machine Sys2Proof.Machine.Dev

/-! ### The machine as a block -/

/-- What a settled, empty-queued command leaves of the pins. -/
def PinsFollow (t : State) : Prop := t.pins = pinsOf t.dev

/-! ### Clocks (chapter 1) -/

/-- The host PLL locks: the quire tick runs; nothing else changes but the count toward the next host-clock check (R27). That the line
and compatibility clocks are shown locked with it is the model's choice (log 37). -/
def PllLocks (s : State) : Prop :=
  s.dev.domOn .mgt = true → s.dev.on F.CLK_STAT_HOST_LOCK = false →
    Answers .hostPllLock s fun t =>
      t.dev.on F.CLK_STAT_HOST_LOCK = true ∧ t.dev.on F.CLK_STAT_LINE_LOCK = true ∧
      t.dev.on F.CLK_STAT_COMPAT_LOCK = true ∧ t.dev.on F.CLK_STAT_TICK_RUN = true ∧
      Frame [R.CLK_STAT] (s.dev.modClk fun c => { c with refQ := 0 }) [] s t

/-- The host PLL loses lock: the quire tick stops, and the quire number stays (R27). That the line clock loses lock with it is the
model's choice (log 37), and that a loss of main supply in progress then ends at once is too (log 26). -/
def PllLoses (s : State) : Prop :=
  (s.dev.on F.CLK_STAT_HOST_LOCK = true → s.dev.pwr.lossQ.isSome = true → Ends .hostPllLockLoss s s.dev.pllLoss.lossFinish) ∧
  (s.dev.on F.CLK_STAT_HOST_LOCK = true → s.dev.pwr.lossQ = none →
    Answers .hostPllLockLoss s fun t =>
      t.dev.on F.CLK_STAT_HOST_LOCK = false ∧ t.dev.on F.CLK_STAT_LINE_LOCK = false ∧
      t.dev.on F.CLK_STAT_TICK_RUN = false ∧ Frame [R.CLK_STAT] s.dev [] s t)

/-- The timing lane loses signal: holdover, and the tick and the quire number go on (R21). -/
def TimingLoss (s : State) : Prop :=
  s.dev.recovers = true → s.dev.clk.source = .lane →
    Answers .tsrcLaneLoss s fun t =>
      t.dev.on F.CLK_STAT_HOLDOVER = true ∧ t.dev.on F.CLK_STAT_TICK_RUN = s.dev.on F.CLK_STAT_TICK_RUN ∧
      Frame [R.CLK_STAT] (s.dev.modClk fun c => { c with source := .holdover }) [] s t

/-- The timing lane is recovered: the PLL moves to it without a step of the quire number, and `TSRC_WAIT` and `HOLDOVER`
return to 0 (R21, R22). -/
def TimingRecovery (s : State) : Prop :=
  s.dev.recovers = true → s.dev.active = true → s.dev.clk.source ≠ .lane →
    Answers .tsrcLaneRecovery s fun t =>
      t.dev.on F.CLK_STAT_HOLDOVER = false ∧ t.dev.on F.CLK_STAT_TSRC_WAIT = false ∧ t.dev.clk.qnum = s.dev.clk.qnum ∧
      Frame [R.CLK_STAT] (s.dev.modClk fun c => { c with source := .lane, seen := true }) [] s t

/-- The host-clock check after five quires (R23): `REF_RANGE` says whether the count differs from 81,920 by more than
200 ppm, which is more than 16 host clocks, with CLK event 0x06 when it rises and 0x07 when it falls. -/
def RefChecked (s : State) (count : Nat) : Prop :=
  s.dev.on F.CLK_STAT_TICK_RUN = true → 5 ≤ s.dev.clk.refQ →
    let out := decide (count < 81904 ∨ 81936 < count)
    Answers (.refRangeCheck count) s fun t =>
      t.dev.on F.CLK_STAT_REF_RANGE = out ∧
      Frame [R.CLK_STAT] (s.dev.modClk fun c => { c with refQ := 0 })
        (if out = s.dev.on F.CLK_STAT_REF_RANGE then [] else [(Blk.clk, if out then 6 else 7, 0)]) s t

/-- A read of `CLK.QNUM_LO` returns the low 32 bits of the quire number and latches the high 16 for that master (R28). -/
def QnumRead (s : State) (m : Master) : Prop :=
  s.dev.domOn .mgt = true →
    Answers (.loWordRead m R.CLK_QNUM_LO) s fun t =>
      t.dev.busRes = .done ∧ t.dev.busWord = s.dev.clk.qnum.setWidth 32 ∧
      t.dev.getLatch m R.CLK_QNUM_HI = BitVec.ofNat 32 (s.dev.clk.qnum.toNat / 2 ^ 32) ∧
      (∀ m', m' ≠ m → t.dev.getLatch m' R.CLK_QNUM_HI = s.dev.getLatch m' R.CLK_QNUM_HI) ∧
      Kept [] s t ∧ Events [] s t ∧ t.dev.clk = s.dev.clk

/-! ### Host lanes and monitors (chapter 2) -/

/-- A host lane is lost: its LOST bit is 1, no other lane's changes, its unit in progress is gone and the fill generator
starts, from all ones, the model's choice (log 1) (R52, R53, R70). -/
def HostLost (s : State) (h : HostLane) : Prop :=
  s.dev.active = true → s.dev.hostWanted h = true → s.dev.hostLost h = false →
    Answers (.hostLaneLost h) s fun t =>
      t.dev.hostLost h = true ∧ (∀ k : HostLane, k ≠ h → t.dev.hostLost k = s.dev.hostLost k) ∧
      t.dev.host[h].rxBits = 0 ∧ t.dev.host[h].fill = 0x7FFFFFFF ∧ t.dev.mem = s.dev.mem ∧ t.pending = s.pending

/-- A host lane is restored: its LOST bit is 0, no other lane's changes, and of the registers only `HST.LSTAT` and
`MAP.STAT`, which shows the streams that come up, may change (R52, R60). -/
def HostRestored (s : State) (h : HostLane) : Prop :=
  s.dev.active = true → s.dev.hostLost h = true →
    Answers (.hostLaneRestored h) s fun t =>
      t.dev.hostLost h = false ∧ (∀ k : HostLane, k ≠ h → t.dev.hostLost k = s.dev.hostLost k) ∧
      Kept [R.HST_LSTAT, R.MAP_STAT] s t ∧ t.dev.rest = s.dev.rest ∧ t.pending = s.pending

/-- An alignment-marker set (R67): two valid sets in a row lock, four invalid ones in a row lose lock; each host lane that
locks takes its own boundary. -/
def MarkerSet (s : State) (t : Stream) : Prop :=
  s.dev.active = true → t.val < s.dev.streamCount →
    (Answers (.alignmentMarkerSet t false []) s fun u =>
      u.dev.on (Dev.fecLock t) = (s.dev.on (Dev.fecLock t) && decide (s.dev.streams[t].invalid < 3)) ∧
      Frame [R.FEC_STAT] { s.dev with streams := s.dev.streams.set t ⟨0, min 4 (s.dev.streams[t].invalid + 1)⟩ } [] s u) ∧
    (s.dev.on (Dev.fecLock t) = true → ∀ pos, pos.length = (s.dev.streamHosts t).length →
      Answers (.alignmentMarkerSet t true pos) s fun u =>
        Frame [] { s.dev with streams := s.dev.streams.set t ⟨min 2 (s.dev.streams[t].valid + 1), 0⟩ } [] s u) ∧
    (s.dev.on (Dev.fecLock t) = false → s.dev.streams[t].valid = 0 → ∀ pos, pos.length = (s.dev.streamHosts t).length →
      Answers (.alignmentMarkerSet t true pos) s fun u =>
        Frame [] { s.dev with streams := s.dev.streams.set t ⟨1, 0⟩ } [] s u)

/-- A set of alignment markers whose outcome completes a run locks the stream's delineator (R67): the lock bit rises, no
register else changes, and every host lane of the stream takes its own boundary (R69). -/
def MarkerLocks (s : State) (t : Stream) (pos : List Nat) : Prop :=
  s.dev.active = true → t.val < s.dev.streamCount → s.dev.on (Dev.fecLock t) = false → 1 ≤ s.dev.streams[t].valid →
    pos.length = (s.dev.streamHosts t).length →
    Answers (.alignmentMarkerSet t true pos) s fun u =>
      u.dev.on (Dev.fecLock t) = true ∧
      Frame [R.FEC_STAT]
        (({ s.dev with streams := s.dev.streams.set t ⟨2, 0⟩ } : Dev).each ((s.dev.streamHosts t).zip pos) fun p d =>
          d.realign p.1 p.2) [] s u

/-- The monitor decoder counts one codeword and exactly one of its seventeen outcomes: BINk with k corrected symbols up to 15, and then each
symbol for the host lane that carried it; UNCORR otherwise, and nothing per lane (R72, R73, R74). -/
def MonitorCounts (s : State) (t : Stream) (word : List (BitVec 10 × HostLane)) : Prop :=
  let cw (u : State) : Prop := u.dev.count48 (R.FEC_CW_LO t) = (s.dev.count48 (R.FEC_CW_LO t) + 1) % 2 ^ 48
  s.dev.active = true → s.dev.on (Dev.fecLock t) = true → s.dev.lvOn ⟨R.FEC_CFG, t, 1⟩ = true →
    (∀ hs, correctedHosts word = some hs → hs.length ≤ 15 → Answers (.hostCodewordDecode t word) s fun u =>
      cw u ∧ u.dev.reg (R.FEC_BIN t hs.length) = s.dev.reg (R.FEC_BIN t hs.length) + 1 ∧
      (∀ h : HostLane, u.dev.count48 (R.FEC_SYM_LO h) = (s.dev.count48 (R.FEC_SYM_LO h) + hs.count h) % 2 ^ 48) ∧
      Frame ([R.FEC_CW_LO t, R.FEC_CW_LO t + 4, R.FEC_BIN t hs.length] ++
        hs.flatMap fun h => [R.FEC_SYM_LO h, R.FEC_SYM_LO h + 4]) s.dev [] s u) ∧
    ((∀ hs, correctedHosts word = some hs → 15 < hs.length) → Answers (.hostCodewordDecode t word) s fun u =>
      cw u ∧ u.dev.count48 (R.FEC_UNCORR_LO t) = (s.dev.count48 (R.FEC_UNCORR_LO t) + 1) % 2 ^ 48 ∧
      Frame [R.FEC_CW_LO t, R.FEC_CW_LO t + 4, R.FEC_UNCORR_LO t, R.FEC_UNCORR_LO t + 4] s.dev [] s u)

/-- Where a host lane may be lost or restored at all, and a codeword decoded (R50, R52, R71): elsewhere the command changes
nothing. In ACTIVE, for a lane in use and not lost, a loss has its effect; for a lost lane a return has its; with marker lock and
`MON_EN` a codeword is decoded, and counted under the stream, whatever the decoder makes of it. -/
def HostCommandsEnd (s : State) (h : HostLane) (t : Stream) (word : List (BitVec 10 × HostLane)) : Prop :=
  (if s.dev.active && s.dev.hostWanted h && !s.dev.hostLost h then
    Answers (.hostLaneLost h) s fun u => u.dev.hostLost h = true ∧ u.dev.host[h].rxBits = 0
   else Ends (.hostLaneLost h) s s.dev) ∧
  (if s.dev.active && s.dev.hostLost h then Answers (.hostLaneRestored h) s fun u => u.dev.hostLost h = false
   else Ends (.hostLaneRestored h) s s.dev) ∧
  (if s.dev.active && s.dev.on (Dev.fecLock t) && s.dev.lvOn ⟨R.FEC_CFG, t, 1⟩ then
    Answers (.hostCodewordDecode t word) s fun u =>
      u.dev.count48 (R.FEC_CW_LO t) = (s.dev.count48 (R.FEC_CW_LO t) + 1) % 2 ^ 48 ∧ u.dev.clk = s.dev.clk ∧
      u.dev.mem = s.dev.mem ∧ u.pending = s.pending
   else Ends (.hostCodewordDecode t word) s s.dev)

/-! ### The register bus (chapter 15) -/

/-- Master m reaches register word a: MGT and the word's domain are on, and a guarded word has a trusted master (R509,
R538, R540). -/
def Reaches (s : State) (m : Master) (a : Nat) : Prop :=
  s.dev.domOn .mgt = true ∧ s.dev.domOn (domainOf a) = true ∧
    ∀ p, place a = some p → p.guarded = true → s.dev.trusted m = true

/-- An access of word a was performed and returned v; the idle time of the word's domain starts again (R571). -/
def served (a : Nat) (v : Word) (d : Dev) : Dev := (d.touch (domainOf a)).returned .done v

/-- An access of word a was performed with the effect f: the idle time of the word's domain starts again (R571), and the
master gets nothing back but that it was done. -/
def onBus (a : Nat) (f : Dev → Dev) (d : Dev) : Dev := (f (d.touch (domainOf a))).returned .done 0

/-- What a word write of v leaves in a register whose RW and RB bits are `mask` (R511, R515). -/
def wordWritten (d : Dev) (a mask : Nat) (v : Word) : Word :=
  (d.reg a &&& ~~~BitVec.ofNat 32 mask) ||| (v &&& BitVec.ofNat 32 mask)

/-- The register words, of every block, whose write has no effect beyond the word itself: all but the commands and triggers, and the
words that start, stop or interrupt something when they are written. -/
def plainWord (a : Nat) : Bool :=
  let b := blockOf a
  let o := a % 0x10000
  let l := a % 0x1000
  match b with
  | 0 => !([0x48, 0x50].contains o)
  | 1 => !([0x08, 0x14, 0x54, 0x64].contains o)
  | 2 => true
  | 3 => o == 0
  | 5 => true
  | 6 => true
  | 17 => [0x100, 0x200, 0x208, 0x304, 0x308, 0x30C, 0x500, 0x504, 0x600, 0x608, 0x610, 0x700, 0x704, 0x708, 0x70C, 0x710].contains l
      || decide (0xC00 ≤ l ∧ l < 0xCC8)
  | 18 => o % 0x100 == 0 || o % 0x100 == 0x10
  | 19 => if o < 0xF000 then o % 0x100 != 8 else o != 0xF00C
  | 20 => o == 0
  | 21 => !([0x48, 0x58, 0x304].contains o) && decide (o < 0x310)
  | 22 => !([0x200, 0x300, 0x308].contains o)
  | 24 => [0x10, 0x20, 0x24, 0x28].contains o
  | 25 => o == 0
  | 27 => o == 0xC
  | 28 => decide (0x30 ≤ o ∧ o < 0x60) || o == 0x64 || decide (0x70 ≤ o ∧ o < 0x90) || o == 0x200
  | 29 => o != 0xC && o != 0x27C
  | 30 => o == 0x80
  | _ => decide (8 ≤ b ∧ b ≤ 16 ∧ o < 0x10)

/-- A write of any width to a register that only holds what is written (R511, R515): the RW and RB bits of the addressed bytes take the
written value, every other bit of the word stays. -/
def RegisterStored (s : State) (m : Master) (a : Nat) (w : Width) (v : Word) (r : RegRow) : Prop :=
  let reg := a - a % 4
  let mask := coverMask a w &&& BitVec.ofNat 32 (r.rw ||| r.rb)
  a % widthBytes w = 0 → place reg = some (.live r) → plainWord reg = true → Reaches s m reg →
    Answers (.registerWrite m a w v) s fun t =>
      t.dev.reg reg = (s.dev.reg reg &&& ~~~mask) ||| (v <<< (8 * (a % 4)) &&& mask) ∧
      Frame [reg] (served reg 0 s.dev) [] s t

/-- An alias write to bit b of such a register sets or clears that bit where it is an RW or RB bit; every other bit stays (R520, R522). -/
def AliasStored (s : State) (m : Master) (reg b : Nat) (v : Word) (r : RegRow) : Prop :=
  reg % 4 = 0 → b < 32 → place reg = some (.live r) → plainWord reg = true → Reaches s m reg →
    Answers (.aliasWrite m (0x20000000 + (reg - 0x10000000) * 32 + b * 4) v) s fun t =>
      (∀ k, k < 32 → (t.dev.reg reg).getLsbD k =
        if k = b ∧ (r.rw ||| r.rb).testBit b then v.getLsbD 0 else (s.dev.reg reg).getLsbD k) ∧
      Frame [reg] (served reg 0 s.dev) [] s t

/-- A write of a word of the HST block, or of the configuration of a performance counter or of the sampler: the word holds it, and the host
transmitters' signals (R50, R55), the clocks counted so far (R679) or the sampler's interval (R682) follow. -/
def FollowedStored (s : State) (m : Master) (v : Word) : Prop :=
  let takes (a mask : Nat) (f : Dev → Dev) (before : Dev → Dev) : Prop :=
    Reaches s m a → Ends (.registerWrite m a .word v) s
      (onBus a (fun d => f ((before d).setReg a (wordWritten s.dev a mask v))) s.dev)
  takes R.HST_POL 0xFFFFFFFF hostSignals id ∧ takes R.HST_CFG 1 hostSignals id ∧
  (∀ i, i < 8 → takes (R.CNT_PMC_CFG i) 0x8000031F id elapse) ∧
  takes R.CNT_SMP_CFG 0x8FFFFFFF (samplerEnabled (s.dev.on F.CNT_SMP_CFG_EN)) id

/-- A write of `CLK.PRESS` ORs its groups into the pending mask (R533). -/
def PressRequested (s : State) (m : Master) (v : Word) : Prop :=
  Reaches s m R.CLK_PRESS →
    Answers (.clkPressWrite m v) s fun t =>
      t.dev.fld F.CLK_PRESS_STAT_PEND = (s.dev.fld F.CLK_PRESS_STAT_PEND ||| v.toNat % 2 ^ 16) ∧
      t.dev.fld F.CLK_PRESS_STAT_LAST = s.dev.fld F.CLK_PRESS_STAT_LAST ∧
      Frame [R.CLK_PRESS_STAT] (served R.CLK_PRESS 0 s.dev) [] s t

/-- A read of `blk.EVQ` returns the head entry and removes it; an empty queue reads 0 and stays empty. No other queue
changes (R526, R527). -/
def EventPopped (s : State) (m : Master) (b : Fin 32) : Prop :=
  blockExists b = true → m ≠ .mesh → Reaches s m (evqAddr b) →
    Answers (.eventQueueRead m b .word) s fun t =>
      t.dev.busWord = Dev.headWord s.evq[b] ∧ t.evq[b].q = s.evq[b].q.tail ∧ t.evq[b].lost = s.evq[b].lost ∧
      (∀ k : Fin 32, k ≠ b → t.evq[k] = s.evq[k]) ∧ Kept [] s t ∧
      t.dev.rest = (served (evqAddr b) (Dev.headWord s.evq[b]) s.dev).rest ∧ t.pending = s.pending

/-- An untrusted master's write to a guarded register is ignored: its `SYS.DENY` counter rises by one and
`SYS.DENY_ADDR` holds the address (R538). -/
def WriteDenied (s : State) (m : Master) (a : Nat) (w : Width) (v : Word) (p : Place) (c : Nat) : Prop :=
  s.dev.domOn .mgt = true → a % widthBytes w = 0 → place (a - a % 4) = some p → p.guarded = true →
    s.dev.trusted m = false → denyCounter m = some c →
    Answers (.registerWrite m a w v) s fun t =>
      t.dev.reg c = s.dev.reg c + 1 ∧ t.dev.reg R.SYS_DENY_ADDR = BitVec.ofNat 32 a ∧
      Frame [c, R.SYS_DENY_ADDR] (s.dev.returned .denied 0) [] s t

/-- An access that is not aligned to its width, or that names no register, is not performed: `SYS.BADACC` rises by one and
`SYS.BAD_ADDR` holds the address (R514, R515). The debug port reaches SRAMs as well (R463). -/
def AccessBad (s : State) (m : Master) (a : Nat) (w : Width) (v : Word) : Prop :=
  s.dev.domOn .mgt = true → debugWay m a = none → (a % widthBytes w ≠ 0 ∨ (isAlias a = false ∧ place (a - a % 4) = none)) →
    Answers (.registerWrite m a w v) s fun t =>
      t.dev.reg R.SYS_BADACC = s.dev.reg R.SYS_BADACC + 1 ∧ t.dev.reg R.SYS_BAD_ADDR = BitVec.ofNat 32 a ∧
      Frame [R.SYS_BADACC, R.SYS_BAD_ADDR] (s.dev.returned .bad 0) [] s t

/-- A domain that an access woke and that has been idle for 1,024 quires powers off, unless the device has come to require it (R571);
before that, or for a domain no access woke, nothing changes. -/
def DomainIdles (s : State) (x : Dom) : Prop :=
  let idle := s.dev.pwr.woken.any fun p => p.1 == x && decide (1024 ≤ p.2)
  (idle = true → s.dev.required x = true →
    Yields (.domainIdleOff x) s (s.dev.modPwr fun p => { p with woken := p.woken.filter fun q => q.1 != x }) [] []) ∧
  (idle = true → s.dev.required x = false → (∀ n, x ≠ .lfe n) → Ends (.domainIdleOff x) s (s.dev.domainDown x)) ∧
  (∀ n, x = .lfe n → idle = true → s.dev.required x = false → Ends (.domainIdleOff x) s (s.dev.frontEndOff n)) ∧
  (idle = false → Yields (.domainIdleOff x) s s.dev [] [])

/-- The domain is off after it powers down, and no other domain's bit changes; memory stays. -/
def DomainOff (d : Dev) (x : Dom) : Prop :=
  x ≠ .aon → let e := d.domainDown x
    e.domOn x = false ∧ (∀ p ∈ e.pwr.woken, p.1 ≠ x) ∧ e.mem = d.mem

/-- An access wakes a data-path domain that is off (R509, R538, R541, R542, R591): by a master that may wake it, which a slice's guarded
registers admit as well, unless the domain is held off by policy or an entry to STANDBY is in progress; else nothing changes. -/
def AccessWakes (s : State) (m : Master) (x : Dom) : Prop :=
  let may := s.dev.domOn .mgt = true ∧ wakes m = true ∧ s.dev.heldDomain x = false ∧ s.dev.dstate ≠ stToSTANDBY ∧
    ((∃ k, x = .slc k) → s.dev.trusted m = true)
  isDataDomain x = true →
    (may → s.dev.domOn x = false →
      Ends (.domainWake m x) s ((s.dev.powerUp x).modPwr fun p => { p with woken := p.woken ++ [(x, 0)] })) ∧
    (¬ may ∨ s.dev.domOn x = true → Yields (.domainWake m x) s s.dev [] [])

/-- The debug port wakes MGT from REST while RESET_N is not recognised low (R541); no other access does. -/
def MgtWakes (s : State) (m : Master) : Prop :=
  (m = .debug → s.dev.dstate = stREST → s.dev.domOn .mgt = false → s.dev.mgmt.resetLow = false →
    Ends (.domainWake m .mgt) s s.dev.mgtUp) ∧
  (m ≠ .debug ∨ s.dev.domOn .mgt = true ∨ s.dev.dstate ≠ stREST ∨ s.dev.mgmt.resetLow = true →
    Yields (.domainWake m .mgt) s s.dev [] [])

/-- A slice's domain that an access wakes (R541): its bit of `PWR.DOM` reads 1, its idle time starts, and memory stays. -/
def SliceWoken (s : State) (m : Master) (k : Slice) : Prop :=
  s.dev.domOn .mgt = true → s.dev.domOn (.slc k) = false → wakes m = true → s.dev.heldDomain (.slc k) = false →
    s.dev.trusted m = true → s.dev.dstate ≠ stToSTANDBY →
    Answers (.domainWake m (.slc k)) s fun t =>
      t.dev.domOn (.slc k) = true ∧ (Dom.slc k, 0) ∈ t.dev.pwr.woken ∧ t.dev.mem = s.dev.mem ∧ t.pending = s.pending

/-! ### The line (chapters 3 to 5) -/

/-- Lane n's front end has slice clocks left: ACTIVE, with the tick running and slots of the quire to come (R17, R86, R91). -/
def SlotOpen (s : State) (n : Lane) : Prop :=
  s.dev.active = true ∧ s.dev.on F.CLK_STAT_TICK_RUN = true ∧ (s.dev.lane n).tx.slot < s.dev.quireClocks

/-- The end of a slice clock: the equivalent-time sampler's reading is taken (R317), a swing move that fell in slot 255 ends
(R179), the tone accumulator and the slot advance (R186), and a flyleaf that follows the slice keeps up (R345). -/
def slotDone (n : Lane) (smp : Byte) (d : Dev) : Dev := (((d.dacSample n smp).slotEnd n).mirrorTx n).stopProgress

/-- With no slice clock left, or none running, the command changes nothing. -/
def SlotClosed (s : State) (n : Lane) (a b : BitVec 544) (smp : Byte) : Prop :=
  ¬ SlotOpen s n → Ends (.transmitLeaf n (a, b) smp) s s.dev.stopProgress

/-- Lane n as its slice clock begins (R597): the clock after a dying gasp has left in a loss of main supply squelches it, log 26's choice of
the clock, the clocks till then count down to it, and any other clock changes nothing. -/
def ClockBegins (d : Dev) (n : Lane) : Prop :=
  let k := (d.link n).gaspLeft
  let e := d.gaspClock n
  (k = 0 ∨ d.slotOpen n = false → e = d) ∧
  (1 < k → d.slotOpen n = true → e = d.modLink n fun l => { l with gaspLeft := k - 1 }) ∧
  (k = 1 → d.slotOpen n = true →
    e.on (F.LANE_TX_STAT_SQUELCHED n) = true ∧ (e.lane n).tx.sqPwr = true ∧ (e.link n).gaspLeft = 0 ∧ e.mem = d.mem)

/-- A data slot before the lane's transmitter starts: host units are taken at the first leaf of a block (R97) and those
that end in the slot are discarded (R79). -/
def SlotUnsent (s : State) (n : Lane) (a b : BitVec 544) (smp : Byte) (i : Nat) : Prop :=
  SlotOpen s n → s.dev.native = true → (s.dev.lane n).tx.start < 2 → slotKind (s.dev.lane n).tx.slot = .data i →
    Ends (.transmitLeaf n (a, b) smp) s
      (slotDone n smp ((if i % 4 = 0 then (s.dev.gaspClock n).takeBlock n a b else s.dev.gaspClock n).endUnits n (i % 4) false))

/-- A marker or pilot slot of a running transmitter: the slot's leaf is sent (R86, R104, R117). -/
def SlotFixed (s : State) (n : Lane) (a b : BitVec 544) (smp : Byte) (k : SlotKind) : Prop :=
  SlotOpen s n → s.dev.native = true → 2 ≤ (s.dev.lane n).tx.start → slotKind (s.dev.lane n).tx.slot = k →
    ((∃ j, k = .marker j) ∨ ∃ m, k = .pilot m) →
      Ends (.transmitLeaf n (a, b) smp) s (slotDone n smp ((s.dev.gaspClock n).sendLeaf n k 0))

/-- A stitch slot of a running transmitter carries what the link sends (R376). -/
def SlotStitch (s : State) (n : Lane) (a b : BitVec 544) (smp : Byte) (w : Nat) : Prop :=
  SlotOpen s n → s.dev.native = true → 2 ≤ (s.dev.lane n).tx.start → slotKind (s.dev.lane n).tx.slot = .stitch w →
    let d := s.dev.gaspClock n
    let r := d.stitchOut n w
    r.2.native = true → SlotOpen { s with dev := r.2 } n → (r.2.lane n).tx = (d.lane n).tx →
      Ends (.transmitLeaf n (a, b) smp) s (slotDone n smp (r.2.sendLeaf n (.stitch w) r.1))

/-- A data slot of a running transmitter: the leaf is sent, `TX_LEAF_OUT` of each of its streams rises unless the output is
squelched or replaced, and the units that end in it are sent or discarded (R76, R79). -/
def SlotData (s : State) (n : Lane) (a b : BitVec 544) (smp : Byte) (i : Nat) : Prop :=
  SlotOpen s n → s.dev.native = true → 2 ≤ (s.dev.lane n).tx.start → slotKind (s.dev.lane n).tx.slot = .data i →
    let d := if i % 4 = 0 then (s.dev.gaspClock n).takeBlock n a b else s.dev.gaspClock n
    let sent := d.sends n
    let d := d.sendLeaf n (.data i) 0
    let d := if sent then d.each (d.laneStreams n) fun k d => d.bump48 (R.MAP_TX_LEAF_OUT_LO k) else d
    Ends (.transmitLeaf n (a, b) smp) s (slotDone n smp (d.endUnits n (i % 4) sent))

/-- A slice clock of a compatibility lane (R122, R123, R193; that a unit is judged in the clock of its last bit, by the lane's
state then, is log 30's choice): its share of the host lane's bits goes, in arrival order, through the inner FEC encoder, whose
288 bits are sent; a codeword unit that ends among them is sent or discarded (R76, R79). -/
def SlotCompat (s : State) (n : Lane) (a b : BitVec 544) (smp : Byte) : Prop :=
  SlotOpen s n → s.dev.native = false →
    let beat := (s.dev.lane n).tx.beat
    let k := compatHostBits (beat + 1) - compatHostBits beat
    let r := (s.dev.gaspClock n).hostBits n 0 (compatHostBits beat % 2 == 1) ((List.range k).map a.getLsbD)
    let sent := r.2.2.sends n
    let d := if (s.dev.lane n).tx.start < 2 then r.2.2
      else
        let d := if (s.dev.lane n).tx.slot = 0 then r.2.2.takeUpTable n else r.2.2
        let x := Config.innerFecEncode (d.lane n).tx.fec r.1
        (d.modTx n fun t => { t with fec := x.1 }).sendBits n ((List.range 288).map x.2.getMsbD)
    let d := if r.2.1.isNone then d else if sent then d.txSent (r.2.2.streamOf n 0)
      else d.txDisc (r.2.2.streamOf n 0) Dev.rLANEDOWN 1
    Ends (.transmitLeaf n (a, b) smp) s (slotDone n smp (d.modTx n fun t => { t with beat := (beat + 1) % 121 }))

/-- The output levels of a slot's codes (R175, R176): level (2c − 255)·V_sw of each, and a hold on the level before it
exactly at a major transition. -/
def LevelsFormed (thresh hold vsw c : Nat) (held : Int) (x : Nat) (xs : List Nat) : Prop :=
  ∃ o r, outputSamples thresh hold vsw c held (x :: xs) = o :: r ∧
    o.code = x ∧ o.prior = c ∧ o.level = (2 * (x : Int) - 255) * vsw ∧ o.held = held ∧
    o.hold = (if thresh < ((x : Int) - c).natAbs then hold else 0) ∧
    r = outputSamples thresh hold vsw x o.level xs ∧ r.length = xs.length

/-- The swing of each code (R178). -/
def SwingScale (code : Nat) : Prop :=
  code < 64 → Dev.swingOf code = 1000 * (if 61 ≤ code then 900 else 300 + 10 * code)

/-- The leaf of a data slot: the block's two shares, scrambled and encoded, the generator carried on (R97 to R100, R126). -/
def DataLeaf (d : Dev) (n : Lane) (i : Nat) (w : BitVec 272) : Prop :=
  d.lvOn (F.LANE_FEC_INJ_EN n) = false →
    let t := (d.lane n).tx
    let r := scramble t.scr (entryShare t.blkA (i % 4) ++ entryShare t.blkB (i % 4))
    d.leafBits n (.data i) w = (innerEncode r.1, d.modTx n fun t => { t with scr := r.2 })

/-- A lane receives: ACTIVE, in RUN with a slice, slices not stopped; native with marker lock, at a slot of its quire. -/
def Receiving (s : State) (n : Lane) (k : SlotKind) : Prop :=
  s.dev.receives n = true ∧ s.dev.ownBoundary n = true ∧ (s.dev.lane n).fr.slot < quireSlots ∧
    slotKind (s.dev.lane n).fr.slot = k

/-- A marker position of a locked lane (R112): the slot is received and judged, and the next slot follows. -/
def MarkerAt (s : State) (n : Lane) (rx : RxLeaf) (j : Nat) : Prop :=
  Receiving s n (.marker j) →
    Ends (.markerReceived n rx) s
      (((((s.dev.receiveSlot n rx none).2.markerInLock n j (s.dev.receiveSlot n rx none).1.bits).nextSlot n)).mirror n)

/-- What a marker position means (R112, R113): in sequence it counts and clears the misses; absent or out of sequence it counts a miss.
The fourth miss in a row ends the lock, which is counted with LANE event 0x11, and acquisition goes back to DD. -/
def MarkerJudged (d : Dev) (n : Lane) (j : Nat) (bits : List Bool) : Prop :=
  let misses := (d.lane n).fr.miss
  let e := d.markerInLock n j bits
  let missed : Prop :=
    e.reg (R.LANE_MK_MISS n) = d.reg (R.LANE_MK_MISS n) + 1 ∧
    (misses < 3 → (e.lane n).fr.miss = misses + 1 ∧ e.on (F.LANE_FMT_STAT_MK_LOCK n) = d.on (F.LANE_FMT_STAT_MK_LOCK n) ∧
      e.raised = d.raised) ∧
    (3 ≤ misses → d.on (F.LANE_FMT_STAT_MK_LOCK n) = true →
      e.on (F.LANE_FMT_STAT_MK_LOCK n) = false ∧ e.reg (R.LANE_LOCK_LOSS n) = d.reg (R.LANE_LOCK_LOSS n) + 1 ∧
      ⟨Blk.lane, 0x11, n⟩ ∈ e.raised ∧ e.acq n = 5)
  d.spLive n = false → d.ownBoundary n = true →
    (∀ strong c, Dev.validMarker bits = some (strong, j, c) → c.lqn = (d.lane n).fr.lqn →
      e.reg (if strong then R.LANE_MK_STRONG n else R.LANE_MK_WEAK n)
        = d.reg (if strong then R.LANE_MK_STRONG n else R.LANE_MK_WEAK n) + 1 ∧
      (e.lane n).fr.miss = 0 ∧ e.fld (F.LANE_FMT_RXQ_RX_LQN n) = c.lqn.toNat ∧
      e.fld (F.LANE_FMT_RXID_RX_SRC n) = c.src.toNat ∧ e.reg (R.LANE_MK_MISS n) = d.reg (R.LANE_MK_MISS n) ∧
      e.raised = d.raised ++ (if c.ver != 1 && !d.on (F.LANE_FMT_STAT_VER_MISMATCH n) then [⟨Blk.lane, 0x12, n⟩] else [])) ∧
    (Dev.validMarker bits = none → missed ∧ e.reg (R.LANE_MK_OOS n) = d.reg (R.LANE_MK_OOS n)) ∧
    (∀ strong i c, Dev.validMarker bits = some (strong, i, c) → (i ≠ j ∨ c.lqn ≠ (d.lane n).fr.lqn) →
      missed ∧ e.reg (R.LANE_MK_OOS n) = d.reg (R.LANE_MK_OOS n) + 1)

/-- A marker position of a native lane without lock (R108, R110): the slot is received, and in state MARKER it is searched. -/
def MarkerSought (s : State) (n : Lane) (rx : RxLeaf) : Prop :=
  s.dev.receives n = true → s.dev.native = true → s.dev.ownBoundary n = false →
    let r := s.dev.freeSlot n rx
    Ends (.markerReceived n rx) s (((if r.2.acq n = 6 then r.2.markerSearch n r.1 else r.2).oppTimeout n).mirror n)

/-- What a valid marker means without lock (R110, R111): a strong one, or one that follows on a valid one 2,056 slots before it, locks
the lane, with LANE event 0x10: it stands at slot 256 + 2,056j of the quire its LQN numbers, and RX_LANE and the descrambler are taken from
it. A weak one alone is only kept. -/
def MarkerFound (d : Dev) (n : Lane) (o : SlotOut) (strong : Bool) (j : Nat) (c : MarkerContent) : Prop :=
  let after := (d.lane n).rx.cand.any fun p => p.2.2 == 2056 && Dev.followsOn p.1 p.2.1 j c
  let e := d.markerSearch n o
  let slot := 256 + 2056 * j
  Dev.validMarker o.bits = some (strong, j, c) → d.on (F.LANE_FMT_STAT_MK_LOCK n) = false →
    (strong = true ∨ after = true →
      e.on (F.LANE_FMT_STAT_MK_LOCK n) = true ∧ (e.lane n).fr.slot = slot + 1 ∧ (e.lane n).fr.lqn = c.lqn ∧
      e.fld (F.LANE_FMT_STAT_RX_LANE n) = c.lane.toNat ∧ (e.lane n).fr.miss = 0 ∧
      (e.lane n).fr.scr = scramblerJump (272 * scrambledBefore slot) (scramblerSeed c.lane.toNat c.lqn) ∧
      e.reg (if strong then R.LANE_MK_STRONG n else R.LANE_MK_WEAK n)
        = d.reg (if strong then R.LANE_MK_STRONG n else R.LANE_MK_WEAK n) + 1 ∧ ⟨Blk.lane, 0x10, n⟩ ∈ e.raised) ∧
    (strong = false → after = false →
      e.on (F.LANE_FMT_STAT_MK_LOCK n) = false ∧ (e.lane n).rx.cand = (j, c.lqn, 0) :: (d.lane n).rx.cand ∧
      (e.lane n).fr = (d.lane n).fr)

/-- A pilot slot of a locked lane (R118): the known symbols are compared, 144 more are counted, and the errors among
them. -/
def PilotAt (s : State) (n : Lane) (rx : RxLeaf) (m : Nat) : Prop :=
  Receiving s n (.pilot m) →
    let known := leafSymbols (pilotLeaf m)
    let r := (s.dev.pilotStart n).receiveSlot n rx (some known)
    let errs := (((leafSymbols r.1.bits).zip known).filter fun p => p.1 != p.2).length
    Ends (.pilotLeafReceived n rx) s
      ((((r.2.bump48By (R.LANE_PILOT_SYM_LO n) 144).bump48By (R.LANE_PILOT_ERR_LO n) errs).nextSlot n).mirror n)

/-- A data slot of a locked lane: the leaf is decoded in the mode in force and descrambled, and its payload, errored or not, is
passed on (R99, R142, R143). -/
def LeafAt (s : State) (n : Lane) (rx : RxLeaf) (i : Nat) : Prop :=
  Receiving s n (.data i) →
    let r := s.dev.receiveSlot n rx none
    let x := innerDecode (r.2.lane n).fr.mode r.1.bits r.1.rel
    let p := scramble (r.2.lane n).fr.scr x.bits
    let d := (r.2.modFr n fun q => { q with scr := p.2 }).decodeEvents n (r.2.lane n).fr.mode x
    Ends (.leafDecode n rx) s (((d.leafOut n (s.dev.lane n).fr.slot p.1 x).nextSlot n).mirror n)

/-- What becomes of a decoded data leaf (R77, R146, R150, R302): where the lane delivers it is counted by the decoder and joins its
block; before qualification the ledger of each stream discards it under PREQUAL. An uncorrectable one, counted or not, is an event of
class 1. -/
def LeafPassed (d : Dev) (n : Lane) (slot i : Nat) (p : List Bool) (x : Decoded) : Prop :=
  let charged (e : Dev) : Dev :=
    if x.bad then e.charge 1 n fun e => (e.setOn (F.LANE_DEC_STAT_DEGRADED n) true).raise Blk.lane 0x20 n else e
  slotKind slot = .data i → d.awaitsJudge n = false →
    (d.deliverLock n = true → d.leafOut n slot p x = (charged (d.countDecode n x false)).dataLeaf n i p) ∧
    (d.deliverLock n = false → d.leafOut n slot p x =
      ((charged d).each (d.laneStreams n) Dev.rxIn).each (d.laneStreams n) fun s d => d.rxDisc s Dev.rPREQUAL 1)

/-- The decoder's counters for one leaf (R147, R148): every leaf in `DEC_LEAVES` and in exactly one of `DEC_CLEAN`, the bin of the bits
changed and `DEC_UNCORR`; a corrected one whose candidate has another pattern than 0 in `DEC_CHASE` too; each candidate refused in
`DEC_CRCREJ`; an uncorrectable stitch leaf in `STITCH_UNCORR` too. -/
def LeafCounted (d : Dev) (n : Lane) (x : Decoded) (stitch : Bool) : Prop :=
  let e := d.countDecode n x stitch
  let rose (a k : Nat) : Prop := e.count48 a = (d.count48 a + k) % 2 ^ 48
  rose (R.LANE_DEC_LEAVES_LO n) 1 ∧ rose (R.LANE_DEC_CLEAN_LO n) (!x.bad && x.change == 0).toNat ∧
  (∀ k, 1 ≤ k → k ≤ 5 → rose (R.LANE_COR_BIN_LO n k) (!x.bad && x.change != 0 && min 5 x.change == k).toNat) ∧
  rose (R.LANE_DEC_UNCORR_LO n) x.bad.toNat ∧ rose (R.LANE_DEC_CHASE_LO n) (!x.bad && x.pat != 0).toNat ∧
  rose (R.LANE_DEC_CRCREJ_LO n) x.rej ∧
  e.reg (R.LANE_STITCH_UNCORR n) = d.reg (R.LANE_STITCH_UNCORR n) + (if x.bad && stitch then 1 else 0) ∧
  e.raised = d.raised ∧ e.rest = d.rest

/-- A queue fault in RUN (R173): the lane is squelched, `Q_FAULT` reads 1, the fault is counted with LANE event 0x30; the queue
holds 576 codes at most (R172). -/
def QueueFaulted (s : State) (n : Lane) (c : QueueCause) : Prop :=
  Dev.isQueueFault c = true → s.dev.inRun n = true → Dev.queueFaultHeld (s.dev.lane n).tx c = false →
    s.dev.on (F.LANE_TX_STAT_SQUELCHED n) = true →
    Yields (.queueFault n c) s
      ((((s.dev.modTx n fun t =>
          { t with sqQueue := true, qStage := 1, pllLost := t.pllLost || c == .pllLost,
                   fill := match c with | .fill k => min 576 k | .pllLost => t.fill }).setOn
        (F.LANE_TX_STAT_Q_FAULT n) true).setOn (F.LANE_TX_STAT_SQ_HW n) true).bump (R.LANE_TX_QFLT n))
      [R.LANE_TX_STAT n, R.LANE_TX_QFLT n] [(Blk.lane, 0x30, n)]

/-- A queue fault of a lane that was not squelched also sets `SQUELCHED` and clears the output (R173, R182). -/
def QueueSquelched (s : State) (n : Lane) (c : QueueCause) : Prop :=
  Dev.isQueueFault c = true → s.dev.inRun n = true → s.dev.on (F.LANE_TX_STAT_SQUELCHED n) = false →
    Answers (.queueFault n c) s fun t =>
      t.dev.on (F.LANE_TX_STAT_Q_FAULT n) = true ∧ t.dev.on (F.LANE_TX_STAT_SQUELCHED n) = true ∧
      (t.dev.lane n).tx.out = [] ∧ (t.dev.lane n).tx.last = 128 ∧ t.dev.mem = s.dev.mem ∧ t.pending = s.pending

/-- A fill within its bounds, or a lane not in RUN: no fault, and nothing changes (R173). -/
def QueueSound (s : State) (n : Lane) (c : QueueCause) : Prop :=
  Dev.isQueueFault c = false ∨ s.dev.inRun n = false → Ends (.queueFault n c) s s.dev

/-- The swing move ends (R179): the live code's swing is in force and `SWING_BUSY` reads 0. -/
def SwingDone (s : State) (n : Lane) : Prop :=
  Yields (.swingMoveDone n) s
    ((s.dev.modTx n fun t => { t with vsw := Dev.swingOf (s.dev.lv (F.LANE_TX_CFG_SWING n)) }).setOn
      (F.LANE_TX_STAT_SWING_BUSY n) false) [R.LANE_TX_STAT n] []

/-- Step 2 of the transmitter's start at leaf slot 0 (R184): `TX_RUN` reads 1, the line quire number is the device's,
and the symbol history starts afresh, with the sample queue empty (step 3); then the tone loads and a foreground run is
requested. -/
def TransmitterStarts (s : State) (n : Lane) : Prop :=
  (s.dev.lane n).tx.start = 1 → (s.dev.lane n).tx.slot = 0 → s.dev.inRun n = true → s.dev.domOn (.lfe n) = true →
    s.dev.on F.CLK_STAT_TICK_RUN = true →
    Ends (.transmitterStart n) s
      ((((((s.dev.modTx n fun t =>
          { t with start := 2, y := 0, hist := [], prev := none, endA := none, endB := none, queue := [], fill := 0, fec := 0 }).setFld
        (F.LANE_FMT_TXQ_LQN n) (s.dev.clk.qnum.toNat % 2 ^ 24)).setOn (F.LANE_TX_STAT_TX_RUN n) true).loadTone n)).calForeground
        n true)

/-- Where no start is in progress at slot 0, the command changes nothing (R184). -/
def TransmitterWaits (s : State) (n : Lane) : Prop :=
  (s.dev.lane n).tx.start ≠ 1 ∨ (s.dev.lane n).tx.slot ≠ 0 → Ends (.transmitterStart n) s s.dev

/-- The sample queue (R172): it fills to 288 codes, two slots' worth, before the mux takes any; then as each slot's codes
enter, the oldest slot's leave it. -/
def QueueFills (d : Dev) (n : Lane) (a b c : QSlot) (r : List QSlot) : Prop :=
  ((d.lane n).tx.queue = [] →
    d.queueCodes n c = d.modTx n fun t => { t with queue := [c], fill := t.fill + 144 }) ∧
  ((d.lane n).tx.queue = [a] →
    d.queueCodes n c = d.modTx n fun t => { t with queue := [a, c], fill := t.fill + 144 }) ∧
  ((d.lane n).tx.queue = a :: b :: r →
    d.queueCodes n c = (d.modTx n fun t => { t with queue := b :: r ++ [c] }).driveOut n a)

/-- A compatibility lane's inner-sublayer lock (R123): gained, acquisition leaves MARKER and its windows begin again at an internal
boundary; lost, the leaves in flight are
discarded under NO_LOCK, and a lane beyond MARKER goes back to DD (R113, R278). -/
def CompatLocked (s : State) (n : Lane) : Prop :=
  s.dev.native = false → s.dev.receives n = true →
    let lost := (((((s.dev.modRx n fun r => { r with pmdLock := false }).discardInFlight n Dev.rNOLOCK).calRxChange n).capLockLost
        n).updateStreams).hostSignals
    ((s.dev.lane n).rx.pmdLock = false →
      Ends (.compatLaneLock n true) s
        (((((((s.dev.modRx n fun r => { r with pmdLock := true }).modMs n fun m => { m with whole := false }).dropWindow n).markerExit n
          ).updateStreams).hostSignals))) ∧
    ((s.dev.lane n).rx.pmdLock = true →
      Ends (.compatLaneLock n false) s (if 7 ≤ lost.acq n then lost.setAcq n 5 else lost)) ∧
    Ends (.compatLaneLock n (s.dev.lane n).rx.pmdLock) s s.dev

/-- A native lane has no inner FEC sublayer (R122): the command changes nothing. -/
def CompatNone (s : State) (n : Lane) (gained : Bool) : Prop :=
  s.dev.native = true → Ends (.compatLaneLock n gained) s s.dev

/-! ### Acquisition, adaptation and the relock machine (chapters 7 and 8) -/

/-- The device at the end of an AGC window: it is counted as a slice event, `AGC_SAT` clears where the rms lies within the band,
and the sums start again (R251, R253). -/
def agcJudged (n : Lane) (d : Dev) : Dev :=
  let m := (d.lane n).ms
  ((d.laneEvent n 7 1).when (d.agcBand n m.agcSS (144 * m.agcN)) (Dev.setOn (F.LANE_EQ_STAT_AGC_SAT n) false)).modMs n fun m =>
    { m with agcSS := 0, agcN := 0, agcClip := 0, agcMoved := false, agcEnd := false }

/-- An AGC window waits for its judgement outside the AGC state (R251). -/
def AgcReady (s : State) (n : Lane) (moved : Bool) : Prop :=
  (s.dev.lane n).ms.agcEnd = true ∧ (s.dev.lane n).ms.agcMoved = moved ∧ 3 ≤ s.dev.acq n ∧
    s.dev.lvOn (F.LANE_RX_AFE_AGC_EN n) = true

/-- The window lies below LO; above HI or over the clip bound (R250, R251). -/
def agcLow (d : Dev) (n : Lane) : Bool := d.agcBelow n (d.lane n).ms.agcSS (144 * (d.lane n).ms.agcN)

def agcHigh (d : Dev) (n : Lane) : Bool :=
  d.agcAbove n (d.lane n).ms.agcSS (144 * (d.lane n).ms.agcN) ||
    decide (2 ^ d.lv (F.LANE_AGC_CFG_CLIPX n) < (d.lane n).ms.agcClip)

/-- An AGC window that counts neither up nor down (R251, R253): its sums start again, both run counts return to 0 and
`AGC_SAT` clears. -/
def AgcHolds (s : State) (n : Lane) : Prop :=
  AgcReady s n false → agcLow s.dev n = false → agcHigh s.dev n = false →
    Ends (.agcWindowEnd n) s
      ((((s.dev.laneEvent n 7 1).setOn (F.LANE_EQ_STAT_AGC_SAT n) false).modMs n fun m =>
        { m with agcSS := 0, agcN := 0, agcClip := 0, agcMoved := false, agcEnd := false }).modAd n fun a =>
          { a with agcUp := 0, agcDn := 0 })

/-- The two run counts (R251): each counts the windows in a row that ask for its direction, a window that asks for both counting
in both; UP_Q windows below, or DN_Q above or clipped, ask for a step. That a window which completes both runs asks for no step
is the model's choice (log 39). -/
def AgcCounted (s : State) (n : Lane) : Prop :=
  AgcReady s n false →
    let low := agcLow s.dev n
    let high := agcHigh s.dev n
    let up := if low then (s.dev.lane n).ad.agcUp + 1 else 0
    let dn := if high then (s.dev.lane n).ad.agcDn + 1 else 0
    let upDue := decide (max 1 (s.dev.lv (F.LANE_AGC_CFG_UP_Q n)) ≤ up)
    let dnDue := decide (max 1 (s.dev.lv (F.LANE_AGC_CFG_DN_Q n)) ≤ dn)
    let d := (agcJudged n s.dev).modAd n fun a => { a with agcUp := up, agcDn := dn }
    (upDue = false → dnDue = false → Ends (.agcWindowEnd n) s d) ∧
    (upDue = true → dnDue = false → Ends (.agcWindowEnd n) s (d.agcStep n 1)) ∧
    (upDue = false → dnDue = true → Ends (.agcWindowEnd n) s (d.agcStep n (-1))) ∧
    (upDue = true → dnDue = true →
      Ends (.agcWindowEnd n) s ((agcJudged n s.dev).modAd n fun a => { a with agcUp := 0, agcDn := 0 }))

/-- An AGC window in which a gain step fell counts toward no run (R251). -/
def AgcMoved (s : State) (n : Lane) : Prop := AgcReady s n true → Ends (.agcWindowEnd n) s (agcJudged n s.dev)

/-- The AGC step of a lane with marker lock waits for the next pilot slot, and `STEP_PEND` reads 1; at the end of the range
`AGC_SAT` reads 1 instead (R200, R253). -/
def AgcStepped (d : Dev) (n : Lane) (up : Bool) : Prop :=
  let ask : Int := if up then 1 else -1
  let e := d.agcStep n ask
  (d.agcStuck n ask = true → e.on (F.LANE_EQ_STAT_AGC_SAT n) = true ∧ e.gain n = d.gain n) ∧
  (d.agcStuck n ask = false → d.ownBoundary n = true →
    (e.lane n).rx.gainNext = some ((d.gain n : Int) + ask).toNat ∧ e.on (F.LANE_RX_AFE_STAT_STEP_PEND n) = true ∧
    e.gain n = d.gain n) ∧ e.mem = d.mem ∧ e.raised = d.raised

/-- An acquisition window (R266): its mean e² is shown in `EQ_MSE`; BLIND passes to DD and DD to MARKER below their
thresholds, any other window of those states only starts the next one. -/
def AcqWindowed (s : State) (n : Lane) : Prop :=
  let m := (s.dev.lane n).ms
  s.dev.hasSignal n = true → s.dev.windowLen n ≤ m.winSlots →
    let d := s.dev.setFld (F.LANE_EQ_MSE_MSE n) (mseField m)
    (s.dev.acq n = 2 → Ends (.acqWindowEnd n) s ((d.agcStateWindow n).clearWindow n)) ∧
    (s.dev.acq n = 3 → Ends (.acqWindowEnd n) s ((d.timingWindow n m.winSteps).clearWindow n)) ∧
    (s.dev.acq n = 4 → mseBelow m (s.dev.lv (F.LANE_ACQ_CFG_MSE_DD n)) = true →
      Ends (.acqWindowEnd n) s ((d.setAcq n 5).clearWindow n)) ∧
    (s.dev.acq n = 5 → mseBelow m (s.dev.lv (F.LANE_ACQ_CFG_MSE_LK n)) = true →
      Ends (.acqWindowEnd n) s (((d.setAcq n 6).sublayerExit n).clearWindow n)) ∧
    (s.dev.acq n = 4 → mseBelow m (s.dev.lv (F.LANE_ACQ_CFG_MSE_DD n)) = false → Ends (.acqWindowEnd n) s (d.clearWindow n)) ∧
    (s.dev.acq n = 5 → mseBelow m (s.dev.lv (F.LANE_ACQ_CFG_MSE_LK n)) = false → Ends (.acqWindowEnd n) s (d.clearWindow n)) ∧
    (6 ≤ s.dev.acq n → Ends (.acqWindowEnd n) s (d.clearWindow n))

/-- Signal detect (R199, R238, R266, R269): the exit from SIG_DET is counted with LANE event 0x60, MAIN is taken for the acquisition and its
times begin, the preset or the cold defaults are loaded, and the AGC begins. -/
def SignalDetected (s : State) (n : Lane) : Prop :=
  s.dev.acq n = 1 → s.dev.spLive n = false → 16 ≤ (s.dev.lane n).ms.above →
    Ends (.signalDetect n) s
      ((((((s.dev.bump (R.LANE_ACQ_START n)).raise Blk.lane 0x60 n).modRx n fun r =>
        { r with main := min 47 (s.dev.lv (F.LANE_EQ_CFG_MAIN n)), tSig := 0, tAgc := 0 }).startLoad n)).enterAgc n)

/-- Signal loss (R267): counted with LANE event 0x63, and the lane goes to SIG_DET, its lock dropped. -/
def SignalLost (s : State) (n : Lane) : Prop :=
  2 ≤ s.dev.acq n → s.dev.spLive n = false → 16 ≤ (s.dev.lane n).ms.below →
    Ends (.signalLoss n) s ((((s.dev.bump (R.LANE_SIG_LOSS n)).raise Blk.lane 0x63 n).calRxChange n).toSigDet n)

/-- Signal detect or loss before its 16 blocks changes nothing (R266, R267). -/
def SignalWaits (s : State) (n : Lane) : Prop :=
  ((s.dev.lane n).ms.above < 16 → Yields (.signalDetect n) s s.dev [] []) ∧
  ((s.dev.lane n).ms.below < 16 → Yields (.signalLoss n) s s.dev [] [])

/-- The state of acquisition after an entry (R266): `ACQ` holds it, `SIG` says whether the signal is present. -/
def AcqEntered (d : Dev) (n : Lane) (st : Nat) : Prop :=
  st < 10 → d.acq n ≠ 10 →
    let e := d.setAcq n st
    e.acq n = st ∧ e.on (F.LANE_EQ_STAT_SIG n) = decide (2 ≤ st) ∧
    e.on (F.LANE_EQ_STAT_TIM_LOCK n) = decide (3 < st) ∧ e.mem = d.mem ∧ e.raised = d.raised

/-- A state that exceeds its bound (R268, R738): counted and charged, lock dropped, the cold defaults loaded, and the AGC entered
again; CAL_WAIT passes to DATA instead. That WARM is 0 then is the model's reading (DEDUCED, log 26). -/
def AcqTimedOut (s : State) (n : Lane) (b : Nat) : Prop :=
  (s.dev.acq n ≠ 9 → s.dev.acqBound n = some b → b < (s.dev.lane n).rx.tState →
    Ends (.acqTimeout n) s
      ((((((((s.dev.countTimeout n).dropLock n Dev.rNOLOCK).relockLost n).lockShown n).loadCold n).setOn (F.LANE_EQ_STAT_WARM n) false).enterAgc n))) ∧
  (s.dev.acq n = 9 → s.dev.quiresOf 4768 < (s.dev.lane n).rx.tAgc →
    Ends (.acqTimeout n) s ((s.dev.countTimeout n).setAcq n 10))

/-- A warm DD that exceeds its bound falls back to BLIND on the cold taps with LANE event 0x66; timing is kept (R273). -/
def WarmFellBack (s : State) (n : Lane) : Prop :=
  s.dev.acq n = 5 → s.dev.on (F.LANE_EQ_STAT_WARM n) = true → (s.dev.lane n).rx.hit = false →
    s.dev.quiresOf (if s.dev.spLive n then 12 else 32) < (s.dev.lane n).rx.tState →
    Ends (.warmFallback n) s
      ((((s.dev.loadColdTaps n).setOn (F.LANE_EQ_STAT_WARM n) false).raise Blk.lane 0x66 n).setAcq n 4)

/-- The end of an update interval (R257, R258): with marker lock, at the first symbol of a pilot slot; without it, the slot
is received and may end the block. -/
def IntervalEnded (s : State) (n : Lane) (rx : RxLeaf) (m : Nat) : Prop :=
  (Receiving s n (.pilot m) → Ends (.updateIntervalEnd n rx) s (s.dev.intervalEnd n)) ∧
  (s.dev.receives n = true → s.dev.ownBoundary n = false →
    Ends (.updateIntervalEnd n rx) s ((s.dev.freeSlot n rx).2.mirror n))

/-- The three commands that are a write of `LANE.EQ_CTRLn`. -/
def eqCtrlWrites (m : Master) (n : Lane) (v : Word) : List Instr := [.reacq m n v, .save m n v, .eqFreezeWrite m n v]

/-- The device once a write of `LANE.EQ_CTRLn` has set FREEZE and PRE_VALID, and `FROZEN` follows (R261). -/
def eqCtrlStored (n : Lane) (v : Word) (d : Dev) : Dev :=
  (d.setReg (R.LANE_EQ_CTRL n) (wordWritten d (R.LANE_EQ_CTRL n) 0x102 v)).showFrozen n

/-- A write of `LANE.EQ_CTRLn` with neither trigger stores FREEZE and PRE_VALID (R261); SAVE in DATA makes `SAVE_BUSY` read 1
and is ignored elsewhere (R274); REACQ sends a lane that acquires or carries data to SIG_DET as a signal loss would, and a
shadow of it ends (R276, R329, R359); for a lane in SWITCH it waits for Rs (R361). Where both are written, SAVE is taken first
(DESIGN CHOICE, log 17). -/
def EqCtrlWritten (s : State) (m : Master) (n : Lane) (v : Word) : Prop :=
  Reaches s m (R.LANE_EQ_CTRL n) → ∀ c ∈ eqCtrlWrites m n v,
    (v.getLsbD 4 = false → v.getLsbD 0 = false →
      Ends c s (onBus (R.LANE_EQ_CTRL n) (eqCtrlStored n v) s.dev)) ∧
    (v.getLsbD 4 = true → v.getLsbD 0 = false → s.dev.inData n = true →
      Ends c s (onBus (R.LANE_EQ_CTRL n) (fun d => (eqCtrlStored n v d).setOn (F.LANE_EQ_STAT_SAVE_BUSY n) true) s.dev)) ∧
    (v.getLsbD 4 = true → v.getLsbD 0 = false → s.dev.inData n = false →
      Ends c s (onBus (R.LANE_EQ_CTRL n) (eqCtrlStored n v) s.dev)) ∧
    (v.getLsbD 4 = true → v.getLsbD 0 = true → s.dev.inData n = true → s.dev.inRun n = true → s.dev.swapping n = false →
      Ends c s (onBus (R.LANE_EQ_CTRL n) (fun d =>
        (((((eqCtrlStored n v d).setOn (F.LANE_EQ_STAT_SAVE_BUSY n) true).endShadowOf n 4).calRxChange n).toSigDet n)) s.dev)) ∧
    (v.getLsbD 4 = true → v.getLsbD 0 = true → s.dev.inData n = true → s.dev.inRun n = true → s.dev.swapping n = true →
      Ends c s (onBus (R.LANE_EQ_CTRL n) (fun d =>
        ((eqCtrlStored n v d).setOn (F.LANE_EQ_STAT_SAVE_BUSY n) true).afterSwap .reacq) s.dev)) ∧
    (v.getLsbD 0 = true → (v.getLsbD 4 = true → s.dev.inData n = false) → (s.dev.inRun n = false ∨ s.dev.acq n = 0) →
      Ends c s (onBus (R.LANE_EQ_CTRL n) (eqCtrlStored n v) s.dev)) ∧
    ((v.getLsbD 4 = true → s.dev.inData n = false) → v.getLsbD 0 = true → s.dev.inRun n = true → s.dev.acq n ≠ 0 → s.dev.swapping n = false →
      Ends c s (onBus (R.LANE_EQ_CTRL n) (fun d => (((eqCtrlStored n v d).endShadowOf n 4).calRxChange n).toSigDet n) s.dev)) ∧
    ((v.getLsbD 4 = true → s.dev.inData n = false) → v.getLsbD 0 = true → s.dev.inRun n = true → s.dev.acq n ≠ 0 → s.dev.swapping n = true →
      Ends c s (onBus (R.LANE_EQ_CTRL n) (fun d => (eqCtrlStored n v d).afterSwap .reacq) s.dev))

/-- A write of `LANE.RX_PHCFGn` sets its shadow only: the live value waits for a press (R206, R517). -/
def PhcfgWritten (s : State) (m : Master) (n : Lane) (v : Word) : Prop :=
  Reaches s m (R.LANE_RX_PHCFG n) →
    Yields (.interpFreezeWrite m n v) s
      (onBus (R.LANE_RX_PHCFG n) (fun d => d.setReg (R.LANE_RX_PHCFG n) (wordWritten d (R.LANE_RX_PHCFG n) 0x13F v)) s.dev)
      [R.LANE_RX_PHCFG n] []

/-- The device knows that `BRL.NEXTn` was written after the marker that awaits its subwindow's end (R299, R306). -/
def nextSeen (b : BrlSt) : Option Judge := b.judge.map fun j => { j with next := true }

/-- A write of `BRL.NEXTn` (R289, R290): VALID 1 starts a lookup of SRC, VALID 0 stages nothing. -/
def NextWritten (s : State) (m : Master) (n : Lane) (v : Word) : Prop :=
  Reaches s m (R.BRL_NEXT n) →
    (v.getLsbD 16 = true →
      Yields (.brlNextWrite m n v) s
        (onBus (R.BRL_NEXT n) (fun d => (d.setReg (R.BRL_NEXT n) (wordWritten d (R.BRL_NEXT n) 0x3FFFF v)).modBrl n fun b =>
          { b with judge := nextSeen b, lookup := some (v.setWidth 16) }) s.dev) [R.BRL_NEXT n] []) ∧
    (v.getLsbD 16 = false →
      Yields (.brlNextWrite m n v) s
        (onBus (R.BRL_NEXT n) (fun d => ((d.setReg (R.BRL_NEXT n) (wordWritten d (R.BRL_NEXT n) 0x3FFFF v)).setOn
          (F.BRL_STAT_STAGED n) false).modBrl n fun b => { b with judge := nextSeen b, lookup := none }) s.dev)
        [R.BRL_NEXT n, R.BRL_STAT n] [])

/-- The lookup of an announced source (R289): a valid entry with that source is staged, and `HIT_IDX` names it; without
one nothing is staged. -/
def LookupDone (s : State) (n : Lane) (src : BitVec 16) : Prop :=
  (s.dev.lane n).brl.lookup = some src →
    (∀ i, (List.range 64).find? (fun i => ribbonValid (s.dev.ribbonEntry n i) && ribbonSrc (s.dev.ribbonEntry n i) == src.toNat)
        = some i →
      Yields (.ribbonLookupDone n) s
        (((s.dev.modBrl n fun b => { b with lookup := none, staged := s.dev.ribbonEntry n i }).setOn (F.BRL_STAT_STAGED n)
          true).setFld (F.BRL_STAT_HIT_IDX n) i) [R.BRL_STAT n] []) ∧
    ((List.range 64).find? (fun i => ribbonValid (s.dev.ribbonEntry n i) && ribbonSrc (s.dev.ribbonEntry n i) == src.toNat)
        = none →
      Yields (.ribbonLookupDone n) s
        ((s.dev.modBrl n fun b => { b with lookup := none }).setOn (F.BRL_STAT_STAGED n) false) [R.BRL_STAT n] [])

/-- The runs of dark and of strong subwindows after one of level l (R285, R303). -/
def subwindowCounted (n : Lane) (l : Int) (d : Dev) : Dev :=
  d.modBrl n fun b =>
    { b with dark := if l < d.slv (F.BRL_CFG_DET_LVL n) - 24 then b.dark + 1 else 0,
             strong := if d.sfld (F.BRL_STAT_LREF n) + 24 ≤ l then b.strong + 1 else 0,
             stronger := if d.sfld (F.BRL_STAT_LREF n) + 48 ≤ l then b.stronger + 1 else 0 }

/-- A subwindow in DARK (R284): below `DET_LVL` the state stays; at or above it, LIGHT's count begins. -/
def SubwindowDark (s : State) (n : Lane) (front : List (Nat × Nat)) : Prop :=
  s.dev.receives n = true → s.dev.spLive n = true → s.dev.brlState n = 1 →
    let l := s.dev.windowLevel n front
    let d := subwindowCounted n l s.dev
    (l < s.dev.slv (F.BRL_CFG_DET_LVL n) → Yields (.subwindowEnd n front) s d [] []) ∧
    (s.dev.slv (F.BRL_CFG_DET_LVL n) ≤ l →
      Yields (.subwindowEnd n front) s ((d.setFld (F.BRL_STAT_STATE n) 2).modBrl n fun b => { b with above := 1 }) [R.BRL_STAT n] [])

/-- A subwindow of a qualified lane (R285, R303, R306): the fourth dark one in a row is darkness, the fourth strong one a
collision; else the subwindow's marker is judged, and without one the counts go on. -/
def SubwindowQual (s : State) (n : Lane) (front : List (Nat × Nat)) : Prop :=
  s.dev.receives n = true → s.dev.spLive n = true → s.dev.brlState n = 6 →
    let l := s.dev.windowLevel n front
    let b := (s.dev.lane n).brl
    let dark := if l < s.dev.slv (F.BRL_CFG_DET_LVL n) - 24 then b.dark + 1 else 0
    let strong := if s.dev.sfld (F.BRL_STAT_LREF n) + 48 ≤ l then b.stronger + 1 else 0
    let d := subwindowCounted n l s.dev
    (4 ≤ dark → Ends (.subwindowEnd n front) s (d.darkness n)) ∧
    (dark < 4 → 4 ≤ strong → Ends (.subwindowEnd n front) s (d.collision n front)) ∧
    (dark < 4 → strong < 4 → b.judge.isSome = true → Ends (.subwindowEnd n front) s (d.collision n front)) ∧
    (dark < 4 → strong < 4 → b.judge = none → Yields (.subwindowEnd n front) s d [] [])

/-- A subwindow of a lane that relocks and is not qualified (R285, R303, R306): the fourth dark one in a row is darkness, the
fourth strong one a restart; else a marker that qualifies does so now, and one that does not is a source mismatch, with BRL
event 0x72. -/
def SubwindowUnqual (s : State) (n : Lane) (front : List (Nat × Nat)) : Prop :=
  s.dev.receives n = true → s.dev.spLive n = true → 3 ≤ s.dev.brlState n → s.dev.brlState n ≠ 6 →
    let l := s.dev.windowLevel n front
    let b := (s.dev.lane n).brl
    let dark := if l < s.dev.slv (F.BRL_CFG_DET_LVL n) - 24 then b.dark + 1 else 0
    let strong := if s.dev.sfld (F.BRL_STAT_LREF n) + 24 ≤ l then b.strong + 1 else 0
    let d := subwindowCounted n l s.dev
    (4 ≤ dark → Ends (.subwindowEnd n front) s (d.darkness n)) ∧
    (dark < 4 → 4 ≤ strong → Ends (.subwindowEnd n front) s (d.restart n front)) ∧
    (dark < 4 → strong < 4 → b.judge = none → Yields (.subwindowEnd n front) s d [] []) ∧
    (dark < 4 → strong < 4 → ∀ j, b.judge = some j → j.qual = true →
      Ends (.subwindowEnd n front) s ((d.modBrl n fun b => { b with judge := none }).qualify n j)) ∧
    (dark < 4 → strong < 4 → ∀ j, b.judge = some j → j.qual = false →
      Ends (.subwindowEnd n front) s ((((d.releaseHeld n).setBrl n 5).bump (R.BRL_SRC_MIS n)).raise Blk.brl 0x72 n))

/-- Load of the preset (R291 to R293): a staged entry is loaded, counted as a hit, and acquisition goes to DD; without one
the default start is counted as a miss. -/
def PresetLoaded (s : State) (n : Lane) : Prop :=
  s.dev.spLive n = true → s.dev.brlState n = 3 → (s.dev.lane n).brl.lookup = none →
    (s.dev.on (F.BRL_STAT_STAGED n) = true →
      Ends (.presetLoad n) s
        ((((((s.dev.loadRibbon n (s.dev.lane n).brl.staged).bump (R.BRL_HIT n)).setBrl n 4)).setAcq n 5).modRx n fun r =>
          { r with hit := true })) ∧
    (s.dev.on (F.BRL_STAT_STAGED n) = false →
      Ends (.presetLoad n) s ((((s.dev.bump (R.BRL_MISS n)).setBrl n 4).startLoad n).enterAgc n))

/-- The hit path's DD exceeds 514 slots (R294): counted with BRL event 0x76, and the default start follows. -/
def RibbonFellBack (s : State) (n : Lane) : Prop :=
  s.dev.spLive n = true → s.dev.acq n = 5 → (s.dev.lane n).rx.hit = true → 514 < (s.dev.lane n).rx.tState →
    Ends (.ribbonFallback n) s ((((s.dev.bump (R.BRL_FALLBACK n)).raise Blk.brl 0x76 n).startLoad n).enterAgc n)

/-! ### Receive sampling, capture and calibration (chapters 6 and 9) -/

/-- A rotation step that is due (R215, R216): the count of quires starts again, each core's match is judged, and
`ROT_BUSY` follows. -/
def RotationStepped (s : State) (n : Lane) (m0 m1 : MatchSums) : Prop :=
  s.dev.lv (F.LANE_ADC_CFG_ROT_Q n) ≠ 0 → s.dev.lv (F.LANE_ADC_CFG_ROT_Q n) ≤ (s.dev.lane n).rx.rotQ →
    Ends (.rotationStepDue n m0 m1) s
      ((((s.dev.modRx n fun r => { r with rotQ := 0 }).rotationCore n 0 m0).rotationCore n 1 m1).rotBusy n)

/-- The match of a core whose rotation runs (R216): a matching unit waits for its switch; nothing else of the lane
changes. -/
def CoreMatched (d : Dev) (n : Lane) (c : Fin 2) (m : MatchSums) : Prop :=
  let k := d.core n c
  d.on (rstop n c) = false → k.ok = false → k.chk = false → k.rep = [] → k.bad = false → matches_ m = true →
    d.rotationCore n c m = d.setCore n c { k with ok := true }

/-- The switch of a lane without its own boundary, and of a locked one at a pilot slot (R212, R216); a locked lane waits for
its pilot slot. -/
def RotationSwitched (s : State) (n : Lane) : Prop :=
  (s.dev.ownBoundary n = false → Ends (.rotationSwitch n) s (((s.dev.switchCore n 0).switchCore n 1).rotBusy n)) ∧
  (∀ m, slotKind (s.dev.lane n).fr.slot = .pilot m →
    Ends (.rotationSwitch n) s (((s.dev.switchCore n 0).switchCore n 1).rotBusy n)) ∧
  (s.dev.ownBoundary n = true → (∀ m, slotKind (s.dev.lane n).fr.slot ≠ .pilot m) →
    Yields (.rotationSwitch n) s s.dev [] [])

/-- A core's switch (R216): the calibration unit takes the target position, the unit there becomes the calibration unit and
is checked next, and `ADC_ROT` counts, which is once for each core (DESIGN CHOICE, log 40). -/
def CoreSwitched (d : Dev) (n : Lane) (c : Fin 2) : Prop :=
  let k := d.core n c
  k.ok = true → k.rep = [] →
    d.switchCore n c =
      ((d.setFld (cuField n c) (k.pos.getD k.tgt 0)).setCore n c
        { k with pos := k.pos.set k.tgt (d.calUnit n c), ok := false, tgt := (k.tgt + 1) % 64, chk := true }).bump (R.LANE_ADC_ROT n)

/-- The switch that replaces a unit at lasting fault (R219): that unit leaves the array unchecked and is retired; `ADC_ROT` does
not count it. -/
def CoreReplaced (d : Dev) (n : Lane) (c : Fin 2) : Prop :=
  let k := d.core n c
  k.ok = true → k.rep.head? = some (k.pos.getD k.tgt 0) →
    d.switchCore n c =
      ((d.setFld (cuField n c) (k.pos.getD k.tgt 0)).setCore n c
        { k with pos := k.pos.set k.tgt (d.calUnit n c), ok := false, tgt := (k.tgt + 1) % 64, chk := false }).retireUnit n c
          (k.pos.getD k.tgt 0)

/-- The offline check (R216, R217, R318): a unit within the limits passes and waits for the next step, and where the calibration
engine may write trims (R213) its OFS is the measured one and its GAIN the mean of the units in use plus its measured difference,
rounded half away from zero and held at the field's limits (log 40); a unit outside a limit is bad and charged. Without a check in
progress nothing changes. -/
def OfflineChecked (s : State) (n : Lane) (c : Fin 2) (m : OfflineMeas) : Prop :=
  let k := s.dev.core n c
  (k.chk = false → Yields (.offlineCheckDone n c m) s s.dev [] []) ∧
  (k.chk = true → m.ofsErr.natAbs ≤ 128 → m.gainErr.natAbs ≤ 512 →
    (s.dev.on (F.LANE_ADC_CFG_TRIM_HOLD n) = true ∨ s.dev.lvOn (F.LANE_ADC_CFG_CAL_EN n) = false) →
    Ends (.offlineCheckDone n c m) s ((s.dev.setCore n c { k with chk := false, bad := false }).rotBusy n)) ∧
  (k.chk = true → m.ofsErr.natAbs ≤ 128 → m.gainErr.natAbs ≤ 512 →
    s.dev.on (F.LANE_ADC_CFG_TRIM_HOLD n) = false → s.dev.lvOn (F.LANE_ADC_CFG_CAL_EN n) = true →
    let a := R.LANE_ADC_TRIM n c (s.dev.calUnit n c)
    let mean := roundAway ((k.pos.map fun u => s.dev.sfld ⟨R.LANE_ADC_TRIM n c u, 8, 10⟩).sum) 64
    Ends (.offlineCheckDone n c m) s
      (((((s.dev.setCore n c { k with chk := false, bad := false }).rotBusy n).setFld ⟨a, 0, 8⟩
        (toField 8 (clampI (-128) 127 m.ofs))).setFld ⟨a, 8, 10⟩ (toField 10 (clampI (-512) 511 (mean + m.gainDiff)))).trimBy
          n true [0, 1] a)) ∧
  (k.chk = true → (128 < m.ofsErr.natAbs ∨ 512 < m.gainErr.natAbs) →
    Ends (.offlineCheckDone n c m) s
      (((s.dev.setCore n c { k with chk := false, bad := true }).rotBusy n).sarEvent n c (s.dev.calUnit n c)))

/-- `LANE.ADC_RETn` cannot bring a retired unit back (R220): a write that names no unit, or fields that already hold one,
changes nothing. -/
def RetireKept (s : State) (m : Master) (n : Lane) (v : Word) : Prop :=
  Reaches s m (R.LANE_ADC_RET n) →
    (∀ c : Fin 2, s.dev.fld (retField n c) ≠ 0x7F ∨ (64 < v.toNat / 2 ^ (8 * c.val) % 2 ^ 7 ∧ s.dev.fld (retField n c) = 0x7F)) →
    Yields (.adcRetWrite m n v) s (onBus (R.LANE_ADC_RET n) id s.dev) [] []

/-- `LANE.ADC_RETn` retires a unit (R219, R220): while the field of core c reads none, a unit number is taken as one that reached
lasting fault: a unit in use waits for its replacement with LANE event 0x40, once, or degrades the lane where rotation has stopped;
the calibration unit is retired at once, and a switch or check of its core in progress ends. -/
def UnitRetired (s : State) (m : Master) (n : Lane) (c : Fin 2) (v : Word) : Prop :=
  let u := v.toNat / 2 ^ (8 * c.val) % 2 ^ 7
  let k := s.dev.core n c
  let at_ (f : Dev → Dev) := onBus (R.LANE_ADC_RET n) f s.dev
  Reaches s m (R.LANE_ADC_RET n) → s.dev.fld (retField n c) = 0x7F → u ≤ 64 →
    s.dev.fld (retField n (1 - c)) ≠ 0x7F →
    (u ≠ s.dev.calUnit n c → s.dev.on (rstop n c) = false → u ∉ k.rep →
      Yields (.adcRetWrite m n v) s (at_ fun d => d.setCore n c { k with rep := k.rep ++ [u] }) [] [(Blk.lane, 0x40, n)]) ∧
    (u ≠ s.dev.calUnit n c → s.dev.on (rstop n c) = false → u ∈ k.rep → Yields (.adcRetWrite m n v) s (at_ id) [] []) ∧
    (u ≠ s.dev.calUnit n c → s.dev.on (rstop n c) = true →
      Ends (.adcRetWrite m n v) s (at_ fun d => d.unitDegraded n)) ∧
    (u = s.dev.calUnit n c → s.dev.on (rstop n c) = false →
      Ends (.adcRetWrite m n v) s (at_ fun d => ((d.setCore n c { k with ok := false, chk := false }).retireUnit n c u).rotBusy n)) ∧
    (u = s.dev.calUnit n c → s.dev.on (rstop n c) = true → Yields (.adcRetWrite m n v) s (at_ id) [] [])

/-- A write of `CAL.CAP_CTRL` (R226, R231): START takes up the capture's settings and arms it; it is ignored while a capture is
open, but one that meets a completion records it and its CAL event 0x50 first; ABORT ends an open capture with ERR 4 and CAL
event 0x51. The three rows are one register. -/
def CaptureControlled (s : State) (m : Master) (v : Word) : Prop :=
  Reaches s m R.CAL_CAP_CTRL → ∀ c ∈ [Instr.captureStart m v, .captureAbort m v],
    (v.getLsbD 1 = false → v.getLsbD 0 = true → s.dev.capOpen = true → (s.dev.capState = 2 ∧ s.dev.capFull = true → False) →
      Yields c s (onBus R.CAL_CAP_CTRL id s.dev) [] []) ∧
    (v.getLsbD 1 = false → v.getLsbD 0 = true → s.dev.capState = 2 → s.dev.capFull = true →
      Ends c s (onBus R.CAL_CAP_CTRL
        (fun d => ((d.setFld F.CAL_CAP_STAT_STATE 3).raise Blk.cal 0x50 d.capLane).capStart) s.dev)) ∧
    (v.getLsbD 1 = false → v.getLsbD 0 = true → s.dev.capOpen = false → Ends c s (onBus R.CAL_CAP_CTRL capStart s.dev)) ∧
    (v.getLsbD 1 = true → s.dev.capOpen = true →
      Yields c s (onBus R.CAL_CAP_CTRL (fun d => (d.setFld F.CAL_CAP_STAT_STATE 4).setFld F.CAL_CAP_STAT_ERR 4) s.dev)
        [R.CAL_CAP_STAT] [(Blk.cal, 0x51, (s.dev.capLane : Nat))])

/-- START's checks (R227): a region beyond the memory, a reserved TRIG or SRC, or a POST beyond the region is ERR 1; a lane
out of RUN is ERR 2; else the capture is armed. That a refused START clears `CAP_TQ` and `CAP_TPOS` too is the model's choice
(DESIGN CHOICE, log 45). -/
def CaptureChecked (d : Dev) : Prop :=
  d.capOpen = false →
    let e := d.modCap fun _ => { CapSt.init with cfg := d.reg R.CAL_CAP_CFG, qnum := d.reg R.CAL_CAP_QNUM,
                                                 post := d.fld F.CAL_CAP_POST_POST }
    let bad := decide (1024 < e.capCfg 0 10 + e.capCfg 10 10 + 1) || e.capTrig == 3 || e.capSrc == 3 ||
      (e.capTrig == 2 && decide (e.capCfg 10 10 < e.cap.post))
    let off := !e.inRun e.capLane || (e.capSrc == 2 && !e.carried e.capLane)
    let t := d.capStart
    t.cap = e.cap ∧ t.reg R.CAL_CAP_TQ = 0 ∧ t.reg R.CAL_CAP_TPOS = 0 ∧
      t.capState = (if bad || off then 4 else 1) ∧
      t.fld F.CAL_CAP_STAT_ERR = (if bad then 1 else if off then 2 else 0)

/-- Recording begins at the trigger boundary (R228, R230): STATE 2, and `CAP_TQ` holds the quire number of the boundary. -/
def CaptureTriggered (s : State) : Prop :=
  s.dev.capState = 1 → s.dev.cap.due = true →
    Yields .captureTrigger s ((s.dev.setFld F.CAL_CAP_STAT_STATE 2).setReg R.CAL_CAP_TQ s.dev.cap.dueQ)
      [R.CAL_CAP_STAT, R.CAL_CAP_TQ] []

/-- A full capture is done (R229, R232): STATE 3 with CAL event 0x50. -/
def CaptureDone (s : State) : Prop :=
  s.dev.capState = 2 → s.dev.capFull = true →
    Yields .captureDone s (s.dev.setFld F.CAL_CAP_STAT_STATE 3) [R.CAL_CAP_STAT] [(Blk.cal, 0x50, (s.dev.capLane : Nat))]

/-- A write of `CAL.CMDn` (R323, R330): ABORT ends every run of the lane and clears its pending triggers; without it each
set bit triggers its item. -/
def CalCommanded (s : State) (m : Master) (n : Lane) (v : Word) : Prop :=
  Reaches s m (R.CAL_CMD n) → ∀ c ∈ [Instr.calRun m n v, .calAbort m n v],
    (v.getLsbD 4 = true → Ends c s (onBus (R.CAL_CMD n) (calAbortAll n) s.dev)) ∧
    (v.getLsbD 4 = false →
      Ends c s (onBus (R.CAL_CMD n) (fun d => d.each ((List.finRange 4).filter fun (i : Fin 4) => v.getLsbD i) fun i d =>
        d.calTrigger n i) s.dev))

/-- A trigger of an item (R323, R325, R326): a disabled or a running item ignores it, a held one keeps it pending, and any
other begins a run with the settings of that moment. -/
def CalTriggered (d : Dev) (n : Lane) (i : Fin 4) : Prop :=
  let e := d.calTrigger n i
  (d.lvOn ⟨R.CAL_CFG n, i, 1⟩ = false ∨ d.calBusy n i = true → e = d) ∧
  (d.lvOn ⟨R.CAL_CFG n, i, 1⟩ = true → d.calBusy n i = false → d.calHeld n i = true →
    e = d.setOn ⟨R.CAL_STAT n, 12 + i, 1⟩ true) ∧
  (d.lvOn ⟨R.CAL_CFG n, i, 1⟩ = true → d.calBusy n i = false → d.calHeld n i = false →
    (e.calItem n i).phase = 1 ∧ (e.calItem n i).cfg = d.liveWord (R.CAL_CFG n) ∧ e.on ⟨R.CAL_STAT n, 8 + i, 1⟩ = true ∧
    e.on ⟨R.CAL_STAT n, 4 + i, 1⟩ = false ∧ e.raised = d.raised ∧ e.mem = d.mem)

/-- A window of a background run ends whose estimates may be formed: a transmit item's output allows it (R319), and item 3 has
its 4,096 samples of each level code (R322). -/
def CalJudged (s : State) (n : Lane) (i : Fin 4) : Prop :=
  s.dev.calWindowOver n i = true ∧ s.dev.calFg n i = false ∧ (2 ≤ i.val → s.dev.transmitEst n = true) ∧
    (i = 3 → fewSamples (s.dev.calItem n i).ended = false)

/-- The end of W1 of a background run (R326): the estimate of its statistics is kept and W2 has begun. -/
def CalFirstWindow (s : State) (n : Lane) (i : Fin 4) : Prop :=
  let c := s.dev.calItem n i
  let e := s.dev.calEstimate n i c.ended
  CalJudged s n i → c.phase = 1 →
    Ends (.calWindowEnd n i 1) s
      (e.2.modCal n i fun c => { c with phase := 2, quires := c.quires - s.dev.calLength n i, est1 := e.1, windows := 1 })

/-- The end of W2 (R327): agreeing estimates give the mean as the result to commit; others are retried with reason 1. -/
def CalSecondWindow (s : State) (n : Lane) (i : Fin 4) : Prop :=
  let c := s.dev.calItem n i
  let e := s.dev.calEstimate n i c.ended
  CalJudged s n i → c.phase = 2 →
    (calAgree n i c c.est1 e.1 = true →
      Ends (.calWindowEnd n i 2) s
        (e.2.modCal n i fun c => { c with phase := 3, begun := false, result := calMean c.est1 e.1, accepted := true })) ∧
    (calAgree n i c c.est1 e.1 = false → 0 < c.retries →
      Ends (.calWindowEnd n i 2) s
        ((e.2.setFld ⟨R.CAL_STAT n, 16 + 4 * i, 4⟩ 1).modCal n i fun c =>
          { c with retries := c.retries - 1, phase := 2, begun := true, quires := c.quires - s.dev.calLength n i, est1 := e.1 }))

/-- A window that cannot be judged is discarded and W1 is due again: for want of samples with reason 4 (R322); where the
transmitter allows no estimate (R319) with reason 3, which is the model's choice (log 41). -/
def CalDiscarded (s : State) (n : Lane) (i : Fin 4) : Prop :=
  let c := s.dev.calItem n i
  let again (reason : Nat) : Dev := (s.dev.setFld ⟨R.CAL_STAT n, 16 + 4 * i, 4⟩ reason).modCal n i fun c =>
    { c with retries := c.retries - 1, phase := 1, ready := false, begun := false, quires := 0, stats := [], ended := [] }
  s.dev.calWindowOver n i = true → s.dev.calFg n i = false → 0 < c.retries →
    (2 ≤ i.val → s.dev.transmitEst n = false → Yields (.calWindowEnd n i (s.dev.calWindow n i)) s (again 3) [R.CAL_STAT n] []) ∧
    (i = 3 → s.dev.transmitEst n = true → fewSamples c.ended = true →
      Yields (.calWindowEnd n i (s.dev.calWindow n i)) s (again 4) [R.CAL_STAT n] [])

/-- A window of a foreground run ends (R334): its estimate is to be committed, and the run's part of the item is accepted where
the estimate agrees with that of the window before. -/
def CalForegroundWindow (s : State) (n : Lane) (i : Fin 4) : Prop :=
  let c := s.dev.calItem n i
  let e := s.dev.calEstimate n i c.ended
  s.dev.calWindowOver n i = true → s.dev.calFg n i = true → (2 ≤ i.val → s.dev.transmitEst n = true) →
    (i = 3 → fewSamples c.ended = false) →
      Ends (.calWindowEnd n i (c.windows + 1)) s
        (e.2.modCal n i fun x => { x with phase := 3, begun := false, windows := c.windows + 1, est1 := e.1, result := e.1,
                                          accepted := decide (0 < c.windows) && !c.est1.isEmpty && calAgree n i c c.est1 e.1 })

/-- The end of a window that is not in progress, or has quires to run, changes nothing (log 19). -/
def CalOtherWindow (s : State) (n : Lane) (i : Fin 4) (w : Nat) : Prop :=
  s.dev.calWindowOver n i = false ∨ w ≠ s.dev.calWindow n i → Ends (.calWindowEnd n i w) s s.dev

/-- The take-up of a committed background result (R331): the item is idle again, BUSY and FG read 0. Before the result has
come into use, the command changes nothing. -/
def CalTakenUp (s : State) (n : Lane) (i : Fin 4) : Prop :=
  let c := s.dev.calItem n i
  (c.phase = 4 → c.taken = true → s.dev.calFg n i = false →
    Yields (.calTakeUp n i) s
      (((s.dev.modCal n i fun c => { c with phase := 0, ready := false, begun := false }).setOn
        ⟨R.CAL_STAT n, 8 + i, 1⟩ false).setOn ⟨R.CAL_STAT n, 4 + i, 1⟩ false) [R.CAL_STAT n] []) ∧
  (c.taken = false → Ends (.calTakeUp n i) s s.dev)

/-- Words of a committed result come into use at their take-up point only (R331, R212): with no result waiting, the trims in use
are the written ones. -/
def TrimsTakenUp (d : Dev) (n : Lane) : Prop :=
  (d.on (F.LANE_ADC_CFG_TRIM_HOLD n) = true → d.takeUpTrims n = d) ∧
  (d.on (F.LANE_ADC_CFG_TRIM_HOLD n) = false → (d.calItem n 0).phase ≠ 4 → (d.calItem n 1).phase ≠ 4 →
    d.takeUpTrims n = d.modRx n fun r => { r with trims := d.regs.filter fun c => trimAddr n c.1 })

/-! ### The flyleaf (chapter 10) -/

/-- A rotation falls due (R363): `ROT_DUE` reads 1, and `PAUSED` says whether it has to wait. -/
def RotationFell (s : State) : Prop :=
  s.dev.lvOn F.SPR_CFG_ROT_EN = true → s.dev.exhausted = false → s.dev.on F.SPR_STAT_ROT_DUE = false → s.dev.spr.holdoff = 0 →
    2 ^ max 16 (s.dev.lv F.SPR_CFG_ROT_EXP) ≤ (s.dev.reg R.SPR_ROTQ).toNat →
    Ends .rotationDue s ((s.dev.setOn F.SPR_STAT_ROT_DUE true).showPaused)

/-- A write of `SPR.CTRL` (R358, R359, R375): SWAP asks for a swap of LANE when no shadow runs and the lane is in RUN, behind
those that wait, once for each lane; ABORT ends a shadow before its commit. Where both are written SWAP is judged first (DESIGN
CHOICE, log 17). -/
def SprControlled (s : State) (m : Master) (v : Word) : Prop :=
  Reaches s m R.SPR_CTRL → ∀ c ∈ [Instr.swap m v, .sprAbort m v],
    let st (d : Dev) : Dev := d.setReg R.SPR_CTRL (wordWritten d R.SPR_CTRL 7 v)
    let n : Lane := Fin.ofNat 8 (v.toNat % 8)
    (v.getLsbD 4 = true → v.getLsbD 5 = false → s.dev.phase = 0 → s.dev.inRun n = true → n ∉ s.dev.spr.cmd →
      Yields c s (onBus R.SPR_CTRL (fun d => (st d).modSpr fun p => { p with cmd := p.cmd ++ [n] }) s.dev) [R.SPR_CTRL] []) ∧
    (v.getLsbD 4 = true → v.getLsbD 5 = false → s.dev.phase ≠ 0 ∨ s.dev.inRun n = false ∨ n ∈ s.dev.spr.cmd →
      Yields c s (onBus R.SPR_CTRL st s.dev) [R.SPR_CTRL] []) ∧
    (v.getLsbD 4 = true → v.getLsbD 5 = true → s.dev.phase = 0 → s.dev.inRun n = true → n ∉ s.dev.spr.cmd →
      Yields c s (onBus R.SPR_CTRL (fun d => (st d).modSpr fun p => { p with cmd := p.cmd ++ [n] }) s.dev) [R.SPR_CTRL] []) ∧
    (v.getLsbD 5 = true → (v.getLsbD 4 = false ∨ s.dev.phase ≠ 0 ∨ s.dev.inRun n = false ∨ n ∈ s.dev.spr.cmd) →
      Ends c s (onBus R.SPR_CTRL (fun d => (st d).endShadow 7) s.dev))

/-- A shadow starts at a boundary (R344, R357, R358, R365): phase 1, its lane and kind shown, SPR event 0x80; a rotation that is due
waits behind one of another kind. -/
def ShadowStarted (s : State) (n : Lane) (k : Nat) : Prop :=
  s.dev.dueShadow = some (n, k) → (s.dev.lane n).tx.slot = 0 → k ≠ 1 →
    Ends .shadowStart s ((s.dev.beginShadow n k).setOn F.SPR_STAT_PAUSED (s.dev.on F.SPR_STAT_ROT_DUE && k != 0))

/-- No convergence within three quires (R344): the shadow ends for reason 1; a younger one goes on. -/
def ConvergeJudged (s : State) : Prop :=
  s.dev.phase = 1 →
    (3 ≤ s.dev.spr.age → Ends .convergeTimeout s (s.dev.endShadow 1)) ∧
    (s.dev.spr.age < 3 → Yields .convergeTimeout s s.dev [] [])

/-- The end of a commanded shadow before its commit (R359, R360): phase 0, the reason recorded, `ABORTS` counted, SPR event
0x82. -/
def ShadowEnded (d : Dev) (r : Nat) : Prop :=
  (d.phase = 1 ∨ d.phase = 2) → d.kind = 1 → r ≠ 2 → r < 8 →
    let e := d.endShadow r
    e.phase = 0 ∧ e.fld F.SPR_STAT_ABORT = r ∧ e.reg R.SPR_ABORTS = d.reg R.SPR_ABORTS + 1 ∧
      e.raised = d.raised ++ [⟨Blk.spr, 0x82, d.target⟩] ∧ e.mem = d.mem ∧ e.lanes = d.lanes

/-- A mismatch after the commit (R352): the swap is being undone (phase 4). Before it the shadow ends for reason 2. A forced
swap makes no comparison (R370). -/
def MismatchJudged (s : State) : Prop :=
  (s.dev.kind ≠ 3 → s.dev.phase = 3 → Ends .shadowMismatch s
    (((s.dev.sliceEvent s.dev.spr.shadow 10 1).setFld F.SPR_STAT_PHASE 4).modSpr fun p => { p with wholeQ := false })) ∧
  (s.dev.kind ≠ 3 → s.dev.phase = 2 → Ends .shadowMismatch s ((s.dev.sliceEvent s.dev.spr.shadow 10 1).endShadow 2)) ∧
  (s.dev.kind = 3 → Ends .shadowMismatch s s.dev)

/-- What an undone swap leaves before the causes that waited for it act: the clocks in which it shadowed counted (R684), phase 0, `UNDOS`
counted, SPR event 0x83 (R352). -/
def swapUndone (d : Dev) : Dev :=
  ((((d.elapse.setFld F.SPR_STAT_PHASE 0).modSpr fun p =>
    { p with feeding := false, copied := false, txOpen := false, rxOpen := false, rxOk := false, wholeQ := false,
             age := 0, commitDue := false })).bump R.SPR_UNDOS).raise Blk.spr 0x83 d.target

/-- An undone swap ends with the crossbar back at the outgoing slice (R352): an undone repair has used one more attempt (R370);
another queues the flyleaf's test (R368), and a rotation is held off 1,024 quires (R366). The flyleaf is free, and
retired where its own repair was due (R371); then the causes that waited for the swap's end act, a full self-test among them (R361). -/
def SwapUndone (s : State) : Prop :=
  let d := swapUndone s.dev
  let n := s.dev.target
  let car := s.dev.carrier n
  s.dev.phase = 4 → s.dev.spr.wholeQ = true →
    let ended (d : Dev) : Dev := ((d.sliceFreed s.dev.spr.shadow).updateFly.applyDeferred n).startFull
    (s.dev.kind = 2 → Ends .swapUndo s (ended (d.repairFailed car))) ∧
    (s.dev.kind = 1 → Ends .swapUndo s (ended (d.blameTest car))) ∧
    (s.dev.kind = 0 → Ends .swapUndo s
      (ended (((d.setOn F.SPR_STAT_ROT_DUE false).modSpr fun p => { p with holdoff := 1024 }).blameTest car)))

/-- An attempt of a repair is one more of its slice's, and of no other (R370). -/
def AttemptCounted (d : Dev) (car : Nat) (q : Slice) (k : Nat) : Prop :=
  d.spr.repairs = [(q, k)] →
    (d.repairFailed car).spr.repairs = [(q, if (q : Nat) = car then k + 1 else k)]

/-- Redundancy is exhausted (R371 to R373): no repair and no rotation falls due; a carrying slice that reaches lasting fault
keeps its lane, with its bit of `SPR.DEG` and SPR event 0x87. -/
def SliceStays (d : Dev) (k : Slice) : Prop :=
  d.exhausted = true → (d.laneOf k).isSome = true →
    d.sliceLasting k = (d.setOn ⟨R.SPR_DEG, k, 1⟩ true).raise Blk.spr 0x87 k

/-- `SPR.RET` (R373): while no slice is retired, a slice number waits for the next boundary; any other write changes
nothing. -/
def RetWritten (s : State) (m : Master) (v : Word) : Prop :=
  Reaches s m R.SPR_RET →
    (s.dev.retired = 15 → v.toNat % 16 ≤ 8 →
      Yields (.sprRetWrite m v) s
        (onBus R.SPR_RET (fun d => d.modSpr fun p => { p with retDue := some (Fin.ofNat 9 (v.toNat % 16)) }) s.dev) [] []) ∧
    (s.dev.retired ≠ 15 ∨ 8 < v.toNat % 16 → Yields (.sprRetWrite m v) s (onBus R.SPR_RET id s.dev) [] [])

/-! ### The stitch mesh (chapter 11) -/

/-- A received hello is the oldest leaf of slot word 0 in the link's inbox, which is then judged (R381, R387). -/
def HelloTaken (s : State) (n : Lane) (x : StitchLeaf) : Prop :=
  (s.dev.link n).inbox.find? (fun x => x.w == 0) = some x →
    Ends (.helloReceived n) s
      ((s.dev.modLink n fun l => { l with inbox := l.inbox.eraseP fun x => x.w == 0 }).hello n x)

/-- A damaged hello, or one whose FCS fails, is ignored (R383, R386, R387). -/
def HelloIgnored (d : Dev) (n : Lane) (x : StitchLeaf) : Prop :=
  (x.bad = true ∨ linkFcsOk x.bits = false) → d.hello n x = d

/-- Four received quires without a valid hello (R387): an UP link leaves UP with MSH event 0x91 and is in INIT. -/
def HelloTimedOut (s : State) (n : Lane) : Prop :=
  s.dev.linkUp n = true →
    (4 ≤ (s.dev.link n).misses → Ends (.helloTimeout n) s (s.dev.toLinkState n 1 (some 0x91))) ∧
    ((s.dev.link n).misses < 4 → Yields (.helloTimeout n) s s.dev [] [])

/-- A valid time leaf of a neighbour that is not the parent (R382, R413): what it carries is kept with the offset of this
end. -/
def TimeKept (s : State) (n : Lane) (x : StitchLeaf) : Prop :=
  (s.dev.link n).inbox.find? (fun x => x.w == 4) = some x → x.bad = false → leafField x.bits 271 264 = 0xC8 →
    linkFcsOk x.bits = true → s.dev.parent ≠ (n : Nat) →
    Yields (.timeLeafReceived n) s
      (s.dev.modLink n fun l =>
        { l with inbox := l.inbox.eraseP (fun x => x.w == 4),
                 time := some (BitVec.ofNat 64 (leafField x.bits 263 200), leafField x.bits 199 194, leafField x.bits 193 192,
                   BitVec.ofNat 64 (leafField x.bits 191 128), BitVec.ofNat 32 (leafField x.bits 127 96)),
                 rxofs := timeDiff (s.dev.lane n).rx.arrive.toNat (leafField x.bits 191 128) }) [] []

/-- A valid time leaf of the parent (R382, R413, R414): what it carries is kept as of any neighbour, and ε is formed of the two offsets,
here in half time units. -/
def TimeFollowed (s : State) (n : Lane) (x : StitchLeaf) : Prop :=
  (s.dev.link n).inbox.find? (fun x => x.w == 4) = some x → x.bad = false → leafField x.bits 271 264 = 0xC8 →
    linkFcsOk x.bits = true → s.dev.parent = (n : Nat) →
    let ofs := timeDiff (s.dev.lane n).rx.arrive.toNat (leafField x.bits 191 128)
    Ends (.timeLeafReceived n) s
      ((s.dev.modLink n fun l =>
        { l with inbox := l.inbox.eraseP (fun x => x.w == 4),
                 time := some (BitVec.ofNat 64 (leafField x.bits 263 200), leafField x.bits 199 194, leafField x.bits 193 192,
                   BitVec.ofNat 64 (leafField x.bits 191 128), BitVec.ofNat 32 (leafField x.bits 127 96)),
                 rxofs := ofs }).takeEps n (ofs - signed 32 (leafField x.bits 127 96)))

/-- The discipline of the parent's ε (R414), `e` being 2ε: `MSH.TERR` and the correction follow it; in ACQ 16 quires of |ε| < 256 lead to
TRACK with MSH event 0x97, and |ε| ≥ 4,096 asks for a step where none was made for 256 quires; in TRACK 4 quires of |ε| ≥ 4,096 lead to
ACQ. `MSH.TERR` and the clamped c round half away from zero (DEDUCED, log 25). -/
def TimeDisciplined (d : Dev) (n : Lane) (e : Int) : Prop :=
  let c := -(clampI (-64) 64 (roundAway e (2 ^ (d.lv F.MSH_CFG_KT + 1))))
  let shown := d.setReg R.MSH_TERR (BitVec.ofInt 32 (roundAway e 2))
  let a := d.msh.acqRun + 1
  let k := d.msh.trackRun + 1
  (d.meshState = 1 → e.natAbs < 512 → a < 16 → d.takeEps n e = shown.modMsh fun m => { m with corr := c, acqRun := a }) ∧
  (d.meshState = 1 → e.natAbs < 512 → 16 ≤ a →
    d.takeEps n e = ((shown.setFld F.MSH_TSTAT_TSTATE 2).modMsh fun m =>
      { m with corr := c, acqRun := 0, trackRun := 0, stepNext := none }).raise Blk.msh 0x97 n) ∧
  (d.meshState = 1 → 512 ≤ e.natAbs → (e.natAbs < 8192 ∨ d.msh.stepHold ≠ 0) →
    d.takeEps n e = shown.modMsh fun m => { m with corr := c, acqRun := 0 }) ∧
  (d.meshState = 1 → 8192 ≤ e.natAbs → d.msh.stepHold = 0 →
    d.takeEps n e = shown.modMsh fun m => { m with corr := c, acqRun := 0, stepNext := some (-(roundAway e 2)) }) ∧
  (d.meshState = 2 → e.natAbs < 8192 → d.takeEps n e = shown.modMsh fun m => { m with corr := c, trackRun := 0 }) ∧
  (d.meshState = 2 → 8192 ≤ e.natAbs → k < 4 → d.takeEps n e = shown.modMsh fun m => { m with corr := c, trackRun := k }) ∧
  (d.meshState = 2 → 8192 ≤ e.natAbs → 4 ≤ k →
    d.takeEps n e = (shown.setFld F.MSH_TSTAT_TSTATE 1).modMsh fun m => { m with corr := c, acqRun := 0, trackRun := 0 })

/-- Received traffic leaves are taken up while the link is UP (R379, R386); that those of another state are ignored is the model's
reading (DEDUCED, log 25). -/
def TrafficTaken (s : State) (n : Lane) : Prop :=
  let ls := (s.dev.link n).inbox.filter fun x => x.w != 0 && x.w != 4
  let d := s.dev.modLink n fun l => { l with inbox := l.inbox.filter fun x => x.w == 0 || x.w == 4 }
  (ls = [] → Yields (.stitchReceived n) s d [] []) ∧
  (∀ x, ls = [x] → s.dev.linkUp n = true → Ends (.stitchReceived n) s (d.trafficLeaf n x)) ∧
  (s.dev.linkUp n = false → Yields (.stitchReceived n) s d [] [])

/-- A remote read that may not be executed is answered with its status and no words (R419 to R422). -/
def RemoteReadRefused (s : State) (r : Stitch) (rs : List Stitch) : Prop :=
  s.dev.msh.requests = r :: rs → r.type = 2 → s.dev.domOn .msh = true → s.dev.requestStatus false r ≠ 0 →
    Ends .remoteRegRead s (s.dev.servedHead.respond r (s.dev.requestStatus false r) [])

/-- A remote read that may be executed reads its words in ascending order and is answered with them (R419, R422). -/
def RemoteReadServed (s : State) (r : Stitch) (rs : List Stitch) : Prop :=
  s.dev.msh.requests = r :: rs → r.type = 2 → s.dev.domOn .msh = true → s.dev.requestStatus false r = 0 →
    let x := s.dev.servedHead.remoteReadWords s.evq r
    Ends .remoteRegRead s (x.2.2.respond r x.2.1.toNat x.1)

/-- A remote write (R419, R422): refused with its status, or its words are written in ascending order. -/
def RemoteWritten (s : State) (r : Stitch) (rs : List Stitch) : Prop :=
  s.dev.msh.requests = r :: rs → r.type = 3 → s.dev.domOn .msh = true →
    (s.dev.requestStatus true r ≠ 0 →
      Ends .remoteRegWrite s (s.dev.servedHead.respond r (s.dev.requestStatus true r) [])) ∧
    (s.dev.requestStatus true r = 0 →
      let x := s.dev.servedHead.remoteWriteWords r
      Ends .remoteRegWrite s (x.2.respond r x.1.toNat []))

/-- While its enable is 0, which for writes it is at reset, a request earns status 2 (R421). -/
def RemoteDisabled (d : Dev) (write : Bool) (r : Stitch) : Prop :=
  d.lvOn (if write then F.MSH_RA_CFG_WR_EN else F.MSH_RA_CFG_RD_EN) = false → d.requestStatus write r = 2

/-- The route table goes out on every UP link each 2^RT_EXP quires (R397); before that nothing changes. -/
def RoutesAdvertised (s : State) : Prop :=
  s.dev.meshOn = true →
    (s.dev.routePeriod ≤ s.dev.msh.advQ →
      Ends .routeAdvertise s ((s.dev.modMsh fun m => { m with advQ := 0 }).advertise s.dev.routeTable)) ∧
    (s.dev.msh.advQ < s.dev.routePeriod → Yields .routeAdvertise s s.dev [] [])

/-- Routes none of which is old stay (R399). -/
def RoutesKept (s : State) : Prop :=
  s.dev.meshOn = true → (∀ r ∈ s.dev.msh.routes, r.dist ≠ 63 ∧ r.age < 4 * s.dev.routePeriod) →
    Yields .routeExpiry s s.dev [] []

/-- The routes of a table grow old (R397, R399): one that was unreachable (distance 63) through a period leaves the table and is
sent once more as unreachable; one unconfirmed for four periods becomes unreachable, and that change falls due; the others stay. -/
def RoutesAged (s : State) : Prop :=
  let p := s.dev.routePeriod
  let spent (r : Route) : Bool := r.dist == 63 && decide (p ≤ r.gone)
  let left := s.dev.msh.routes.filter fun r => !spent r
  let old := left.filter fun r => r.dist != 63 && decide (4 * p ≤ r.age)
  s.dev.meshOn = true →
    Yields .routeExpiry s
      (s.dev.modMsh fun m =>
        { m with routes := old.foldl (fun l r => l.map fun x => if x.addr = r.addr then { r with dist := 63, gone := 0 } else x) left
                 advDue := old.foldl (fun l r => if l.contains r.addr then l else l ++ [r.addr]) m.advDue
                 removed := (m.routes.filter spent).foldl
                   (fun l r => l.filter (fun x => x.addr != r.addr) ++ [{ r with dist := 63 }]) m.removed }) [] []

/-- Held stitches none of which is old stay (R408). -/
def StitchesKept (s : State) : Prop :=
  s.dev.meshOn = true → (∀ n : Lane, ∀ x ∈ (s.dev.link n).queue, x.age < 2 ^ s.dev.lv F.MSH_CFG_AGE_EXP) →
    (∀ x ∈ s.dev.msh.ringWait, x.age < 2 ^ s.dev.lv F.MSH_CFG_AGE_EXP) →
    Yields .stitchAged s s.dev [] []

/-- A held stitch grows old (R408): the one stitch of a link that has waited 2^AGE_EXP quires leaves its queue, is counted in
`MSH.AGED` and gives up its buffer; the younger ones of that queue, of the other links and before the ring stay. -/
def StitchDropped (s : State) (l : Lane) (x : Stitch) (xs : List Stitch) : Prop :=
  let young (y : Stitch) : Prop := y.age < 2 ^ s.dev.lv F.MSH_CFG_AGE_EXP
  s.dev.meshOn = true → (s.dev.link l).queue = x :: xs → ¬ young x → (∀ y ∈ xs, young y) →
    (∀ n : Lane, n ≠ l → ∀ y ∈ (s.dev.link n).queue, young y) → (∀ y ∈ s.dev.msh.ringWait, young y) →
    Ends .stitchAged s ((s.dev.modLink l fun k => { k with queue := xs }).dropStitch R.MSH_AGED x)

/-- A tentative address that has stood for two periods is self-assigned with MSH event 0x94 (R393). -/
def AddressSettled (s : State) : Prop :=
  s.dev.meshOn = true → s.dev.astate = 1 → s.dev.msh.loseDue = false → 2 * s.dev.routePeriod ≤ s.dev.msh.addrQ →
    Yields .addressSelfAssigned s
      ((s.dev.setFld F.MSH_ADDR_STAT_ASTATE 2).changed (BitVec.ofNat 16 s.dev.maddr)) [R.MSH_ADDR_STAT] [(Blk.msh, 0x94, 0)]

/-- A slot armed two quires ahead or more is armed (STATE 1); a later ARM is late (STATE 3) with MSH event 0x99 (R416,
R417). -/
def SlotArmed (s : State) (m : Master) (k : Fin 2) (clk : Fin 16384) (v : Word) : Prop :=
  Reaches s m (R.MSH_SCHED_CTRL k) → v.getLsbD 31 = true →
    let d := onBus (R.MSH_SCHED_CTRL k) (fun d => d.setReg (R.MSH_SCHED_CTRL k) (wordWritten d (R.MSH_SCHED_CTRL k) 0x1FFFF v)) s.dev
    let late := decide (timeDiff (s.dev.schedN k * 65536) (s.dev.meshTimeAt clk) < 2 * 65536)
    Yields (.arm m k clk v) s (d.setFld (F.MSH_SCHED_CTRL_STATE k) (if late then 3 else 1)) [R.MSH_SCHED_CTRL k]
      (if late then [(Blk.msh, 0x99, k.val)] else [])

/-- SEND of a stitch of a type or length that may not be sent: `TX_STAT` 2; while one is being sent it is ignored (R423). -/
def SendRefused (s : State) (m : Master) (v : Word) : Prop :=
  Reaches s m R.MSH_TX_CTRL → v.getLsbD 0 = true → s.dev.msh.leaving = false →
    (s.dev.fld F.MSH_TX_STAT_STATE = 1 → Yields (.send m v) s (onBus R.MSH_TX_CTRL id s.dev) [] []) ∧
    (s.dev.fld F.MSH_TX_STAT_STATE ≠ 1 → 250 < s.dev.fld F.MSH_TX_HDR_PLEN →
      Yields (.send m v) s (onBus R.MSH_TX_CTRL (fun d => d.setFld F.MSH_TX_STAT_STATE 2) s.dev) [R.MSH_TX_STAT] [])

/-- SEND of a USER stitch to a routed address (R401, R423): STATE 1, and the stitch joins the routed lane's queue. -/
def SendQueued (s : State) (m : Master) (v : Word) (l : Lane) : Prop :=
  Reaches s m R.MSH_TX_CTRL → v.getLsbD 0 = true → s.dev.msh.leaving = false → s.dev.fld F.MSH_TX_STAT_STATE ≠ 1 →
    s.dev.fld F.MSH_TX_HDR_TYPE = 7 → s.dev.fld F.MSH_TX_HDR_PLEN ≤ 250 →
    s.dev.localStitch.dst.toNat ≠ s.dev.maddr → s.dev.routeLane s.dev.localStitch.dst.toNat = some l →
    Yields (.send m v) s
      (onBus R.MSH_TX_CTRL (fun d => ((d.setFld F.MSH_TX_STAT_STATE 1).modMsh fun m => { m with localSent := false }).modLink l
        fun k => { k with queue := k.queue ++ [s.dev.localStitch] }) s.dev) [R.MSH_TX_STAT] []

/-- The local stitch has been sent: `TX_STAT` 0 (R423). -/
def SendEnded (s : State) : Prop :=
  s.dev.msh.localSent = true →
    Yields .stitchSent s ((s.dev.modMsh fun m => { m with localSent := false }).setFld F.MSH_TX_STAT_STATE 0)
      [R.MSH_TX_STAT] []

/-- POP frees the head slot of the receive ring (R424): the next slot is the head and COUNT falls; on an empty ring nothing
changes. -/
def RingPopped (s : State) (m : Master) (v : Word) : Prop :=
  Reaches s m R.MSH_RX_CTRL → v.getLsbD 0 = true →
    (s.dev.msh.ring = [] → Yields (.pop m v) s (onBus R.MSH_RX_CTRL id s.dev) [] []) ∧
    (∀ x xs, s.dev.msh.ring = x :: xs → s.dev.msh.ringWait = [] →
      Yields (.pop m v) s
        (onBus R.MSH_RX_CTRL (fun d => ((d.modMsh fun m => { m with ring := xs, ringHead := (m.ringHead + 1) % 8 }).setFld
          F.MSH_RX_STAT_HEAD ((s.dev.msh.ringHead + 1) % 8)).setFld F.MSH_RX_STAT_COUNT xs.length) s.dev)
        [R.MSH_RX_STAT] [])

/-! ### Housekeeping (chapter 12) -/

/-- A sub-interval starts while the tick runs (R433): every bias DAC takes its step and output, the count advances, and request line
SUBINT pulses; after the sixteenth of a quire (R436), or without a tick, nothing changes. -/
def SubintervalStarts (s : State) : Prop :=
  (s.dev.hkp.sub < 16 → s.dev.on F.CLK_STAT_TICK_RUN = true → s.dev.domOn .mgt = true →
    let d := s.dev.each (List.finRange 24) (biasSub s.dev.hkp.sub)
    Ends .subintervalStart s (({ d with hkp := { d.hkp with sub := s.dev.hkp.sub + 1 } } : Dev).pulse 8)) ∧
  (16 ≤ s.dev.hkp.sub ∨ s.dev.on F.CLK_STAT_TICK_RUN = false ∨ s.dev.domOn .mgt = false →
    Yields .subintervalStart s s.dev [] [])

/-- What sub-interval j does to bias DAC k (R433, R436, R438, R440): in the safe state SAFE is the goal; a step falls due when
the count of steps so far rises, and without one OUT stays; the output is OUT with the dither term, which the safe state and DEN
0 take away. Nothing else of the device changes. -/
def BiasTaken (d : Dev) (j : Nat) (k : Fin 24) : Prop :=
  let e := d.biasSub j k
  let r := d.fld (F.HKP_BCFG_RATE k) + 1
  let safe := d.on (F.HKP_BSTAT_SAFE k)
  e.hkp.goal[k] = (if safe then d.fld (F.HKP_BCFG_SAFE k) else d.hkp.goal[k]) ∧
    (j * r / 16 = (j + 1) * r / 16 → e.fld (F.HKP_BSTAT_OUT k) = d.fld (F.HKP_BSTAT_OUT k)) ∧
    (safe = true ∨ d.on (F.HKP_BDIT_DEN k) = false → d.fld (F.HKP_BSTAT_OUT k) < 2 ^ 14 → d.hkp.goal[k] < 2 ^ 14 →
      e.hkp.code[k] = e.fld (F.HKP_BSTAT_OUT k)) ∧
    (∀ i : Fin 24, i ≠ k → e.hkp.goal[i] = d.hkp.goal[i] ∧ e.hkp.code[i] = d.hkp.code[i]) ∧
    (∀ a, a ≠ R.HKP_BSTAT k → e.reg a = d.reg a) ∧ e.mem = d.mem ∧ e.raised = d.raised

/-- A limiter step (R436, R437): OUT moves toward the goal by at most STEP (0 acts as 1), and never past it. -/
def BiasStepped (d : Dev) (k : Fin 24) : Prop :=
  let out := d.fld (F.HKP_BSTAT_OUT k)
  let goal := d.hkp.goal[k]
  let e := d.biasStep k
  goal < 2 ^ 14 →
    (out ≤ goal → out ≤ e.fld (F.HKP_BSTAT_OUT k) ∧ e.fld (F.HKP_BSTAT_OUT k) ≤ goal ∧
      e.fld (F.HKP_BSTAT_OUT k) ≤ out + max 1 (d.fld (F.HKP_BCFG_STEP k))) ∧
    (goal < out → goal ≤ e.fld (F.HKP_BSTAT_OUT k) ∧ e.fld (F.HKP_BSTAT_OUT k) < out ∧
      out ≤ e.fld (F.HKP_BSTAT_OUT k) + max 1 (d.fld (F.HKP_BCFG_STEP k))) ∧
    e.on (F.HKP_BSTAT_BUSY k) = (e.fld (F.HKP_BSTAT_OUT k) != goal) ∧ e.hkp = d.hkp ∧ e.mem = d.mem

/-- `SAFE_CLR` (R439): refused while a cause of the safe state holds. -/
def SafeHeld (s : State) (m : Master) (v : Word) : Prop :=
  Reaches s m R.HKP_BCTRL → v.getLsbD 0 = true → s.dev.safeCause = true →
    Yields (.safeClr m v) s (onBus R.HKP_BCTRL id s.dev) [] []

/-- A write of `HKP.BCTRL` with `SAFE_CLR` 0 triggers nothing (R519). -/
def SafeUnasked (s : State) (m : Master) (v : Word) : Prop :=
  Reaches s m R.HKP_BCTRL → v.getLsbD 0 = false → Yields (.safeClr m v) s (onBus R.HKP_BCTRL id s.dev) [] []

/-- `SAFE_CLR` with no cause left takes every bias DAC out of the safe state (R439). -/
def SafeCleared (s : State) (m : Master) (v : Word) : Prop :=
  Reaches s m R.HKP_BCTRL → v.getLsbD 0 = true → s.dev.safeCause = false →
    Answers (.safeClr m v) s fun t =>
      (∀ k : Fin 24, t.dev.on (F.HKP_BSTAT_SAFE k) = false) ∧
      Frame ((List.range 24).map R.HKP_BSTAT) (onBus R.HKP_BCTRL id s.dev) [] s t

/-- A conversion that closes (R445, R451, R454), its mean voltage in units of 156.25 mV·2^−40 (log 46), so that V_FS is 2^43 of them in
range 0 and 2^40 in range 1: the result word of its channel holds the value with its tag advanced; a
firmware request has it in `URES` too. Then limits are checked and line HKP_RES pulses. -/
def ConversionClosed (s : State) (c : Conv) (mean : Int) (sat : Bool) : Prop :=
  s.dev.hkp.closing = some c →
    let fs : Int := if c.range = 0 then 2 ^ 43 else 2 ^ 40
    let value := (clampI 0 (2 ^ 20 - 1) (mean * 2 ^ 20 / fs)).toNat
    let ovr := sat || decide (mean < 0) || decide (fs < mean)
    let d := s.dev.modHkp fun h => { h with closing := none }
    let d := d.setReg (R.HKP_RES c.ch) (d.resultWord (F.HKP_RES_TAG c.ch) value ovr)
    let d := if c.src = 3 then d.setReg R.HKP_URES (d.resultWord F.HKP_URES_TAG value ovr) else d
    Ends (.conversionClose mean sat) s (((d.limitCheck c.ch).urgentOver c).pulse 3)

/-- A channel's limits (R454): `LIMSTAT` says whether the result's high 16 bits lie outside LO to HI, with HKP event 0xA0 as
it rises and 0xA1 as it falls. -/
def LimitChecked (d : Dev) (ch : Fin 32) : Prop :=
  let v := d.fld (F.HKP_RES_VALUE ch) / 16
  let out := decide (d.fld (F.HKP_LIM_HI ch) < v) || decide (v < d.fld (F.HKP_LIM_LO ch))
  let e := d.limitCheck ch
  e.on ⟨R.HKP_LIMSTAT, ch, 1⟩ = out ∧
    e.raised = d.raised ++ (if out == d.on ⟨R.HKP_LIMSTAT, ch, 1⟩ then [] else [⟨Blk.hkp, if out then 0xA0 else 0xA1, 0⟩]) ∧
    ∀ a, a ≠ R.HKP_LIMSTAT → e.reg a = d.reg a

/-- A conversion without a result (R453): its channel is not valid, `CFAULT` counts with HKP event 0xA3, and class 9 is
charged. -/
def ConversionFaulted (s : State) (c : Conv) : Prop :=
  s.dev.hkp.closing = some c →
    Ends .conversionFault s
      ((((((s.dev.modHkp fun h => { h with closing := none }).setOn (F.HKP_RES_VALID c.ch) false).bump R.HKP_CFAULT).raise Blk.hkp
        0xA3 0).converterFault).urgentOver c)

/-- With no conversion closing, both commands change nothing (R451, R453). -/
def NoConversion (s : State) (mean : Int) (sat : Bool) : Prop :=
  s.dev.hkp.closing = none →
    Yields (.conversionClose mean sat) s s.dev [] [] ∧ Yields .conversionFault s s.dev [] []

/-- A write of `HKP.UREQ` with GO 1 (R448): the request is taken and UPEND reads 1; while one waits, GO is ignored. -/
def UrgentAsked (s : State) (m : Master) (v : Word) : Prop :=
  Reaches s m R.HKP_UREQ → v.getLsbD 31 = true →
    let d := onBus R.HKP_UREQ (fun d => d.setReg R.HKP_UREQ (wordWritten d R.HKP_UREQ 0x73F v)) s.dev
    (s.dev.on F.HKP_SEQ_STAT_UPEND = true → Yields (.ureqGo m v) s d [R.HKP_UREQ] []) ∧
    (s.dev.on F.HKP_SEQ_STAT_UPEND = false →
      Yields (.ureqGo m v) s
        ((d.modHkp fun h => { h with reqFw := some ⟨3, d.fld F.HKP_UREQ_CH, d.fld F.HKP_UREQ_RANGE, d.fld F.HKP_UREQ_NQ + 1⟩ }).setOn
          F.HKP_SEQ_STAT_UPEND true) [R.HKP_UREQ, R.HKP_SEQ_STAT] [])

/-- A write of `HKP.SEQ_CFG` (R446, R447, R455): a rise of EN restarts the list at entry 0, and so does a LAST below ENTRY; any other write
keeps ENTRY. -/
def SequencerEnabled (s : State) (m : Master) (v : Word) : Prop :=
  Reaches s m R.HKP_SEQ_CFG →
    let d := onBus R.HKP_SEQ_CFG (fun d => d.setReg R.HKP_SEQ_CFG (wordWritten d R.HKP_SEQ_CFG 0x8000001F v)) s.dev
    let past : Prop := v.toNat % 2 ^ 5 < s.dev.fld F.HKP_SEQ_STAT_ENTRY
    ((v.getLsbD 31 = true ∧ s.dev.on F.HKP_SEQ_CFG_EN = false) ∨ past →
      Yields (.sequencerEnable m v) s (d.setFld F.HKP_SEQ_STAT_ENTRY 0) [R.HKP_SEQ_CFG, R.HKP_SEQ_STAT] []) ∧
    (v.getLsbD 31 = false ∨ s.dev.on F.HKP_SEQ_CFG_EN = true → ¬ past →
      Yields (.sequencerEnable m v) s d [R.HKP_SEQ_CFG] [])

/-! ### The processor (chapter 13) -/

/-- A fetch of a clean word in instruction SRAM that the PMP allows (R457, R463): the instruction acts. -/
def FetchRuns (s : State) (stalled : Nat) : Prop :=
  let pc := s.dev.cpu.pc.toNat
  s.dev.between = true → pc % 4 = 0 → pc + 4 ≤ 0x80000 → s.dev.pmpAllows s.dev.cpu.user pc 2 2 = true →
    s.dev.pmpAllows s.dev.cpu.user (pc + 2) 2 2 = true →
    classifyWord (s.dev.memWord pc) (s.dev.memCheck pc) = .clean →
    Ends (.instructionFetch stalled) s
      (((s.dev.modCpu fun c => { c with ipc := c.pc, iuser := c.user }).cpuEvent 6 stalled).runWord s.evq (s.dev.memWord pc))

/-- A fetch outside the regions that allow one, or without permission, is an instruction access fault with the pc in
`mtval` (R457, R463). -/
def FetchFaults (s : State) (stalled : Nat) : Prop :=
  s.dev.between = true →
    (fetchRegion s.dev.cpu.pc.toNat 2 = false ∨ s.dev.pmpAllows s.dev.cpu.user s.dev.cpu.pc.toNat 2 2 = false) →
    Ends (.instructionFetch stalled) s
      (((s.dev.modCpu fun c => { c with ipc := c.pc, iuser := c.user }).cpuEvent 6 stalled).exception 1 s.dev.cpu.pc)

/-- What an instruction of n bytes leaves: the pc at `pc`, register rd at v, x0 and every other register, the mode and memory as
before. -/
def Leaves (d e : Dev) (pc : Word) (rd : Fin 32) (v : Word) : Prop :=
  e.cpu.pc = pc ∧ (∀ r : Fin 32, e.cpu.x[r] = if r = rd ∧ r ≠ 0 then v else d.cpu.x[r]) ∧
    e.cpu.user = d.cpu.user ∧ e.cpu.op = d.cpu.op ∧ e.mem = d.mem

/-- The instructions that compute and jump (R457, log 12): the destination takes the result and the pc moves past the
instruction or to its target. -/
def InsnComputes (d : Dev) (q : Vector EvQ 32) (n : Nat) : Prop :=
  let x (r : Fin 32) : Word := if r = 0 then 0 else d.cpu.x[r]
  let next := d.cpu.pc + BitVec.ofNat 32 n
  (∀ op rd a b, Leaves d (d.runInsn q (.alu op rd a b) n) next rd (op.result (x a) (x b))) ∧
    (∀ op rd a k, Leaves d (d.runInsn q (.aluImm op rd a k) n) next rd (op.result (x a) k)) ∧
    (∀ rd v, Leaves d (d.runInsn q (.lui rd v) n) next rd v) ∧
    (∀ rd v, Leaves d (d.runInsn q (.auipc rd v) n) next rd (d.cpu.pc + v)) ∧
    (∀ rd off, Leaves d (d.runInsn q (.jal rd off) n) (d.cpu.pc + off) rd next) ∧
    (∀ rd a off, Leaves d (d.runInsn q (.jalr rd a off) n) ((x a + off) &&& 0xFFFFFFFE) rd next) ∧
    (∀ c a b off, Leaves d (d.runInsn q (.branch c a b off) n) (if c.holds (x a) (x b) then d.cpu.pc + off else next) 0 0) ∧
    Leaves d (d.runInsn q .fence n) next 0 0 ∧ Leaves d (d.runInsn q .wfi n) next 0 0

/-- Loads, stores and, in machine mode, `mret` wait for their own commands (log 6): nothing but the pc moves. -/
def InsnWaits (d : Dev) (q : Vector EvQ 32) (n : Nat) : Prop :=
  let x (r : Fin 32) : Word := if r = 0 then 0 else d.cpu.x[r]
  let wait (o : PendingOp) : Dev := d.modCpu fun c => { c with op := some o, pc := c.pc + BitVec.ofNat 32 n }
  (∀ w e rd a off, d.runInsn q (.load w e rd a off) n = wait (.load rd (x a + off) w e)) ∧
    (∀ w a b off, d.runInsn q (.store w a b off) n = wait (.store (x a + off) w (x b))) ∧
    (d.cpu.user = false → d.runInsn q .mret n = wait .mret)

/-- A CSR instruction (R457, R459): its register takes the old value, and a CSR that holds what is written takes the new one;
where the CSR is closed, or is not there, an illegal-instruction exception, and no register changes. -/
def InsnCsr (d : Dev) (q : Vector EvQ 32) (op : CsrOp) (k : Nat) (rd src : Fin 32) (imm : Bool) (n : Nat) : Prop :=
  let e := d.runInsn q (.csr op k rd src imm) n
  let wr := op == .write || src != 0
  let old := d.csrRead q k
  let v := if imm then BitVec.ofNat 32 src else if src = 0 then 0 else d.cpu.x[src]
  (csrAllowed d.cpu.user k wr = true →
    Leaves d e (d.cpu.pc + BitVec.ofNat 32 n) rd old ∧ (wr = true → csrPlain k = true → e.csr k = op.result old v)) ∧
    (csrAllowed d.cpu.user k wr = false → e.csr csrMCAUSE = 2 ∧ e.csr csrMEPC = d.cpu.ipc ∧ e.cpu.user = false ∧ e.cpu.x = d.cpu.x)

/-- A word outside the extensions is an illegal instruction; `ecall` is the exception of its mode, and `ebreak` a breakpoint
(R457). -/
def InsnTraps (d : Dev) (q : Vector EvQ 32) (w : Word) (n : Nat) : Prop :=
  let traps (e : Dev) (cause : Word) : Prop :=
    e.csr csrMCAUSE = cause ∧ e.csr csrMEPC = d.cpu.ipc ∧ e.cpu.user = false ∧ e.cpu.x = d.cpu.x ∧ e.mem = d.mem
  (decodeInsn (if isShort w then BitVec.ofNat 32 (w.toNat % 65536) else w) = none → traps (d.runWord q w) 2) ∧
    traps (d.runInsn q .ecall n) (if d.cpu.user then 8 else 11) ∧ traps (d.runInsn q .ebreak n) 3 ∧
    (d.cpu.user = true → traps (d.runInsn q .mret n) 2)

/-- A trap (R460): the pc, the cause and the value are saved, the mode is machine mode and the pc is at the vector; a
vectored interrupt goes to base + 4 × cause. No general register and no memory changes. -/
def TrapTaken (d : Dev) (cause : Nat) (intr : Bool) (epc tval : Word) : Prop :=
  let e := d.trap cause intr epc tval
  let v := (d.csr csrMTVEC).toNat
  e.csr csrMEPC = epc ∧ e.csr csrMCAUSE = BitVec.ofNat 32 (intr.toNat * 2 ^ 31 + cause) ∧ e.csr csrMTVAL = tval ∧
    e.cpu.user = false ∧ e.cpu.x = d.cpu.x ∧ e.mem = d.mem ∧
    e.cpu.pc = BitVec.ofNat 32 (if intr && v % 4 == 1 then v - v % 4 + 4 * cause else v - v % 4)

/-- A load (R458, R463, R471, R472, R474): misaligned, an exception; a word of an SRAM as its read gives it, corrected where it has to
be, its bytes in the register; a damaged word, 0 in the register and the memory-error interrupt pending; an address that leads
nowhere, an access fault. What the boot ROM holds the spec does not say: a free value (DEDUCED, log 21). -/
def Loads (s : State) (p : Word) (w : Width) (sext : Bool) (rd : Fin 32) (k : AccessClocks) : Prop :=
  let a := p.toNat
  let d := s.dev.opDone.accessClocks k
  s.dev.executing = true → s.dev.cpu.op = some (.load rd p w sext) →
    (a % widthBytes w ≠ 0 → regionOf a ≠ .regs →
      Ends (.processorLoad k) s (d.exception 4 (BitVec.ofNat 32 a))) ∧
    (∀ m, a % widthBytes w = 0 → d.pmpAllows d.dataUser a (widthBytes w) 0 = true → regionOf a = .sram m →
      let (v, damaged, e) := d.readMem m (a - a % 4) srcLoad
      (damaged = false → Ends (.processorLoad k) s (((e.setX rd (extend w sext (narrowRead a w v))).cpuEvent 3 1).retire)) ∧
      (damaged = true →
        Ends (.processorLoad k) s ((((e.setX rd 0).cpuEvent 3 1).retire).modCpu fun c => { c with memPend := true }))) ∧
    (a % widthBytes w = 0 → d.pmpAllows d.dataUser a (widthBytes w) 0 = true → regionOf a = .rom →
      Ends (.processorLoad k) s (((d.takeFree.2.setX rd (extend w sext (narrowRead 0 w d.takeFree.1))).cpuEvent 3 1).retire)) ∧
    (a % widthBytes w = 0 → d.pmpAllows d.dataUser a (widthBytes w) 0 = true → regionOf a = .nowhere →
      Ends (.processorLoad k) s (d.exception 5 (BitVec.ofNat 32 a))) ∧
    (a % widthBytes w = 0 → d.pmpAllows d.dataUser a (widthBytes w) 0 = false →
      Ends (.processorLoad k) s (d.exception 5 (BitVec.ofNat 32 a)))

/-- A load from a register is a read of the bus by the processor's master (R458, R463): what it returns goes to the register; a
block without power is an access fault, a misaligned address or an alias not read as a word a misaligned one. It all waits while
the access waits for STANDBY (R591). -/
def LoadsRegister (s : State) (p : Word) (w : Width) (sext : Bool) (rd : Fin 32) (k : AccessClocks) : Prop :=
  let a := p.toNat
  let d := s.dev.opDone.accessClocks k
  let e := d.busRead s.evq d.cpuMaster a w
  let t := BitVec.ofNat 32 a
  s.dev.executing = true → s.dev.cpu.op = some (.load rd p w sext) → regionOf a = .regs →
    (s.dev.waiting a w true = true → Yields (.processorLoad k) s s.dev [] []) ∧
    (s.dev.waiting a w true = false →
      (a % widthBytes w ≠ 0 → Ends (.processorLoad k) s ((d.badAccess a).exception 4 t)) ∧
      (a % widthBytes w = 0 → d.pmpAllows d.dataUser a (widthBytes w) 0 = false → Ends (.processorLoad k) s (d.exception 5 t)) ∧
      (a % widthBytes w = 0 → d.pmpAllows d.dataUser a (widthBytes w) 0 = true →
        (e.busRes = .off → Ends (.processorLoad k) s (e.exception 5 t)) ∧
        (e.busRes = .bad → isAlias a = true → w ≠ .word → Ends (.processorLoad k) s (e.exception 4 t)) ∧
        (e.busRes ≠ .off → (e.busRes = .bad → isAlias a = false ∨ w = .word) →
          Ends (.processorLoad k) s (((e.setX rd (extend w sext e.busWord)).cpuEvent 3 1).retire))))

/-- A store (R458, R463, R475): a word goes to its SRAM with new check bits, a narrow one merges; one that leads to a register
is a write of the bus, unless it waits for STANDBY (R591), and faults where the block has no power, or misaligned where an alias is
not written as a word; the boot ROM and addresses that lead nowhere fault. -/
def Stores (s : State) (p : Word) (w : Width) (v : Word) (k : AccessClocks) : Prop :=
  let a := p.toNat
  let d := s.dev.opDone.accessClocks k
  s.dev.executing = true → s.dev.cpu.op = some (.store p w v) →
    (a % widthBytes w ≠ 0 → regionOf a ≠ .regs →
      Ends (.processorStore k) s (d.exception 6 (BitVec.ofNat 32 a))) ∧
    (a % widthBytes w ≠ 0 → regionOf a = .regs → s.dev.waiting a w false = false →
      Ends (.processorStore k) s ((d.badAccess a).exception 6 (BitVec.ofNat 32 a))) ∧
    (a % widthBytes w = 0 → d.pmpAllows d.dataUser a (widthBytes w) 1 = false →
      Ends (.processorStore k) s (d.exception 7 (BitVec.ofNat 32 a))) ∧
    (a % widthBytes w = 0 → d.pmpAllows d.dataUser a (widthBytes w) 1 = true →
      (∀ m, regionOf a = .sram m → w = .word → Ends (.processorStore k) s (((d.cpuStoreWord m a v).cpuEvent 4 1).retire)) ∧
      (∀ m, regionOf a = .sram m → w ≠ .word →
        Ends (.processorStore k) s
          (((d.partialStore m (a - a % 4) (a % 4) (widthBytes w) v).cpuEvent 4 1).retire)) ∧
      (regionOf a = .regs → s.dev.waiting a w false = true → Yields (.processorStore k) s s.dev [] []) ∧
      (regionOf a = .regs → s.dev.waiting a w false = false →
        let e := d.busWrite d.cpuMaster a w v
        (e.busRes = .off → Ends (.processorStore k) s (e.exception 7 (BitVec.ofNat 32 a))) ∧
        (e.busRes = .bad → isAlias a = true → w ≠ .word → Ends (.processorStore k) s (e.exception 6 (BitVec.ofNat 32 a))) ∧
        (e.busRes ≠ .off → (e.busRes = .bad → isAlias a = false ∨ w = .word) →
          Ends (.processorStore k) s ((e.cpuEvent 4 1).retire))) ∧
      (regionOf a = .rom ∨ regionOf a = .nowhere → Ends (.processorStore k) s (d.exception 7 (BitVec.ofNat 32 a))))

/-- The bytes of a word stored by the processor (R475): the addressed word reads back, its check bits hold, and every other
byte of every memory is as before. -/
def WordStored (d : Dev) (m a : Nat) (v : Word) : Prop :=
  a % 4 = 0 → d.on F.ECC_INJ_EN = false →
    let e := d.cpuStoreWord m a v
    e.memWord a = v ∧ e.memCheck a = checkBits v % 256 ∧
      (∀ b, b < a ∨ a + 4 ≤ b → Cells.get zeroByte e.mem b = Cells.get zeroByte d.mem b) ∧ e.regs = d.regs ∧ e.raised = d.raised

/-- The memory-error interrupt (R474, R476): taken whatever `mstatus` and `mie` hold, to cause 16; while an earlier one is being
handled the processor halts. -/
def MemoryErrorTaken (s : State) : Prop :=
  s.dev.between = true → s.dev.cpu.memPend = true →
    (s.dev.cpu.memFlag = false →
      Ends .memoryErrorInterrupt s
        ((s.dev.modCpu fun c => { c with memPend := false, memFlag := true }).trap 16 true s.dev.cpu.pc 0)) ∧
    (s.dev.cpu.memFlag = true →
      Yields .memoryErrorInterrupt s (s.dev.modCpu fun c => { c with memPend := false, halted := true }) [] [])

/-- The quire interrupt, cause 17, and the machine external interrupt, cause 11, are taken when enabled and pending, unless a
memory error waits (R460, R461). -/
def InterruptsTaken (s : State) : Prop :=
  s.dev.between = true → s.dev.cpu.memPend = false →
    (s.dev.cpu.quirePend = true → s.dev.intOpen 17 = true →
      Ends .quireInterrupt s (s.dev.trap 17 true s.dev.cpu.pc 0)) ∧
    (s.dev.cpu.quirePend = false ∨ s.dev.intOpen 17 = false → Yields .quireInterrupt s s.dev [] []) ∧
    ((irqPend s.evq &&& s.dev.reg R.SYS_IRQ_EN) ≠ 0 → s.dev.intOpen 11 = true →
      Ends .machineExternalInterrupt s (s.dev.trap 11 true s.dev.cpu.pc 0)) ∧
    ((irqPend s.evq &&& s.dev.reg R.SYS_IRQ_EN) = 0 ∨ s.dev.intOpen 11 = false →
      Yields .machineExternalInterrupt s s.dev [] [])

/-- `mret` (R460, R476): the pc is the saved one, the mode the saved one, and the memory-error flag clears. No
general register, no other register and no memory changes, but for the counters of retired instructions. -/
def MretReturns (s : State) : Prop :=
  s.dev.executing = true → s.dev.cpu.op = some .mret →
    Answers .mret s fun t =>
      t.dev.cpu.pc = s.dev.csr csrMEPC ∧ t.dev.cpu.user = ((s.dev.csr csrMSTATUS).toNat / 2048 % 4 != 3) ∧
      t.dev.cpu.memFlag = false ∧ t.dev.cpu.op = none ∧ t.dev.cpu.x = s.dev.cpu.x ∧ t.dev.mem = s.dev.mem ∧ t.pending = s.pending

/-- `SYS.RT.DONE` ends the real-time slot's interrupt (R462); `SYS.WDT_KICK` restarts the watchdog (R477). -/
def CpuKicks (s : State) (m : Master) (v : Word) : Prop :=
  (Reaches s m R.SYS_RT → v.getLsbD 0 = true →
    Yields (.done m v) s
      (onBus R.SYS_RT (fun d => d.modCpu fun c => { c with quirePend := false, slotSeen := true }) s.dev) [] []) ∧
  (Reaches s m R.SYS_RT → v.getLsbD 0 = false → Yields (.done m v) s (onBus R.SYS_RT id s.dev) [] []) ∧
  (Reaches s m R.SYS_WDT_KICK →
    Yields (.wdtKick m v) s (onBus R.SYS_WDT_KICK (fun d => d.modPwr fun p => { p with wdt := 0 }) s.dev) [] [])

/-- The watchdog expires (R477): a restart of the management domain for cause 1 is due. -/
def WatchdogExpired (s : State) : Prop :=
  s.dev.domOn .mgt = true → s.dev.on F.SYS_WDT_CFG_EN = true → s.dev.pwr.mrst = 0 →
    s.dev.fld F.SYS_WDT_CFG_PERIOD * 32 ≤ s.dev.pwr.wdt →
    Yields .watchdogExpiry s (s.dev.modPwr fun p => { p with mrst := 1 }) [] []

/-! ### The memories (chapter 13) -/

/-- A correctable read of an SRAM gives the corrected data, and is counted; an uncorrectable one is poisoned, counted and
logged with ECC event 0xB0; a poisoned one is logged with ECC event 0xB1; both are damaged and give the stored bits (R469, R471, R473). -/
def MemoryRead (d : Dev) (m : Fin 4) (a src : Nat) : Prop :=
  (classifyWord (d.memWord a) (d.memCheck a) = .clean → d.readMem m a src = (d.memWord a, false, d)) ∧
  (∀ b, classifyWord (d.memWord a) (d.memCheck a) = .correctable b →
    d.readMem m a src = (invertBit (d.memWord a) b, false, (d.countCorr m).wordEvent a false)) ∧
  (classifyWord (d.memWord a) (d.memCheck a) = .uncorrectable →
    d.readMem m a src = (d.memWord a, true, (d.foundBad m a src).wordEvent a true)) ∧
  (classifyWord (d.memWord a) (d.memCheck a) = .poisoned →
    d.readMem m a src = (d.memWord a, true, (d.ulog m src (a - memBase m) true).raise Blk.ecc 0xB1 m))

/-- A remap request (R483): a row that exists, is not remapped and finds a spare is remapped; any other is ignored. -/
def RemapAsked (s : State) (m : Master) (v : Word) : Prop :=
  let mem := v.toNat % 65536 / 16384
  let row := v.toNat % 16384
  Reaches s m R.ECC_REMAP_REQ →
    ((s.dev.ecc.remaps.contains (mem, row) = true ∨ spareRows mem ≤ s.dev.sparesUsed mem ∨ memSize mem ≤ 256 * row) →
      Yields (.remapReq m v) s (onBus R.ECC_REMAP_REQ id s.dev) [] []) ∧
    (s.dev.ecc.remaps.contains (mem, row) = false → s.dev.sparesUsed mem < spareRows mem → 256 * row < memSize mem →
      Ends (.remapReq m v) s
        (onBus R.ECC_REMAP_REQ (fun d =>
          (((d.each (List.range 64) fun k d => d.copyWord mem (memBase mem + 256 * row + 4 * k)).modEcc fun e =>
            { e with remaps := e.remaps ++ [(mem, row)] }).bump (R.ECC_REMAP mem)).raise Blk.ecc 0xB3 mem) s.dev))

/-- A read of `ECC.ULOG` returns the oldest entry and removes it; an empty log reads 0 (R491, R518). -/
def UlogPopped (s : State) (m : Master) : Prop :=
  m ≠ .mesh → Reaches s m R.ECC_ULOG →
    Yields (.ulogRead m) s
      (((s.dev.touch .mgt).modEcc fun e => { e with ulog := e.ulog.tail }).returned .done (s.dev.ecc.ulog.headD 0)) [] []

/-- A write of `ECC.SCRUB_CTRL` (R486, R489): START over a legal range clears the summary and begins a pass at BASE, over another
range STATE is 4; while a pass runs START is ignored; ABORT ends a running pass in STATE 3. -/
def ScrubControlled (s : State) (m : Master) (v : Word) : Prop :=
  let b := (s.dev.reg R.ECC_SCRUB_BASE).toNat
  let e := (s.dev.reg R.ECC_SCRUB_END).toNat
  let legal := b % 4 = 0 ∧ e % 4 = 0 ∧ b ≤ e ∧ e < memSize (s.dev.fld F.ECC_SCRUB_CFG_MEM)
  Reaches s m R.ECC_SCRUB_CTRL → ∀ c ∈ [Instr.scrubStart m v, .scrubAbort m v],
    (v.getLsbD 1 = false → v.getLsbD 0 = true → s.dev.scrubRunning = false → legal →
      Yields c s
        (onBus R.ECC_SCRUB_CTRL (fun d => ((d.each [R.ECC_SCRUB_READ, R.ECC_SCRUB_FIXED, R.ECC_SCRUB_UNC, R.ECC_SCRUB_FIRST,
          R.ECC_SCRUB_LAST, R.ECC_SCRUB_CYC] fun a d => d.setReg a 0).setFld F.ECC_SCRUB_STAT_STATE 1).modEcc fun x =>
            { x with scrubAt := b, scrubMem := s.dev.fld F.ECC_SCRUB_CFG_MEM, scrubLast := e }) s.dev)
        [R.ECC_SCRUB_READ, R.ECC_SCRUB_FIXED, R.ECC_SCRUB_UNC, R.ECC_SCRUB_FIRST, R.ECC_SCRUB_LAST, R.ECC_SCRUB_CYC,
         R.ECC_SCRUB_STAT] []) ∧
    (v.getLsbD 1 = false → v.getLsbD 0 = true → s.dev.scrubRunning = false → ¬ legal →
      Yields c s (onBus R.ECC_SCRUB_CTRL (fun d => d.setFld F.ECC_SCRUB_STAT_STATE 4) s.dev) [R.ECC_SCRUB_STAT] []) ∧
    (v.getLsbD 1 = false → s.dev.scrubRunning = true → Yields c s (onBus R.ECC_SCRUB_CTRL id s.dev) [] []) ∧
    (v.getLsbD 1 = true → s.dev.scrubRunning = true →
      Yields c s (onBus R.ECC_SCRUB_CTRL (fun d => d.setFld F.ECC_SCRUB_STAT_STATE 3) s.dev) [R.ECC_SCRUB_STAT] [])

/-- A word of a scrub pass (R473, R487, R489): READ counts it, CYC grows by its clocks (at least 4), and the pass goes on or,
after the last word, ends in STATE 2 with ECC event 0xB5. A clean word stays; a correctable one is rewritten corrected and
counted in `SCRUB_FIXED`; an uncorrectable one is poisoned and reported as at any read, and a damaged one of either kind is
counted in `SCRUB_UNC` with its offset. -/
def ScrubStepped (s : State) (clocks : Nat) : Prop :=
  let m := s.dev.ecc.scrubMem
  let off := s.dev.ecc.scrubAt
  let a := memBase m + off
  let word := s.dev.memWord a
  let d := (s.dev.bump R.ECC_SCRUB_READ).setReg R.ECC_SCRUB_CYC
    (BitVec.ofNat 32 (min (2 ^ 32 - 1) ((s.dev.reg R.ECC_SCRUB_CYC).toNat + max 4 clocks)))
  let noted (e : Dev) : Dev :=
    ((if e.reg R.ECC_SCRUB_UNC = 0 then e.setReg R.ECC_SCRUB_FIRST (BitVec.ofNat 32 off) else e).setReg R.ECC_SCRUB_LAST
      (BitVec.ofNat 32 off)).bump R.ECC_SCRUB_UNC
  let goesOn (e : Dev) : Prop :=
    (off < e.ecc.scrubLast → Ends (.scrubWord clocks) s (e.modEcc fun x => { x with scrubAt := off + 4 })) ∧
    (e.ecc.scrubLast ≤ off → Ends (.scrubWord clocks) s (e.scrubEnd 2))
  s.dev.scrubRunning = true →
    (classifyWord word (s.dev.memCheck a) = .clean →
      (off < s.dev.ecc.scrubLast →
        Yields (.scrubWord clocks) s (d.modEcc fun x => { x with scrubAt := off + 4 }) [R.ECC_SCRUB_READ, R.ECC_SCRUB_CYC] []) ∧
      (s.dev.ecc.scrubLast ≤ off →
        Yields (.scrubWord clocks) s (d.setFld F.ECC_SCRUB_STAT_STATE 2) [R.ECC_SCRUB_READ, R.ECC_SCRUB_CYC, R.ECC_SCRUB_STAT]
          [(Blk.ecc, 0xB5, m)])) ∧
    (∀ b, classifyWord word (s.dev.memCheck a) = .correctable b →
      goesOn ((((d.countCorr m).wordEvent a false).storeWord a (invertBit word b)).bump R.ECC_SCRUB_FIXED)) ∧
    (classifyWord word (s.dev.memCheck a) = .uncorrectable → goesOn (noted ((d.foundBad m a srcScrub).wordEvent a true))) ∧
    (classifyWord word (s.dev.memCheck a) = .poisoned → goesOn (noted d))

/-- A restart of the management domain (R478, R507): for the cause that is due, a halted processor being cause 2; the processor
and the DMA engine stop, a scrub pass and the ECC ledger end (R489, R732), the contents of the SRAMs are lost but for the
retention SRAM and read 0 (DESIGN CHOICE, log 3), what else survives is log 15's, and the start-up sequence is due. -/
def RestartTaken (s : State) : Prop :=
  let cause := if s.dev.pwr.mrst ≠ 0 then s.dev.pwr.mrst else if s.dev.cpu.halted then 2 else 0
  (cause = 0 ∨ s.dev.domOn .mgt = false → Yields .managementRestart s s.dev [] []) ∧
  (cause ≠ 0 → cause < 16 → s.dev.domOn .mgt = true →
    Answers .managementRestart s fun t =>
      t.dev.fld F.SYS_MRST_CAUSE = cause ∧ t.dev.fld F.SYS_MRST_COUNT = (s.dev.fld F.SYS_MRST_COUNT + 1) % 2 ^ 16 ∧
      t.dev.ecc.ulog = [] ∧ t.dev.fld F.ECC_SCRUB_STAT_STATE = 0 ∧ (∀ m, m < 4 → t.dev.reg (R.ECC_CORR m) = 0) ∧
      t.dev.cpu = s.dev.cpu.restarted ∧ t.dev.pwr.booted = false ∧ t.dev.mgmt.ready = false ∧ t.dev.mgmt.busy = [] ∧
      t.dev.fld F.DMA_ACTIVE_CH = 15 ∧ (∀ c, c < 8 → t.dev.dmaState c = 0) ∧
      (∀ b, Cells.get zeroByte t.dev.mem b = if memBase 3 ≤ b then Cells.get zeroByte s.dev.mem b else 0) ∧
      t.pending = s.pending)


/-! ### The DMA engine (chapter 14) -/

/-- The transfer of R496: what the address of its source, of its destination and its byte count have to satisfy. -/
def DmaLegal (d : Dev) (c src dst n : Nat) : Prop :=
  let b := 16 * 2 ^ d.fld (F.DMA_CFG_BURST c)
  let inside (a n : Nat) : Prop :=
    (a + n ≤ 0x80000) ∨ (0x100000 ≤ a ∧ a + n ≤ 0x140000) ∨ (0x200000 ≤ a ∧ a + n ≤ 0x600000) ∨
      (0x10000000 ≤ a ∧ a + n ≤ 0x10200000)
  (src % b = 0 ∧ dst % b = 0 ∧ n % b = 0 ∧ n ≠ 0) ∧
    inside src (if d.on (F.DMA_CFG_SFIX c) then 4 else n) ∧ inside dst (if d.on (F.DMA_CFG_DFIX c) then 4 else n)

/-- A channel is in its hand-over cycle (R504). -/
def handing (d : Dev) (c : Nat) : Prop := d.fld F.DMA_ACTIVE_CH = c ∧ d.dma.handOver = true

/-- START (R496, R498, R499): a legal transfer waits with no request pending; one that is not aligned is in error 1, one that
is aligned but leaves its region in error 2; while the channel waits or runs START is ignored. -/
def DmaStarted (s : State) (m : Master) (c : Fin 8) (v : Word) : Prop :=
  let a := R.DMA_CTRL c
  let src := (s.dev.reg (R.DMA_SRC c)).toNat
  let dst := (s.dev.reg (R.DMA_DST c)).toNat
  let n := s.dev.fld (F.DMA_COUNT_COUNT c)
  let b := 16 * 2 ^ s.dev.fld (F.DMA_CFG_BURST c)
  let aligned := src % b = 0 ∧ dst % b = 0 ∧ n % b = 0 ∧ n ≠ 0
  let ends (err st : Nat) : Prop := Yields (.dmaStart m c v) s
    (onBus a (fun d => ((d.setFld (F.DMA_STAT_ERR c) err).setFld (F.DMA_STAT_PEND c) 0).setFld (F.DMA_STAT_STATE c) st) s.dev)
    [R.DMA_STAT c] []
  Reaches s m a → ¬ handing s.dev c → v.getLsbD 2 = false → v.getLsbD 1 = false → v.getLsbD 0 = true →
    ((s.dev.dmaState c = 1 ∨ s.dev.dmaState c = 2) → Yields (.dmaStart m c v) s (onBus a id s.dev) [] []) ∧
    (s.dev.dmaState c ≠ 1 → s.dev.dmaState c ≠ 2 →
      (DmaLegal s.dev c src dst n → ends 0 1) ∧ (¬ aligned → ends 1 3) ∧
      (aligned → ¬ DmaLegal s.dev c src dst n → ends 2 3))

/-- NEXT (R497): a legal shadow is armed; one that is not leaves its code; while a shadow is armed NEXT is ignored. -/
def DmaArmed (s : State) (m : Master) (c : Fin 8) (v : Word) : Prop :=
  let a := R.DMA_CTRL c
  let src := (s.dev.reg (R.DMA_NSRC c)).toNat
  let dst := (s.dev.reg (R.DMA_NDST c)).toNat
  let n := s.dev.fld (F.DMA_NCOUNT_NCOUNT c)
  Reaches s m a → ¬ handing s.dev c → v.getLsbD 2 = true → v.getLsbD 1 = false → v.getLsbD 0 = false →
    (s.dev.on (F.DMA_STAT_SH_VALID c) = true → Yields (.dmaNext m c v) s (onBus a id s.dev) [] []) ∧
    (s.dev.on (F.DMA_STAT_SH_VALID c) = false → DmaLegal s.dev c src dst n →
      Yields (.dmaNext m c v) s
        (onBus a (fun d => (d.setFld (F.DMA_STAT_SH_ERR c) 0).setOn (F.DMA_STAT_SH_VALID c) true) s.dev) [R.DMA_STAT c] []) ∧
    (s.dev.on (F.DMA_STAT_SH_VALID c) = false → ¬ DmaLegal s.dev c src dst n →
      Answers (.dmaNext m c v) s fun t =>
        t.dev.on (F.DMA_STAT_SH_VALID c) = false ∧ t.dev.fld (F.DMA_STAT_SH_ERR c) ∈ [1, 2] ∧
        t.dev.fld (F.DMA_STAT_STATE c) = s.dev.fld (F.DMA_STAT_STATE c) ∧
        Frame [R.DMA_STAT c] (onBus a id s.dev) [] s t)

/-- ABORT, with or without START (R498, R499, R506): a channel that waits or runs halts with error 5, its shadow is dropped
and the engine is free if it had it; no access has failed, so the error address is open (log 2). Any other channel only loses
its pending requests. -/
def DmaAborted (s : State) (m : Master) (c : Fin 8) (v : Word) : Prop :=
  let a := R.DMA_CTRL c
  Reaches s m a → ¬ handing s.dev c → v.getLsbD 2 = false → v.getLsbD 1 = true →
    (s.dev.dmaState c ≠ 1 → s.dev.dmaState c ≠ 2 →
      Yields (.dmaAbort m c v) s (onBus a (fun d => d.setFld (F.DMA_STAT_PEND c) 0) s.dev) [R.DMA_STAT c] []) ∧
    ((s.dev.dmaState c = 1 ∨ s.dev.dmaState c = 2) →
      Answers (.dmaAbort m c v) s fun t =>
        t.dev.dmaState c = 3 ∧ t.dev.fld (F.DMA_STAT_ERR c) = 5 ∧ t.dev.fld (F.DMA_STAT_PEND c) = 0 ∧
        t.dev.on (F.DMA_STAT_SH_VALID c) = false ∧ t.dev.reg (R.DMA_ERR_ADDR c) = Config.free s.dev.freeCtr ∧
        t.dev.reg (R.DMA_ERR c) = s.dev.reg (R.DMA_ERR c) + 1 ∧
        t.dev.fld F.DMA_ACTIVE_CH = (if s.dev.fld F.DMA_ACTIVE_CH = c then 15 else s.dev.fld F.DMA_ACTIVE_CH) ∧
        Kept [R.DMA_STAT c, R.DMA_ERR_ADDR c, R.DMA_ERR c, R.DMA_ACTIVE] s t ∧ t.dev.mem = s.dev.mem ∧
        Events [] s t ∧ t.pending = s.pending)

/-- A transfer's registers take a write only while the channel is idle or in error, a shadow's only while it is not armed
(R498). -/
def DmaRegWritten (s : State) (m : Master) (c : Fin 8) (v : Word) : Prop :=
  (∀ a ∈ [R.DMA_SRC c, R.DMA_DST c], Reaches s m a → ¬ handing s.dev c →
    ((s.dev.dmaState c = 0 ∨ s.dev.dmaState c = 3) →
      Yields (.registerWrite m a .word v) s (onBus a (fun d => d.setReg a v) s.dev) [a] []) ∧
    ((s.dev.dmaState c = 1 ∨ s.dev.dmaState c = 2) → Yields (.registerWrite m a .word v) s (onBus a id s.dev) [] [])) ∧
  (∀ a ∈ [R.DMA_NSRC c, R.DMA_NDST c], Reaches s m a → ¬ handing s.dev c →
    (s.dev.on (F.DMA_STAT_SH_VALID c) = false →
      Yields (.registerWrite m a .word v) s (onBus a (fun d => d.setReg a v) s.dev) [a] []) ∧
    (s.dev.on (F.DMA_STAT_SH_VALID c) = true → Yields (.registerWrite m a .word v) s (onBus a id s.dev) [] []))

/-- A pulse on a request line (R499, R501): each channel that waits or runs and listens to the line has one more request
pending, or loses the pulse at 255; lines 0 and 10 to 15 never pulse. -/
def DmaRequested (s : State) (line : Fin 32) : Prop :=
  Answers (.dmaRequest line) s fun t =>
    (∀ c : Fin 8,
      let hears := line.val ≠ 0 ∧ ¬ (10 ≤ line.val ∧ line.val ≤ 15) ∧ s.dev.fld (F.DMA_CFG_REQ c) = line ∧
        (s.dev.dmaState c = 1 ∨ s.dev.dmaState c = 2)
      (hears → s.dev.fld (F.DMA_STAT_PEND c) < 255 →
        t.dev.reg (R.DMA_STAT c) = (s.dev.bumpFld (F.DMA_STAT_PEND c)).reg (R.DMA_STAT c) ∧
        t.dev.fld (F.DMA_STAT_PEND c) = s.dev.fld (F.DMA_STAT_PEND c) + 1 ∧
        t.dev.reg (R.DMA_REQ_LOST c) = s.dev.reg (R.DMA_REQ_LOST c)) ∧
      (hears → s.dev.fld (F.DMA_STAT_PEND c) = 255 →
        t.dev.reg (R.DMA_STAT c) = s.dev.reg (R.DMA_STAT c) ∧
        t.dev.reg (R.DMA_REQ_LOST c) = s.dev.reg (R.DMA_REQ_LOST c) + 1) ∧
      (¬ hears → t.dev.reg (R.DMA_STAT c) = s.dev.reg (R.DMA_STAT c) ∧
        t.dev.reg (R.DMA_REQ_LOST c) = s.dev.reg (R.DMA_REQ_LOST c))) ∧
    Frame ((List.range 8).flatMap fun c => [R.DMA_STAT c, R.DMA_REQ_LOST c]) s.dev [] s t

/-- With no channel active the lowest one that waits with a request pending becomes active (R502); with one active, or none
that waits so, nothing changes. -/
def DmaActivated (s : State) : Prop :=
  let ready (c : Fin 8) : Prop := s.dev.dmaState c = 1 ∧ (s.dev.fld (F.DMA_CFG_REQ c) = 0 ∨ 0 < s.dev.fld (F.DMA_STAT_PEND c))
  (s.dev.fld F.DMA_ACTIVE_CH ≠ 15 → Yields .dmaActivate s s.dev [] []) ∧
  ((∀ c, ¬ ready c) → Yields .dmaActivate s s.dev [] []) ∧
  (s.dev.fld F.DMA_ACTIVE_CH = 15 → ∀ c : Fin 8, ready c → (∀ k : Fin 8, k < c → ¬ ready k) →
    Yields .dmaActivate s ((s.dev.setFld (F.DMA_STAT_STATE c) 2).setFld F.DMA_ACTIVE_CH c) [R.DMA_STAT c, R.DMA_ACTIVE] [])

/-- A beat is due: the channel has the engine, is not in its hand-over cycle, and is within a burst or has a request
pending (R500, R502). -/
def beatDue (d : Dev) (c : Fin 8) : Prop :=
  d.fld F.DMA_ACTIVE_CH = c ∧ d.dmaState c = 2 ∧ d.dma.handOver = false ∧
    (0 < d.dma.burst[c] ∨ d.fld (F.DMA_CFG_REQ c) = 0 ∨ 0 < d.fld (F.DMA_STAT_PEND c))

/-- A beat between memories (R494): the word at the source stands, unchanged, at the destination and no other byte changes;
COUNT falls by 4, and each address advances by 4 unless it is held fixed; outside the performance counters, which may count
the beat, no other register changes. -/
def DmaBeatMoved (s : State) (c : Fin 8) : Prop :=
  let src := (s.dev.reg (R.DMA_SRC c)).toNat
  let dst := (s.dev.reg (R.DMA_DST c)).toNat
  beatDue s.dev c → (memOf src).isSome = true → (memOf dst).isSome = true → dst % 4 = 0 →
    classifyWord (s.dev.memWord src) (s.dev.memCheck src) = .clean →
    Answers .dmaBeat s fun t =>
      t.dev.memWord dst = s.dev.memWord src ∧ t.dev.memCheck dst = checkBits (s.dev.memWord src) % 256 ∧
      (∀ b, b < dst ∨ dst + 4 ≤ b → Cells.get zeroByte t.dev.mem b = Cells.get zeroByte s.dev.mem b) ∧
      t.dev.fld (F.DMA_COUNT_COUNT c) = s.dev.fld (F.DMA_COUNT_COUNT c) - 4 ∧
      t.dev.reg (R.DMA_SRC c) = (if s.dev.on (F.DMA_CFG_SFIX c) then 0 else 4) + s.dev.reg (R.DMA_SRC c) ∧
      t.dev.reg (R.DMA_DST c) = (if s.dev.on (F.DMA_CFG_DFIX c) then 0 else 4) + s.dev.reg (R.DMA_DST c) ∧
      (∀ a, blockOf a ≠ Blk.cnt → a ≠ R.MGT_STAT → a ∉ [R.DMA_STAT c, R.DMA_COUNT c, R.DMA_SRC c, R.DMA_DST c] →
        t.dev.reg a = s.dev.reg a) ∧
      (∀ b : Fin 32, b.val ≠ Blk.cnt → t.evq[b] = s.evq[b]) ∧ t.pending = s.pending

/-- A beat whose read is damaged, or whose domain is off, halts the channel at that address with error 3 or 4, and nothing is
written (R506); with no beat due nothing changes. -/
def DmaBeatHalted (s : State) : Prop :=
  (s.dev.dmaBeatDue = none → Yields .dmaBeat s s.dev [] []) ∧
  (∀ c : Fin 8, s.dev.dmaBeatDue = some c →
    let src := (s.dev.reg (R.DMA_SRC c)).toNat
    let d := (s.dev.dmaBurstStart c).devEvent 11 1
    ((d.beatRead s.evq src).1 = .damaged → Ends .dmaBeat s ((d.beatRead s.evq src).2.dmaHalt c 3 src)) ∧
    ((d.beatRead s.evq src).1 = .domain → Ends .dmaBeat s ((d.beatRead s.evq src).2.dmaHalt c 4 src)))

/-- A halt (R506): STATE 3 and the code, the failing address, one more halt counted, the engine free if the channel had it; the
transfer's registers, the shadow and the memories stay. -/
def DmaHalted (d : Dev) (c : Fin 8) (err addr : Nat) : Prop :=
  err < 8 →
    let e := d.dmaHalt c err addr
    e.dmaState c = 3 ∧ e.fld (F.DMA_STAT_ERR c) = err ∧ e.reg (R.DMA_ERR_ADDR c) = BitVec.ofNat 32 addr ∧
      e.reg (R.DMA_ERR c) = d.reg (R.DMA_ERR c) + 1 ∧ e.on (F.DMA_STAT_SH_VALID c) = d.on (F.DMA_STAT_SH_VALID c) ∧
      e.fld F.DMA_ACTIVE_CH = (if d.fld F.DMA_ACTIVE_CH = c then 15 else d.fld F.DMA_ACTIVE_CH) ∧ e.mem = d.mem ∧
      (∀ a, a ∉ [R.DMA_STAT c, R.DMA_ERR_ADDR c, R.DMA_ERR c, R.DMA_ACTIVE] → e.reg a = d.reg a)

/-- The hand-over cycle (R504), its completion pulse switched off: the transfer is counted, the engine is free, and the channel
takes its armed shadow and waits, or is idle. -/
def DmaCompleted (s : State) (c : Fin 8) : Prop :=
  handing s.dev c → s.dev.on (F.DMA_CFG_EVT_EN c) = false →
    Answers .dmaComplete s fun t =>
      t.dev.reg (R.DMA_DONE c) = s.dev.reg (R.DMA_DONE c) + 1 ∧ t.dev.fld F.DMA_ACTIVE_CH = 15 ∧
      t.dev.on (F.DMA_STAT_SH_VALID c) = false ∧ t.dev.dma.handOver = false ∧
      t.dev.fld (F.DMA_STAT_PEND c) = s.dev.fld (F.DMA_STAT_PEND c) ∧
      (s.dev.on (F.DMA_STAT_SH_VALID c) = true →
        t.dev.dmaState c = 1 ∧ t.dev.reg (R.DMA_SRC c) = s.dev.reg (R.DMA_NSRC c) ∧
        t.dev.reg (R.DMA_DST c) = s.dev.reg (R.DMA_NDST c) ∧
        t.dev.fld (F.DMA_COUNT_COUNT c) = s.dev.fld (F.DMA_NCOUNT_NCOUNT c)) ∧
      (s.dev.on (F.DMA_STAT_SH_VALID c) = false →
        t.dev.dmaState c = 0 ∧ Kept [R.DMA_STAT c, R.DMA_DONE c, R.DMA_ACTIVE] s t) ∧
      Kept [R.DMA_STAT c, R.DMA_DONE c, R.DMA_ACTIVE, R.DMA_SRC c, R.DMA_DST c, R.DMA_COUNT c] s t ∧
      t.dev.mem = s.dev.mem ∧ Events [] s t ∧ t.pending = s.pending

/-- With its completion pulse switched on, a transfer that hands over to no shadow pulses its line on every channel that hears it
(R501, R504). -/
def DmaPulses (s : State) (c k : Fin 8) : Prop :=
  handing s.dev c → s.dev.on (F.DMA_CFG_EVT_EN c) = true → k ≠ c →
    s.dev.fld (F.DMA_CFG_REQ k) = 16 + s.dev.fld (F.DMA_CFG_EVL c) → s.dev.dmaState k = 1 →
    s.dev.fld (F.DMA_STAT_PEND k) < 255 →
    Answers .dmaComplete s fun t =>
      t.dev.fld (F.DMA_STAT_PEND k) = s.dev.fld (F.DMA_STAT_PEND k) + 1 ∧
      t.dev.reg (R.DMA_DONE c) = s.dev.reg (R.DMA_DONE c) + 1


/-! ### The management port (chapter 16) -/

/-- The bus address of the device (R545, R546): the dynamic address it holds, else the static address 0x50. -/
def OwnAddress (d : Dev) (a : BitVec 7) : Prop :=
  a.toNat = if d.on F.MGT_STAT_I3C then d.fld F.MGT_STAT_DADDR else 0x50

/-- While the port is busy, or does not answer, or is not the one addressed, it takes no transaction (R545, R548, R553); before READY it
ignores a write (R564). -/
def PortSilent (s : State) (a : BitVec 7) (addr : Byte) (data : List Byte) (len : Nat) : Prop :=
  ((s.dev.portOn = false ∨ s.dev.mgmt.busy ≠ [] ∨ s.dev.mgmt.ready = false ∨ ¬ OwnAddress s.dev a) →
    Yields (.mgmtPortWrite (a, addr) data) s s.dev [] []) ∧
  ((s.dev.portOn = false ∨ s.dev.mgmt.busy ≠ [] ∨ ¬ OwnAddress s.dev a) → Yields (.mgmtPortRead (a, addr) len) s s.dev [] [])

/-- The port takes a write that comes to address a. -/
def portOpen (d : Dev) (a : BitVec 7) : Prop := d.portOn = true ∧ d.mgmt.busy = [] ∧ d.mgmt.ready = true ∧ OwnAddress d a

/-- A host write of any number of bytes to lower memory below byte 126 (R547, R548): each is stored, no other byte changes, the write
is named in `MGT.WPEND` with event 0xC4, and the port is busy until the firmware is done. -/
def PortBytesWritten (s : State) (a : BitVec 7) (addr : Byte) (data : List Byte) : Prop :=
  portOpen s.dev a → data ≠ [] → data.length ≤ 128 → addr.toNat + data.length ≤ 126 →
    Answers (.mgmtPortWrite (a, addr) data) s fun t =>
      (∀ i, i < data.length → some (t.dev.pageByte (addr.toNat + i)) = data[i]?) ∧
      (∀ k, k < addr.toNat ∨ addr.toNat + data.length ≤ k → t.dev.pageByte k = s.dev.pageByte k) ∧
      t.dev.fld F.MGT_WPEND_PAGE = 0 ∧ t.dev.fld F.MGT_WPEND_BANK = s.dev.selBank % 2 ∧ t.dev.fld F.MGT_WPEND_OFFSET = 0x7F ∧
      Frame [R.MGT_WPEND] (s.dev.modMgmt fun m => { m with pages := t.dev.mgmt.pages, busy := [.firmware] }) [(Blk.mgt, 0xC4, 0)] s t

/-- A host write of one byte (R547, R548, R558, R560): a CMIS byte of lower memory is stored, named in `MGT.WPEND` with event
0xC4, and keeps the port busy for the firmware; the page byte selects, and the port is busy with a window page's fetch, else
with its own engine; a command byte of the maintenance page keeps it busy with that command; a byte of a window page waits to be
written to its register. A byte of pages 00h to 14h is stored where the page has it, and for the firmware either way; one that
sets a checker restarts it (R47). -/
def PortByteWritten (s : State) (a : BitVec 7) (addr b : Byte) : Prop :=
  portOpen s.dev a →
    let w := Instr.mgmtPortWrite (a, addr) [b]
    let busy (l : List Busy) (d : Dev) : Dev := d.modMgmt fun m => { m with busy := l }
    (addr.toNat < 126 →
      Yields w s
        (busy [.firmware] ((((s.dev.setPageByte addr.toNat b).setFld F.MGT_WPEND_PAGE 0).setFld F.MGT_WPEND_BANK
          s.dev.selBank).setFld F.MGT_WPEND_OFFSET 0x7F)) [R.MGT_WPEND] [(Blk.mgt, 0xC4, 0)]) ∧
    (addr = 127 →
      Yields w s (busy (if 0x81 ≤ b.toNat ∧ b.toNat ≤ 0x8F then [.fetch (b.toNat - 0x80)] else [.engine]) (s.dev.setPageByte 127 b)) [] []) ∧
    (addr = 129 → s.dev.selPage = 0x80 →
      (b = 1 → Yields w s (busy [.newnonce] s.dev) [] []) ∧ (b = 2 → Yields w s (busy [.submit] s.dev) [] []) ∧
      (b = 3 → Yields w s (busy [.lock] s.dev) [] []) ∧ (b = 0x20 → Yields w s (busy [.popevq] s.dev) [] []) ∧
      (∀ k, 1 ≤ k → k ≤ 15 → b = BitVec.ofNat 8 (0x10 + k) → Yields w s (busy [.refresh k] s.dev) [] [])) ∧
    (128 ≤ addr.toNat → 0x81 ≤ s.dev.selPage → s.dev.selPage ≤ 0x8F →
      Yields w s (busy [.write (s.dev.selPage - 0x80) [(addr.toNat, b)]]
        (s.dev.setPageByte (256 * (s.dev.selPage + 1) + addr.toNat) b)) [] []) ∧
    (128 ≤ addr.toNat → s.dev.selPage ≤ 0x14 →
      let stored := if banked s.dev.selPage s.dev.selBank addr.toNat
        then s.dev.setPageByte (pageKey s.dev.selPage s.dev.selBank addr.toNat) b else s.dev
      let named (d : Dev) := ((d.setFld F.MGT_WPEND_PAGE s.dev.selPage).setFld F.MGT_WPEND_BANK s.dev.selBank).setFld
        F.MGT_WPEND_OFFSET (addr.toNat - 128)
      (s.dev.selPage ≠ 0x13 → Yields w s (busy [.firmware] (named stored)) [R.MGT_WPEND] [(Blk.mgt, 0xC4, 0)]) ∧
      (s.dev.selPage = 0x13 → Answers w s fun t =>
        (∀ h : HostLane, t.dev.host[h] =
          if stored.checkerPattern h = s.dev.checkerPattern h then s.dev.host[h]
          else { s.dev.host[h] with check := PatternCheck.init }) ∧
        Frame [R.MGT_WPEND] (busy [.firmware] { stored with host := t.dev.host }) [(Blk.mgt, 0xC4, 0)] s t)) ∧
    (128 ≤ addr.toNat → 0x14 < s.dev.selPage → pageListed s.dev.selPage s.dev.selBank = false → Yields w s s.dev [] [])

/-- A host read (R547, R555, R556, R564): the bytes from the offset on, which runs from 127 into the selected page and wraps
from 255 to 128; of the device only the latched flags read change, and before READY all bytes but 0 to 2 read 0. Page 11h shows
the data path states of the bank's host lanes in its first four bytes (R567), byte 3 shows the module's (R549), pages 01h and
13h what is advertised (R47, R714), and page 14h the results of the checkers (R47). Where CMIS puts them is taken from outside
the spec (PRESUMED, log 7). -/
def PortBytesRead (s : State) (a : BitVec 7) (addr : Byte) (len : Nat) : Prop :=
  s.dev.portOn = true → s.dev.mgmt.busy = [] → OwnAddress s.dev a →
    Answers (.mgmtPortRead (a, addr) len) s fun t =>
      t.dev.mgmt.rdata.length = len ∧
      (∀ i, i < len → ∃ o, o = (if addr.toNat + i < 256 then addr.toNat + i else 128 + (addr.toNat + i - 256) % 128) ∧
        (s.dev.mgmt.ready = true → o = 3 →
          t.dev.mgmt.rdata[i]? = some (BitVec.ofNat 8 (2 * s.dev.cmisState + (!s.dev.intLow).toNat))) ∧
        (s.dev.mgmt.ready = true → o < 118 → o ≠ 3 → t.dev.mgmt.rdata[i]? = some (s.dev.pageByte o)) ∧
        (s.dev.mgmt.ready = true → 118 ≤ o → o < 126 → t.dev.mgmt.rdata[i]? = some 0) ∧
        (s.dev.mgmt.ready = true → 128 ≤ o → pageListed s.dev.selPage s.dev.selBank = false → t.dev.mgmt.rdata[i]? = some 0) ∧
        (s.dev.mgmt.ready = true → 128 ≤ o → s.dev.selPage ≠ 0x80 → (s.dev.selPage ≠ 0x11 ∨ 132 ≤ o) →
          pageListed s.dev.selPage s.dev.selBank = true → (s.dev.selBank ≠ 1 ∨ mediaField s.dev.selPage o = false) →
          (s.dev.selPage ≠ 0x14 ∨ o < 192) →
          t.dev.mgmt.rdata[i]? = some (advertised s.dev.selPage o (s.dev.pageByte (pageKey s.dev.selPage s.dev.selBank o)))) ∧
        (s.dev.mgmt.ready = true → 192 ≤ o → s.dev.selPage = 0x14 → s.dev.selBank < 2 →
          t.dev.mgmt.rdata[i]? = some (s.dev.checkerByte s.dev.selBank (o - 192))) ∧
        (s.dev.mgmt.ready = true → 128 ≤ o → o < 132 → s.dev.selPage = 0x11 → s.dev.selBank < 2 →
          t.dev.mgmt.rdata[i]? = some (s.dev.dpByte s.dev.selBank (o - 128))) ∧
        (s.dev.mgmt.ready = false → 3 ≤ o → t.dev.mgmt.rdata[i]? = some 0)) ∧
      (∀ k, (∀ p ∈ flagMasks, p.1 ≠ k) → t.dev.pageByte k = s.dev.pageByte k) ∧
      Kept [] s t ∧ t.dev.mem = s.dev.mem ∧ Events [] s t ∧ t.pending = s.pending

/-- A flag byte that is read clears; below WARN nothing latches it again (R555). -/
def FlagCleared (s : State) (a : BitVec 7) (addr : Byte) : Prop :=
  portOpen s.dev a → 8 ≤ addr.toNat → addr.toNat ≤ 13 → s.dev.fld F.THM_STAT_LEVEL = 0 →
    Yields (.mgmtPortRead (a, addr) 1) s
      ((s.dev.setPageByte addr.toNat 0).modMgmt fun m => { m with rdata := [s.dev.pageByte addr.toNat] }) [] []

/-- A window fetch (R557, R559, R560): a base that is not a multiple of 4 or not in the register space is refused with WSTAT 3; any
other fills the window; with no fetch waiting nothing changes. -/
def WindowFetched (s : State) (k : Nat) : Prop :=
  let base := s.dev.windowBase k
  ∀ c ∈ [(Instr.windowFetch, Busy.fetch k), (.refresh, .refresh k)],
    s.dev.mgmt.busy = [c.2] →
      Ends c.1 s ((s.dev.fetchWindow s.evq k).endBusy c.2) ∧
      ((base % 4 ≠ 0 ∨ base < 0x10000000 ∨ 0x10200000 < base + 128) →
        Yields c.1 s
          ((s.dev.setPageByte (maint 131) 3).modMgmt fun m => { m with busy := [], sessQ := 0 }) [] [])

/-- Nothing to fetch or to write: nothing changes. -/
def WindowIdle (s : State) : Prop :=
  s.dev.mgmt.busy = [] →
    Yields .windowFetch s s.dev [] [] ∧ Yields .refresh s s.dev [] [] ∧ Yields .windowWrite s s.dev [] [] ∧
    Yields .newnonce s s.dev [] [] ∧ Yields .submit s s.dev [] [] ∧ Yields .lock s s.dev [] [] ∧ Yields .popevq s s.dev [] []

/-- A window write (R558): four bytes that cover register i are one word write with the first byte the most significant; one byte j
of it is a byte write at offset 3 − j. -/
def WindowWritten (s : State) (k i : Nat) (b0 b1 b2 b3 : Byte) : Prop :=
  let base := s.dev.windowBase k
  let key (j : Nat) := 256 * (0x81 + k) + 128 + 4 * i + j
  let ends (d : Dev) (l : List (Nat × Byte)) : Prop :=
    Ends .windowWrite s ((d.setWstat (d.wstatOf (base + 4 * i))).endBusy (.write k l))
  1 ≤ k → k ≤ 15 → i < 32 → windowBaseOk base = true →
    (s.dev.mgmt.busy = [.write k [(128 + 4 * i, b0), (129 + 4 * i, b1), (130 + 4 * i, b2), (131 + 4 * i, b3)]] →
      ends ((((((s.dev.setPageByte (key 0) b0).setPageByte (key 1) b1).setPageByte (key 2) b2).setPageByte (key 3) b3).windowOp).busWrite
        .host (base + 4 * i) .word (b0 ++ b1 ++ b2 ++ b3))
        [(128 + 4 * i, b0), (129 + 4 * i, b1), (130 + 4 * i, b2), (131 + 4 * i, b3)]) ∧
    (∀ j, j < 4 → s.dev.mgmt.busy = [.write k [(128 + 4 * i + j, b0)]] →
      ends (((s.dev.setPageByte (key j) b0).windowOp).busWrite .host (base + 4 * i + (3 - j)) .byte (b0.setWidth 32))
        [(128 + 4 * i + j, b0)])

/-- NEWNONCE (R561): a fresh challenge, which the maintenance page shows, most significant byte first (R560). -/
def NonceLoaded (s : State) : Prop :=
  s.dev.mgmt.busy = [.newnonce] →
    Answers .newnonce s fun t =>
      t.dev.mgmt.nonce = Config.nonce s.dev.mgmt.nonces ∧ t.dev.mgmt.nonces = s.dev.mgmt.nonces + 1 ∧ t.dev.mgmt.busy = [] ∧
      (∀ i, i < 8 → t.dev.mgmt.ready = true → t.dev.selPage = 0x80 →
        t.dev.hostByte (136 + i) = t.dev.mgmt.nonce.extractLsb' (8 * (7 - i)) 8) ∧
      (∀ k, t.dev.pageByte k = s.dev.pageByte k) ∧
      t.dev.mgmt.unlocked = s.dev.mgmt.unlocked ∧ t.dev.mem = s.dev.mem ∧ Kept [] s t ∧ Events [] s t ∧ t.pending = s.pending

/-- SUBMIT (R561, R562): in lockout it is refused; the right response unlocks and clears the count; a wrong one, or any without a
maintenance key, is counted, and the eighth in a row locks out. A new challenge is loaded either way. -/
def ResponseJudged (s : State) : Prop :=
  let right := s.dev.sec.maint.enrolled = true ∧ natBE s.dev.mgmt.resp = s.dev.expectedResponse
  let fresh (t : State) : Prop := t.dev.mgmt.nonce = Config.nonce s.dev.mgmt.nonces ∧ t.dev.mgmt.busy = [] ∧ Kept [] s t ∧
    t.dev.mem = s.dev.mem ∧ t.pending = s.pending
  s.dev.mgmt.busy = [.submit] →
    (s.dev.mgmt.lockout = true → Yields .submit s (s.dev.modMgmt fun m => { m with busy := [] }) [] []) ∧
    (s.dev.mgmt.lockout = false → right →
      Answers .submit s fun t => t.dev.mgmt.unlocked = true ∧ t.dev.mgmt.fails = 0 ∧ t.dev.mgmt.lockout = false ∧
        Events [(Blk.mgt, 0xC0, 0)] s t ∧ fresh t) ∧
    (s.dev.mgmt.lockout = false → ¬ right → s.dev.mgmt.fails < 7 →
      Answers .submit s fun t => t.dev.mgmt.unlocked = s.dev.mgmt.unlocked ∧ t.dev.mgmt.fails = s.dev.mgmt.fails + 1 ∧
        t.dev.mgmt.lockout = false ∧ Events [(Blk.mgt, 0xC2, 0)] s t ∧ fresh t) ∧
    (s.dev.mgmt.lockout = false → ¬ right → s.dev.mgmt.fails = 7 →
      Answers .submit s fun t => t.dev.mgmt.unlocked = s.dev.mgmt.unlocked ∧ t.dev.mgmt.lockout = true ∧ t.dev.mgmt.lockQ = 0 ∧
        Events [(Blk.mgt, 0xC2, 0), (Blk.mgt, 0xC3, 0)] s t ∧ fresh t)

/-- LOCK and the idle limit end an unlocked session with event 0xC1 (R563); lockout ends after 2^26 quires with its count (R562). -/
def SessionEnds (s : State) : Prop :=
  let ended (d : Dev) : Dev := d.modMgmt fun m => { m with unlocked := false }
  (s.dev.mgmt.busy = [.lock] →
    (s.dev.mgmt.unlocked = true →
      Yields .lock s ((ended s.dev).modMgmt fun m => { m with busy := [] }) [] [(Blk.mgt, 0xC1, 0)]) ∧
    (s.dev.mgmt.unlocked = false → Yields .lock s (s.dev.modMgmt fun m => { m with busy := [] }) [] [])) ∧
  (s.dev.mgmt.unlocked = true → 2 ^ s.dev.fld F.MGT_CFG_SESS_EXP ≤ s.dev.mgmt.sessQ →
    Yields .sessionIdleTimeout s (ended s.dev) [] [(Blk.mgt, 0xC1, 0)]) ∧
  (s.dev.mgmt.unlocked = false ∨ s.dev.mgmt.sessQ < 2 ^ s.dev.fld F.MGT_CFG_SESS_EXP →
    Yields .sessionIdleTimeout s s.dev [] []) ∧
  (s.dev.mgmt.lockout = true → 2 ^ 26 ≤ s.dev.mgmt.lockQ →
    Yields .lockoutExpiry s (s.dev.modMgmt fun m => { m with lockout := false, fails := 0, lockQ := 0 }) [] []) ∧
  (s.dev.mgmt.lockout = false ∨ s.dev.mgmt.lockQ < 2 ^ 26 → Yields .lockoutExpiry s s.dev [] [])

/-- POPEVQ (R560): the head entry of the named queue, most significant byte first, stands in POPDATA and is popped. -/
def QueuePopped (s : State) (b : Fin 32) : Prop :=
  s.dev.mgmt.busy = [.popevq] → s.dev.pageByte (maint 130) = BitVec.ofNat 8 b.val → blockExists b = true →
    Reaches s .host (evqAddr b) →
    Answers .popevq s fun t =>
      (∀ i, i < 4 → t.dev.pageByte (maint (132 + i)) = (Dev.headWord s.evq[b]).extractLsb' (8 * (3 - i)) 8) ∧
      t.dev.pageByte (maint 131) = 0 ∧ t.evq[b].q = s.evq[b].q.tail ∧ (∀ k : Fin 32, k ≠ b → t.evq[k] = s.evq[k]) ∧
      t.dev.mgmt.busy = [] ∧ t.dev.mem = s.dev.mem ∧ Kept [] s t ∧ t.pending = s.pending

/-- The dynamic address (R546): SETDASA at the static address 0x50 and a won ENTDAA give it to a device that has none; RSTDAA drops
it. -/
def AddressAssigned (s : State) (st a : BitVec 7) (won : Bool) : Prop :=
  let given := (s.dev.setFld F.MGT_STAT_DADDR a.toNat).setOn F.MGT_STAT_I3C true
  let d0 := (s.dev.setFld F.MGT_STAT_DADDR 0).setOn F.MGT_STAT_I3C false
  let has (t : State) (d : Dev) : Prop :=
    t.dev.fld F.MGT_STAT_DADDR = d.fld F.MGT_STAT_DADDR ∧ t.dev.on F.MGT_STAT_I3C = d.on F.MGT_STAT_I3C
  (s.dev.portOn = true → s.dev.mgmt.busy = [] → s.dev.on F.MGT_STAT_I3C = false → st = 0x50 →
    Answers (.setdasa st a) s fun t => has t given ∧ Frame [] s.dev [] s t) ∧
  (s.dev.portOn = false ∨ s.dev.mgmt.busy ≠ [] ∨ s.dev.on F.MGT_STAT_I3C = true ∨ st ≠ 0x50 →
    Answers (.setdasa st a) s fun t => has t s.dev ∧ Frame [] s.dev [] s t) ∧
  (s.dev.portOn = true → s.dev.on F.MGT_STAT_I3C = false → won = true →
    Answers (.entdaa a won) s fun t => has t given ∧ Frame [] s.dev [] s t) ∧
  (s.dev.portOn = false ∨ s.dev.on F.MGT_STAT_I3C = true ∨ won = false →
    Answers (.entdaa a won) s fun t => has t s.dev ∧ Frame [] s.dev [] s t) ∧
  (s.dev.portOn = true → Answers .rstdaa s fun t => has t d0 ∧ Frame [] s.dev [] s t) ∧
  (s.dev.portOn = false → Answers .rstdaa s fun t => has t s.dev ∧ Frame [] s.dev [] s t)

/-- GETPID answers bits [47:0] of the device ID, most significant byte first; the other GET commands answer as many bytes as
they have, of no stated value (log 2); a busy port answers none (R548), nor does one without a dynamic address, to which they
go; ENEC and DISEC change nothing, for the port raises no in-band interrupt (R546). -/
def GetAnswered (s : State) (mask : Byte) : Prop :=
  s.dev.portOn = true →
    (s.dev.mgmt.busy ≠ [] ∨ s.dev.on F.MGT_STAT_I3C = false →
      ∀ c ∈ [Instr.getpid, .getbcr, .getdcr, .getstatus, .getmwl, .getmrl], Yields c s s.dev [] []) ∧
    (s.dev.mgmt.busy = [] → s.dev.on F.MGT_STAT_I3C = true → Answers .getpid s fun t =>
      t.dev.mgmt.rdata.length = 6 ∧
      (∀ i, i < 6 → t.dev.mgmt.rdata[i]? = some (s.dev.sec.devId.extractLsb' (8 * (5 - i)) 8)) ∧
      Frame [] (s.dev.modMgmt fun m => { m with rdata := t.dev.mgmt.rdata }) [] s t) ∧
    (s.dev.mgmt.busy = [] → s.dev.on F.MGT_STAT_I3C = true →
      ∀ c ∈ [(Instr.getbcr, 1), (.getdcr, 1), (.getstatus, 2), (.getmwl, 2), (.getmrl, 2)],
      Answers c.1 s fun t =>
        t.dev.mgmt.rdata.length = c.2 ∧
        Frame [] ({ s.dev with freeCtr := s.dev.freeCtr + 1 }.modMgmt fun m => { m with rdata := t.dev.mgmt.rdata }) [] s t) ∧
    (∀ c ∈ [Instr.enec mask, .disec mask], Yields c s s.dev [] [])

/-- `MGT.WCTRL` (R548, R551): DONE ends the busy time of a CMIS write, READY says that the module data are ready. -/
def PortReleased (s : State) (m : Master) (v : Word) : Prop :=
  Reaches s m R.MGT_WCTRL → ∀ c ∈ [Instr.wctrlDone m v, .ready m v],
    (v.getLsbD 0 = true → v.getLsbD 1 = false →
      Yields c s (onBus R.MGT_WCTRL (fun d => d.modMgmt fun x => { x with busy := x.busy.filter fun b => b != .firmware }) s.dev)
        [] []) ∧
    (v.getLsbD 0 = false → v.getLsbD 1 = false → Yields c s (onBus R.MGT_WCTRL id s.dev) [] []) ∧
    (v.getLsbD 1 = true → v.getLsbD 0 = false →
      Ends c s (onBus R.MGT_WCTRL (fun d =>
        let d := d.modMgmt fun x => { x with ready := true }
        d.followRequest d.thermalAllows) s.dev))


/-! ### Power (chapter 17) -/

/-- The data path and MGT are off. -/
def poweredOff (d : Dev) : Prop := d.domOn .mgt = false ∧ ∀ x, isDataDomain x = true → d.domOn x = false

/-- RESET_N recognised low (R553, R574): the device is in REST with MGT and the data path off; in OFF and HOLD only the port is reset.
That a loss of main supply in progress completes at once (R598) is the model's choice (DESIGN CHOICE, log 26). -/
def ResetAsserted (s : State) : Prop :=
  (s.dev.dstate < stREST →
    Yields .resetNLow s (s.dev.modMgmt fun m => { m with resetLow := true, busy := [], rdata := [] }) [] []) ∧
  (stREST ≤ s.dev.dstate → s.dev.pwr.lossQ.isSome = true →
    Ends .resetNLow s (s.dev.modMgmt fun m => { m with resetLow := true, busy := [], rdata := [] }).lossFinish) ∧
  (stREST ≤ s.dev.dstate → s.dev.pwr.lossQ = none →
    Answers .resetNLow s fun t =>
      t.dev.dstate = stREST ∧ poweredOff t.dev ∧ t.dev.pwr.restCmd = false ∧ t.pending = s.pending)

/-- RESET_N recognised high again (R553, R572): from REST the device starts up; in any other state only the level is noted. -/
def ResetReleased (s : State) : Prop :=
  (s.dev.dstate ≠ stREST → Yields .resetNRelease s (s.dev.modMgmt fun m => { m with resetLow := false }) [] []) ∧
  (s.dev.dstate = stREST →
    Ends .resetNRelease s (s.dev.modMgmt fun m => { m with resetLow := false }).mgtUp ∧
    Answers .resetNRelease s fun t =>
      t.dev.dstate = stSTANDBY ∧ t.dev.domOn .mgt = true ∧ t.dev.mgmt.ready = false ∧ t.pending = s.pending)

/-- A recognised change of LPMODE (R554, R580): with MGT on it queues MGT event 0xC6; in REST it wakes MGT if REST was entered by
command; no change does nothing. -/
def LpmodeChanged (s : State) (level : Bool) : Prop :=
  let d := s.dev.modMgmt fun m => { m with lpmode := level }
  (s.dev.mgmt.lpmode = level → Yields (.lpmodeChange level) s s.dev [] []) ∧
  (s.dev.mgmt.lpmode ≠ level → s.dev.domOn .mgt = true → Yields (.lpmodeChange level) s d [] [(Blk.mgt, 0xC6, 0)]) ∧
  (s.dev.mgmt.lpmode ≠ level → s.dev.domOn .mgt = false → s.dev.pwr.restCmd = false →
    Yields (.lpmodeChange level) s d [] []) ∧
  (s.dev.mgmt.lpmode ≠ level → s.dev.domOn .mgt = false → s.dev.pwr.restCmd = true → s.dev.dstate = stREST →
    s.dev.mgmt.resetLow = false →
    Answers (.lpmodeChange level) s fun t => t.dev.dstate = stSTANDBY ∧ t.dev.domOn .mgt = true ∧ t.dev.mgmt.lpmode = level ∧
      t.pending = s.pending)

/-- A change of the low-power request (R566, R572): in ACTIVE a request that is true begins the entry to STANDBY, in STANDBY one
that is false begins the entry to ACTIVE where the other conditions hold; else nothing changes. -/
def RequestFollowed (s : State) : Prop :=
  let free := s.dev.mgmt.ready = true ∧ s.dev.pwr.heldOff = false ∧ s.dev.thm.stop = 0 ∧ s.dev.thermalAllows = true ∧
    s.dev.pwr.lossQ = none ∧ s.dev.pwr.restDue = false
  (s.dev.dstate = stACTIVE → s.dev.lowPower = true → s.dev.thm.stop = 0 → s.dev.fullRunning = false → s.dev.bst.run = none →
    s.dev.pwr.lossQ = none →
    Yields .lowPowerRequestChange s (((s.dev.setState stToSTANDBY).modPwr fun p => { p with sbyTry := 0 }).setFld
        F.PWR_SBY_STAT_ATTEMPT 0)
      [R.PWR_STAT, R.PWR_SBY_STAT] []) ∧
  (s.dev.dstate = stSTANDBY → s.dev.lowPower = false → free → Ends .lowPowerRequestChange s s.dev.beginActive) ∧
  (s.dev.dstate = stACTIVE → (s.dev.lowPower = false ∨ s.dev.thm.stop ≠ 0 ∨ s.dev.fullRunning = true ∨ s.dev.pwr.lossQ.isSome = true) →
    Yields .lowPowerRequestChange s s.dev [] []) ∧
  (s.dev.dstate = stSTANDBY → (s.dev.lowPower = true ∨ ¬ free) → Yields .lowPowerRequestChange s s.dev [] []) ∧
  (s.dev.dstate ≠ stSTANDBY → s.dev.dstate ≠ stACTIVE → Yields .lowPowerRequestChange s s.dev [] [])

/-- A retry of the STANDBY entry whose wait is over starts at stage 0 with the next attempt (R587): each lane in RUN is squelched and
the content it still holds is discarded. -/
def StandbyRetried (s : State) : Prop :=
  let due := s.dev.dstate = stToSTANDBY ∧ s.dev.pwr.sbyRetry = true ∧ s.dev.pwr.sbyWait = 0
  (due →
    Ends .standbyRetry s
      ((((s.dev.modPwr fun p => { p with sbyRetry := false, sbyTry := p.sbyTry + 1 }).setFld F.PWR_SBY_STAT_ATTEMPT
          (s.dev.pwr.sbyTry + 1)).modPwr fun p =>
        { p with sbyStage := 0, sbyAsked := true, sbyForce := false, sbyDown := 1 }).each (allLanes.filter s.dev.inRun)
        fun n d => (d.squelchPwr n true).discardInFlight n rNOLOCK)) ∧
  (¬ due → Yields .standbyRetry s s.dev [] [])

/-- ACTIVE is entered at the first boundary with the tick running at which every domain of the entry is on (R584): the clock
configuration acts, the lanes start with the slices of R33, the safe-state cause of STANDBY ends (R439), tests of free slices
are queued (R664) and PWR event 0xD3 is queued. -/
def ActiveEntered (s : State) : Prop :=
  (s.dev.dstate = stToACTIVE → s.dev.on F.CLK_STAT_TICK_RUN = true → (∀ x ∈ s.dev.pwr.entry, s.dev.domOn x = true) →
    Ends .activeEntry s
      ((((({ s.dev with hkp := { s.dev.hkp with causeSby := false } }.setState stACTIVE).applyClkCfg).modPwr fun p =>
        { p with shutRec := false }).startLanes.queueFree).raise Blk.pwr 0xD3 0)) ∧
  (s.dev.dstate ≠ stToACTIVE ∨ s.dev.on F.CLK_STAT_TICK_RUN = false ∨ (∃ x ∈ s.dev.pwr.entry, s.dev.domOn x = false) →
    Yields .activeEntry s s.dev [] [])

/-- `PWR.CTRL.REST` (R573): in STANDBY the next boundary turns MGT off; in any other state it is ignored. -/
def RestAsked (s : State) (m : Master) (v : Word) : Prop :=
  Reaches s m R.PWR_CTRL →
    (v.getLsbD 0 = true → s.dev.dstate = stSTANDBY →
      Yields (.rest m v) s (onBus R.PWR_CTRL (fun d => d.modPwr fun p => { p with restDue := true }) s.dev) [] []) ∧
    (v.getLsbD 0 = false ∨ s.dev.dstate ≠ stSTANDBY → Yields (.rest m v) s (onBus R.PWR_CTRL id s.dev) [] [])

/-- The supplies (R572, R596 to R598). Main supplies valid: OFF and HOLD are left for REST and the device starts up, once a loss in
progress is over (DESIGN CHOICE, log 26). VBAK keeps HOLD; without it and without VDD_IO the device is OFF. -/
def SuppliesChange (s : State) : Prop :=
  let main (b : Bool) (d : Dev) : Dev := d.modPwr fun p => { p with mainOk := b }
  let vbak (b : Bool) (d : Dev) : Dev := d.modPwr fun p => { p with vbak := b }
  ((s.dev.dstate = stOFF ∨ s.dev.dstate = stHOLD) → s.dev.mgmt.resetLow = false →
    Answers .suppliesValid s fun t => t.dev.dstate = stSTANDBY ∧ t.dev.domOn .mgt = true ∧ t.dev.pwr.mainOk = true ∧
      t.pending = s.pending) ∧
  ((s.dev.dstate = stOFF ∨ s.dev.dstate = stHOLD) → s.dev.mgmt.resetLow = true →
    Answers .suppliesValid s fun t => t.dev.dstate = stREST ∧ t.dev.pwr.mainOk = true ∧ t.pending = s.pending) ∧
  (stREST ≤ s.dev.dstate →
    Yields .suppliesValid s (s.dev.modPwr fun p => { p with mainOk := true, validDue := p.lossQ.isSome }) [] []) ∧
  (s.dev.dstate = stOFF →
    Answers .vbakPresent s fun t => t.dev.dstate = stHOLD ∧ t.dev.domOn .mgt = false ∧ t.dev.pwr.vbak = true ∧
      t.pending = s.pending) ∧
  (s.dev.dstate = stHOLD → s.dev.pwr.mainOk = false → Yields .vbakLoss s ((vbak false s.dev).setState stOFF) [R.PWR_STAT] []) ∧
  (s.dev.dstate ≠ stHOLD → s.dev.pwr.mainOk = false → s.dev.pwr.lossQ.isSome = true →
    Ends .vbakLoss s (vbak false s.dev).lossFinish) ∧
  (s.dev.dstate ≠ stOFF → s.dev.domOn .mgt = true →
    Yields .vbakPresent s ((vbak true s.dev).setOn F.PWR_STAT_VBAK_OK true) [R.PWR_STAT] []) ∧
  (s.dev.pwr.mainOk = true ∨ (s.dev.dstate ≠ stHOLD ∧ s.dev.pwr.lossQ = none) → s.dev.domOn .mgt = true →
    Yields .vbakLoss s ((vbak false s.dev).setOn F.PWR_STAT_VBAK_OK false) [R.PWR_STAT] []) ∧
  (s.dev.dstate ≠ stOFF → s.dev.domOn .mgt = false → Yields .vbakPresent s (vbak true s.dev) [] []) ∧
  (s.dev.pwr.mainOk = true ∨ (s.dev.dstate ≠ stHOLD ∧ s.dev.pwr.lossQ = none) → s.dev.domOn .mgt = false →
    Yields .vbakLoss s (vbak false s.dev) [] []) ∧
  Yields .mainSupplyReturn s (main true s.dev) [] []

/-- Loss of the main supply (R572, R597, R598). A device that has no data path running has nothing to wait for: the journal is committed
with cause 1, MGT and the data path are off, and the device is in HOLD, or in OFF without VBAK; the loss is counted, and PWR event 0xD9
waits for MGT. In HOLD a loss after VDD_IO had returned is counted, or without VBAK leads to OFF; a second loss in the steps is counted
and runs no second set (DESIGN CHOICE, log 26), and one with no return between changes nothing. -/
def MainLost (s : State) : Prop :=
  let gone (d : Dev) : Dev := d.modPwr fun p => { p with mainOk := false }
  let counted (d : Dev) : Dev := ((gone d).bump R.PWR_MAIN_LOSS).modPwr fun p =>
    { p with late := p.late ++ [(Blk.pwr, 0xD9)], validDue := false }
  (s.dev.dstate < stREST → (s.dev.dstate = stOFF ∨ s.dev.pwr.mainOk = false) → Yields .mainSupplyLoss s (gone s.dev) [] []) ∧
  (s.dev.dstate = stHOLD → s.dev.pwr.mainOk = true → s.dev.pwr.vbak = true →
    Yields .mainSupplyLoss s (counted s.dev) [R.PWR_MAIN_LOSS] []) ∧
  (s.dev.dstate = stHOLD → s.dev.pwr.mainOk = true → s.dev.pwr.vbak = false →
    Yields .mainSupplyLoss s ((gone s.dev).setState stOFF) [R.PWR_STAT] []) ∧
  (stREST ≤ s.dev.dstate → s.dev.pwr.lossQ.isSome = true → s.dev.pwr.mainOk = true →
    Yields .mainSupplyLoss s (counted s.dev) [R.PWR_MAIN_LOSS] []) ∧
  (stREST ≤ s.dev.dstate → s.dev.pwr.lossQ.isSome = true → s.dev.pwr.mainOk = false → Yields .mainSupplyLoss s (gone s.dev) [] []) ∧
  (stREST ≤ s.dev.dstate → s.dev.pwr.lossQ = none → s.dev.active = false →
    Answers .mainSupplyLoss s fun t =>
      t.dev.dstate = (if s.dev.pwr.vbak then stHOLD else stOFF) ∧ poweredOff t.dev ∧
      t.dev.reg R.PWR_MAIN_LOSS = s.dev.reg R.PWR_MAIN_LOSS + 1 ∧ (Blk.pwr, 0xD9) ∈ t.dev.pwr.late ∧ t.dev.pwr.lossQ = none ∧
      t.dev.fld F.SEC_JNL_STAT_CAUSE = 1 ∧ t.dev.on F.SEC_JNL_STAT_DIRTY = false ∧ t.pending = s.pending) ∧
  (stREST ≤ s.dev.dstate → s.dev.pwr.lossQ = none → s.dev.active = true → Ends .mainSupplyLoss s (counted s.dev).lossBegin)

/-- The last steps of a loss of main supply (R572, R597, R598, R650): the commits that run or wait come first, then MGT and the data path
are off and the journal is sealed with cause 1; the device is in HOLD, or in OFF when neither VBAK nor VDD_IO is there. -/
def LossFinished (d : Dev) : Prop :=
  d.pwr.validDue = false →
    let e := d.lossFinish
    poweredOff e ∧ e.dstate = (if d.pwr.vbak || d.pwr.mainOk then stHOLD else stOFF) ∧ e.pwr.lossQ = none ∧
    e.sec.jnlRun = none ∧ e.fld F.SEC_JNL_STAT_CAUSE = 1 ∧ e.on F.SEC_JNL_STAT_DIRTY = false ∧
    e.reg R.PWR_MAIN_LOSS = d.reg R.PWR_MAIN_LOSS

/-- DOZE (R576, R577): a MODE 2 lane of live mode, in ACTIVE or between the attempts of an entry to STANDBY, in RUN and in
SIG_DET for 2^DOZE_EXP whole quires, stops into DOZE with PWR event 0xD4; any other lane stays. -/
def LaneDozes (s : State) (n : Lane) : Prop :=
  let due := s.dev.active = true ∧ s.dev.pwr.sbyDown = 0 ∧ s.dev.inRun n = true ∧ s.dev.laneMode n = 2 ∧ s.dev.spLive n = false ∧ s.dev.acq n = 1 ∧
    s.dev.swapping n = false ∧ 2 ^ s.dev.lv (F.PWR_LANE_CFG_DOZE_EXP n) + 1 ≤ s.dev.pwr.dozeQ[n]
  (due → Ends (.laneDozeEntry n) s ((((s.dev.laneStop n 1).updateFly).bump R.PWR_DOZES).raise Blk.pwr 0xD4 n)) ∧
  (¬ due → Yields (.laneDozeEntry n) s s.dev [] [])

/-- A wake (R578, R579): a dozing lane takes a source that its WAKE field selects, once, and PWR event 0xD5 is queued: 16 levels in a row
at or above DOZE_LVL, or 100 half-periods of 400 to 600 ns whose levels alternate. A source not selected or not recognised, or a lane not in
DOZE, or whose detector stage 1 of an entry to STANDBY stopped (R586), changes nothing. -/
def LaneWakes (s : State) (n : Lane) (src : WakeSource) : Prop :=
  let w := s.dev.lv (F.PWR_LANE_CFG_WAKE n)
  let lvl := s.dev.slv (F.PWR_LANE_CFG_DOZE_LVL n)
  let taken := match src with
    | .light ms => w ≠ 1 ∧ 16 ≤ ms.length ∧ ∀ l ∈ ms.take 16, lvl ≤ l
    | .wakePattern hs => w ≠ 0 ∧ 100 ≤ hs.length ∧ (∀ x ∈ hs.take 100, 400 ≤ x.2 ∧ x.2 ≤ 600) ∧
        ∃ odd < 2, ∀ i < 100, ∀ x, hs[i]? = some x → if i % 2 = odd then lvl ≤ x.1 else x.1 < lvl - 24
  let due := s.dev.active = true ∧ s.dev.pwr.sbyDown < 2 ∧ s.dev.fld (laneStat n) = 1 ∧ taken ∧ s.dev.pwr.wakeDue.getLsbD n = false
  (due →
    Yields (.laneWake n src) s
      ((s.dev.modPwr fun p => { p with wakeDue := p.wakeDue ||| BitVec.ofNat 8 (2 ^ (n : Nat)) }).bump R.PWR_WAKES)
      [R.PWR_WAKES] [(Blk.pwr, 0xD5, n)]) ∧
  (¬ due → Yields (.laneWake n src) s s.dev [] [])

/-- `PWR.WAKE_TX` (R583): the wake pattern is due on each selected lane in RUN, after the one in progress if any; other lanes ignore it.
It ends with its last block. -/
def WakePattern (s : State) (m : Master) (v : Word) (n : Lane) : Prop :=
  (Reaches s m R.PWR_WAKE_TX →
    Answers (.wakeTx m v) s fun t =>
      (∀ k : Lane, (t.dev.lane k).tx =
        if v.getLsbD k ∧ s.dev.inRun k then
          { (s.dev.lane k).tx with wake := match (s.dev.lane k).tx.wake with | 0 | 1 => 1 | 2 | 4 => 4 | 3 | 5 => 5 | w => w }
        else (s.dev.lane k).tx) ∧
      Kept [] s t ∧ t.dev.mem = s.dev.mem ∧ Events [] s t ∧ t.pending = s.pending) ∧
  ((s.dev.lane n).tx.wake = 2 ∨ (s.dev.lane n).tx.wake = 4 → (s.dev.lane n).tx.wakeLeft = 0 →
    Yields (.wakePatternEnd n) s (s.dev.modTx n fun t => { t with wake := t.wake + 1 }) [] []) ∧
  (((s.dev.lane n).tx.wake ≠ 2 ∧ (s.dev.lane n).tx.wake ≠ 4) ∨ (s.dev.lane n).tx.wakeLeft ≠ 0 → Yields (.wakePatternEnd n) s s.dev [] [])

/-- The RTC alarm (R580, R581): with MGT on PWR event 0xD8 is queued; with MGT off it is kept for when MGT runs, and wakes a device
sent to REST by command; no alarm, no effect. -/
def AlarmTaken (s : State) : Prop :=
  (s.dev.pwr.alarmDue = false → Yields .rtcAlarm s s.dev [] []) ∧
  (s.dev.pwr.alarmDue = true → s.dev.domOn .mgt = true →
    Yields .rtcAlarm s (s.dev.modPwr fun p => { p with alarmDue := false }) [] [(Blk.pwr, 0xD8, 0)]) ∧
  (s.dev.pwr.alarmDue = true → s.dev.domOn .mgt = false → s.dev.pwr.restCmd = false →
    Yields .rtcAlarm s (s.dev.modPwr fun p => { p with alarmDue := false, late := p.late ++ [(Blk.pwr, 0xD8)] }) [] []) ∧
  (s.dev.pwr.alarmDue = true → s.dev.domOn .mgt = false → s.dev.pwr.restCmd = true → s.dev.dstate = stREST →
    s.dev.mgmt.resetLow = false →
    Answers .rtcAlarm s fun t => t.dev.dstate = stSTANDBY ∧ t.dev.domOn .mgt = true ∧ (Blk.pwr, 0xD8) ∈ t.dev.pwr.late ∧
      t.pending = s.pending)

/-- `PWR.RTC_CTRL.LOAD` (R582) and a read of `PWR.RTC_SUB`, which latches the seconds for that master alone. -/
def RtcAccessed (s : State) (m : Master) (v : Word) : Prop :=
  (Reaches s m R.PWR_RTC_CTRL →
    (v.getLsbD 0 = true →
      Yields (.load m v) s (onBus R.PWR_RTC_CTRL (fun d =>
        (d.setReg R.PWR_RTC_CTRL (wordWritten s.dev R.PWR_RTC_CTRL 2 v)).modPwr fun p => { p with loadDue := true }) s.dev)
        [R.PWR_RTC_CTRL] []) ∧
    (v.getLsbD 0 = false →
      Yields (.load m v) s (onBus R.PWR_RTC_CTRL (fun d =>
        d.setReg R.PWR_RTC_CTRL (wordWritten s.dev R.PWR_RTC_CTRL 2 v)) s.dev) [R.PWR_RTC_CTRL] [])) ∧
  (Reaches s m R.PWR_RTC_SUB →
    Answers (.rtcSubRead m) s fun t =>
      t.dev.busWord = s.dev.pwr.rtcSub.setWidth 32 ∧ t.dev.getLatch m R.PWR_RTC_SEC_LO = s.dev.pwr.rtc.setWidth 32 ∧
      t.dev.getLatch m R.PWR_RTC_SEC_HI = BitVec.ofNat 32 (s.dev.pwr.rtc.toNat / 2 ^ 32) ∧
      (∀ m', m' ≠ m → ∀ a, a < 2 ^ 32 → t.dev.getLatch m' a = s.dev.getLatch m' a) ∧
      Kept [] s t ∧ t.dev.mem = s.dev.mem ∧ Events [] s t ∧ t.pending = s.pending)

/-- What AVSBus carries for a request of v mV (R592): a write of Vout and the Status read after it, on the rail of `AVS_CFG`. -/
def avsWords (d : Dev) (v : Nat) : List AvsCmd := [.writeVout (d.fld F.PWR_AVS_CFG_RAIL) v, .readStatus (d.fld F.PWR_AVS_CFG_RAIL)]

/-- `PWR.AVS_VSET` (R592, R593, R595): a target from 650 to 850 mV is taken, and with no request in flight the next request goes
toward it by at most 25 mV; any other value is refused with RANGE_ERR. -/
def VoltageAsked (s : State) (m : Master) (v : Word) : Prop :=
  let mv := v.toNat % 1024
  let now := s.dev.fld F.PWR_AVS_STAT_VNOW
  let taken (d : Dev) : Dev := ((d.setFld F.PWR_AVS_VSET_MV mv).setOn F.PWR_AVS_STAT_RANGE_ERR false).modPwr fun p =>
    { p with avsTarget := mv }
  Reaches s m R.PWR_AVS_VSET →
    (mv < 650 ∨ 850 < mv →
      Yields (.avsVsetWrite m v) s (onBus R.PWR_AVS_VSET (fun d => d.setOn F.PWR_AVS_STAT_RANGE_ERR true) s.dev)
        [R.PWR_AVS_STAT] []) ∧
    (650 ≤ mv → mv ≤ 850 → s.dev.pwr.avsFlight.isSome = true ∨ s.dev.pwr.avsStop = true ∨ mv = now →
      Yields (.avsVsetWrite m v) s (onBus R.PWR_AVS_VSET taken s.dev) [R.PWR_AVS_VSET, R.PWR_AVS_STAT] []) ∧
    (650 ≤ mv → mv ≤ 850 → s.dev.pwr.avsFlight = none → s.dev.pwr.avsStop = false → mv ≠ now →
      let req := if now ≤ mv then min mv (now + 25) else max mv (now - 25)
      Yields (.avsVsetWrite m v) s (onBus R.PWR_AVS_VSET (fun d => ((taken d).modPwr fun p =>
        { p with avsFlight := some req, avsCmds := avsWords s.dev req }).setOn F.PWR_AVS_STAT_BUSY true)
        s.dev) [R.PWR_AVS_VSET, R.PWR_AVS_STAT] [])

/-- A request acknowledged is the voltage in force, and the next one goes toward the target (R593). -/
def VoltageReached (s : State) (v : Nat) : Prop :=
  v < 1024 →
  (s.dev.pwr.avsFlight = none → Yields .avsRequestAck s s.dev [] []) ∧
  (s.dev.pwr.avsFlight = some v → (s.dev.pwr.avsStop = true ∨ s.dev.pwr.avsTarget = v) →
    Yields .avsRequestAck s
      (((s.dev.setFld F.PWR_AVS_STAT_VNOW v).setOn F.PWR_AVS_STAT_BUSY false).modPwr fun p => { p with avsFlight := none, avsCmds := [] })
      [R.PWR_AVS_STAT] []) ∧
  (s.dev.pwr.avsFlight = some v → s.dev.pwr.avsStop = false → v < s.dev.pwr.avsTarget →
    Yields .avsRequestAck s
      (((s.dev.setFld F.PWR_AVS_STAT_VNOW v).setOn F.PWR_AVS_STAT_BUSY true).modPwr fun p =>
        { p with avsFlight := some (min p.avsTarget (v + 25)), avsCmds := avsWords s.dev (min p.avsTarget (v + 25)) })
      [R.PWR_AVS_STAT] [])

/-- A request that times out (R594): one request for the last voltage, AVS_TO counts it with PWR event 0xD6, and class 10 is charged; once
requests have stopped none is sent. -/
def VoltageTimedOut (s : State) : Prop :=
  let judged (d : Dev) : Dev := ((d.bump R.PWR_AVS_TO).raise Blk.pwr 0xD6 0).charge 10 0 fun d =>
    ((d.setOn F.PWR_AVS_STAT_DEGRADED true).modPwr fun p => { p with avsStop := true }).raise Blk.pwr 0xD7 0
  (s.dev.pwr.avsFlight = none → Yields .avsTimeout s s.dev [] []) ∧
  (s.dev.pwr.avsFlight.isSome = true → s.dev.pwr.avsStop = false →
    Ends .avsTimeout s (judged ((s.dev.modPwr fun p =>
      { p with avsFlight := some (s.dev.fld F.PWR_AVS_STAT_VNOW), avsCmds := avsWords s.dev (s.dev.fld F.PWR_AVS_STAT_VNOW) }).setOn
      F.PWR_AVS_STAT_BUSY true))) ∧
  (s.dev.pwr.avsFlight.isSome = true → s.dev.pwr.avsStop = true →
    Ends .avsTimeout s (judged ((s.dev.modPwr fun p => { p with avsFlight := none, avsCmds := [] }).setOn F.PWR_AVS_STAT_BUSY false)))

/-! ### Thermal protection (chapter 18) -/

/-- A sample starts when it is due: the first one, or 4 quires in FAST and 96 otherwise after the one before (R603, R608, R618). -/
def SampleStarts (s : State) : Prop :=
  let due := s.dev.domOn .mgt = true ∧ s.dev.on F.CLK_STAT_TICK_RUN = true ∧ s.dev.thm.sampling = false ∧
    (s.dev.thm.started = false ∨ (if s.dev.on F.THM_STAT_FAST then 4 else 96) ≤ s.dev.thm.age)
  (due → Yields .thermalSample s
    ({ s.dev with thm := { s.dev.thm with age := 0, started := true, sampling := true } } : Dev) [] []) ∧
  (¬ due → Yields .thermalSample s s.dev [] [])

/-- Sixteen equal readings within range (R603 to R609): every one is plausible, Tj is that temperature in quarter degrees, and while it
lies more than 5 °C below WARN in NORMAL the level stays. -/
def ReadingsTaken (s : State) (r : Int) : Prop :=
  s.dev.domOn .mgt = true → s.dev.thm.sampling = true → 1 ≤ s.dev.thm.age → -200 ≤ r → r + 20 < 4 * (s.dev.lv F.THM_CFG_WARN : Int) →
    s.dev.lv F.THM_CFG_WARN < s.dev.lv F.THM_CFG_THROT → s.dev.lv F.THM_CFG_THROT < s.dev.lv F.THM_CFG_SHUT →
    s.dev.lv F.THM_CFG_SHUT ≤ 125 → s.dev.reg R.THM_EXCL = 0 → s.dev.fld F.THM_STAT_LEVEL = 0 →
    s.dev.on F.THM_STAT_SAFE = false → s.dev.dstate = stACTIVE → s.dev.lowPower = false →
    Answers (.thermalJudgement (List.replicate 16 (64 * r))) s fun t =>
      (∀ k, k < 16 → t.dev.fld (F.THM_T_TEMP k) = (r % 2048).toNat ∧ t.dev.on (F.THM_T_BAD k) = false) ∧
      t.dev.fld F.THM_STAT_TJ = (r % 2048).toNat ∧ t.dev.fld F.THM_STAT_VCNT = 16 ∧ t.dev.on F.THM_STAT_FAST = false ∧
      t.dev.fld F.THM_STAT_LEVEL = 0 ∧ t.dev.thm.sampling = false ∧ t.dev.dstate = stACTIVE ∧ t.pending = s.pending

/-- With no sample to act on nothing changes (R609). -/
def ReadingsAwaited (s : State) (rs : List Int) : Prop :=
  s.dev.thm.sampling = false ∨ s.dev.thm.age < 1 ∨ s.dev.domOn .mgt = false → Yields (.thermalJudgement rs) s s.dev [] []

/-- Plausibility (R604): within −50 to +150 °C, and, if a neighbour in the ring is not excluded and within range, within NBR_LIM of one
such neighbour. -/
def Plausibility (d : Dev) (rs : List Int) (k : Nat) : Prop :=
  let r := rs.getD k 0
  let sound (j : Nat) : Prop := d.on ⟨R.THM_EXCL, j, 1⟩ = false ∧ -200 ≤ rs.getD j 0 ∧ rs.getD j 0 ≤ 600
  let near (j : Nat) : Prop := sound j ∧ ((r - rs.getD j 0).natAbs ≤ 4 * max 1 (d.lv F.THM_CFG_NBR_LIM))
  k < 16 →
    (d.plausible rs k = true ↔ (-200 ≤ r ∧ r ≤ 600) ∧
      ((¬ sound ((k + 15) % 16) ∧ ¬ sound ((k + 1) % 16)) ∨ near ((k + 15) % 16) ∨ near ((k + 1) % 16)))

/-- The levels (R610 to R612, R615): NORMAL goes to WARN at WARN, and back below WARN − HYST; WARN goes to THROTTLE at THROT with the
throttle request, which falls with the level below THROT − HYST; SHUTDOWN does not fall. -/
def LevelsJudged (d : Dev) (tj : Int) : Prop :=
  let w : Int := 4 * d.lv F.THM_CFG_WARN
  let t : Int := 4 * d.lv F.THM_CFG_THROT
  let x : Int := 4 * d.lv F.THM_CFG_SHUT
  let h : Int := 4 * (max 1 (d.lv F.THM_CFG_HYST) : Nat)
  w < t → t < x →
    (d.fld F.THM_STAT_LEVEL = 0 → tj < w → d.judgeLevel tj = d) ∧
    (d.fld F.THM_STAT_LEVEL = 0 → w ≤ tj → tj < t → d.bst.run = none → d.bst.full = [] →
      d.judgeLevel tj = (((d.setFld F.THM_STAT_LEVEL 1).latchFlag 9 2).bump R.THM_WARNS).raise Blk.thm 0xE0 0) ∧
    (d.fld F.THM_STAT_LEVEL = 1 → t ≤ tj → tj < x → d.lv F.THM_GRACE_GRACE ≠ 0 →
      d.judgeLevel tj = ((((((d.setFld F.THM_STAT_LEVEL 2).latchFlag 9 0).setOn F.THM_STAT_REQ true).bump R.THM_REQS).raise
        Blk.thm 0xE2 0)).modThm fun m => { m with grace := 0 }) ∧
    (d.fld F.THM_STAT_LEVEL = 1 → w - h ≤ tj → tj < t → d.judgeLevel tj = d) ∧
    (d.fld F.THM_STAT_LEVEL = 1 → tj < w - h → d.judgeLevel tj = (d.setFld F.THM_STAT_LEVEL 0).raise Blk.thm 0xE1 0) ∧
    (d.fld F.THM_STAT_LEVEL = 2 → t - h ≤ tj → tj < x → d.judgeLevel tj = d) ∧
    (d.fld F.THM_STAT_LEVEL = 2 → d.on F.THM_STAT_SAFE = false → tj < t - h → w - h ≤ tj →
      d.judgeLevel tj = (((d.setFld F.THM_STAT_LEVEL 1).setOn F.THM_STAT_REQ false).setOn F.THM_STAT_ENF false).raise Blk.thm 0xE4 0) ∧
    (d.fld F.THM_STAT_LEVEL = 3 → d.judgeLevel tj = d)

/-- Throttle is enforced when the grace count has run out at THROTTLE or above (R614), unless a judgement due at the same boundary is still
to come (R615): ENF, one more enforcement counted and THM event
0xE3; a shadow ends and a self-test stops. -/
def ThrottleEnforced (s : State) : Prop :=
  let due := 2 ≤ s.dev.fld F.THM_STAT_LEVEL ∧ s.dev.lv F.THM_GRACE_GRACE * 1024 ≤ s.dev.thm.grace ∧ s.dev.on F.THM_STAT_ENF = false ∧
    (s.dev.thm.sampling = false ∨ s.dev.thm.age = 0)
  (due → Ends .throttleEnforce s
    ((((s.dev.setOn F.THM_STAT_ENF true).bump R.THM_ENFS).raise Blk.thm 0xE3 0).endShadow 5 |>.stopTest fun _ => true)) ∧
  (due → s.dev.phase = 0 → s.dev.bst.run = none →
    Yields .throttleEnforce s ((s.dev.setOn F.THM_STAT_ENF true).bump R.THM_ENFS) [R.THM_STAT, R.THM_ENFS]
      [(Blk.thm, 0xE3, 0)]) ∧
  (¬ due → Yields .throttleEnforce s s.dev [] [])

/-- The orderly stop ends, complete or at its time limit, in STANDBY with the data path off and held off (R616, R617). -/
def StopFinished (s : State) : Prop :=
  (s.dev.thm.stop = 0 → Yields .orderlyStopTimeout s s.dev [] []) ∧
  (s.dev.thm.stop ≠ 0 →
    Answers .orderlyStopTimeout s fun t =>
      t.dev.thm.stop = 0 ∧ t.dev.pwr.heldOff = true ∧ t.dev.dstate = stSTANDBY ∧
      (∀ x, isDataDomain x = true → t.dev.domOn x = false) ∧ t.pending = s.pending)


/-! ### Start-up (chapter 19) -/

/-- An image passes R629: each of its reads completed, at its second try at the latest; it has the form of its kind; the key
slot of its kind is sealed and its hash is that of the public key; the device ID fits; a firmware's SVN is at least the rollback
count; the signature verifies; the body has its hash. -/
def ImagePasses (x : SecSt) (kind : Nat) (i : ImageIn) : Prop :=
  verifyImage x kind i = 1 ↔
    readsDone i = true ∧ imageForm kind i = true ∧ (kindKey x kind).enrolled = true ∧
    (shake (slice i.header 128 64)).toNat / 2 ^ 256 = (kindKey x kind).bits.toNat ∧
    (natLE (slice i.header 20 8) = 0 ∨ natLE (slice i.header 20 8) = x.devId.toNat) ∧
    (kind = 1 → x.roll ≤ natLE (slice i.header 9 1)) ∧
    slhVerify (slice i.header 128 64) (slice i.header 0 192) i.sig signContext = true ∧
    shake i.body = BitVec.ofNat 512 (natBE (slice i.header 64 64))

/-- The header copy in use (R627): the one that is valid, or, of two, the one with the later SEQ. -/
def HeaderChosen (h0 h1 : List Byte) : Prop :=
  let q0 := natLE (slice h0 4 4)
  let q1 := natLE (slice h1 4 4)
  (headerValid h0 = true → headerValid h1 = false → chooseHeader h0 h1 = some 0) ∧
  (headerValid h0 = false → headerValid h1 = true → chooseHeader h0 h1 = some 1) ∧
  (headerValid h0 = false → headerValid h1 = false → chooseHeader h0 h1 = none) ∧
  (headerValid h0 = true → headerValid h1 = true → q0 < q1 → q1 - q0 < 2 ^ 31 → chooseHeader h0 h1 = some 1) ∧
  (headerValid h0 = true → headerValid h1 = true → q1 ≤ q0 → q0 - q1 < 2 ^ 31 → chooseHeader h0 h1 = some 0)

/-- The start-up sequence where no firmware runs (R485, R632, R642): after a checker that fails the boot ROM stops, with the
memory named; with no valid header, or in BLANK (where it takes a provisioning record) or RETIRED, it writes READY and holds the
data path off. It runs once a start. -/
def BootWithout (s : State) (st : BootStore) (f : BitVec 4) : Prop :=
  let c := Instr.bootSequence st f
  (s.dev.domOn .mgt = false ∨ s.dev.pwr.booted = true → Yields c s s.dev [] []) ∧
  (s.dev.domOn .mgt = true → s.dev.pwr.booted = false → f ≠ 0 →
    Answers c s fun t => t.dev.fld F.ECC_STAT_CHK_FAIL = f.toNat ∧ t.dev.pwr.booted = true ∧ t.dev.cpu = s.dev.cpu ∧
      t.dev.mem = s.dev.mem ∧ t.pending = s.pending) ∧
  (s.dev.domOn .mgt = true → s.dev.pwr.booted = false → f = 0 →
    (s.dev.sec.lc ∉ [1, 2, 3] ∨ (headerValid st.hdr0 = false ∧ headerValid st.hdr1 = false)) →
    Answers c s fun t => t.dev.mgmt.ready = true ∧ t.dev.pwr.heldOff = true ∧ t.dev.dstate = stSTANDBY ∧
      t.dev.pwr.booted = true ∧ t.pending = s.pending)

/-- The firmware of slot A is preferred, not on trial, and passes, and there is no other image (R630, R466, R467): its body stands in
the instruction SRAM from address 0 and the processor runs at its entry in machine mode with no PMP entry on. -/
def BootEnters (s : State) (st : BootStore) : Prop :=
  s.dev.domOn .mgt = true → s.dev.pwr.booted = false → s.dev.sec.lc ∈ [1, 2, 3] → headerValid st.hdr0 = true →
    headerValid st.hdr1 = false → natLE (slice st.hdr0 8 1) ≠ 1 → natLE (slice st.hdr0 9 1) ≠ 1 →
    verifyImage s.dev.sec 1 st.fwA = 1 → st.extA = none → st.extB = none → st.cfgA = none → st.cfgB = none →
    Answers (.bootSequence st 0) s fun t =>
      t.dev.cpu = { s.dev.cpu.restarted with running := true, pc := BitVec.ofNat 32 (natLE (slice st.fwA.header 16 4)) } ∧
      (∀ i b, st.fwA.body[i]? = some b → Cells.get zeroByte t.dev.mem i = b) ∧
      t.dev.fld F.SEC_BOOTSTAT_FAILA = 1 ∧ t.dev.on F.SEC_BOOTSTAT_FW = false ∧
      t.dev.fld F.SEC_BOOTSTAT_TRIES = s.dev.fld F.SEC_BOOTSTAT_TRIES ∧
      t.dev.fld F.SEC_ROLL_SVN = natLE (slice st.fwA.header 9 1) ∧ t.dev.pwr.booted = true ∧ t.pending = s.pending

/-- `SEC.CTRL` (R638, R639): CONFIRM clears the count of tries; RESTART waits for the next boundary; ROLLFWD programs the
rollback count up to the running SVN, of 128 steps at most, unless a trial is on, the count is not behind or the part is
RETIRED. That it waits behind a programming operation of another kind is the model's choice (DESIGN CHOICE, log 48). -/
def TrialConfirmed (s : State) (m : Master) (v : Word) : Prop :=
  let may := s.dev.fld F.SEC_BOOTSTAT_TRIES = 0 ∧ s.dev.sec.roll < min 128 (s.dev.fld F.SEC_ROLL_SVN) ∧ s.dev.sec.lc ≠ 4
  let up := OtpOp.roll (min 128 (s.dev.fld F.SEC_ROLL_SVN))
  Reaches s m R.SEC_CTRL → ∀ c ∈ [Instr.confirm m v, .rollfwd m v],
    (v.toNat % 8 = 1 →
      Yields c s (onBus R.SEC_CTRL (fun d => d.setFld F.SEC_BOOTSTAT_TRIES 0) s.dev) [R.SEC_BOOTSTAT] []) ∧
    (v.toNat % 8 = 2 →
      Yields c s (onBus R.SEC_CTRL (fun d => d.modSec fun x => { x with restartDue := true }) s.dev) [] []) ∧
    (v.toNat % 8 = 4 → may → s.dev.sec.otpOp = none →
      Yields c s (onBus R.SEC_CTRL (fun d => d.modSec fun x => { x with otpOp := some up }) s.dev) [] []) ∧
    (∀ op, s.dev.sec.otpOp = some op → v.toNat % 8 = 4 → may → op ≠ up → up ∉ s.dev.sec.otpQ →
      Yields c s (onBus R.SEC_CTRL (fun d => d.modSec fun x => { x with otpQ := x.otpQ ++ [up] }) s.dev) [] []) ∧
    (v.toNat % 8 = 4 → ¬ may → Yields c s (onBus R.SEC_CTRL id s.dev) [] [])

/-! ### Security (chapter 19) -/

/-- `SEC.VCMD.GO` (R640, R648): with the hash engine free a verification of that kind and slot runs; behind an attestation it waits. -/
def VerifyAsked (s : State) (m : Master) (v : Word) : Prop :=
  let new := wordWritten s.dev R.SEC_VCMD 0x31 v
  let op := HashOp.verify (v.toNat / 16 % 4) (v.toNat % 2)
  let busy (d : Dev) : Dev := (d.setReg R.SEC_VCMD new).setFld F.SEC_VSTAT_STATE 1
  Reaches s m R.SEC_VCMD →
    (v.getLsbD 31 = true → s.dev.sec.hash = none → s.dev.sec.hashQ = [] →
      Yields (.verifySlot m v) s (onBus R.SEC_VCMD (fun d => (busy d).modSec fun x => { x with hash := some op }) s.dev)
        [R.SEC_VCMD, R.SEC_VSTAT] []) ∧
    (∀ a r, s.dev.sec.hash = some (.attest a r) → v.getLsbD 31 = true → s.dev.sec.hashQ = [] →
      Yields (.verifySlot m v) s (onBus R.SEC_VCMD (fun d => (busy d).modSec fun x => { x with hashQ := [op] }) s.dev)
        [R.SEC_VCMD, R.SEC_VSTAT] []) ∧
    (v.getLsbD 31 = false →
      Yields (.verifySlot m v) s (onBus R.SEC_VCMD (fun d => d.setReg R.SEC_VCMD new) s.dev) [R.SEC_VCMD] [])

/-- `SEC.LC_REQ.GO` (R643): MANUFACTURE goes to DEPLOYED with both the member's and the maintenance key sealed; DEPLOYED to RETURNED
with a valid token for this device; any state to RETIRED. Any other request is ignored. That an accepted one waits behind a programming
operation of another kind is the model's choice (DESIGN CHOICE, log 48). -/
def LifeCycleAsked (s : State) (m : Master) (v : Word) (token : ImageIn) : Prop :=
  let x := s.dev.sec
  let t := v.toNat % 8
  let stored (d : Dev) : Dev := d.setReg R.SEC_LC_REQ (wordWritten s.dev R.SEC_LC_REQ 7 v)
  let may := (x.lc = 1 ∧ t = 2 ∧ x.mmKey.enrolled = true ∧ x.maint.enrolled = true) ∨
    (x.lc = 2 ∧ t = 3 ∧ verifyImage x 4 token = 1 ∧ natLE (slice token.header 20 8) = x.devId.toNat) ∨ t = 4
  Reaches s m R.SEC_LC_REQ → v.getLsbD 31 = true →
    (may → x.otpOp = none →
      Yields (.lcRequest m v token) s (onBus R.SEC_LC_REQ (fun d => (stored d).modSec fun y => { y with otpOp := some (.life t) })
        s.dev) [R.SEC_LC_REQ] []) ∧
    (∀ op, x.otpOp = some op → may → op ≠ .life t → .life t ∉ x.otpQ →
      Yields (.lcRequest m v token) s
        (onBus R.SEC_LC_REQ (fun d => (stored d).modSec fun y => { y with otpQ := y.otpQ ++ [.life t] }) s.dev) [R.SEC_LC_REQ] []) ∧
    (¬ may → Yields (.lcRequest m v token) s (onBus R.SEC_LC_REQ stored s.dev) [R.SEC_LC_REQ] [])

/-- `SEC.ENROL.GO` (R644): in MANUFACTURE an empty slot, whose seal is not blown, is programmed with the key buffer; else ENRES
is 2. That a request waits behind a programming operation that runs, and that a slot whose key is being programmed or waits is
not empty, are the model's choices (DESIGN CHOICE, log 48). -/
def EnrolAsked (s : State) (m : Master) (v : Word) : Prop :=
  let x := s.dev.sec
  let slot := v.toNat % 4
  let stored (d : Dev) : Dev := d.setReg R.SEC_ENROL (wordWritten s.dev R.SEC_ENROL 3 v)
  let may := x.lc = 1 ∧ ((slot = 0 ∧ x.mmKey.sealed = false) ∨ (slot = 1 ∧ x.maint.sealed = false)) ∧
    ∀ k, .key slot k ∉ x.otpOp.toList ++ x.otpQ
  let key := OtpOp.key slot s.dev.keyBuffer
  let takes (f : SecSt → SecSt) : Prop :=
    Yields (.enrol m v) s (onBus R.SEC_ENROL (fun d => ((stored d).modSec f).setOn F.SEC_KEYSTAT_ENBUSY true) s.dev)
      [R.SEC_ENROL, R.SEC_KEYSTAT] []
  Reaches s m R.SEC_ENROL → v.getLsbD 31 = true →
    (may → x.otpOp = none → takes fun y => { y with otpOp := some key }) ∧
    (may → x.otpOp ≠ none → takes fun y => { y with otpQ := y.otpQ ++ [key] }) ∧
    (¬ may →
      Yields (.enrol m v) s (onBus R.SEC_ENROL (fun d => (stored d).setFld F.SEC_KEYSTAT_ENRES 2) s.dev)
        [R.SEC_ENROL, R.SEC_KEYSTAT] [])

/-- A programming operation completes (R639, R643, R644, R645): the rollback count, which never falls, or the state for the next start, the
highest one programmed, with its SEC event; a key slot is sealed where its fuses hold exactly the key and its CRC, and the key
buffer is cleared. The next operation that waits starts, and ENBUSY stays 1 while a key waits: that operations wait, and in order, is the
model's choice (DESIGN CHOICE, log 48). -/
def FusesBlown (s : State) : Prop :=
  let next (x : SecSt) : SecSt := { x with otpOp := s.dev.sec.otpQ.head?, otpQ := s.dev.sec.otpQ.tail }
  (s.dev.sec.otpOp = none → Yields .otpProgrammingDone s s.dev [] []) ∧
  (∀ t, s.dev.sec.otpOp = some (.life t) →
    Answers .otpProgrammingDone s fun u => u.dev.sec = next { s.dev.sec with lcNext := some (max t (s.dev.sec.lcNext.getD 0)) } ∧
      u.dev.on F.SEC_LC_PEND = true ∧ u.dev.mem = s.dev.mem ∧ Events [(Blk.sec, 0xF6, 0)] s u ∧ u.pending = s.pending) ∧
  (∀ svn, s.dev.sec.otpOp = some (.roll svn) →
    Answers .otpProgrammingDone s fun u => u.dev.sec = next { s.dev.sec with roll := max s.dev.sec.roll svn } ∧
      u.dev.fld F.SEC_ROLL_COUNT = max s.dev.sec.roll svn % 256 ∧ u.dev.mem = s.dev.mem ∧ Events [(Blk.sec, 0xF5, 0)] s u ∧
      u.pending = s.pending) ∧
  (∀ slot key, s.dev.sec.otpOp = some (.key slot key) →
    let old := if slot = 0 then s.dev.sec.mmKey else s.dev.sec.maint
    let whole := old.bits ||| key = key ∧ old.crc ||| keyCrc key = keyCrc key
    let new (u : State) : OtpSlot := if slot = 0 then u.dev.sec.mmKey else u.dev.sec.maint
    Answers .otpProgrammingDone s fun u =>
      (new u).bits = old.bits ||| key ∧ ((new u).sealed = true ↔ whole) ∧
      (u.dev.fld F.SEC_KEYSTAT_ENRES = 1 ↔ whole) ∧ u.dev.on F.SEC_KEYSTAT_ENBUSY = (s.dev.sec.otpQ.any fun op => match op with | .key _ _ => true | _ => false) ∧
      u.dev.sec.otpOp = s.dev.sec.otpQ.head? ∧ u.dev.sec.otpQ = s.dev.sec.otpQ.tail ∧
      (∀ w, w < 8 → u.dev.reg (R.SEC_KEYBUF w) = 0) ∧ u.dev.mem = s.dev.mem ∧ Events [] s u ∧ u.pending = s.pending)

/-- `SEC.ATT_CTRL.GO` (R647): an attestation whose 30,048 bytes lie word-aligned in the data SRAM runs, or waits behind a
verification, with the report of that moment; any other address is in STATE 3, and so, by the model's choice (DESIGN CHOICE, log
48), is a RETIRED part; while one runs or waits GO is ignored. -/
def AttestAsked (s : State) (m : Master) (v : Word) : Prop :=
  let a := (s.dev.reg R.SEC_ATT_ADDR).toNat
  let fits := s.dev.sec.lc ≠ 4 ∧ a % 4 = 0 ∧ 0x100000 ≤ a ∧ a + 30048 ≤ 0x140000
  let at_ (f : Dev → Dev) := onBus R.SEC_ATT_CTRL f s.dev
  Reaches s m R.SEC_ATT_CTRL → v.getLsbD 0 = true →
    (s.dev.fld F.SEC_ATT_STAT_STATE = 1 → Yields (.attest m v) s (at_ id) [] []) ∧
    (s.dev.fld F.SEC_ATT_STAT_STATE ≠ 1 → ¬ fits →
      Yields (.attest m v) s (at_ fun d => d.setFld F.SEC_ATT_STAT_STATE 3) [R.SEC_ATT_STAT] []) ∧
    (s.dev.fld F.SEC_ATT_STAT_STATE ≠ 1 → fits → s.dev.sec.hash = none → s.dev.sec.hashQ = [] →
      Yields (.attest m v) s (at_ fun d => (d.modSec fun x => { x with hash := some (.attest a s.dev.attestReport) }).setFld
        F.SEC_ATT_STAT_STATE 1) [R.SEC_ATT_STAT] []) ∧
    (∀ k b, s.dev.sec.hash = some (.verify k b) → s.dev.fld F.SEC_ATT_STAT_STATE ≠ 1 → fits → s.dev.sec.hashQ = [] →
      Yields (.attest m v) s (at_ fun d => (d.modSec fun x => { x with hashQ := [.attest a s.dev.attestReport] }).setFld
        F.SEC_ATT_STAT_STATE 1) [R.SEC_ATT_STAT] [])

/-- The hash engine (R640, R647, R648): a waiting operation starts when none runs; a verification ends with the result of R629,
its SVN and SEC event 0xF2; an attestation with the report of its GO and its signature in memory and SEC event 0xF3, or in
RETIRED as an error (DESIGN CHOICE, log 48); the boot ROM's journal check with VALID. -/
def HashRuns (s : State) (img : ImageIn) : Prop :=
  (s.dev.sec.hash ≠ none ∨ s.dev.sec.hashQ = [] → Yields .hashOpStart s s.dev [] []) ∧
  (∀ k b q, s.dev.sec.hash = none → s.dev.sec.hashQ = .verify k b :: q →
    Yields .hashOpStart s (s.dev.modSec fun x => { x with hash := some (.verify k b), hashQ := q }) [] []) ∧
  (∀ a r q, s.dev.sec.hash = none → s.dev.sec.hashQ = .attest a r :: q →
    Yields .hashOpStart s (s.dev.modSec fun x => { x with hash := some (.attest a r), hashQ := q }) [] []) ∧
  (s.dev.sec.hash = none → Yields (.hashOpDone img) s s.dev [] []) ∧
  (∀ k b, s.dev.sec.hash = some (.verify k b) →
    Yields (.hashOpDone img) s (((((s.dev.modNvm fun n =>
      { n with sent := [(0, s.dev.slotRead k (b == 1) img)] }).setFld F.SEC_VSTAT_RESULT (verifyImage s.dev.sec k img)).setFld F.SEC_VSTAT_SVN
      (natLE (slice img.header 9 1))).setFld F.SEC_VSTAT_STATE 2).modSec fun x => { x with hash := none })
      [R.SEC_VSTAT] [(Blk.sec, 0xF2, 0)]) ∧
  (∀ a r, s.dev.sec.hash = some (.attest a r) → s.dev.sec.lc = 4 →
    Yields (.hashOpDone img) s ((s.dev.modSec fun x => { x with hash := none }).setFld F.SEC_ATT_STAT_STATE 3) [R.SEC_ATT_STAT] []) ∧
  (∀ a r, s.dev.sec.hash = some (.attest a r) → s.dev.sec.lc ≠ 4 →
    Ends (.hashOpDone img) s
      ((((s.dev.modSec fun x => { x with hash := none }).takeFree.2.storeBytes a (r ++ s.dev.attestSign r)).setFld
        F.SEC_ATT_STAT_STATE 2).raise Blk.sec 0xF3 0)) ∧
  (s.dev.sec.hash = some .journal →
    Ends (.hashOpDone img) s (s.dev.modSec fun x => { x with hash := none }).journalCheck)

/-- A journal commit asked for starts, or follows the one that runs (R650). -/
def CommitAsked (s : State) (m : Master) (v : Word) : Prop :=
  let at_ (f : Dev → Dev) := onBus R.SEC_JNL_CMD f s.dev
  Reaches s m R.SEC_JNL_CMD →
    (v.getLsbD 0 = false → Yields (.journalCommit m v) s (at_ id) [] []) ∧
    (v.getLsbD 0 = true → s.dev.sec.jnlRun = none →
      Yields (.journalCommit m v) s (at_ fun d => (d.modSec fun x => { x with jnlRun := some 3 }).setOn F.SEC_JNL_STAT_BUSY true)
        [R.SEC_JNL_STAT] []) ∧
    (∀ c, v.getLsbD 0 = true → s.dev.sec.jnlRun = some c →
      Yields (.journalCommit m v) s (at_ fun d => d.modSec fun x => { x with jnlQ := x.jnlQ ++ [3] }) [] [])

/-- A journal commit completes (R649, R650): its record of eight words stands at the start of the retention SRAM, with the marker, a SEQ one
higher, and the CRC of the seven words before it; the status shows it and SEC event 0xF4 is queued. No other byte changes, where the
retention SRAM's words are clean. -/
def CommitDone (s : State) : Prop :=
  let w (t : State) (i : Nat) : Word := t.dev.memWord (memBase 3 + 4 * i)
  (s.dev.sec.jnlRun = none → s.dev.thm.stop = 0 → Yields .journalCommitDone s s.dev [] []) ∧
  (∀ c, s.dev.sec.jnlRun = some c → c < 16 → s.dev.sec.jnlQ = [] → s.dev.thm.stop = 0 →
    (∀ i, i < 2048 → classifyWord (w s i) (s.dev.memCheck (memBase 3 + 4 * i)) = .clean) →
    Answers .journalCommitDone s fun t =>
      w t 0 = 0x4A4E4C31 ∧ w t 1 = w s 1 + 1 ∧ (w t 2).toNat / 2 ^ 24 = c ∧ w t 3 = s.dev.pwr.rtc.setWidth 32 ∧
      w t 7 = BitVec.ofNat 32 (crc32 ((List.range 7).flatMap fun i => wordBytes (w t i))) ∧
      (∀ b, b < memBase 3 ∨ memBase 3 + 32 ≤ b → Cells.get zeroByte t.dev.mem b = Cells.get zeroByte s.dev.mem b) ∧
      t.dev.fld F.SEC_JNL_STAT_SEQ = (w t 1).toNat % 2 ^ 16 ∧ t.dev.fld F.SEC_JNL_STAT_CAUSE = c ∧
      t.dev.on F.SEC_JNL_STAT_DIRTY = false ∧ t.dev.on F.SEC_JNL_STAT_BUSY = false ∧ t.dev.sec.jnlRun = none ∧
      Kept [R.SEC_JNL_STAT] s t ∧ Events [(Blk.sec, 0xF4, c)] s t ∧ t.pending = s.pending)

/-- The attestation public key appears, unless the part is RETIRED or no firmware runs (R642, R647). -/
def KeyShown (s : State) : Prop :=
  (s.dev.sec.lc = 4 ∨ s.dev.cpu.running = false → Yields .attestationPublicKeyReady s s.dev [] []) ∧
  (s.dev.sec.lc ≠ 4 → s.dev.cpu.running = true →
    Answers .attestationPublicKeyReady s fun t =>
      (∀ w, w < 16 → t.dev.reg (R.SEC_ATT_PK w) = bytesWord (slice s.dev.attestKey (4 * w) 4)) ∧
      t.dev.on F.SEC_ATT_STAT_PKV = true ∧
      Frame (R.SEC_ATT_STAT :: (List.range 16).map R.SEC_ATT_PK) s.dev [] s t)

/-- A TAP instruction (R646) is held; one that gives debug access acts as BYPASS where the life-cycle state is not MANUFACTURE or
RETURNED, and every other acts in every state: SAMPLE and EXTEST capture the output pins, and EXTEST drives them from the boundary
cells, as IEEE 1149.1 has it (log 49). -/
def TapTaken (s : State) (ir : Nat) : Prop :=
  let op := Config.tapOp ir
  let cells := if op = .sample ∨ op = .extest then some s.pins else s.dev.boundary
  Answers (.tapInstruction ir) s fun t => Frame [] { s.dev with tap := some ir, boundary := cells } [] s t ∧
    tapActs t.dev = (if op = .debug ∧ s.dev.sec.lc ≠ 1 ∧ s.dev.sec.lc ≠ 3 then .bypass else op) ∧
    (t.pins.extest = true ↔ op = .extest)

/-! ### The record store (chapter 19) -/

/-- An access to a store begins (R626, R652): its operation is in progress, and the chip select has the die-select command where ADDR[36:32]
changes on the record store and the header gives one, then the header's command at ADDR[31:0] with the data of a program, then the
status polls of a program or an erase with their time-out in µs. -/
def AccessSends (d : Dev) : Prop :=
  let h := d.nvm.hdr
  let a := d.nvmAddr
  let n := if d.nvm.auto then 128 else d.fld F.NVM_LEN_LEN
  let die := if d.nvm.cs = 1 ∧ h.dscmd ≠ 0 ∧ a / 2 ^ 32 ≠ d.nvm.die then [(1, StoreCmd.dieSelect h.dscmd (a / 2 ^ 32))] else []
  let sends (l : List StoreCmd) : Prop := d.nvmAccess.nvm.sent = die ++ l.map fun c => (d.nvm.cs, c)
  d.nvmAccess.nvm.accessing = true ∧ (d.nvm.cs = 1 → d.nvmAccess.nvm.die = a / 2 ^ 32) ∧
    d.nvmAccess = { d with nvm := d.nvmAccess.nvm } ∧
    (d.nvm.op = 0 → sends [.read8D h.rdcmd (a % 2 ^ 32) h.dummy n 1000]) ∧
    (d.nvm.op = 1 → sends [.program8D h.pgcmd (a % 2 ^ 32) (((List.range 32).flatMap fun w => wordBytes (d.reg (R.NVM_WBUF w))).take n),
      .status8D h.stcmd h.busyBit h.tpg]) ∧
    (d.nvm.op = 2 → sends [.erase8D h.ercmd (a % 2 ^ 32), .status8D h.stcmd h.busyBit (1000 * h.ter)])

/-- A block read of the record store (R653, R654): it is in progress at the addressed bytes. A GO while an operation is in progress is
ignored; a program of the running firmware's slot is refused with code 1, and one over the budget with code 2. -/
def StoreAsked (s : State) (m : Master) (v : Word) : Prop :=
  let stored (d : Dev) : Dev := d.setReg R.NVM_CMD (wordWritten s.dev R.NVM_CMD 0x13 v)
  let a := s.dev.fld F.NVM_ADDR_HI_ADDR * 2 ^ 32 + (s.dev.reg R.NVM_ADDR_LO).toNat
  let len := s.dev.fld F.NVM_LEN_LEN
  let cs := s.dev.on F.NVM_ADDR_HI_CS
  let block := a % 4 = 0 ∧ len % 4 = 0 ∧ 4 ≤ len ∧ len ≤ 128 ∧ a / 128 = (a + len - 1) / 128
  let at_ (f : Dev → Dev) := onBus R.NVM_CMD f s.dev
  let refused (k : Nat) (d : Dev) : Dev := ((((stored d).setFld F.NVM_STAT_STATE 3).setFld F.NVM_STAT_ERR k).modNvm fun n =>
    { n with accessing := false, abort := false })
  Reaches s m R.NVM_CMD → v.getLsbD 31 = true → v.getLsbD 30 = false →
    ∀ c ∈ [Instr.nvmRead m v, .nvmProgram m v, .nvmErase m v],
    (s.dev.fld F.NVM_STAT_STATE = 1 → Yields c s (at_ stored) [R.NVM_CMD] []) ∧
    (s.dev.fld F.NVM_STAT_STATE ≠ 1 → v.toNat % 4 = 0 → v.getLsbD 4 = false → cs = true → block → a + len ≤ 2 ^ s.dev.nvm.hdr.rsize →
      Yields c s (at_ fun d => (((((stored d).setFld F.NVM_STAT_STATE 1).setFld F.NVM_STAT_ERR 0).setFld F.NVM_STAT_REMAIN len).modNvm
        fun n => { n with op := 0, auto := false, cs := 1, addr := a, accessing := false, abort := false }).nvmAccess)
        [R.NVM_CMD, R.NVM_STAT] []) ∧
    (s.dev.fld F.NVM_STAT_STATE ≠ 1 → v.toNat % 4 = 3 → Yields c s (at_ (refused 4)) [R.NVM_CMD, R.NVM_STAT] [(Blk.nvm, 0xF8, 0)]) ∧
    (s.dev.fld F.NVM_STAT_STATE ≠ 1 → v.toNat % 4 = 1 → v.getLsbD 4 = false → cs = false → block →
      s.dev.cpu.running = true → s.dev.on F.SEC_BOOTSTAT_FW = false → 0x10000 ≤ a → a < 0x90000 →
      Yields c s (at_ (refused 1)) [R.NVM_CMD, R.NVM_STAT] [(Blk.nvm, 0xF8, 0)]) ∧
    (s.dev.fld F.NVM_STAT_STATE ≠ 1 → v.toNat % 4 = 1 → v.getLsbD 4 = false → cs = true → block → a + len ≤ 2 ^ s.dev.nvm.hdr.rsize →
      s.dev.fld F.NVM_BUDGET_CLASS = 0 → 16 * 2 ^ 20 < (s.dev.reg R.NVM_USED).toNat + len →
      Yields c s (at_ (refused 2)) [R.NVM_CMD, R.NVM_STAT] [(Blk.nvm, 0xF8, 0), (Blk.nvm, 0xF9, 0)])

/-- An erase of a block (R652, R654): it is in progress at an address that is a multiple of the erase size and, as R654 asks of
every request, of 4, or of 128 with AUTO. -/
def EraseAsked (s : State) (m : Master) (v : Word) : Prop :=
  let stored (d : Dev) : Dev := d.setReg R.NVM_CMD (wordWritten s.dev R.NVM_CMD 0x13 v)
  let a := s.dev.fld F.NVM_ADDR_HI_ADDR * 2 ^ 32 + (s.dev.reg R.NVM_ADDR_LO).toNat
  Reaches s m R.NVM_CMD → v.getLsbD 31 = true → v.getLsbD 30 = false → v.toNat % 4 = 2 → s.dev.fld F.NVM_STAT_STATE ≠ 1 →
    s.dev.on F.NVM_ADDR_HI_CS = true → a % 2 ^ s.dev.nvm.hdr.ersz = 0 →
    a % (if v.getLsbD 4 then 128 else 4) = 0 → a + 2 ^ s.dev.nvm.hdr.ersz ≤ 2 ^ s.dev.nvm.hdr.rsize →
    Yields (.nvmErase m v) s (onBus R.NVM_CMD (fun d =>
      (((((stored d).setFld F.NVM_STAT_STATE 1).setFld F.NVM_STAT_ERR 0).setFld F.NVM_STAT_REMAIN 0).modNvm fun n =>
        { n with op := 2, auto := false, cs := 1, addr := a, accessing := false, abort := false }).nvmAccess) s.dev)
      [R.NVM_CMD, R.NVM_STAT] []

/-- A block program of the record store within its budget (R653 to R655) is in progress at the addressed bytes. -/
def ProgramAsked (s : State) (m : Master) (v : Word) : Prop :=
  let stored (d : Dev) : Dev := d.setReg R.NVM_CMD (wordWritten s.dev R.NVM_CMD 0x13 v)
  let a := s.dev.fld F.NVM_ADDR_HI_ADDR * 2 ^ 32 + (s.dev.reg R.NVM_ADDR_LO).toNat
  let len := s.dev.fld F.NVM_LEN_LEN
  Reaches s m R.NVM_CMD → v.getLsbD 31 = true → v.getLsbD 30 = false → v.toNat % 4 = 1 → v.getLsbD 4 = false →
    s.dev.fld F.NVM_STAT_STATE ≠ 1 → s.dev.on F.NVM_ADDR_HI_CS = true → a % 4 = 0 → len % 4 = 0 → 4 ≤ len → len ≤ 128 →
    a / 128 = (a + len - 1) / 128 → a + len ≤ 2 ^ s.dev.nvm.hdr.rsize → (s.dev.reg R.NVM_USED).toNat + len ≤ 16 * 2 ^ 20 →
    Yields (.nvmProgram m v) s (onBus R.NVM_CMD (fun d =>
      (((((stored d).setFld F.NVM_STAT_STATE 1).setFld F.NVM_STAT_ERR 0).setFld F.NVM_STAT_REMAIN len).modNvm fun n =>
        { n with op := 1, auto := false, cs := 1, addr := a, accessing := false, abort := false }).nvmAccess) s.dev)
      [R.NVM_CMD, R.NVM_STAT] []

/-- `NVM.CMD.ABORT` (R656), also over GO: an operation stops after the block in progress, at once between blocks, with code 5; with none
in progress nothing stops. -/
def StoreAborted (s : State) (m : Master) (v : Word) : Prop :=
  let stored (d : Dev) : Dev := d.setReg R.NVM_CMD (wordWritten s.dev R.NVM_CMD 0x13 v)
  let at_ (f : Dev → Dev) := onBus R.NVM_CMD f s.dev
  Reaches s m R.NVM_CMD → v.getLsbD 30 = true →
    (s.dev.fld F.NVM_STAT_STATE ≠ 1 → Yields (.nvmAbort m v) s (at_ stored) [R.NVM_CMD] []) ∧
    (s.dev.fld F.NVM_STAT_STATE = 1 → s.dev.nvm.accessing = true →
      Yields (.nvmAbort m v) s (at_ fun d => (stored d).modNvm fun n => { n with abort := true }) [R.NVM_CMD] []) ∧
    (s.dev.fld F.NVM_STAT_STATE = 1 → s.dev.nvm.accessing = false →
      Yields (.nvmAbort m v) s (at_ fun d => ((((stored d).setFld F.NVM_STAT_STATE 3).setFld F.NVM_STAT_ERR 5).modNvm fun n =>
        { n with accessing := false, abort := false })) [R.NVM_CMD, R.NVM_STAT] [(Blk.nvm, 0xF8, 0)])

/-- A block's access completes (R652, R653, R655): a read's bytes stand in the read buffer, a program of the record store counts in
USED, which saturates; the operation is done. An access that times out ends with code 3 and charges class 12. -/
def StoreAnswers (s : State) (data : List Byte) : Prop :=
  let len := s.dev.fld F.NVM_STAT_REMAIN
  let runs := s.dev.fld F.NVM_STAT_STATE = 1 ∧ s.dev.nvm.accessing = true
  (¬ runs → Yields (.nvmOpDone data) s s.dev [] [] ∧ Yields .nvmTimeout s s.dev [] []) ∧
  (runs → s.dev.nvm.auto = false → s.dev.nvm.abort = false → s.dev.nvm.op = 0 → len % 4 = 0 → len ≤ 128 → data.length = len →
    Answers (.nvmOpDone data) s fun t =>
      (∀ w, 4 * w < len → t.dev.reg (R.NVM_RBUF w) = bytesWord ((data.drop (4 * w)).take 4)) ∧
      t.dev.fld F.NVM_STAT_STATE = 2 ∧ t.dev.fld F.NVM_STAT_REMAIN = 0 ∧ t.dev.nvm.accessing = false ∧
      Kept (R.NVM_STAT :: (List.range 32).map R.NVM_RBUF) s t ∧ t.dev.mem = s.dev.mem ∧ Events [] s t ∧ t.pending = s.pending) ∧
  (runs → s.dev.nvm.auto = false → s.dev.nvm.abort = false → s.dev.nvm.op = 1 → s.dev.nvm.cs = 1 →
    Yields (.nvmOpDone data) s
      ((((s.dev.setReg R.NVM_USED (BitVec.ofNat 32 (min (2 ^ 32 - 1) ((s.dev.reg R.NVM_USED).toNat + len)))).setFld
        F.NVM_STAT_REMAIN 0).setFld F.NVM_STAT_STATE 2).modNvm fun n => { n with accessing := false })
      [R.NVM_USED, R.NVM_STAT] []) ∧
  (runs →
    Ends .nvmTimeout s
      (((((s.dev.setFld F.NVM_STAT_STATE 3).setFld F.NVM_STAT_ERR 3).raise Blk.nvm 0xF8 0).modNvm fun n =>
        { n with accessing := false, abort := false }).charge 12 0 fun d =>
          (d.setOn F.NVM_STAT_DEGRADED true).raise Blk.nvm 0xFA 0))

/-- The stream buffers (R653): a read of `NVM.RBUF31` returns its word and releases the block of a read stream; a write of `NVM.WBUF31`
starts the block of a program stream. -/
def BuffersPaced (s : State) (m : Master) (v : Word) : Prop :=
  let stream (k : Nat) := s.dev.fld F.NVM_STAT_STATE = 1 ∧ s.dev.nvm.auto = true ∧ s.dev.nvm.op = k
  (m ≠ .mesh → Reaches s m R.NVM_RBUF31 →
    (stream 0 → Yields (.rbuf31Read m) s (served R.NVM_RBUF31 (s.dev.reg R.NVM_RBUF31) s.dev).nvmAccess [] []) ∧
    (¬ stream 0 → Yields (.rbuf31Read m) s (served R.NVM_RBUF31 (s.dev.reg R.NVM_RBUF31) s.dev) [] [])) ∧
  (Reaches s m (R.NVM_WBUF 31) →
    (stream 1 → Yields (.wbuf31Write m v) s (onBus (R.NVM_WBUF 31) (fun d => (d.setReg (R.NVM_WBUF 31) v).nvmAccess) s.dev)
      [R.NVM_WBUF 31] []) ∧
    (¬ stream 1 → Yields (.wbuf31Write m v) s (onBus (R.NVM_WBUF 31) (fun d => d.setReg (R.NVM_WBUF 31) v) s.dev)
      [R.NVM_WBUF 31] []))

/-- The budget window (R655): when its seconds have passed USED is 0 and 86,400 seconds are left. -/
def BudgetRenewed (s : State) : Prop :=
  (s.dev.reg R.NVM_WIN_LEFT = 0 →
    Yields .budgetWindowEnd s ((s.dev.setReg R.NVM_USED 0).setReg R.NVM_WIN_LEFT 86400) [R.NVM_USED, R.NVM_WIN_LEFT] []) ∧
  (s.dev.reg R.NVM_WIN_LEFT ≠ 0 → Yields .budgetWindowEnd s s.dev [] [])


/-! ### Fault classes and self-test (chapter 20) -/

/-- The level of an instance leaks by one when its period has ended (R658, R659): below T it is not lasting any more, and a lasting
instance ends with FLT event 0x39; an empty level, or a period that has not ended, stays. -/
def FaultLeaked (s : State) (c : Fin 13) (i : Nat) : Prop :=
  let b := s.dev.bucket c i
  let d := s.dev.setBucket { b with level := b.level - 1, timer := s.dev.faultPeriod c, lasting := false }
  (b.level = 0 ∨ b.timer ≠ 0 → Yields (.faultLeak c i) s s.dev [] []) ∧
  (b.level ≠ 0 → b.timer = 0 → b.lasting = false → Yields (.faultLeak c i) s d [] []) ∧
  (b.level ≠ 0 → b.timer = 0 → b.lasting = true → lastingFlag c i = none →
    Yields (.faultLeak c i) s d [] [(Blk.flt, 0x39, c)]) ∧
  (b.level ≠ 0 → b.timer = 0 → b.lasting = true → Ends (.faultLeak c i) s (d.endLasting c i))

/-- An event of a class (R658, R659), the leak that is due taken first: the level rises by one up to T; below T the class's action is
not taken, at T it is taken once for as long as the instance is lasting. -/
def FaultCharged (d : Dev) (c i : Nat) (action : Dev → Dev) : Prop :=
  let e := d.leak c i
  let b := e.bucket c i
  let t := e.faultT c
  (b.level + 1 < t →
    ((d.charge c i action).bucket c i).level = b.level + 1 ∧ ((d.charge c i action).bucket c i).lasting = b.lasting ∧
      (d.charge c i action).regs = e.regs ∧ (d.charge c i action).raised = e.raised) ∧
  (t ≤ b.level + 1 → b.lasting = true →
    ((d.charge c i action).bucket c i).level = t ∧ (d.charge c i action).regs = e.regs ∧
      (d.charge c i action).raised = e.raised) ∧
  (t ≤ b.level + 1 → b.lasting = false →
    let timer := if b.level = 0 then e.faultPeriod c + 1 else b.timer
    d.charge c i action = action ((e.setBucket { b with level := t, lasting := true, timer := timer }).reportLasting c i))

/-- No test runs that a test could interrupt, in the running device (R664). -/
def testable (d : Dev) : Prop := d.bst.run = none ∧ d.fullRunning = false ∧ d.domOn .mgt = true

/-- The conditions of R665 that name no slice: NORMAL, no throttle, no entry to STANDBY or REST, and the budget. -/
def testAllowed (d : Dev) (draw : Nat) : Prop :=
  d.fld F.THM_STAT_LEVEL = 0 ∧ d.on F.THM_STAT_ENF = false ∧ d.dstate ≠ stToSTANDBY ∧ d.pwr.restDue = false ∧
    draw + (if d.phase = 0 then 0 else 11) ≤ d.fld F.BST_CFG_BUDGET

/-- A self-test starts (R664, R665, R667): the lowest queued slice that carries no lane, which is woken; else the next queued memory
segment; with nothing queued nothing starts. -/
def TestStarts (s : State) (k : Slice) (g : TestItem) (q : List TestItem) : Prop :=
  testable s.dev →
    (s.dev.nextSliceTest = some k.val → testAllowed s.dev 15 → s.dev.active = true →
      Answers .selfTestStart s fun t =>
        t.dev.bst.run = some ⟨0, k, 0⟩ ∧ t.dev.fld F.BST_STAT_STATE = 1 ∧ t.dev.fld F.BST_STAT_TGT = k ∧
        t.dev.fld F.SPR_STAT_TESTING = k ∧ t.dev.domOn (.slc k) = true ∧ t.dev.mem = s.dev.mem ∧ Events [] s t ∧
        t.pending = s.pending) ∧
    (s.dev.nextSliceTest = none → s.dev.bst.memQ = g :: q → (g.tgt = 2 → s.dev.captureHolds g.seg = false) → g.part = 3 →
      testAllowed s.dev 3 →
      Yields .selfTestStart s
        ((((((s.dev.modBst fun b => { b with run := some g, memQ := q }).setFld F.BST_STAT_STATE 2).setFld F.BST_STAT_TGT
          g.tgt).setFld F.BST_STAT_SEG g.seg).setFld F.BST_STAT_PART 0).setFld F.BST_MSTAT_LEFT q.length) [R.BST_STAT, R.BST_MSTAT] []) ∧
    (s.dev.nextSliceTest = none → s.dev.bst.memQ = [] →
      Yields .selfTestStart s s.dev [] [])

/-- The result of a test (R668): INCOMPLETE when it did not reach the expected count, PASS when it did without a failure, FAIL else. -/
def TestJudged (n : Nat) (r : TestRun) : Prop :=
  (r.count < n → testResult n r = 2) ∧
  (r.count = n → r.ok = true → r.words = [] → testResult n r = 1) ∧
  (n ≤ r.count → (r.count ≠ n ∨ r.ok = false ∨ r.words ≠ []) → testResult n r = 3)

/-- A self-test ends (R668 to R670): a memory segment that passes all 10,240 operations gives PASS with BST event 0x28; one with
failing words gives FAIL with their number and BST event 0x2A, and their rows are remapped; a slice test its result and count;
with no test running nothing changes. -/
def TestEnds (s : State) (g : TestItem) (r : TestRun) : Prop :=
  s.dev.fullRunning = false →
    (s.dev.bst.run = none → Yields (.selfTestDone r) s s.dev [] []) ∧
    (s.dev.bst.run = some g → g.part ≠ 0 → r.count = 10240 → r.ok = true → r.words = [] →
      Yields (.selfTestDone r) s
        (((((((s.dev.modBst fun b => { b with run := none }).showIdle).setFld F.BST_MRES_RESULT 1).setFld F.BST_MRES_MEM
          g.tgt).setFld F.BST_MRES_SEG g.seg).setFld F.BST_MRES_FAILS 0).setFld F.BST_MSTAT_LEFT s.dev.bst.memQ.length)
        [R.BST_STAT, R.BST_MRES, R.BST_MSTAT] [(Blk.bst, 0x28, g.tgt)]) ∧
    (s.dev.bst.run = some g → g.part ≠ 0 → 10240 ≤ r.count → r.words ≠ [] →
      Ends (.selfTestDone r) s
        ((((((((s.dev.modBst fun b => { b with run := none }).showIdle).setFld F.BST_MRES_RESULT 3).setFld F.BST_MRES_MEM
          g.tgt).setFld F.BST_MRES_SEG g.seg).setFld F.BST_MRES_FAILS (Dev.failing r.words).length).raise Blk.bst 0x2A g.tgt).remapFailing
          g r.words).showQueue) ∧
    (s.dev.bst.run = some g → g.part = 0 →
      let res := testResult (s.dev.fld F.BST_LEXP_COUNT) r
      Ends (.selfTestDone r) s
        ((((((((s.dev.modBst fun b => { b with run := none }).showIdle).setFld F.SPR_STAT_TESTING 15).setFld (F.BST_SRES_RESULT
          g.tgt) res).setFld (F.BST_SRES_COUNT g.tgt) r.count).testEvent res g.tgt).sliceResult g.tgt res).updateFly))

/-- What a slice test's result does to the slice (R367, R368), with no mismatch waiting for it: PASS takes it from the queue and makes it
eligible; INCOMPLETE leaves it queued; the first FAIL makes it ineligible and queues it again, with SPR event 0x88 and
one event of class 6. -/
def SliceJudged (d : Dev) (k : Fin 9) : Prop :=
  let bit := BitVec.ofNat 9 (2 ^ (k : Nat))
  d.spr.blame = [] →
    d.sliceResult k 1 = (d.modSpr fun p =>
      { p with queued := p.queued &&& ~~~bit, passed := p.passed ||| bit, retried := p.retried &&& ~~~bit }) ∧
    d.sliceResult k 2 = d ∧
    (d.spr.retried.getLsbD k = false →
      d.sliceResult k 3 = ((d.modSpr fun p =>
        { p with queued := p.queued &&& ~~~bit ||| bit, passed := p.passed &&& ~~~bit, retried := p.retried ||| bit }).raise Blk.spr 0x88 k).chargeSlice 6 k)

/-- `BST.MCMD.GO` (R671): COUNT + 1 segments from FIRST are queued when they exist, none is queued already and no capture holds one of
them; else ERR is 1. -/
def SegmentsQueued (s : State) (m : Master) (v : Word) : Prop :=
  let mem := v.toNat / 2 ^ 28 % 4
  let n := v.toNat / 2 ^ 16 % 1024 + 1
  let first := v.toNat % 1024
  let stored (d : Dev) : Dev := d.setReg R.BST_MCMD (wordWritten s.dev R.BST_MCMD 0x33FF03FF v)
  let held := mem = 2 ∧ ∃ i, i < n ∧ s.dev.captureHolds (first + i) = true
  let legal := ¬ held ∧ first + n ≤ segments mem ∧ s.dev.bst.memQ = []
  Reaches s m R.BST_MCMD → v.getLsbD 31 = true →
    (legal →
      Yields (.mcmdGo m v) s (onBus R.BST_MCMD (fun d => (((stored d).setOn F.BST_MSTAT_ERR false).modBst fun b =>
        { b with memQ := (List.range n).map fun i => ⟨3, mem, first + i⟩ }).setFld F.BST_MSTAT_LEFT n) s.dev)
        [R.BST_MCMD, R.BST_MSTAT] []) ∧
    (¬ legal →
      Yields (.mcmdGo m v) s (onBus R.BST_MCMD (fun d => (stored d).setOn F.BST_MSTAT_ERR true) s.dev)
        [R.BST_MCMD, R.BST_MSTAT] [])

/-- `BST.FULL.GO` (R672, R673): in MANUFACTURE or RETURNED, in ACTIVE and NORMAL, the full test runs over every data path, front end and
memory segment; anywhere else STATE is 3; while it runs GO is ignored. -/
def FullTestAsked (s : State) (m : Master) (v : Word) : Prop :=
  let may := (s.dev.sec.lc = 1 ∨ s.dev.sec.lc = 3) ∧ s.dev.dstate = stACTIVE ∧ s.dev.fld F.THM_STAT_LEVEL = 0
  Reaches s m R.BST_FULL → v.getLsbD 31 = true →
    (s.dev.fullRunning = true → Yields (.fullGo m v) s (onBus R.BST_FULL id s.dev) [] []) ∧
    (s.dev.fullRunning = false → ¬ may →
      Yields (.fullGo m v) s (onBus R.BST_FULL (fun d => d.setFld F.BST_FULL_STATE 3) s.dev) [R.BST_FULL] []) ∧
    (s.dev.fullRunning = false → may →
      Answers (.fullGo m v) s fun t =>
        t.dev.fld F.BST_FULL_STATE = 1 ∧ (∀ k, k < 4 → ⟨1, k, 0⟩ ∈ t.dev.bst.full) ∧ (∀ n, n < 8 → ⟨2, n, 0⟩ ∈ t.dev.bst.full) ∧
        (∀ x g, x < 4 → g < segments x → ⟨3, x, g⟩ ∈ t.dev.bst.full) ∧ t.pending = s.pending)

/-- The full test ends when its last item has (R674): its results stand in `BST.FULLRES`, STATE 2 with BST event 0x2B, and the
data path is reset and starts again, but where it is off or goes off: in a thermal stop or after it (R616), in a loss of main
supply, or outside ACTIVE. -/
def FullTestEnds (s : State) : Prop :=
  let ended := ((s.dev.showIdle.setFld F.BST_FULL_STATE 2).setReg R.BST_FULLRES s.dev.bst.results).raise Blk.bst 0x2B 0
  (s.dev.fullRunning = false ∨ s.dev.bst.full ≠ [] → Yields .fullTestDone s s.dev [] []) ∧
  (s.dev.fullRunning = true → s.dev.bst.full = [] →
    (s.dev.active = false ∨ s.dev.thm.stop ≠ 0 ∨ s.dev.pwr.heldOff = true ∨ s.dev.pwr.lossQ.isSome = true) →
    Ends .fullTestDone s ended) ∧
  (s.dev.fullRunning = true → s.dev.bst.full = [] → s.dev.active = true → s.dev.thm.stop = 0 → s.dev.pwr.heldOff = false →
    s.dev.pwr.lossQ = none →
    Ends .fullTestDone s
      ((ended.dataPathReset.powerUpData.startLanes).each allLanes fun n d => d.squelchPwr n false))

/-! ### Counters (chapter 21) -/

/-- `CNT.SNAP` asks for a snapshot at the next boundary (R690); `CNT.FRZ.FREEZE` is stored, behind the clocks
counted till then (R688). -/
def SnapshotAsked (s : State) (m : Master) (v : Word) : Prop :=
  (Reaches s m R.CNT_SNAP →
    (v.getLsbD 0 = true →
      Yields (.snap m v) s (onBus R.CNT_SNAP (fun d => d.setOn F.CNT_SNAP_STAT_PEND true) s.dev) [R.CNT_SNAP_STAT] []) ∧
    (v.getLsbD 0 = false → Yields (.snap m v) s (onBus R.CNT_SNAP id s.dev) [] [])) ∧
  (Reaches s m R.CNT_FRZ →
    Answers (.freeze m v) s fun t =>
      t.dev.frozen = v.getLsbD 0 ∧
      t = commit s (onBus R.CNT_FRZ (fun d => d.elapse.setReg R.CNT_FRZ (wordWritten s.dev R.CNT_FRZ 1 v)) s.dev))

/-- A 48-bit performance counter is written in two accesses (R681): the high half waits with that master, the low half sets all 48 bits
and clears the counter's overflow flag, behind the clocks counted till then (R679). -/
def CounterWritten (s : State) (m : Master) (i : Fin 8) (v : Word) : Prop :=
  let hi := R.CNT_PMC_HI i
  let lo := R.CNT_PMC_LO i
  (Reaches s m hi →
    Answers (.pmcHiWrite m i v) s fun t =>
      (t.dev.getLatch m (hi + 1)).toNat % 65536 = v.toNat % 65536 ∧
      (∀ m' a, a < 2 ^ 32 → m' ≠ m ∨ a ≠ hi + 1 → t.dev.getLatch m' a = s.dev.getLatch m' a) ∧
      Kept [] s t ∧ t.dev.mem = s.dev.mem ∧ Events [] s t ∧ t.pending = s.pending) ∧
  (Reaches s m lo →
    Answers (.pmcLoWrite m i v) s fun t =>
      t.dev.count48 lo = (s.dev.getLatch m (hi + 1)).toNat % 65536 * 2 ^ 32 + v.toNat ∧
      t.dev.on ⟨R.CNT_OVF, i, 1⟩ = false ∧
      t = commit s (onBus lo (fun d =>
        ((d.elapse.setReg lo v).setReg hi (s.dev.getLatch m (hi + 1))).setOn ⟨R.CNT_OVF, i, 1⟩ false) s.dev))

/-- A performance counter at its last value wraps to 0 with its overflow flag, and with CNT event 0x4A where that is enabled (R680); a
frozen counter, or one below its last value, stays. -/
def CounterWraps (s : State) (i : Fin 8) : Prop :=
  let lo := R.CNT_PMC_LO i
  let last := s.dev.count48 lo = 2 ^ 48 - 1 ∧ s.dev.frozen = false
  (last →
    Answers (.pmcWrap i) s fun t =>
      t.dev.count48 lo = 0 ∧ t.dev.on ⟨R.CNT_OVF, i, 1⟩ = true ∧
      Frame [lo, lo + 4, R.CNT_OVF] s.dev (if s.dev.on (F.CNT_PMC_CFG_OVF_EVT i) then [(Blk.cnt, 0x4A, i)] else []) s t) ∧
  (¬ last → Yields (.pmcWrap i) s s.dev [] [])

/-- The sampler (R682, R683): the oldest instruction its count reached is recorded with its latency, or counted lost behind 128
entries; with none nothing is recorded. -/
def SampleTaken (s : State) (x : Sample) (xs : List Sample) (lat : Nat) : Prop :=
  (s.dev.cnt.due = x :: xs → s.dev.cnt.samples.length < 128 →
    Yields (.sampleRecord lat) s
      ({ s.dev with cnt := { s.dev.cnt with due := xs, samples := s.dev.cnt.samples ++ [{ x with lat := min 65535 lat }] } } : Dev)
      [] []) ∧
  (s.dev.cnt.due = x :: xs → 128 ≤ s.dev.cnt.samples.length →
    Yields (.sampleRecord lat) s
      (({ s.dev with cnt := { s.dev.cnt with due := xs } } : Dev).bumpFld F.CNT_SMP_STAT_LOST) [R.CNT_SMP_STAT] []) ∧
  (s.dev.cnt.due = [] → Yields (.sampleRecord lat) s s.dev [] [])

/-- An instruction that retires while the sampler runs and nothing is frozen counts toward the sample (R682, R688). The K-th is
sampled, with its address, word and mode (R683), and the next interval, the larger of N and 1 plus the low JIT bits of r, begins with it.
That r comes from the next state of the register, and N and JIT are those of the moment, is log 50's choice. -/
def SampleCounted (d : Dev) : Prop :=
  d.on F.CNT_SMP_CFG_EN = true → d.frozen = false → 0 < d.cnt.left →
    let e := d.retire
    let r := lfsrStep d.cnt.lfsr
    e.cnt.samples = d.cnt.samples ∧ e.cpu.pc = d.cpu.pc ∧
      (1 < d.cnt.left → e.cnt = { d.cnt with left := d.cnt.left - 1 }) ∧
      (d.cnt.left = 1 → e.cnt = { d.cnt with
        due := d.cnt.due ++ [⟨d.cpu.ipc, d.cpu.insn, !d.cpu.iuser, 0⟩], lfsr := r,
        left := max 1 (d.fld F.CNT_SMP_CFG_N) + r.toNat % 2 ^ d.fld F.CNT_SMP_CFG_JIT })

/-- A read of `CNT.SMP_ENT2` returns the head sample's last word and removes the sample; an empty record reads 0 (R683). -/
def SamplePopped (s : State) (m : Master) : Prop :=
  m ≠ .mesh → Reaches s m R.CNT_SMP_ENT2 →
    Yields (.smpEnt2Read m) s
      (({ s.dev.touch .mgt with cnt := { s.dev.cnt with samples := s.dev.cnt.samples.tail } } : Dev).returned .done
        (match s.dev.cnt.samples with
          | [] => 0
          | x :: _ => BitVec.ofNat 32 (2 ^ 31 + x.machine.toNat * 2 ^ 30 + x.lat))) [] []


/-! ### The quire boundary (chapter 1) -/

/-- The boundary command (R39, R43): without a running tick nothing changes; with one, what the ending quire counts and the new
quire number come first, then the five steps in their order; software writes of the boundary's clock come after what waits for a
boundary (R13), and a counter of boundaries that one of them sets counts this boundary on top (R524); and the events are queued in that
order under the new quire number. The clocks of the quire that begins are counted from 0. -/
def BoundaryOrdered (s : State) (inp : TickInput) : Prop :=
  (s.dev.ticking = false → Yields (.quireTick inp) s s.dev [] []) ∧
  (s.dev.ticking = true →
    let d0 := s.dev.quireEnd
    let due := d0.timeStep.1
    let ds := d0.timeStep.2.snapshotStep due.1 fun b => (Dev.queueOf s.evq b).lost
    let pm := (ds.countersOf 13).partition (ds.pmcWritten inp.writes)
    let d1 := ds.each pm.2 fun i d => d.pmcAdd i 1
    let d2 := (((d1.pressStep (d1.fld F.CLK_PRESS_STAT_PEND ||| due.2)).classUpdates).rotationTick.powerStep).laneStep inp
    let d3 := d2.calStep inp.writes
    let d4 := (if 4 ≤ d3.pwr.sbyDown then d3 else d3.meshTick).sampleStep
    let d5 := (d4.slotStep.waitStep.showPaused.swWrites inp.writes).each pm.1 fun i d => d.pmcAdd i 1
    Answers (.quireTick inp) s fun t =>
      t = commitTick s { d5 with cnt := { d5.cnt with clocks := 0 } } ∧ t.pending = s.pending)

/-- Mesh time advances (R15): away from the mesh by one quire exactly, modulo 2^48, and nothing else changes but the time kept of the tick
before. -/
def TimeAdvances (d : Dev) : Prop :=
  d.meshOn = false → d.advanceMesh = { d with clk := { d.clk with qnum := d.clk.qnum + 1, was := BitVec.ofNat 64 d.meshTime } }

/-- A snapshot is taken (R44, R690 to R693): every counter of the internal domains in a domain that is on has its holding copy, and no
counter changes; the tag rises by one, PEND and DONE are 0, and each lane's and stream's
capture is due; one that was deferred says so with CNT event 0x49. -/
def SnapshotTaken (d : Dev) (lost : Nat → Word) : Prop :=
  let e := d.snapshotTake lost
  ((d.regs.map Prod.fst).Nodup → ∀ a, d.internalCapture a = true → a % 0x10000 < 0x7F00 → (∀ k, k < 16 → a ≠ R.MAP_INFL k) →
    (a ∈ d.regs.map Prod.fst → Cells.get zeroWord e.hold a = d.reg a) ∧
    (a ∉ d.regs.map Prod.fst → Cells.get zeroWord e.hold a = 0)) ∧
  (∀ a, a ≠ R.CNT_SNAP_STAT → a ≠ R.CNT_SNAP_Q → e.reg a = d.reg a) ∧
  e.fld F.CNT_SNAP_STAT_TAG = (d.fld F.CNT_SNAP_STAT_TAG + 1) % 2 ^ 16 ∧ e.reg R.CNT_SNAP_Q = d.clk.qnum.setWidth 32 ∧
  e.on F.CNT_SNAP_STAT_PEND = false ∧ e.on F.CNT_SNAP_STAT_DONE = false ∧ e.on F.CNT_SNAP_STAT_PART = d.someOff ∧
  (∀ n : Lane, (e.lane n).rx.snapDue = true) ∧ e.mapSnap = BitVec.allOnes 16 ∧ e.cnt.snapOpen = true ∧
  e.on F.CNT_SNAP_STAT_DEFER = d.cnt.deferred ∧ e.cnt.deferred = false ∧
  e.raised = d.raised ++ if d.cnt.deferred then [⟨Blk.cnt, 0x49, 0⟩] else []

/-- A press (R533, R535): no group, no effect; else the mask is LAST, nothing is pending and CLK event 0x05 is the last raised. -/
def PressTaken (d : Dev) (mask : Nat) : Prop :=
  (mask = 0 → d.pressStep mask = d) ∧
  (mask ≠ 0 → mask < 2 ^ 16 →
    (d.pressStep mask).fld F.CLK_PRESS_STAT_PEND = 0 ∧ (d.pressStep mask).fld F.CLK_PRESS_STAT_LAST = mask ∧
    (d.pressStep mask).raised.getLast? = some ⟨Blk.clk, 5, 0⟩)

/-- The real-time slot begins (R462): the quire interrupt is pending; where the one before was not seen, RT_OVR counts it with SYS event
0x01. Line 7 pulses (R501). -/
def SlotBegins (d : Dev) : Prop :=
  let begun (e : Dev) : Dev := (e.modCpu fun c => { c with quirePend := true, slotSeen := false }).pulse 7
  (d.cpu.slotSeen = true → d.slotStep = begun d) ∧
  (d.cpu.slotSeen = false → d.slotStep = begun ((d.bumpFld F.SYS_RT_OVR).raise Blk.sys 0x01 0))

/-- The end of a received quire (R92, R103): of a lane in RUN with marker lock whose quire is complete; the next line quire begins at
slot 0 with the scrambler's seed, and then what waits for the lane's received boundary takes effect. In stage 0 of STANDBY the level of
the quire that was sampled is formed alone (R222, R586). Otherwise nothing changes. -/
def ReceivedBoundary (s : State) (n : Lane) (clk : Fin 16384) : Prop :=
  let due := s.dev.samples n = true ∧ s.dev.ownBoundary n = true ∧ (s.dev.lane n).fr.slot = 16448
  (¬ due → Yields (.receivedQuireBoundary n clk) s s.dev [] []) ∧
  (due → s.dev.receives n = false →
    Ends (.receivedQuireBoundary n clk) s ((s.dev.modFr n fun f => { f with slot := 0 }).levelQuire n 16448)) ∧
  (due → s.dev.receives n = true →
    let seed (q : BitVec 24) := scramblerSeed (s.dev.fld (F.LANE_FMT_STAT_RX_LANE n)) q
    Ends (.receivedQuireBoundary n clk) s
      ((s.dev.modFr n fun f => { f with slot := 0, lqn := f.lqn + 1, scr := seed (f.lqn + 1) }).receivedQuire n clk))

/-- The low words of the pairs that count or hold 48 bits and more: the ledgers of the streams (R81), the monitor decoder's counters
(R73, R74), the lanes' counters, the calibrations' quire numbers (R338), the cycle counter (R678) and the performance counters (R681). -/
def lowWords : List Nat :=
  ((List.range 16).flatMap fun k => [R.FEC_SYM_LO k, R.FEC_CW_LO k, R.FEC_UNCORR_LO k, R.MAP_TX_CW_IN_LO k, R.MAP_TX_CW_SENT_LO k,
    R.MAP_TX_LEAF_OUT_LO k, R.MAP_TX_DISC_LO k, R.MAP_RX_LEAF_IN_LO k, R.MAP_RX_LEAF_DLV_LO k, R.MAP_RX_CW_OUT_LO k,
    R.MAP_RX_DISC_LO k]) ++
  ((List.range 8).flatMap fun n => [R.LANE_PILOT_SYM_LO n, R.LANE_PILOT_ERR_LO n, R.LANE_DEC_LEAVES_LO n, R.LANE_DEC_CLEAN_LO n,
    R.LANE_DEC_CHASE_LO n, R.LANE_DEC_UNCORR_LO n, R.LANE_DEC_CRCREJ_LO n, R.LANE_TX_MAJOR_LO n, R.LANE_ADC_CLIP_LO n]
    ++ ((List.range 5).map fun k => R.LANE_COR_BIN_LO n (k + 1)) ++ (List.range 4).map fun i => R.CAL_LASTQ_LO n i) ++
  [R.CNT_CYC_LO] ++ (List.range 8).map R.CNT_PMC_LO

/-- Master m's read of word a returns `low`, and its latch of the next word holds `high`; no other latch changes, and nothing else but the
idle time of the word's domain (R28, R571). -/
def LatchesHigh (s : State) (m : Master) (a : Nat) (low high : Word) : Prop :=
  Reaches s m a →
    Answers (.loWordRead m a) s fun t =>
      t.dev.busRes = .done ∧ t.dev.busWord = low ∧ t.dev.getLatch m (a + 4) = high ∧
      (∀ m' b, b < 2 ^ 32 → m' ≠ m ∨ b ≠ a + 4 → t.dev.getLatch m' b = s.dev.getLatch m' b) ∧
      Frame [] { served a low s.dev with latch := t.dev.latch } [] s t

/-- A read of the low word of a pair, live or in its holding copy, latches the high word for that master (R28, R81, R338, R536,
R678), as does one of the low counter of a chained pair (R685); the command is of no other word. -/
def LowWordRead (s : State) (m : Master) (a : Nat) : Prop :=
  (s.dev.isLo (busTarget a).1 = false → debugWay m a = none → Yields (.loWordRead m a) s s.dev [] []) ∧
  (a ∈ lowWords → LatchesHigh s m a (s.dev.reg a) (s.dev.reg (a + 4))) ∧
  (a ∈ lowWords →
    LatchesHigh s m (a + 0x8000) (Cells.get zeroWord s.dev.hold a) (Cells.get zeroWord s.dev.hold (a + 4))) ∧
  (∀ k : Slice, ∀ j, (j = 0 ∧ s.dev.lvOn (F.SLC_PM_CFG_CH01 k) = true) ∨ (j = 2 ∧ s.dev.lvOn (F.SLC_PM_CFG_CH23 k) = true) →
    LatchesHigh s m (R.SLC_PMC k j) (s.dev.reg (R.SLC_PMC k j)) (s.dev.reg (R.SLC_PMC k (j + 1))))

/-- The debug port reads a word of SRAM m with the same command (R463, R472): the data of a clean word, the corrected data of a correctable
one, and the stored bits of a damaged one with the error flag. That it does so only where it is trusted is log 10's reading. -/
def DebugRead (s : State) (a : Nat) (m : Fin 4) : Prop :=
  let c := classifyWord (s.dev.memWord a) (s.dev.memCheck a)
  let gives (v : Word) (r : Access) : Prop := Answers (.loWordRead .debug a) s fun t =>
    t.dev.busWord = v ∧ t.dev.busRes = r ∧ t.pending = s.pending
  debugWay .debug a = some m.val → s.dev.domOn .mgt = true → a % 4 = 0 →
    (s.dev.trusted .debug = true →
      (c = .clean → Answers (.loWordRead .debug a) s fun t =>
        Frame [] (s.dev.returned .done (s.dev.memWord a)) [] s t) ∧
      (∀ b, c = .correctable b → gives (invertBit (s.dev.memWord a) b) .done) ∧
      (c = .poisoned ∨ c = .uncorrectable → gives (s.dev.memWord a) .damaged)) ∧
    (s.dev.trusted .debug = false → gives 0 .denied)


/-! ### Codes (chapters 3, 4 and 13) -/

/-- The inner code (R126 to R132): a codeword passes both checks; one inverted bit, wherever it lies, is put right; two are never taken for
a codeword. -/
def InnerCorrects (p : List Bool) : Prop :=
  let w := innerEncode p
  p.length = 272 →
    w.length = 288 ∧ w.take 272 = p ∧ crcOk w = true ∧ hammingStep w = some w ∧
    (∀ t, t < 288 → hammingStep (flipBit w t) = some w) ∧
    (∀ t u, t < 288 → u < 288 → t ≠ u → hammingStep (flipBit (flipBit w t) u) = none)

/-- A leaf decoded without reliabilities (R133, R134, R142): the payload comes back with no bit or one bit inverted, two are found
uncorrectable; with the code off only the checks are made. -/
def LeafDecoded (p : List Bool) (rel : List Nat) : Prop :=
  let w := innerEncode p
  p.length = 272 →
    innerDecode 2 w rel = ⟨p, false, 0, 0, 0⟩ ∧ innerDecode 3 w rel = ⟨p, false, 0, 0, 0⟩ ∧
    (∀ t, t < 288 → innerDecode 2 (flipBit w t) rel = ⟨p, false, 1, 0, 0⟩) ∧
    (∀ t u, t < 288 → u < 288 → t ≠ u →
      innerDecode 2 (flipBit (flipBit w t) u) rel = ⟨(flipBit (flipBit w t) u).take 272, true, 0, 0, 0⟩)

/-- Stored bit b of a word and its check bits inverted. -/
def invertStored (x : Word × Nat) (b : Nat) : Word × Nat := if b < 32 then (invertBit x.1 b, x.2) else (x.1, x.2 ^^^ 2 ^ (b - 32))

/-- The SRAM code (R469, R470): a stored word is clean, each of its 39 single errors is correctable as that bit, every double error is
uncorrectable, and the poison pattern is told apart. -/
def WordProtected (w : Word) : Prop :=
  let x := (w, checkBits w)
  classifyWord x.1 x.2 = .clean ∧
  (∀ b, b < 39 → classifyWord (invertStored x b).1 (invertStored x b).2 = .correctable b) ∧
  (∀ b c, b < 39 → c < 39 → b ≠ c →
    classifyWord (invertStored (invertStored x b) c).1 (invertStored (invertStored x b) c).2 = .uncorrectable) ∧
  classifyWord w (checkBits w ^^^ 0x7F) = .poisoned

/-- The line format (R85, R87, R99): the Gray mapping, the precoding and the scrambler each come back. -/
def LineRecovered (a b : Bool) (y : Nat) (xs : List Nat) (k : BitVec 58) (l : List Bool) : Prop :=
  symbolBits (symbolOf a b) = (a, b) ∧
  (y < 4 → (∀ x ∈ xs, x < 4) → List.zipWith (fun u v => (u + v) % 4) (precode y xs) (y :: precode y xs) = xs) ∧
  (scramble k (scramble k l).1).1 = l ∧ (scramble k l).2 = scramblerJump l.length k

/-- The interleave (R97): the 136 payload bits of the four leaves of a block are the 544 bits of an entry, each once. -/
def EntryInterleaved : Prop :=
  (∀ l i, l < 4 → i < 136 → interleaveSource l i < 544 ∧ leafOfBit (interleaveSource l i) = l) ∧
  (∀ l i l' i', l < 4 → i < 136 → l' < 4 → i' < 136 → interleaveSource l i = interleaveSource l' i' → l = l' ∧ i = i') ∧
  (∀ q, q < 544 → ∃ l i, l < 4 ∧ i < 136 ∧ interleaveSource l i = q)

/-- The slots of a quire (R91): each is one leaf of one kind, and no leaf has two slots; there are 8 markers, 8 stitch leaves, 48 pilots
and 16,384 data leaves. -/
def QuireLaid : Prop :=
  (∀ i i', i < 16448 → i' < 16448 → slotKind i = slotKind i' → i = i') ∧
  (∀ d, d < 16384 → ∃ i, i < 16448 ∧ slotKind i = .data d) ∧ (∀ j, j < 8 → ∃ i, i < 16448 ∧ slotKind i = .marker j) ∧
  (∀ w, w < 8 → ∃ i, i < 16448 ∧ slotKind i = .stitch w) ∧ (∀ m, m < 48 → ∃ i, i < 16448 ∧ slotKind i = .pilot m)

/-- A marker (R104 to R109): its leaf has 288 bits and its sync symbols, and what it carries is read back, as a strong marker of its
index. -/
def MarkerRead (c : MarkerContent) (j : Nat) : Prop :=
  j < 8 → (markerLeaf c j).length = 288 ∧ syncFound (markerLeaf c j) = true ∧ classifyMarker (markerLeaf c j) = .strong j c

/-! ### The block as a whole -/

/-- A step takes the command at the front of the queue and runs it with the rest. -/
def StepRuns (c : Instr) (s : State) : Prop := step { s with pending := c :: s.pending } = exec c s

/-- On an empty queue one cycle of the 32.768 kHz clock passes (log 11): in OFF nothing changes; in any other state the RTC counts, or takes
what LOAD brings (R582), and the watchdog counts while MGT is on (R477). At a second's turn and at a LOAD the alarm falls due where it is
enabled and the seconds are those it is set to, and it is then recorded to act (R581). -/
def StepIdles (s : State) : Prop :=
  let wdt (d : Dev) : Dev := if d.domOn .mgt then d.modPwr fun p => { p with wdt := p.wdt + 1 } else d
  let due (seconds : BitVec 48) : Bool := s.dev.on F.PWR_RTC_CTRL_ALM_EN && seconds == s.dev.rtcAlm
  s.pending = [] →
    (s.dev.dstate = stOFF → ∃ t, step s = .next t ∧ Frame [] s.dev [] s t) ∧
    (s.dev.dstate ≠ stOFF → s.dev.pwr.loadDue = false → s.dev.pwr.rtcSub ≠ 0x7FFF →
      ∃ t, step s = .next t ∧ Frame [] (wdt (s.dev.modPwr fun p => { p with rtcSub := p.rtcSub + 1 })) [] s t) ∧
    (s.dev.dstate ≠ stOFF → s.dev.pwr.loadDue = false → s.dev.pwr.rtcSub = 0x7FFF →
      ∃ t, step s = .next t ∧
        t.dev.reg R.NVM_WIN_LEFT = (if s.dev.reg R.NVM_WIN_LEFT = 0 then 0 else s.dev.reg R.NVM_WIN_LEFT - 1) ∧
        Frame [R.NVM_WIN_LEFT] (wdt (s.dev.modPwr fun p =>
          { p with rtc := p.rtc + 1, rtcSub := 0, alarmDue := p.alarmDue || due (p.rtc + 1) })) [] s t) ∧
    (s.dev.dstate ≠ stOFF → s.dev.pwr.loadDue = true →
      ∃ t, step s = .next t ∧
        Frame [] (wdt (s.dev.modPwr fun p =>
          { p with rtc := s.dev.rtcSet, rtcSub := 0, loadDue := false, alarmDue := p.alarmDue || due s.dev.rtcSet })) [] s t)

/-- Every command ends in a next state, with the commands that wait still waiting, nothing of it left over, and the pins as the device
drives them: no command faults and none is refused. -/
def CommandEnds (c : Instr) (s : State) : Prop :=
  ∃ t, exec c s = .next t ∧ t.pending = s.pending ∧ t.dev.settled = true ∧ PinsFollow t

/-- A step keeps the invariant of the block. -/
def StepKeeps (s t : State) : Prop := s.Inv → step s = .next t → t.Inv

/-- Simultaneous events of a command are queued in ascending order of their codes, and in the order they were raised where the codes are
equal (R528). -/
def EventsOrdered (l : List Raise) : Prop :=
  (sortRaises l).Pairwise (fun x y => x.code ≤ y.code) ∧ (∀ k, (sortRaises l).filter (fun x => x.code == k) = l.filter fun x => x.code == k)

/-- The events of a thermal judgement: in the order of their codes, each block's of one code in the order raised, but THM 0xE1
follows 0xE4 (R615). -/
def ThermalOrdered (l : List Raise) : Prop :=
  let e1 (x : Raise) : Prop := x.blk = Blk.thm ∧ x.code = 0xE1
  (sortBy thermalRank l).Pairwise (fun x y =>
    (¬ e1 x → ¬ e1 y → x.code ≤ y.code) ∧ (e1 x → ¬ e1 y → 0xE4 < y.code) ∧ (¬ e1 x → e1 y → x.code ≤ 0xE4)) ∧
  (∀ b k, (sortBy thermalRank l).filter (fun x => x.blk == b && x.code == k) = l.filter fun x => x.blk == b && x.code == k)

/-- Each block's queue, emptied with the domain or popped, takes the block's events of the list in its order (R526). -/
def QueuesTake (s : State) (d : Dev) (l : List Raise) (t : State) : Prop :=
  ∀ b : Fin 32, t.evq[b] = (l.filter fun r => r.blk == b.val).foldl (fun q r => q.push (r.entry d.clk.qnum))
    (if d.emptied then ⟨[], 0⟩ else if d.popped.contains b.val then { s.evq[b] with q := s.evq[b].q.tail } else s.evq[b])

/-- A queue takes an event behind those it holds; one that holds 16 loses it and counts it (R526, R529). -/
def EventTaken (q : EvQ) (e : Ev) : Prop :=
  (q.q.length < 16 → (q.push e).q = q.q ++ [e] ∧ (q.push e).lost = q.lost) ∧
  (16 ≤ q.q.length → (q.push e).q = q.q ∧ (q.push e).lost = q.lost + 1)

/-- The block after its management domain has powered up (R516, R572): STANDBY with the data path off, no command waits, no event is queued,
no memory has been written, the quire number is 0, and the processor does not run yet. -/
def ResetState : Prop :=
  State.reset.pending = [] ∧ State.reset.dev.mem = [] ∧ State.reset.dev.dstate = stSTANDBY ∧ State.reset.dev.domOn .mgt = true ∧
  State.reset.dev.clk.qnum = 0 ∧ State.reset.dev.cpu.running = false ∧ State.reset.dev.mgmt.ready = false ∧
  (∀ b : Fin 32, State.reset.evq[b] = ⟨[], 0⟩) ∧ (∀ x, isDataDomain x = true → State.reset.dev.domOn x = false)

end Sys2Proof.Claims

open Sys2Proof Sys2Proof.Machine Sys2Proof.Claims

/-- A step of a block with a command in front of its queue is that command on the block with the rest of the queue. -/
def Obligations.StepRunsFront : Prop :=
  ∀ (c : Instr) (s : State), StepRuns c s

/-- With no command waiting one cycle of the 32.768 kHz clock passes: the RTC and the watchdog count as R477 and R581 say, and nothing else changes but the budget second of R655. That idling is this cycle is the model's choice (log 11). -/
def Obligations.StepOnEmptyQueue : Prop :=
  ∀ s : State, s.dev.settled = true →
    StepIdles s

/-- Every command, whatever the state, ends in a next state in which the commands that wait still wait, nothing it raised is left over, and the output pins are as the device drives them. -/
def Obligations.CommandsEnd : Prop :=
  ∀ (c : Instr) (s : State), CommandEnds c s

/-- What the block holds when its management domain has powered up: STANDBY with the data path off, empty queues, empty memory, quire number 0, no running processor, port not ready. That the model begins there and not in OFF is its choice (log 35), and what memory reads that nothing has written is too (log 3). -/
def Obligations.ResetHolds : Prop :=
  ResetState

/-- The state after reset meets the invariant of the block: nothing raised is left unqueued, no event queue holds more than 16 entries, the pins stand as the device drives them. -/
def Obligations.ResetInvariant : Prop :=
  State.reset.Inv

/-- From every state that meets the invariant, every step, whatever command it runs or if it idles, ends in a state that meets it: nothing raised is left unqueued, no event queue holds more than 16 entries, and RB_N, INT_N and REG_SYNC stand as the device drives them. -/
def Obligations.StepInvariant : Prop :=
  ∀ s t : State, StepKeeps s t

/-- For every payload of 272 bits: its inner codeword has 288 bits, begins with it and passes both checks; with any one of the 288 bits inverted the Hamming step gives the codeword back, with any two it gives no candidate; and the decoder in modes 2 and 3 delivers the payload, with one inverted bit in mode 2 too, and calls two inverted bits uncorrectable. -/
def Obligations.InnerCodeCorrects : Prop :=
  ∀ (p : List Bool) (rel : List Nat), InnerCorrects p ∧ LeafDecoded p rel

/-- The 288 bits of the codeword of every payload contain an even number of ones. -/
def Obligations.CodewordParityEven : Prop :=
  ∀ p : List Bool, p.length = 272 → ((innerEncode p).filter id).length % 2 = 0

/-- For every data word, whatever arrangement of columns the device has (log 4): the stored word is clean, each of its 39 single-bit errors is classed correctable as that bit, each double error uncorrectable, and the poison pattern is told apart from all of them. -/
def Obligations.SramCodeProtects : Prop :=
  ∀ w : Word, WordProtected w

/-- For every marker content and every index: the marker leaf has 288 bits and its sync symbols are found, and it is classified as a strong marker of that index with exactly that content. -/
def Obligations.MarkersReadBack : Prop :=
  ∀ (c : MarkerContent) (j : Nat), MarkerRead c j

/-- The Gray mapping, the precoding and the scrambler each come back; the interleave places each of an entry's 544 bits once in the leaf R97 gives it; each of a quire's 16,448 slots is one leaf of one kind, and every data leaf, marker, stitch leaf and pilot has its slot. -/
def Obligations.LineFormatRecovers : Prop :=
  (∀ a b y xs k l, LineRecovered a b y xs k l) ∧ EntryInterleaved ∧ QuireLaid

/-- The events that a command within a quire raises are queued, block by block, in ascending order of their codes, and in the order they were raised where codes are equal, behind what the queue holds after a pop. A thermal judgement comes at a quire boundary: its events are queued in the order of their codes but for 0xE1, which follows 0xE4 (R615). -/
def Obligations.EventsInCodeOrder : Prop :=
  (∀ (c : Instr) (s : State), (∀ inp, c ≠ .quireTick inp) → (∀ rs, c ≠ .thermalJudgement rs) →
    ∃ d, exec c s = .next (commit s d) ∧ EventsOrdered d.raised ∧ QueuesTake s d (sortRaises d.raised) (commit s d)) ∧
  (∀ rs (s : State), ∃ d, exec (.thermalJudgement rs) s = .next (commitThermal s d) ∧ ThermalOrdered d.raised ∧
    QueuesTake s d (sortBy thermalRank d.raised) (commitThermal s d))

/-- A queue that holds 16 entries loses an event and counts it in EVLOST; with fewer it takes the event last. A pop in the same command is taken first, so that the event then finds room. -/
def Obligations.FullQueueLoses : Prop :=
  (∀ (q : EvQ) (e : Ev), EventTaken q e) ∧
    (∀ (d : Dev) (q : EvQ) (b : Nat) (r : Raise), d.emptied = false → d.popped.contains b = true → d.raised = [r] → r.blk = b →
      q.q.length = 16 → (queueAfter q b d sortRaises).q = q.q.tail ++ [r.entry d.clk.qnum] ∧
        (queueAfter q b d sortRaises).lost = q.lost)

/-- After a press of any groups CLK event 0x05 with LANE 0 is the last event raised and LAST holds the applied mask; nothing is pending then. With no group due nothing happens. -/
def Obligations.PressMarked : Prop :=
  ∀ (d : Dev) (mask : Nat), PressTaken d mask

/-- In every block, a write of any width to a register that starts nothing changes exactly the RW and RB bits of the addressed bytes, and an alias write exactly its bit; a write of CLK.PRESS ORs its groups into the pending mask. No other register and nothing else changes, but for the idle time of the domain. A write in the HST block, or of a performance counter's or the sampler's configuration, takes the word and what follows it. -/
def Obligations.RegistersWritten : Prop :=
  ∀ s : State, s.dev.settled = true →
    (∀ m a w v r, RegisterStored s m a w v r) ∧
    (∀ m r b v row, AliasStored s m r b v row) ∧
    (∀ m v, FollowedStored s m v ∧ PressRequested s m v)

/-- A guarded register ignores the write of an untrusted master and counts it; an access that is not aligned or names no register is counted and not performed; a read of EVQ pops one entry, and an empty queue reads 0. -/
def Obligations.AccessesRefused : Prop :=
  ∀ s : State, s.dev.settled = true →
    (∀ m a w v p c, WriteDenied s m a w v p c) ∧
    (∀ m a w v, AccessBad s m a w v) ∧
    (∀ m b, EventPopped s m b)

/-- A domain that an access woke powers off after 1,024 idle quires unless the device requires it; an access by a master that may wake a domain powers it up, unless it is held off or an entry to STANDBY is in progress; the debug port wakes MGT from REST. In every other case neither command changes anything. -/
def Obligations.DomainsWake : Prop :=
  ∀ s : State, s.dev.settled = true →
    (∀ x, DomainIdles s x) ∧
    (∀ (d : Dev) x, DomainOff d x) ∧
    (∀ m x, AccessWakes s m x) ∧
    (∀ m, MgtWakes s m) ∧
    (∀ m k, SliceWoken s m k)

/-- Lock and loss of the host PLL, loss and recovery of the timing lane, and the check of the host clock after five quires. That the line and compatibility locks follow the host lock is the model's choice (log 37), and that a stop of the tick ends a loss of main supply in progress at once is too (log 26). -/
def Obligations.ClocksFollow : Prop :=
  ∀ s : State, s.dev.settled = true →
    PllLocks s ∧
    PllLoses s ∧
    TimingLoss s ∧
    TimingRecovery s ∧
    (∀ k, RefChecked s k)

/-- A read of the low word of the quire number, of a 48-bit counter of any block or its holding copy, of the cycle counter, or of a chained slice counter returns it and latches the high word for that master alone. The debug port reads a word of an SRAM with the same command; that it does so only in the states that trust it is the model's reading (log 10). -/
def Obligations.LowWordLatches : Prop :=
  ∀ s : State, s.dev.settled = true →
    (∀ m, QnumRead s m) ∧
    (∀ m a, LowWordRead s m a) ∧
    (∀ a m, DebugRead s a m)

/-- The quire boundary: the order of its steps and events, the quire number, the snapshot, the real-time slot; and a lane's own received boundary. Where within a step the acts of several chapters stand is the model's reading (log 14). -/
def Obligations.BoundaryActs : Prop :=
  ∀ s : State, s.dev.settled = true →
    (∀ inp, BoundaryOrdered s inp) ∧
    (∀ d : Dev, TimeAdvances d ∧ SlotBegins d) ∧
    (∀ (d : Dev) lost, SnapshotTaken d lost) ∧
    (∀ n k, ReceivedBoundary s n k)

/-- Loss and return of a host lane, alignment-marker lock of a stream with the boundary each of its host lanes takes, and the counters of the monitor decoder; and where each of the three commands changes nothing. -/
def Obligations.HostLanesFollow : Prop :=
  ∀ s : State, s.dev.settled = true →
    (∀ h, HostLost s h ∧ HostRestored s h) ∧
    (∀ t, MarkerSet s t ∧ ∀ pos, MarkerLocks s t pos) ∧
    (∀ t word, MonitorCounts s t word) ∧
    (∀ h t word, HostCommandsEnd s h t word)

/-- A transmit leaf slot: marker, pilot, stitch and data leaves, what a lane that does not send does with the slot, a slice clock of a compatibility lane, and a slot where no slice clock is left. In which clock a compatibility unit is judged (log 30), and in which a lane is squelched after its dying gasp (log 26), are the model's choices. -/
def Obligations.SlotsSent : Prop :=
  ∀ s : State, s.dev.settled = true →
    (∀ n a b x i, SlotUnsent s n a b x i ∧ SlotData s n a b x i) ∧
    (∀ n a b x k, SlotFixed s n a b x k) ∧
    (∀ n a b x w, SlotStitch s n a b x w) ∧
    (∀ n a b x, SlotCompat s n a b x ∧ SlotClosed s n a b x) ∧
    (∀ (d : Dev) n, ClockBegins d n) ∧
    (∀ (d : Dev) n i w, DataLeaf d n i w)

/-- A received leaf slot: marker, pilot and data leaves, the search for a marker and what locks, what a marker position means in lock and the loss of it at the fourth miss, every counter of the decoder, and whether a decoded leaf is passed on or discarded. -/
def Obligations.LeavesReceived : Prop :=
  ∀ s : State, s.dev.settled = true →
    (∀ n rx j, MarkerAt s n rx j) ∧
    (∀ n rx m, PilotAt s n rx m) ∧
    (∀ n rx i, LeafAt s n rx i) ∧
    (∀ (d : Dev) n k i p x, LeafPassed d n k i p x) ∧
    (∀ (d : Dev) n j bits, MarkerJudged d n j bits) ∧
    (∀ n rx, MarkerSought s n rx) ∧
    (∀ (d : Dev) n o b j c, MarkerFound d n o b j c) ∧
    (∀ (d : Dev) n x b, LeafCounted d n x b)

/-- Faults of the transmit queue and its filling, the levels of its codes and the swing scale, a swing move, the start of a transmitter, and lock of a compatibility lane. -/
def Obligations.TransmitterFollows : Prop :=
  ∀ s : State, s.dev.settled = true →
    (∀ n c, QueueFaulted s n c ∧ QueueSquelched s n c ∧ QueueSound s n c) ∧
    (∀ n, SwingDone s n ∧ TransmitterStarts s n ∧ TransmitterWaits s n ∧ CompatLocked s n) ∧
    (∀ n b, CompatNone s n b) ∧
    (∀ (d : Dev) n a b c r, QueueFills d n a b c r) ∧
    (∀ th h v c l x xs, LevelsFormed th h v c l x xs) ∧
    (∀ k, SwingScale k)

/-- The automatic gain control at the end of its window, and the windows of acquisition. That a window which completes both runs asks for no step is the model's choice (log 39). -/
def Obligations.GainFollows : Prop :=
  ∀ s : State, s.dev.settled = true →
    (∀ n, AgcHolds s n ∧ AgcMoved s n ∧ AgcCounted s n ∧ AcqWindowed s n) ∧
    (∀ (d : Dev) n up, AgcStepped d n up)

/-- Acquisition: detection and loss of signal, entry to a state, its time limit, the fallback of a warm start, and the end of an interval. That an ordinary timeout sets WARM to 0 is the model's reading (log 26). -/
def Obligations.AcquisitionActs : Prop :=
  ∀ s : State, s.dev.settled = true →
    (∀ n, SignalDetected s n ∧ SignalLost s n ∧ SignalWaits s n ∧ WarmFellBack s n) ∧
    (∀ n b, AcqTimedOut s n b) ∧
    (∀ n rx m, IntervalEnded s n rx m) ∧
    (∀ (d : Dev) n st, AcqEntered d n st)

/-- Writes of LANE.EQ_CTRL, LANE.PHCFG and BRL.NEXT. SAVE taken before REACQ where both are written is the model's choice (log 17). -/
def Obligations.EqualiserCommanded : Prop :=
  ∀ s : State, s.dev.settled = true →
    ∀ m n v, EqCtrlWritten s m n v ∧ PhcfgWritten s m n v ∧ NextWritten s m n v

/-- Relock on a switched path: the ribbon lookup by source, a sub-window in DARK, of a qualified lane and of one that relocks, a preset that is loaded, and the fallback of a ribbon. -/
def Obligations.RelockActs : Prop :=
  ∀ s : State, s.dev.settled = true →
    (∀ n src, LookupDone s n src) ∧
    (∀ n front, SubwindowDark s n front ∧ SubwindowQual s n front ∧ SubwindowUnqual s n front) ∧
    (∀ n, PresetLoaded s n ∧ RibbonFellBack s n)

/-- Rotation of the converter units, the switch of a core and the one that replaces a faulty unit, the check of the offline unit, and retirement of units by software. That each core's switch counts in ADC_ROT, and how a written trim is rounded and held, are the model's choices (log 40). -/
def Obligations.ConvertersCalibrated : Prop :=
  ∀ s : State, s.dev.settled = true →
    (∀ n m0 m1, RotationStepped s n m0 m1) ∧
    (∀ n, RotationSwitched s n) ∧
    (∀ (d : Dev) n c, CoreSwitched d n c ∧ CoreReplaced d n c ∧ ∀ m, CoreMatched d n c m) ∧
    (∀ n c m, OfflineChecked s n c m) ∧
    (∀ m n v, RetireKept s m n v ∧ ∀ c, UnitRetired s m n c v)

/-- The capture engine: START and ABORT, its checks, the trigger and the end. That a START which is refused clears CAP_TQ and CAP_TPOS is the model's choice (log 45). -/
def Obligations.CaptureActs : Prop :=
  ∀ s : State, s.dev.settled = true →
    (∀ m v, CaptureControlled s m v) ∧
    CaptureTriggered s ∧
    CaptureDone s ∧
    (∀ d : Dev, CaptureChecked d)

/-- A calibration item: its trigger and abort, its two windows, a window of a foreground run, a window that is discarded, one that is not in progress, and the taking up of its result. That a window the transmitter allows no estimate in carries reason 3 (log 41), and that the end of a window not in progress changes nothing (log 19), are the model's choices. -/
def Obligations.CalibrationRuns : Prop :=
  ∀ s : State, s.dev.settled = true →
    (∀ m n v, CalCommanded s m n v) ∧
    (∀ n i, CalFirstWindow s n i ∧ CalSecondWindow s n i ∧ CalDiscarded s n i ∧ CalTakenUp s n i) ∧
    (∀ n i, CalForegroundWindow s n i ∧ ∀ w, CalOtherWindow s n i w) ∧
    (∀ (d : Dev) n, TrimsTakenUp d n) ∧
    (∀ (d : Dev) n i, CalTriggered d n i)

/-- The flyleaf: a rotation falls due, a shadow starts, its time limit, a mismatch before and after the commit, a swap undone, the end of a shadow, the attempts of a repair, and a slice that stays when redundancy is exhausted. -/
def Obligations.ShadowActs : Prop :=
  ∀ s : State, s.dev.settled = true →
    RotationFell s ∧
    (∀ n k, ShadowStarted s n k) ∧
    ConvergeJudged s ∧
    MismatchJudged s ∧
    SwapUndone s ∧
    (∀ (d : Dev) r, ShadowEnded d r) ∧
    (∀ (d : Dev) c q k, AttemptCounted d c q k) ∧
    (∀ (d : Dev) k, SliceStays d k)

/-- Writes of SPR.CTRL and SPR.RET. SWAP judged before ABORT where both are written is the model's choice (log 17). -/
def Obligations.SpareCommanded : Prop :=
  ∀ s : State, s.dev.settled = true →
    ∀ m v, SprControlled s m v ∧ RetWritten s m v

/-- Hellos and their time limit, the time leaves of a neighbour and of the parent, the discipline of the mesh time by the parent's, and the traffic a link takes. That traffic of a link that is not UP is ignored, and which way round a half, are the model's readings (log 25). -/
def Obligations.NeighboursFollow : Prop :=
  ∀ s : State, s.dev.settled = true →
    (∀ n x, HelloTaken s n x ∧ TimeKept s n x ∧ TimeFollowed s n x) ∧
    (∀ (d : Dev) n e, TimeDisciplined d n e) ∧
    (∀ n, HelloTimedOut s n ∧ TrafficTaken s n) ∧
    (∀ (d : Dev) n x, HelloIgnored d n x)

/-- Remote reads and writes of registers: refused, served, and switched off. The order of the checks is the model's reading (log 25). -/
def Obligations.RemoteAccess : Prop :=
  ∀ s : State, s.dev.settled = true →
    (∀ r rs, RemoteReadRefused s r rs ∧ RemoteReadServed s r rs ∧ RemoteWritten s r rs) ∧
    (∀ (d : Dev) w r, RemoteDisabled d w r)

/-- Route advertisement, expiry and removal, stitches that wait or are dropped for age, and the settling of an address. -/
def Obligations.RoutesFollow : Prop :=
  ∀ s : State, s.dev.settled = true →
    RoutesAdvertised s ∧
    RoutesKept s ∧
    RoutesAged s ∧
    StitchesKept s ∧
    (∀ l x xs, StitchDropped s l x xs) ∧
    AddressSettled s

/-- The schedule slots, SEND and its end, and the pop of the receive ring. -/
def Obligations.StitchesCommanded : Prop :=
  ∀ s : State, s.dev.settled = true →
    (∀ m k c v, SlotArmed s m k c v) ∧
    (∀ m v, SendRefused s m v ∧ RingPopped s m v) ∧
    (∀ m v l, SendQueued s m v l) ∧
    SendEnded s

/-- Sub-intervals, what one does to each bias DAC, the limiter steps, and the end of the safe state. -/
def Obligations.BiasFollows : Prop :=
  ∀ s : State, s.dev.settled = true →
    SubintervalStarts s ∧
    (∀ (d : Dev) j k, BiasTaken d j k) ∧
    (∀ (d : Dev) k, BiasStepped d k) ∧
    (∀ m v, SafeHeld s m v ∧ SafeUnasked s m v ∧ SafeCleared s m v)

/-- The monitor ADC: a conversion that closes, one that fails, limits, urgent requests, and the sequencer. -/
def Obligations.MonitorConverts : Prop :=
  ∀ s : State, s.dev.settled = true →
    (∀ c mean sat, ConversionClosed s c mean sat) ∧
    (∀ mean sat, NoConversion s mean sat) ∧
    (∀ c, ConversionFaulted s c) ∧
    (∀ (d : Dev) ch, LimitChecked d ch) ∧
    (∀ m v, UrgentAsked s m v ∧ SequencerEnabled s m v)

/-- Instruction fetch and what it faults on, the effect of each instruction, and a trap taken and returned from. What the instructions and the trap are is RISC-V's (log 12), and a load, a store and `mret` act in commands of their own (log 6). -/
def Obligations.InstructionsRetire : Prop :=
  ∀ s : State, s.dev.settled = true →
    (∀ k, FetchRuns s k ∧ FetchFaults s k) ∧
    (∀ (d : Dev) q n, InsnComputes d q n ∧ InsnWaits d q n) ∧
    (∀ (d : Dev) q op k rd src imm n, InsnCsr d q op k rd src imm n) ∧
    (∀ (d : Dev) q w n, InsnTraps d q w n) ∧
    (∀ (d : Dev) c i e t, TrapTaken d c i e t) ∧
    MretReturns s

/-- Loads and stores of the processor in every region, a damaged word and one of the boot ROM among them, and the stored word with its check bits. What the boot ROM holds is open (log 21). -/
def Obligations.LoadsAndStores : Prop :=
  ∀ s : State, s.dev.settled = true →
    (∀ a w x rd k, Loads s a w x rd k ∧ LoadsRegister s a w x rd k) ∧
    (∀ a w v k, Stores s a w v k) ∧
    (∀ (d : Dev) m a v, WordStored d m a v) ∧
    (∀ (d : Dev) m a src, MemoryRead d m a src)

/-- The memory-error, quire and machine external interrupts, the watchdog, and the restart of the management domain. That the SRAMs read 0 after it (log 3), and what else survives it (log 15), are the model's choices. -/
def Obligations.InterruptsAndRestart : Prop :=
  ∀ s : State, s.dev.settled = true →
    MemoryErrorTaken s ∧
    InterruptsTaken s ∧
    (∀ m v, CpuKicks s m v) ∧
    WatchdogExpired s ∧
    RestartTaken s

/-- Remap requests, the log of damaged words, and the scrubber. That a row the memory does not have is ignored is the model's reading (log 32). -/
def Obligations.MemoriesRepaired : Prop :=
  ∀ s : State, s.dev.settled = true →
    (∀ m v, RemapAsked s m v ∧ ScrubControlled s m v) ∧
    (∀ m, UlogPopped s m) ∧
    (∀ k, ScrubStepped s k)

/-- START, NEXT and ABORT of a DMA channel with the checks of R496, and when a channel's registers take a write, outside the hand-over cycle. -/
def Obligations.DmaCommanded : Prop :=
  ∀ s : State, s.dev.settled = true →
    ∀ m c v, DmaStarted s m c v ∧ DmaArmed s m c v ∧ DmaAborted s m c v ∧ DmaRegWritten s m c v

/-- Requests, arbitration, the beat between memories, a halt, and the hand-over of the DMA engine. -/
def Obligations.DmaMoves : Prop :=
  ∀ s : State, s.dev.settled = true →
    (∀ l, DmaRequested s l) ∧
    DmaActivated s ∧
    (∀ c, DmaBeatMoved s c ∧ DmaCompleted s c ∧ ∀ k, DmaPulses s c k) ∧
    DmaBeatHalted s ∧
    (∀ (d : Dev) c e a, DmaHalted d c e a)

/-- Host transactions of the management port: when it is silent, bytes written to lower memory, a byte written to each kind of page, bytes read, a flag read, and the firmware's DONE and READY. The places of CMIS fields are CMIS's (log 7). -/
def Obligations.PortTransacts : Prop :=
  ∀ s : State, s.dev.settled = true →
    (∀ a o l n, PortSilent s a o l n) ∧
    (∀ a o l, PortBytesWritten s a o l) ∧
    (∀ a o b, PortByteWritten s a o b) ∧
    (∀ a o n, PortBytesRead s a o n) ∧
    (∀ a o, FlagCleared s a o) ∧
    (∀ m v, PortReleased s m v)

/-- The register windows and POPEVQ of the management port. That half-words are written where an aligned half is covered is the model's choice (log 22). -/
def Obligations.WindowsAct : Prop :=
  ∀ s : State, s.dev.settled = true →
    (∀ k, WindowFetched s k) ∧
    WindowIdle s ∧
    (∀ k i b0 b1 b2 b3, WindowWritten s k i b0 b1 b2 b3) ∧
    (∀ b, QueuePopped s b)

/-- The challenge, the response and its lockout, and the end of a session. -/
def Obligations.SessionsFollow : Prop :=
  ∀ s : State, s.dev.settled = true →
    NonceLoaded s ∧
    ResponseJudged s ∧
    SessionEnds s

/-- The I3C commands. The values that GETBCR, GETDCR, GETSTATUS, GETMWL and GETMRL answer are free (log 2), and that ENEC and DISEC change nothing is the model's reading. -/
def Obligations.BusAddressed : Prop :=
  ∀ s : State, s.dev.settled = true →
    (∀ x a w, AddressAssigned s x a w) ∧
    (∀ k, GetAnswered s k)

/-- RESET_N, LPMODE, the low-power request, STANDBY retries, entry to ACTIVE and to REST. That RESET_N completes a loss of main supply at once (log 26), and the order of the power manager's acts within a boundary (log 24), are the model's choices. -/
def Obligations.PowerStatesFollow : Prop :=
  ∀ s : State, s.dev.settled = true →
    ResetAsserted s ∧
    ResetReleased s ∧
    (∀ l, LpmodeChanged s l) ∧
    RequestFollowed s ∧
    StandbyRetried s ∧
    ActiveEntered s ∧
    (∀ m v, RestAsked s m v)

/-- The supplies, loss of the main supply, and the core supply's requests. That a further loss in the steps is counted and runs no second set, and that valid supplies wait for the end of the steps, are the model's choices (log 26). -/
def Obligations.SuppliesFollow : Prop :=
  ∀ s : State, s.dev.settled = true →
    SuppliesChange s ∧
    MainLost s ∧
    (∀ d : Dev, LossFinished d) ∧
    (∀ m v, VoltageAsked s m v) ∧
    (∀ v, VoltageReached s v) ∧
    VoltageTimedOut s

/-- DOZE and wake of a lane, the wake pattern, and the RTC with its alarm. -/
def Obligations.LanesSleep : Prop :=
  ∀ s : State, s.dev.settled = true →
    (∀ n, LaneDozes s n) ∧
    (∀ n src, LaneWakes s n src) ∧
    (∀ m v n, WakePattern s m v n) ∧
    AlarmTaken s ∧
    (∀ m v, RtcAccessed s m v)

/-- Thermal samples, the plausibility of readings, their judgement, the rise and fall of the level, the enforcement of throttle, and the end of the orderly stop. -/
def Obligations.TemperaturesJudged : Prop :=
  ∀ s : State, s.dev.settled = true →
    SampleStarts s ∧
    (∀ r, ReadingsTaken s r) ∧
    (∀ rs, ReadingsAwaited s rs) ∧
    (∀ (d : Dev) rs k, Plausibility d rs k) ∧
    (∀ (d : Dev) x, LevelsJudged d x) ∧
    ThrottleEnforced s ∧
    StopFinished s

/-- Start-up with and without firmware, the judgement of an image and of the header copies, and SEC.CTRL. What a part in BLANK does is the model's reading (log 23), and that ROLLFWD waits behind another programming operation its choice (log 48). -/
def Obligations.StartUpRuns : Prop :=
  ∀ s : State, s.dev.settled = true →
    (∀ st f, BootWithout s st f) ∧
    (∀ st, BootEnters s st) ∧
    (∀ x k i, ImagePasses x k i) ∧
    (∀ h0 h1, HeaderChosen h0 h1) ∧
    (∀ m v, TrialConfirmed s m v)

/-- Life-cycle requests, enrolment of a key, the end of a programming operation, and the TAP. That accepted requests wait, in order, behind one that runs, and that a slot whose key is being programmed or waits is not empty, are the model's choices (log 48); what the TAP's instructions are is taken from outside the spec (log 49). -/
def Obligations.FusesFollow : Prop :=
  ∀ s : State, s.dev.settled = true →
    (∀ m v i, LifeCycleAsked s m v i) ∧
    (∀ m v, EnrolAsked s m v) ∧
    FusesBlown s ∧
    (∀ k, TapTaken s k)

/-- Verification and attestation through the hash engine, the journal's commits, and the attestation public key. How many body words a commit covers is free (log 2). That an attestation in RETIRED ends in STATE 3 is the model's choice (log 48). -/
def Obligations.HashesAndJournal : Prop :=
  ∀ s : State, s.dev.settled = true →
    (∀ m v, VerifyAsked s m v ∧ AttestAsked s m v ∧ CommitAsked s m v) ∧
    (∀ i, HashRuns s i) ∧
    CommitDone s ∧
    KeyShown s

/-- Reads, programs, erases and aborts of the record store, what refuses them, their end, the stream buffers, and the budget window. ABORT taken over GO is the model's choice (log 17). -/
def Obligations.RecordStoreActs : Prop :=
  ∀ s : State, s.dev.settled = true →
    (∀ m v, StoreAsked s m v ∧ EraseAsked s m v ∧ ProgramAsked s m v ∧ StoreAborted s m v ∧ BuffersPaced s m v) ∧
    (∀ d : Dev, AccessSends d) ∧
    (∀ l, StoreAnswers s l) ∧
    BudgetRenewed s

/-- The level of a fault class: its leak, its rise, and the action taken once at the threshold. -/
def Obligations.FaultsCounted : Prop :=
  ∀ s : State, s.dev.settled = true →
    (∀ c i, FaultLeaked s c i) ∧
    (∀ (d : Dev) c i f, FaultCharged d c i f)

/-- In-service self-tests and the full test: their start, result and end, and what a result does to a slice. -/
def Obligations.SelfTestsRun : Prop :=
  ∀ s : State, s.dev.settled = true →
    (∀ k g q, TestStarts s k g q) ∧
    (∀ g r, TestEnds s g r) ∧
    (∀ m v, SegmentsQueued s m v ∧ FullTestAsked s m v) ∧
    FullTestEnds s ∧
    (∀ n r, TestJudged n r) ∧
    (∀ (d : Dev) k, SliceJudged d k)

/-- Snapshot requests, freeze, the two writes of a 48-bit counter, its wrap, and the sampler. Which way the sampler's register moves, and that an interval is drawn with the settings of its sample, are the model's choices (log 50). -/
def Obligations.CountersAct : Prop :=
  ∀ s : State, s.dev.settled = true →
    (∀ m v, SnapshotAsked s m v) ∧
    (∀ m i v, CounterWritten s m i v) ∧
    (∀ i, CounterWraps s i) ∧
    (∀ x xs l, SampleTaken s x xs l) ∧
    (∀ (d : Dev), SampleCounted d) ∧
    (∀ m, SamplePopped s m)
end

