-- ==== Sys2Proof/Laws/Bits.lean ====
section
/-! SUPPORT. Fields of a word: what a set field reads, and that fields beside it are as before. -/

namespace Sys2Proof.Machine

/-- Two fields of one word do not overlap. -/
abbrev Fld.apart (f g : Fld) : Prop := f.lo + f.w ≤ g.lo ∨ g.lo + g.w ≤ f.lo

theorem putBits_lt (v : Word) (f : Fld) (x : Nat) (h : f.lo + f.w ≤ 32) :
    v.toNat / 2 ^ (f.lo + f.w) * 2 ^ (f.lo + f.w) + x % 2 ^ f.w * 2 ^ f.lo + v.toNat % 2 ^ f.lo < 2 ^ 32 := by
  have hA : 0 < 2 ^ f.lo := by positivity
  have hx : x % 2 ^ f.w + 1 ≤ 2 ^ f.w := Nat.mod_lt _ (by positivity)
  have hv : v.toNat % 2 ^ f.lo < 2 ^ f.lo := Nat.mod_lt _ hA
  have h1 : (x % 2 ^ f.w + 1) * 2 ^ f.lo ≤ 2 ^ (f.lo + f.w) := by
    rw [pow_add, Nat.mul_comm (2 ^ f.lo)]; exact Nat.mul_le_mul_right _ hx
  have h2 : v.toNat / 2 ^ (f.lo + f.w) + 1 ≤ 2 ^ (32 - (f.lo + f.w)) := by
    have : v.toNat / 2 ^ (f.lo + f.w) < 2 ^ (32 - (f.lo + f.w)) := by
      rw [Nat.div_lt_iff_lt_mul (by positivity), ← pow_add]
      have := v.isLt
      rwa [Nat.sub_add_cancel h]
    omega
  have h3 : (v.toNat / 2 ^ (f.lo + f.w) + 1) * 2 ^ (f.lo + f.w) ≤ 2 ^ 32 := by
    calc _ ≤ 2 ^ (32 - (f.lo + f.w)) * 2 ^ (f.lo + f.w) := Nat.mul_le_mul_right _ h2
      _ = 2 ^ 32 := by rw [← pow_add, Nat.sub_add_cancel h]
  rw [Nat.add_mul, Nat.one_mul] at h1 h3
  omega

theorem putBits_toNat (v : Word) (f : Fld) (x : Nat) (h : f.lo + f.w ≤ 32) :
    (putBits v f x).toNat
      = v.toNat / 2 ^ (f.lo + f.w) * 2 ^ (f.lo + f.w) + x % 2 ^ f.w * 2 ^ f.lo + v.toNat % 2 ^ f.lo := by
  unfold putBits
  rw [BitVec.toNat_ofNat]
  exact Nat.mod_eq_of_lt (putBits_lt v f x h)

theorem testBit_putBits (v : Word) (f : Fld) (x i : Nat) (h : f.lo + f.w ≤ 32) :
    (putBits v f x).toNat.testBit i
      = if i < f.lo then v.toNat.testBit i else if i < f.lo + f.w then x.testBit (i - f.lo) else v.toNat.testBit i := by
  rw [putBits_toNat v f x h]
  have e : v.toNat / 2 ^ (f.lo + f.w) * 2 ^ (f.lo + f.w) + x % 2 ^ f.w * 2 ^ f.lo + v.toNat % 2 ^ f.lo
      = 2 ^ f.lo * (2 ^ f.w * (v.toNat / 2 ^ (f.lo + f.w)) + x % 2 ^ f.w) + v.toNat % 2 ^ f.lo := by
    rw [pow_add]; ring
  rw [e, Nat.testBit_two_pow_mul_add _ (Nat.mod_lt _ (by positivity))]
  split
  · rename_i hi; rw [Nat.testBit_mod_two_pow]; simp [hi]
  · rename_i hi
    rw [Nat.testBit_two_pow_mul_add _ (Nat.mod_lt _ (by positivity))]
    have hj : i - f.lo < f.w ↔ i < f.lo + f.w := by omega
    by_cases hw : i < f.lo + f.w
    · rw [if_pos (hj.mpr hw), if_pos hw, Nat.testBit_mod_two_pow]; simp [hj.mpr hw]
    · rw [if_neg (mt hj.mp hw), if_neg hw, Nat.testBit_div_two_pow]
      congr 1; omega

theorem testBit_getBits (v : Word) (f : Fld) (i : Nat) :
    (getBits v f).testBit i = (decide (i < f.w) && v.toNat.testBit (f.lo + i)) := by
  unfold getBits
  rw [Nat.testBit_mod_two_pow, Nat.testBit_div_two_pow, Nat.add_comm]

theorem getBits_putBits_self (v : Word) (f : Fld) (x : Nat) (h : f.lo + f.w ≤ 32) :
    getBits (putBits v f x) f = x % 2 ^ f.w := by
  apply Nat.eq_of_testBit_eq
  intro i
  rw [testBit_getBits, Nat.testBit_mod_two_pow, testBit_putBits v f x _ h]
  by_cases hi : i < f.w
  · rw [if_neg (by omega), if_pos (by omega)]; simp
  · simp [hi]

theorem getBits_putBits_apart (v : Word) (f g : Fld) (x : Nat) (h : f.lo + f.w ≤ 32) (hg : f.apart g) :
    getBits (putBits v f x) g = getBits v g := by
  apply Nat.eq_of_testBit_eq
  intro i
  rw [testBit_getBits, testBit_getBits, testBit_putBits v f x _ h]
  by_cases hi : i < g.w
  · rcases hg with hg | hg
    · rw [if_neg (by omega), if_neg (by omega)]
    · rw [if_pos (by omega)]
  · simp [hi]

theorem getBits_lt (v : Word) (f : Fld) : getBits v f < 2 ^ f.w := Nat.mod_lt _ (by positivity)

end Sys2Proof.Machine
end

