-- ==== Sys2Proof/Laws/Cells.lean ====
section
/-! SUPPORT. Canonical lists: read after write, and the canonical form, which every write keeps. -/

namespace Sys2Proof.Machine.Cells

variable {α : Type} (dflt : Nat → α)

theorem get_ins_self (m : List (Nat × α)) (a : Nat) (v : α) (h : ∀ p ∈ m, p.1 ≠ a) : get dflt (ins a v m) a = v := by
  induction m with
  | nil => simp [ins, get]
  | cons p m ih =>
    obtain ⟨b, w⟩ := p
    have hb : b ≠ a := h (b, w) (by simp)
    simp only [ins]
    split
    · simp [get]
    · simp only [get, if_neg (Ne.symm hb)]
      exact ih fun q hq => h q (by simp [hq])

theorem get_ins_ne (m : List (Nat × α)) {a b : Nat} (v : α) (h : b ≠ a) : get dflt (ins a v m) b = get dflt m b := by
  induction m with
  | nil => simp [ins, get, h]
  | cons p m ih =>
    obtain ⟨c, w⟩ := p
    simp only [ins]
    split
    · simp [get, h]
    · simp only [get, ih]

theorem get_erase_self (m : List (Nat × α)) (a : Nat) : get dflt (erase m a) a = dflt a := by
  induction m with
  | nil => simp [erase, get]
  | cons p m ih =>
    obtain ⟨b, w⟩ := p
    by_cases hb : b = a
    · simpa [erase, hb] using ih
    · have : erase ((b, w) :: m) a = (b, w) :: erase m a := by simp [erase, hb]
      simp only [this, get, if_neg (Ne.symm hb), ih]

theorem get_erase_ne (m : List (Nat × α)) {a b : Nat} (h : b ≠ a) : get dflt (erase m a) b = get dflt m b := by
  induction m with
  | nil => simp [erase, get]
  | cons p m ih =>
    obtain ⟨c, w⟩ := p
    by_cases hc : c = a
    · have : erase ((c, w) :: m) a = erase m a := by simp [erase, hc]
      simp only [this, ih, get]
      rw [if_neg (by omega)]
    · have : erase ((c, w) :: m) a = (c, w) :: erase m a := by simp [erase, hc]
      simp only [this, get, ih]

/-- Read after write. -/
theorem get_put [DecidableEq α] (m : List (Nat × α)) (a b : Nat) (v : α) : get dflt (put dflt m a v) b = if b = a then v else get dflt m b := by
  unfold put
  by_cases h : b = a
  · subst h
    by_cases hv : v = dflt b
    · rw [if_pos hv, if_pos rfl, get_erase_self, hv]
    · rw [if_neg hv, if_pos rfl]
      exact get_ins_self dflt _ _ _ fun p hp => by simpa [erase] using (List.mem_filter.mp hp).2
  · rw [if_neg h]
    split
    · exact get_erase_ne dflt m h
    · rw [get_ins_ne dflt _ v h, get_erase_ne dflt m h]

theorem mem_ins (m : List (Nat × α)) (a : Nat) (v : α) (p : Nat × α) : p ∈ ins a v m ↔ p = (a, v) ∨ p ∈ m := by
  induction m with
  | nil => simp [ins]
  | cons q m ih =>
    obtain ⟨b, w⟩ := q
    simp only [ins]
    split
    · simp
    · simp only [List.mem_cons, ih]; tauto

theorem ins_rising (m : List (Nat × α)) (a : Nat) (v : α) (h : m.Pairwise fun p q => p.1 < q.1) (hn : ∀ p ∈ m, p.1 ≠ a) :
    (ins a v m).Pairwise fun p q => p.1 < q.1 := by
  induction m with
  | nil => simp [ins]
  | cons q m ih =>
    obtain ⟨b, w⟩ := q
    have hb := List.pairwise_cons.mp h
    simp only [ins]
    split
    · rename_i hab
      refine List.pairwise_cons.mpr ⟨fun p hp => ?_, h⟩
      rcases List.mem_cons.mp hp with rfl | hp
      · exact hab
      · exact lt_trans hab (hb.1 p hp)
    · rename_i hab
      refine List.pairwise_cons.mpr ⟨fun p hp => ?_, ih hb.2 fun p hp => hn p (by simp [hp])⟩
      rcases (mem_ins m a v p).mp hp with rfl | hp
      · have : b ≠ a := hn (b, w) (by simp)
        simp only; omega
      · exact hb.1 p hp

/-- A write keeps the canonical form. -/
theorem put_wf [DecidableEq α] (m : List (Nat × α)) (a : Nat) (v : α) (h : wf dflt m = true) : wf dflt (put dflt m a v) = true := by
  simp only [wf, Bool.and_eq_true, decide_eq_true_eq, List.all_eq_true, bne_iff_ne, ne_eq] at h ⊢
  have he : (erase m a).Pairwise (fun p q : Nat × α => p.1 < q.1) := h.1.filter _
  have hd : ∀ p ∈ erase m a, ¬ p.2 = dflt p.1 := fun p hp => h.2 p (List.mem_filter.mp hp).1
  unfold put
  split
  · exact ⟨he, hd⟩
  · rename_i hv
    refine ⟨ins_rising _ a v he fun p hp => by simpa [erase] using (List.mem_filter.mp hp).2, fun p hp => ?_⟩
    rcases (mem_ins _ a v p).mp hp with rfl | hp
    · exact hv
    · exact hd p hp

/-- Dropping addresses keeps the canonical form. -/
theorem filter_wf [DecidableEq α] (m : List (Nat × α)) (p : Nat → Bool) (h : wf dflt m = true) :
    wf dflt (m.filter fun c => p c.1) = true := by
  simp only [wf, Bool.and_eq_true, decide_eq_true_eq, List.all_eq_true, bne_iff_ne, ne_eq] at h ⊢
  exact ⟨h.1.filter _, fun q hq => h.2 q (List.mem_filter.mp hq).1⟩

/-- After dropping addresses, a dropped one reads as unlisted. -/
theorem get_filter (m : List (Nat × α)) (p : Nat → Bool) (a : Nat) :
    get dflt (m.filter fun c => p c.1) a = if p a then get dflt m a else dflt a := by
  induction m with
  | nil => simp [get]
  | cons q m ih =>
    obtain ⟨b, w⟩ := q
    by_cases hp : p b
    · simp only [List.filter_cons, hp, if_true, get, ih]
      by_cases hab : a = b
      · subst hab; simp [hp]
      · simp [hab]
    · simp only [List.filter_cons, hp, get]
      by_cases hab : a = b
      · subst hab; simpa [hp] using ih
      · simpa [hab] using ih

end Sys2Proof.Machine.Cells
end

