-- ==== Sys2Proof/Laws/State.lean ====
section
/-! SUPPORT. One lemma per field per update of the device: what an update leaves is as before. -/

namespace Sys2Proof.Machine.Dev

/-! ### setReg -/

@[simp] theorem setReg_live (a : Nat) (v : Word) (d : Dev) : (d.setReg a v).live = d.live := (rfl)
@[simp] theorem setReg_staged (a : Nat) (v : Word) (d : Dev) : (d.setReg a v).staged = d.staged := (rfl)
@[simp] theorem setReg_hold (a : Nat) (v : Word) (d : Dev) : (d.setReg a v).hold = d.hold := (rfl)
@[simp] theorem setReg_latch (a : Nat) (v : Word) (d : Dev) : (d.setReg a v).latch = d.latch := (rfl)
@[simp] theorem setReg_raised (a : Nat) (v : Word) (d : Dev) : (d.setReg a v).raised = d.raised := (rfl)
@[simp] theorem setReg_popped (a : Nat) (v : Word) (d : Dev) : (d.setReg a v).popped = d.popped := (rfl)
@[simp] theorem setReg_emptied (a : Nat) (v : Word) (d : Dev) : (d.setReg a v).emptied = d.emptied := (rfl)
@[simp] theorem setReg_clk (a : Nat) (v : Word) (d : Dev) : (d.setReg a v).clk = d.clk := (rfl)
@[simp] theorem setReg_host (a : Nat) (v : Word) (d : Dev) : (d.setReg a v).host = d.host := (rfl)
@[simp] theorem setReg_streams (a : Nat) (v : Word) (d : Dev) : (d.setReg a v).streams = d.streams := (rfl)
@[simp] theorem setReg_lanes (a : Nat) (v : Word) (d : Dev) : (d.setReg a v).lanes = d.lanes := (rfl)
@[simp] theorem setReg_spr (a : Nat) (v : Word) (d : Dev) : (d.setReg a v).spr = d.spr := (rfl)
@[simp] theorem setReg_msh (a : Nat) (v : Word) (d : Dev) : (d.setReg a v).msh = d.msh := (rfl)
@[simp] theorem setReg_cap (a : Nat) (v : Word) (d : Dev) : (d.setReg a v).cap = d.cap := (rfl)
@[simp] theorem setReg_flt (a : Nat) (v : Word) (d : Dev) : (d.setReg a v).flt = d.flt := (rfl)
@[simp] theorem setReg_mem (a : Nat) (v : Word) (d : Dev) : (d.setReg a v).mem = d.mem := (rfl)
@[simp] theorem setReg_chk (a : Nat) (v : Word) (d : Dev) : (d.setReg a v).chk = d.chk := (rfl)
@[simp] theorem setReg_freeCtr (a : Nat) (v : Word) (d : Dev) : (d.setReg a v).freeCtr = d.freeCtr := (rfl)
@[simp] theorem setReg_mapSnap (a : Nat) (v : Word) (d : Dev) : (d.setReg a v).mapSnap = d.mapSnap := (rfl)
@[simp] theorem setReg_powerList (a : Nat) (v : Word) (d : Dev) : (d.setReg a v).powerList = d.powerList := (rfl)
@[simp] theorem setReg_hkp (a : Nat) (v : Word) (d : Dev) : (d.setReg a v).hkp = d.hkp := (rfl)
@[simp] theorem setReg_cpu (a : Nat) (v : Word) (d : Dev) : (d.setReg a v).cpu = d.cpu := (rfl)
@[simp] theorem setReg_ecc (a : Nat) (v : Word) (d : Dev) : (d.setReg a v).ecc = d.ecc := (rfl)
@[simp] theorem setReg_dma (a : Nat) (v : Word) (d : Dev) : (d.setReg a v).dma = d.dma := (rfl)
@[simp] theorem setReg_bst (a : Nat) (v : Word) (d : Dev) : (d.setReg a v).bst = d.bst := (rfl)
@[simp] theorem setReg_clsWritten (a : Nat) (v : Word) (d : Dev) : (d.setReg a v).clsWritten = d.clsWritten := (rfl)
@[simp] theorem setReg_mgmt (a : Nat) (v : Word) (d : Dev) : (d.setReg a v).mgmt = d.mgmt := (rfl)
@[simp] theorem setReg_pwr (a : Nat) (v : Word) (d : Dev) : (d.setReg a v).pwr = d.pwr := (rfl)
@[simp] theorem setReg_thm (a : Nat) (v : Word) (d : Dev) : (d.setReg a v).thm = d.thm := (rfl)
@[simp] theorem setReg_sec (a : Nat) (v : Word) (d : Dev) : (d.setReg a v).sec = d.sec := (rfl)
@[simp] theorem setReg_nvm (a : Nat) (v : Word) (d : Dev) : (d.setReg a v).nvm = d.nvm := (rfl)
@[simp] theorem setReg_cnt (a : Nat) (v : Word) (d : Dev) : (d.setReg a v).cnt = d.cnt := (rfl)
@[simp] theorem setReg_busWord (a : Nat) (v : Word) (d : Dev) : (d.setReg a v).busWord = d.busWord := (rfl)
@[simp] theorem setReg_busRes (a : Nat) (v : Word) (d : Dev) : (d.setReg a v).busRes = d.busRes := (rfl)
@[simp] theorem setReg_tap (a : Nat) (v : Word) (d : Dev) : (d.setReg a v).tap = d.tap := (rfl)
@[simp] theorem setReg_boundary (a : Nat) (v : Word) (d : Dev) : (d.setReg a v).boundary = d.boundary := (rfl)
@[simp] theorem setReg_rest (a : Nat) (v : Word) (d : Dev) : (d.setReg a v).rest = d.rest := (rfl)
@[simp] theorem setReg_liveWord (a : Nat) (v : Word) (k : Nat) (d : Dev) : (d.setReg a v).liveWord k = d.liveWord k := (rfl)
@[simp] theorem setReg_lv (a : Nat) (v : Word) (g : Fld) (d : Dev) : (d.setReg a v).lv g = d.lv g := (rfl)
@[simp] theorem setReg_lvOn (a : Nat) (v : Word) (g : Fld) (d : Dev) : (d.setReg a v).lvOn g = d.lvOn g := (rfl)

/-! ### setFld -/

@[simp] theorem setFld_live (f : Fld) (x : Nat) (d : Dev) : (d.setFld f x).live = d.live := (rfl)
@[simp] theorem setFld_staged (f : Fld) (x : Nat) (d : Dev) : (d.setFld f x).staged = d.staged := (rfl)
@[simp] theorem setFld_hold (f : Fld) (x : Nat) (d : Dev) : (d.setFld f x).hold = d.hold := (rfl)
@[simp] theorem setFld_latch (f : Fld) (x : Nat) (d : Dev) : (d.setFld f x).latch = d.latch := (rfl)
@[simp] theorem setFld_raised (f : Fld) (x : Nat) (d : Dev) : (d.setFld f x).raised = d.raised := (rfl)
@[simp] theorem setFld_popped (f : Fld) (x : Nat) (d : Dev) : (d.setFld f x).popped = d.popped := (rfl)
@[simp] theorem setFld_emptied (f : Fld) (x : Nat) (d : Dev) : (d.setFld f x).emptied = d.emptied := (rfl)
@[simp] theorem setFld_clk (f : Fld) (x : Nat) (d : Dev) : (d.setFld f x).clk = d.clk := (rfl)
@[simp] theorem setFld_host (f : Fld) (x : Nat) (d : Dev) : (d.setFld f x).host = d.host := (rfl)
@[simp] theorem setFld_streams (f : Fld) (x : Nat) (d : Dev) : (d.setFld f x).streams = d.streams := (rfl)
@[simp] theorem setFld_lanes (f : Fld) (x : Nat) (d : Dev) : (d.setFld f x).lanes = d.lanes := (rfl)
@[simp] theorem setFld_spr (f : Fld) (x : Nat) (d : Dev) : (d.setFld f x).spr = d.spr := (rfl)
@[simp] theorem setFld_msh (f : Fld) (x : Nat) (d : Dev) : (d.setFld f x).msh = d.msh := (rfl)
@[simp] theorem setFld_cap (f : Fld) (x : Nat) (d : Dev) : (d.setFld f x).cap = d.cap := (rfl)
@[simp] theorem setFld_flt (f : Fld) (x : Nat) (d : Dev) : (d.setFld f x).flt = d.flt := (rfl)
@[simp] theorem setFld_mem (f : Fld) (x : Nat) (d : Dev) : (d.setFld f x).mem = d.mem := (rfl)
@[simp] theorem setFld_chk (f : Fld) (x : Nat) (d : Dev) : (d.setFld f x).chk = d.chk := (rfl)
@[simp] theorem setFld_freeCtr (f : Fld) (x : Nat) (d : Dev) : (d.setFld f x).freeCtr = d.freeCtr := (rfl)
@[simp] theorem setFld_mapSnap (f : Fld) (x : Nat) (d : Dev) : (d.setFld f x).mapSnap = d.mapSnap := (rfl)
@[simp] theorem setFld_powerList (f : Fld) (x : Nat) (d : Dev) : (d.setFld f x).powerList = d.powerList := (rfl)
@[simp] theorem setFld_hkp (f : Fld) (x : Nat) (d : Dev) : (d.setFld f x).hkp = d.hkp := (rfl)
@[simp] theorem setFld_cpu (f : Fld) (x : Nat) (d : Dev) : (d.setFld f x).cpu = d.cpu := (rfl)
@[simp] theorem setFld_ecc (f : Fld) (x : Nat) (d : Dev) : (d.setFld f x).ecc = d.ecc := (rfl)
@[simp] theorem setFld_dma (f : Fld) (x : Nat) (d : Dev) : (d.setFld f x).dma = d.dma := (rfl)
@[simp] theorem setFld_bst (f : Fld) (x : Nat) (d : Dev) : (d.setFld f x).bst = d.bst := (rfl)
@[simp] theorem setFld_clsWritten (f : Fld) (x : Nat) (d : Dev) : (d.setFld f x).clsWritten = d.clsWritten := (rfl)
@[simp] theorem setFld_mgmt (f : Fld) (x : Nat) (d : Dev) : (d.setFld f x).mgmt = d.mgmt := (rfl)
@[simp] theorem setFld_pwr (f : Fld) (x : Nat) (d : Dev) : (d.setFld f x).pwr = d.pwr := (rfl)
@[simp] theorem setFld_thm (f : Fld) (x : Nat) (d : Dev) : (d.setFld f x).thm = d.thm := (rfl)
@[simp] theorem setFld_sec (f : Fld) (x : Nat) (d : Dev) : (d.setFld f x).sec = d.sec := (rfl)
@[simp] theorem setFld_nvm (f : Fld) (x : Nat) (d : Dev) : (d.setFld f x).nvm = d.nvm := (rfl)
@[simp] theorem setFld_cnt (f : Fld) (x : Nat) (d : Dev) : (d.setFld f x).cnt = d.cnt := (rfl)
@[simp] theorem setFld_busWord (f : Fld) (x : Nat) (d : Dev) : (d.setFld f x).busWord = d.busWord := (rfl)
@[simp] theorem setFld_busRes (f : Fld) (x : Nat) (d : Dev) : (d.setFld f x).busRes = d.busRes := (rfl)
@[simp] theorem setFld_tap (f : Fld) (x : Nat) (d : Dev) : (d.setFld f x).tap = d.tap := (rfl)
@[simp] theorem setFld_boundary (f : Fld) (x : Nat) (d : Dev) : (d.setFld f x).boundary = d.boundary := (rfl)
@[simp] theorem setFld_rest (f : Fld) (x : Nat) (d : Dev) : (d.setFld f x).rest = d.rest := (rfl)
@[simp] theorem setFld_liveWord (f : Fld) (x : Nat) (k : Nat) (d : Dev) : (d.setFld f x).liveWord k = d.liveWord k := (rfl)
@[simp] theorem setFld_lv (f : Fld) (x : Nat) (g : Fld) (d : Dev) : (d.setFld f x).lv g = d.lv g := (rfl)
@[simp] theorem setFld_lvOn (f : Fld) (x : Nat) (g : Fld) (d : Dev) : (d.setFld f x).lvOn g = d.lvOn g := (rfl)

/-! ### setOn -/

@[simp] theorem setOn_live (f : Fld) (b : Bool) (d : Dev) : (d.setOn f b).live = d.live := (rfl)
@[simp] theorem setOn_staged (f : Fld) (b : Bool) (d : Dev) : (d.setOn f b).staged = d.staged := (rfl)
@[simp] theorem setOn_hold (f : Fld) (b : Bool) (d : Dev) : (d.setOn f b).hold = d.hold := (rfl)
@[simp] theorem setOn_latch (f : Fld) (b : Bool) (d : Dev) : (d.setOn f b).latch = d.latch := (rfl)
@[simp] theorem setOn_raised (f : Fld) (b : Bool) (d : Dev) : (d.setOn f b).raised = d.raised := (rfl)
@[simp] theorem setOn_popped (f : Fld) (b : Bool) (d : Dev) : (d.setOn f b).popped = d.popped := (rfl)
@[simp] theorem setOn_emptied (f : Fld) (b : Bool) (d : Dev) : (d.setOn f b).emptied = d.emptied := (rfl)
@[simp] theorem setOn_clk (f : Fld) (b : Bool) (d : Dev) : (d.setOn f b).clk = d.clk := (rfl)
@[simp] theorem setOn_host (f : Fld) (b : Bool) (d : Dev) : (d.setOn f b).host = d.host := (rfl)
@[simp] theorem setOn_streams (f : Fld) (b : Bool) (d : Dev) : (d.setOn f b).streams = d.streams := (rfl)
@[simp] theorem setOn_lanes (f : Fld) (b : Bool) (d : Dev) : (d.setOn f b).lanes = d.lanes := (rfl)
@[simp] theorem setOn_spr (f : Fld) (b : Bool) (d : Dev) : (d.setOn f b).spr = d.spr := (rfl)
@[simp] theorem setOn_msh (f : Fld) (b : Bool) (d : Dev) : (d.setOn f b).msh = d.msh := (rfl)
@[simp] theorem setOn_cap (f : Fld) (b : Bool) (d : Dev) : (d.setOn f b).cap = d.cap := (rfl)
@[simp] theorem setOn_flt (f : Fld) (b : Bool) (d : Dev) : (d.setOn f b).flt = d.flt := (rfl)
@[simp] theorem setOn_mem (f : Fld) (b : Bool) (d : Dev) : (d.setOn f b).mem = d.mem := (rfl)
@[simp] theorem setOn_chk (f : Fld) (b : Bool) (d : Dev) : (d.setOn f b).chk = d.chk := (rfl)
@[simp] theorem setOn_freeCtr (f : Fld) (b : Bool) (d : Dev) : (d.setOn f b).freeCtr = d.freeCtr := (rfl)
@[simp] theorem setOn_mapSnap (f : Fld) (b : Bool) (d : Dev) : (d.setOn f b).mapSnap = d.mapSnap := (rfl)
@[simp] theorem setOn_powerList (f : Fld) (b : Bool) (d : Dev) : (d.setOn f b).powerList = d.powerList := (rfl)
@[simp] theorem setOn_hkp (f : Fld) (b : Bool) (d : Dev) : (d.setOn f b).hkp = d.hkp := (rfl)
@[simp] theorem setOn_cpu (f : Fld) (b : Bool) (d : Dev) : (d.setOn f b).cpu = d.cpu := (rfl)
@[simp] theorem setOn_ecc (f : Fld) (b : Bool) (d : Dev) : (d.setOn f b).ecc = d.ecc := (rfl)
@[simp] theorem setOn_dma (f : Fld) (b : Bool) (d : Dev) : (d.setOn f b).dma = d.dma := (rfl)
@[simp] theorem setOn_bst (f : Fld) (b : Bool) (d : Dev) : (d.setOn f b).bst = d.bst := (rfl)
@[simp] theorem setOn_clsWritten (f : Fld) (b : Bool) (d : Dev) : (d.setOn f b).clsWritten = d.clsWritten := (rfl)
@[simp] theorem setOn_mgmt (f : Fld) (b : Bool) (d : Dev) : (d.setOn f b).mgmt = d.mgmt := (rfl)
@[simp] theorem setOn_pwr (f : Fld) (b : Bool) (d : Dev) : (d.setOn f b).pwr = d.pwr := (rfl)
@[simp] theorem setOn_thm (f : Fld) (b : Bool) (d : Dev) : (d.setOn f b).thm = d.thm := (rfl)
@[simp] theorem setOn_sec (f : Fld) (b : Bool) (d : Dev) : (d.setOn f b).sec = d.sec := (rfl)
@[simp] theorem setOn_nvm (f : Fld) (b : Bool) (d : Dev) : (d.setOn f b).nvm = d.nvm := (rfl)
@[simp] theorem setOn_cnt (f : Fld) (b : Bool) (d : Dev) : (d.setOn f b).cnt = d.cnt := (rfl)
@[simp] theorem setOn_busWord (f : Fld) (b : Bool) (d : Dev) : (d.setOn f b).busWord = d.busWord := (rfl)
@[simp] theorem setOn_busRes (f : Fld) (b : Bool) (d : Dev) : (d.setOn f b).busRes = d.busRes := (rfl)
@[simp] theorem setOn_tap (f : Fld) (b : Bool) (d : Dev) : (d.setOn f b).tap = d.tap := (rfl)
@[simp] theorem setOn_boundary (f : Fld) (b : Bool) (d : Dev) : (d.setOn f b).boundary = d.boundary := (rfl)
@[simp] theorem setOn_rest (f : Fld) (b : Bool) (d : Dev) : (d.setOn f b).rest = d.rest := (rfl)
@[simp] theorem setOn_liveWord (f : Fld) (b : Bool) (k : Nat) (d : Dev) : (d.setOn f b).liveWord k = d.liveWord k := (rfl)
@[simp] theorem setOn_lv (f : Fld) (b : Bool) (g : Fld) (d : Dev) : (d.setOn f b).lv g = d.lv g := (rfl)
@[simp] theorem setOn_lvOn (f : Fld) (b : Bool) (g : Fld) (d : Dev) : (d.setOn f b).lvOn g = d.lvOn g := (rfl)

/-! ### setLive -/

@[simp] theorem setLive_regs (a : Nat) (v : Word) (d : Dev) : (d.setLive a v).regs = d.regs := (rfl)
@[simp] theorem setLive_staged (a : Nat) (v : Word) (d : Dev) : (d.setLive a v).staged = d.staged := (rfl)
@[simp] theorem setLive_hold (a : Nat) (v : Word) (d : Dev) : (d.setLive a v).hold = d.hold := (rfl)
@[simp] theorem setLive_latch (a : Nat) (v : Word) (d : Dev) : (d.setLive a v).latch = d.latch := (rfl)
@[simp] theorem setLive_raised (a : Nat) (v : Word) (d : Dev) : (d.setLive a v).raised = d.raised := (rfl)
@[simp] theorem setLive_popped (a : Nat) (v : Word) (d : Dev) : (d.setLive a v).popped = d.popped := (rfl)
@[simp] theorem setLive_emptied (a : Nat) (v : Word) (d : Dev) : (d.setLive a v).emptied = d.emptied := (rfl)
@[simp] theorem setLive_clk (a : Nat) (v : Word) (d : Dev) : (d.setLive a v).clk = d.clk := (rfl)
@[simp] theorem setLive_host (a : Nat) (v : Word) (d : Dev) : (d.setLive a v).host = d.host := (rfl)
@[simp] theorem setLive_streams (a : Nat) (v : Word) (d : Dev) : (d.setLive a v).streams = d.streams := (rfl)
@[simp] theorem setLive_lanes (a : Nat) (v : Word) (d : Dev) : (d.setLive a v).lanes = d.lanes := (rfl)
@[simp] theorem setLive_spr (a : Nat) (v : Word) (d : Dev) : (d.setLive a v).spr = d.spr := (rfl)
@[simp] theorem setLive_msh (a : Nat) (v : Word) (d : Dev) : (d.setLive a v).msh = d.msh := (rfl)
@[simp] theorem setLive_cap (a : Nat) (v : Word) (d : Dev) : (d.setLive a v).cap = d.cap := (rfl)
@[simp] theorem setLive_flt (a : Nat) (v : Word) (d : Dev) : (d.setLive a v).flt = d.flt := (rfl)
@[simp] theorem setLive_mem (a : Nat) (v : Word) (d : Dev) : (d.setLive a v).mem = d.mem := (rfl)
@[simp] theorem setLive_chk (a : Nat) (v : Word) (d : Dev) : (d.setLive a v).chk = d.chk := (rfl)
@[simp] theorem setLive_freeCtr (a : Nat) (v : Word) (d : Dev) : (d.setLive a v).freeCtr = d.freeCtr := (rfl)
@[simp] theorem setLive_mapSnap (a : Nat) (v : Word) (d : Dev) : (d.setLive a v).mapSnap = d.mapSnap := (rfl)
@[simp] theorem setLive_powerList (a : Nat) (v : Word) (d : Dev) : (d.setLive a v).powerList = d.powerList := (rfl)
@[simp] theorem setLive_hkp (a : Nat) (v : Word) (d : Dev) : (d.setLive a v).hkp = d.hkp := (rfl)
@[simp] theorem setLive_cpu (a : Nat) (v : Word) (d : Dev) : (d.setLive a v).cpu = d.cpu := (rfl)
@[simp] theorem setLive_ecc (a : Nat) (v : Word) (d : Dev) : (d.setLive a v).ecc = d.ecc := (rfl)
@[simp] theorem setLive_dma (a : Nat) (v : Word) (d : Dev) : (d.setLive a v).dma = d.dma := (rfl)
@[simp] theorem setLive_bst (a : Nat) (v : Word) (d : Dev) : (d.setLive a v).bst = d.bst := (rfl)
@[simp] theorem setLive_clsWritten (a : Nat) (v : Word) (d : Dev) : (d.setLive a v).clsWritten = d.clsWritten := (rfl)
@[simp] theorem setLive_mgmt (a : Nat) (v : Word) (d : Dev) : (d.setLive a v).mgmt = d.mgmt := (rfl)
@[simp] theorem setLive_pwr (a : Nat) (v : Word) (d : Dev) : (d.setLive a v).pwr = d.pwr := (rfl)
@[simp] theorem setLive_thm (a : Nat) (v : Word) (d : Dev) : (d.setLive a v).thm = d.thm := (rfl)
@[simp] theorem setLive_sec (a : Nat) (v : Word) (d : Dev) : (d.setLive a v).sec = d.sec := (rfl)
@[simp] theorem setLive_nvm (a : Nat) (v : Word) (d : Dev) : (d.setLive a v).nvm = d.nvm := (rfl)
@[simp] theorem setLive_cnt (a : Nat) (v : Word) (d : Dev) : (d.setLive a v).cnt = d.cnt := (rfl)
@[simp] theorem setLive_busWord (a : Nat) (v : Word) (d : Dev) : (d.setLive a v).busWord = d.busWord := (rfl)
@[simp] theorem setLive_busRes (a : Nat) (v : Word) (d : Dev) : (d.setLive a v).busRes = d.busRes := (rfl)
@[simp] theorem setLive_tap (a : Nat) (v : Word) (d : Dev) : (d.setLive a v).tap = d.tap := (rfl)
@[simp] theorem setLive_boundary (a : Nat) (v : Word) (d : Dev) : (d.setLive a v).boundary = d.boundary := (rfl)
@[simp] theorem setLive_reg (a : Nat) (v : Word) (k : Nat) (d : Dev) : (d.setLive a v).reg k = d.reg k := (rfl)
@[simp] theorem setLive_fld (a : Nat) (v : Word) (g : Fld) (d : Dev) : (d.setLive a v).fld g = d.fld g := (rfl)
@[simp] theorem setLive_on (a : Nat) (v : Word) (g : Fld) (d : Dev) : (d.setLive a v).on g = d.on g := (rfl)
@[simp] theorem setLive_domOn (a : Nat) (v : Word) (x : Dom) (d : Dev) : (d.setLive a v).domOn x = d.domOn x := (rfl)
@[simp] theorem setLive_rest (a : Nat) (v : Word) (d : Dev) : (d.setLive a v).rest = d.rest.setLive a v := (rfl)

/-! ### raise -/

@[simp] theorem raise_regs (b c l : Nat) (d : Dev) : (d.raise b c l).regs = d.regs := (rfl)
@[simp] theorem raise_live (b c l : Nat) (d : Dev) : (d.raise b c l).live = d.live := (rfl)
@[simp] theorem raise_staged (b c l : Nat) (d : Dev) : (d.raise b c l).staged = d.staged := (rfl)
@[simp] theorem raise_hold (b c l : Nat) (d : Dev) : (d.raise b c l).hold = d.hold := (rfl)
@[simp] theorem raise_latch (b c l : Nat) (d : Dev) : (d.raise b c l).latch = d.latch := (rfl)
@[simp] theorem raise_popped (b c l : Nat) (d : Dev) : (d.raise b c l).popped = d.popped := (rfl)
@[simp] theorem raise_emptied (b c l : Nat) (d : Dev) : (d.raise b c l).emptied = d.emptied := (rfl)
@[simp] theorem raise_clk (b c l : Nat) (d : Dev) : (d.raise b c l).clk = d.clk := (rfl)
@[simp] theorem raise_host (b c l : Nat) (d : Dev) : (d.raise b c l).host = d.host := (rfl)
@[simp] theorem raise_streams (b c l : Nat) (d : Dev) : (d.raise b c l).streams = d.streams := (rfl)
@[simp] theorem raise_lanes (b c l : Nat) (d : Dev) : (d.raise b c l).lanes = d.lanes := (rfl)
@[simp] theorem raise_spr (b c l : Nat) (d : Dev) : (d.raise b c l).spr = d.spr := (rfl)
@[simp] theorem raise_msh (b c l : Nat) (d : Dev) : (d.raise b c l).msh = d.msh := (rfl)
@[simp] theorem raise_cap (b c l : Nat) (d : Dev) : (d.raise b c l).cap = d.cap := (rfl)
@[simp] theorem raise_flt (b c l : Nat) (d : Dev) : (d.raise b c l).flt = d.flt := (rfl)
@[simp] theorem raise_mem (b c l : Nat) (d : Dev) : (d.raise b c l).mem = d.mem := (rfl)
@[simp] theorem raise_chk (b c l : Nat) (d : Dev) : (d.raise b c l).chk = d.chk := (rfl)
@[simp] theorem raise_freeCtr (b c l : Nat) (d : Dev) : (d.raise b c l).freeCtr = d.freeCtr := (rfl)
@[simp] theorem raise_mapSnap (b c l : Nat) (d : Dev) : (d.raise b c l).mapSnap = d.mapSnap := (rfl)
@[simp] theorem raise_powerList (b c l : Nat) (d : Dev) : (d.raise b c l).powerList = d.powerList := (rfl)
@[simp] theorem raise_hkp (b c l : Nat) (d : Dev) : (d.raise b c l).hkp = d.hkp := (rfl)
@[simp] theorem raise_cpu (b c l : Nat) (d : Dev) : (d.raise b c l).cpu = d.cpu := (rfl)
@[simp] theorem raise_ecc (b c l : Nat) (d : Dev) : (d.raise b c l).ecc = d.ecc := (rfl)
@[simp] theorem raise_dma (b c l : Nat) (d : Dev) : (d.raise b c l).dma = d.dma := (rfl)
@[simp] theorem raise_bst (b c l : Nat) (d : Dev) : (d.raise b c l).bst = d.bst := (rfl)
@[simp] theorem raise_clsWritten (b c l : Nat) (d : Dev) : (d.raise b c l).clsWritten = d.clsWritten := (rfl)
@[simp] theorem raise_mgmt (b c l : Nat) (d : Dev) : (d.raise b c l).mgmt = d.mgmt := (rfl)
@[simp] theorem raise_pwr (b c l : Nat) (d : Dev) : (d.raise b c l).pwr = d.pwr := (rfl)
@[simp] theorem raise_thm (b c l : Nat) (d : Dev) : (d.raise b c l).thm = d.thm := (rfl)
@[simp] theorem raise_sec (b c l : Nat) (d : Dev) : (d.raise b c l).sec = d.sec := (rfl)
@[simp] theorem raise_nvm (b c l : Nat) (d : Dev) : (d.raise b c l).nvm = d.nvm := (rfl)
@[simp] theorem raise_cnt (b c l : Nat) (d : Dev) : (d.raise b c l).cnt = d.cnt := (rfl)
@[simp] theorem raise_busWord (b c l : Nat) (d : Dev) : (d.raise b c l).busWord = d.busWord := (rfl)
@[simp] theorem raise_busRes (b c l : Nat) (d : Dev) : (d.raise b c l).busRes = d.busRes := (rfl)
@[simp] theorem raise_tap (b c l : Nat) (d : Dev) : (d.raise b c l).tap = d.tap := (rfl)
@[simp] theorem raise_boundary (b c l : Nat) (d : Dev) : (d.raise b c l).boundary = d.boundary := (rfl)
@[simp] theorem raise_reg (b c l : Nat) (k : Nat) (d : Dev) : (d.raise b c l).reg k = d.reg k := (rfl)
@[simp] theorem raise_fld (b c l : Nat) (g : Fld) (d : Dev) : (d.raise b c l).fld g = d.fld g := (rfl)
@[simp] theorem raise_on (b c l : Nat) (g : Fld) (d : Dev) : (d.raise b c l).on g = d.on g := (rfl)
@[simp] theorem raise_domOn (b c l : Nat) (x : Dom) (d : Dev) : (d.raise b c l).domOn x = d.domOn x := (rfl)
@[simp] theorem raise_rest (b c l : Nat) (d : Dev) : (d.raise b c l).rest = d.rest := (rfl)
@[simp] theorem raise_liveWord (b c l : Nat) (k : Nat) (d : Dev) : (d.raise b c l).liveWord k = d.liveWord k := (rfl)
@[simp] theorem raise_lv (b c l : Nat) (g : Fld) (d : Dev) : (d.raise b c l).lv g = d.lv g := (rfl)
@[simp] theorem raise_lvOn (b c l : Nat) (g : Fld) (d : Dev) : (d.raise b c l).lvOn g = d.lvOn g := (rfl)
@[simp] theorem raise_raised (b c l : Nat) (d : Dev) : (d.raise b c l).raised = d.raised ++ [⟨b, c, l⟩] := (rfl)

/-! ### modLane -/

@[simp] theorem modLane_regs (n : Lane) (f : LaneSt → LaneSt) (d : Dev) : (d.modLane n f).regs = d.regs := (rfl)
@[simp] theorem modLane_live (n : Lane) (f : LaneSt → LaneSt) (d : Dev) : (d.modLane n f).live = d.live := (rfl)
@[simp] theorem modLane_staged (n : Lane) (f : LaneSt → LaneSt) (d : Dev) : (d.modLane n f).staged = d.staged := (rfl)
@[simp] theorem modLane_hold (n : Lane) (f : LaneSt → LaneSt) (d : Dev) : (d.modLane n f).hold = d.hold := (rfl)
@[simp] theorem modLane_latch (n : Lane) (f : LaneSt → LaneSt) (d : Dev) : (d.modLane n f).latch = d.latch := (rfl)
@[simp] theorem modLane_raised (n : Lane) (f : LaneSt → LaneSt) (d : Dev) : (d.modLane n f).raised = d.raised := (rfl)
@[simp] theorem modLane_popped (n : Lane) (f : LaneSt → LaneSt) (d : Dev) : (d.modLane n f).popped = d.popped := (rfl)
@[simp] theorem modLane_emptied (n : Lane) (f : LaneSt → LaneSt) (d : Dev) : (d.modLane n f).emptied = d.emptied := (rfl)
@[simp] theorem modLane_clk (n : Lane) (f : LaneSt → LaneSt) (d : Dev) : (d.modLane n f).clk = d.clk := (rfl)
@[simp] theorem modLane_host (n : Lane) (f : LaneSt → LaneSt) (d : Dev) : (d.modLane n f).host = d.host := (rfl)
@[simp] theorem modLane_streams (n : Lane) (f : LaneSt → LaneSt) (d : Dev) : (d.modLane n f).streams = d.streams := (rfl)
@[simp] theorem modLane_spr (n : Lane) (f : LaneSt → LaneSt) (d : Dev) : (d.modLane n f).spr = d.spr := (rfl)
@[simp] theorem modLane_msh (n : Lane) (f : LaneSt → LaneSt) (d : Dev) : (d.modLane n f).msh = d.msh := (rfl)
@[simp] theorem modLane_cap (n : Lane) (f : LaneSt → LaneSt) (d : Dev) : (d.modLane n f).cap = d.cap := (rfl)
@[simp] theorem modLane_flt (n : Lane) (f : LaneSt → LaneSt) (d : Dev) : (d.modLane n f).flt = d.flt := (rfl)
@[simp] theorem modLane_mem (n : Lane) (f : LaneSt → LaneSt) (d : Dev) : (d.modLane n f).mem = d.mem := (rfl)
@[simp] theorem modLane_chk (n : Lane) (f : LaneSt → LaneSt) (d : Dev) : (d.modLane n f).chk = d.chk := (rfl)
@[simp] theorem modLane_freeCtr (n : Lane) (f : LaneSt → LaneSt) (d : Dev) : (d.modLane n f).freeCtr = d.freeCtr := (rfl)
@[simp] theorem modLane_mapSnap (n : Lane) (f : LaneSt → LaneSt) (d : Dev) : (d.modLane n f).mapSnap = d.mapSnap := (rfl)
@[simp] theorem modLane_powerList (n : Lane) (f : LaneSt → LaneSt) (d : Dev) : (d.modLane n f).powerList = d.powerList := (rfl)
@[simp] theorem modLane_hkp (n : Lane) (f : LaneSt → LaneSt) (d : Dev) : (d.modLane n f).hkp = d.hkp := (rfl)
@[simp] theorem modLane_cpu (n : Lane) (f : LaneSt → LaneSt) (d : Dev) : (d.modLane n f).cpu = d.cpu := (rfl)
@[simp] theorem modLane_ecc (n : Lane) (f : LaneSt → LaneSt) (d : Dev) : (d.modLane n f).ecc = d.ecc := (rfl)
@[simp] theorem modLane_dma (n : Lane) (f : LaneSt → LaneSt) (d : Dev) : (d.modLane n f).dma = d.dma := (rfl)
@[simp] theorem modLane_bst (n : Lane) (f : LaneSt → LaneSt) (d : Dev) : (d.modLane n f).bst = d.bst := (rfl)
@[simp] theorem modLane_clsWritten (n : Lane) (f : LaneSt → LaneSt) (d : Dev) : (d.modLane n f).clsWritten = d.clsWritten := (rfl)
@[simp] theorem modLane_mgmt (n : Lane) (f : LaneSt → LaneSt) (d : Dev) : (d.modLane n f).mgmt = d.mgmt := (rfl)
@[simp] theorem modLane_pwr (n : Lane) (f : LaneSt → LaneSt) (d : Dev) : (d.modLane n f).pwr = d.pwr := (rfl)
@[simp] theorem modLane_thm (n : Lane) (f : LaneSt → LaneSt) (d : Dev) : (d.modLane n f).thm = d.thm := (rfl)
@[simp] theorem modLane_sec (n : Lane) (f : LaneSt → LaneSt) (d : Dev) : (d.modLane n f).sec = d.sec := (rfl)
@[simp] theorem modLane_nvm (n : Lane) (f : LaneSt → LaneSt) (d : Dev) : (d.modLane n f).nvm = d.nvm := (rfl)
@[simp] theorem modLane_cnt (n : Lane) (f : LaneSt → LaneSt) (d : Dev) : (d.modLane n f).cnt = d.cnt := (rfl)
@[simp] theorem modLane_busWord (n : Lane) (f : LaneSt → LaneSt) (d : Dev) : (d.modLane n f).busWord = d.busWord := (rfl)
@[simp] theorem modLane_busRes (n : Lane) (f : LaneSt → LaneSt) (d : Dev) : (d.modLane n f).busRes = d.busRes := (rfl)
@[simp] theorem modLane_tap (n : Lane) (f : LaneSt → LaneSt) (d : Dev) : (d.modLane n f).tap = d.tap := (rfl)
@[simp] theorem modLane_boundary (n : Lane) (f : LaneSt → LaneSt) (d : Dev) : (d.modLane n f).boundary = d.boundary := (rfl)
@[simp] theorem modLane_reg (n : Lane) (f : LaneSt → LaneSt) (k : Nat) (d : Dev) : (d.modLane n f).reg k = d.reg k := (rfl)
@[simp] theorem modLane_fld (n : Lane) (f : LaneSt → LaneSt) (g : Fld) (d : Dev) : (d.modLane n f).fld g = d.fld g := (rfl)
@[simp] theorem modLane_on (n : Lane) (f : LaneSt → LaneSt) (g : Fld) (d : Dev) : (d.modLane n f).on g = d.on g := (rfl)
@[simp] theorem modLane_domOn (n : Lane) (f : LaneSt → LaneSt) (x : Dom) (d : Dev) : (d.modLane n f).domOn x = d.domOn x := (rfl)
@[simp] theorem modLane_rest (n : Lane) (f : LaneSt → LaneSt) (d : Dev) : (d.modLane n f).rest = d.rest.modLane n f := (rfl)
@[simp] theorem modLane_liveWord (n : Lane) (f : LaneSt → LaneSt) (k : Nat) (d : Dev) : (d.modLane n f).liveWord k = d.liveWord k := (rfl)
@[simp] theorem modLane_lv (n : Lane) (f : LaneSt → LaneSt) (g : Fld) (d : Dev) : (d.modLane n f).lv g = d.lv g := (rfl)
@[simp] theorem modLane_lvOn (n : Lane) (f : LaneSt → LaneSt) (g : Fld) (d : Dev) : (d.modLane n f).lvOn g = d.lvOn g := (rfl)

/-! ### modHost -/

@[simp] theorem modHost_regs (h : HostLane) (f : HostSt → HostSt) (d : Dev) : (d.modHost h f).regs = d.regs := (rfl)
@[simp] theorem modHost_live (h : HostLane) (f : HostSt → HostSt) (d : Dev) : (d.modHost h f).live = d.live := (rfl)
@[simp] theorem modHost_staged (h : HostLane) (f : HostSt → HostSt) (d : Dev) : (d.modHost h f).staged = d.staged := (rfl)
@[simp] theorem modHost_hold (h : HostLane) (f : HostSt → HostSt) (d : Dev) : (d.modHost h f).hold = d.hold := (rfl)
@[simp] theorem modHost_latch (h : HostLane) (f : HostSt → HostSt) (d : Dev) : (d.modHost h f).latch = d.latch := (rfl)
@[simp] theorem modHost_raised (h : HostLane) (f : HostSt → HostSt) (d : Dev) : (d.modHost h f).raised = d.raised := (rfl)
@[simp] theorem modHost_popped (h : HostLane) (f : HostSt → HostSt) (d : Dev) : (d.modHost h f).popped = d.popped := (rfl)
@[simp] theorem modHost_emptied (h : HostLane) (f : HostSt → HostSt) (d : Dev) : (d.modHost h f).emptied = d.emptied := (rfl)
@[simp] theorem modHost_clk (h : HostLane) (f : HostSt → HostSt) (d : Dev) : (d.modHost h f).clk = d.clk := (rfl)
@[simp] theorem modHost_streams (h : HostLane) (f : HostSt → HostSt) (d : Dev) : (d.modHost h f).streams = d.streams := (rfl)
@[simp] theorem modHost_lanes (h : HostLane) (f : HostSt → HostSt) (d : Dev) : (d.modHost h f).lanes = d.lanes := (rfl)
@[simp] theorem modHost_spr (h : HostLane) (f : HostSt → HostSt) (d : Dev) : (d.modHost h f).spr = d.spr := (rfl)
@[simp] theorem modHost_msh (h : HostLane) (f : HostSt → HostSt) (d : Dev) : (d.modHost h f).msh = d.msh := (rfl)
@[simp] theorem modHost_cap (h : HostLane) (f : HostSt → HostSt) (d : Dev) : (d.modHost h f).cap = d.cap := (rfl)
@[simp] theorem modHost_flt (h : HostLane) (f : HostSt → HostSt) (d : Dev) : (d.modHost h f).flt = d.flt := (rfl)
@[simp] theorem modHost_mem (h : HostLane) (f : HostSt → HostSt) (d : Dev) : (d.modHost h f).mem = d.mem := (rfl)
@[simp] theorem modHost_chk (h : HostLane) (f : HostSt → HostSt) (d : Dev) : (d.modHost h f).chk = d.chk := (rfl)
@[simp] theorem modHost_freeCtr (h : HostLane) (f : HostSt → HostSt) (d : Dev) : (d.modHost h f).freeCtr = d.freeCtr := (rfl)
@[simp] theorem modHost_mapSnap (h : HostLane) (f : HostSt → HostSt) (d : Dev) : (d.modHost h f).mapSnap = d.mapSnap := (rfl)
@[simp] theorem modHost_powerList (h : HostLane) (f : HostSt → HostSt) (d : Dev) : (d.modHost h f).powerList = d.powerList := (rfl)
@[simp] theorem modHost_hkp (h : HostLane) (f : HostSt → HostSt) (d : Dev) : (d.modHost h f).hkp = d.hkp := (rfl)
@[simp] theorem modHost_cpu (h : HostLane) (f : HostSt → HostSt) (d : Dev) : (d.modHost h f).cpu = d.cpu := (rfl)
@[simp] theorem modHost_ecc (h : HostLane) (f : HostSt → HostSt) (d : Dev) : (d.modHost h f).ecc = d.ecc := (rfl)
@[simp] theorem modHost_dma (h : HostLane) (f : HostSt → HostSt) (d : Dev) : (d.modHost h f).dma = d.dma := (rfl)
@[simp] theorem modHost_bst (h : HostLane) (f : HostSt → HostSt) (d : Dev) : (d.modHost h f).bst = d.bst := (rfl)
@[simp] theorem modHost_clsWritten (h : HostLane) (f : HostSt → HostSt) (d : Dev) : (d.modHost h f).clsWritten = d.clsWritten := (rfl)
@[simp] theorem modHost_mgmt (h : HostLane) (f : HostSt → HostSt) (d : Dev) : (d.modHost h f).mgmt = d.mgmt := (rfl)
@[simp] theorem modHost_pwr (h : HostLane) (f : HostSt → HostSt) (d : Dev) : (d.modHost h f).pwr = d.pwr := (rfl)
@[simp] theorem modHost_thm (h : HostLane) (f : HostSt → HostSt) (d : Dev) : (d.modHost h f).thm = d.thm := (rfl)
@[simp] theorem modHost_sec (h : HostLane) (f : HostSt → HostSt) (d : Dev) : (d.modHost h f).sec = d.sec := (rfl)
@[simp] theorem modHost_nvm (h : HostLane) (f : HostSt → HostSt) (d : Dev) : (d.modHost h f).nvm = d.nvm := (rfl)
@[simp] theorem modHost_cnt (h : HostLane) (f : HostSt → HostSt) (d : Dev) : (d.modHost h f).cnt = d.cnt := (rfl)
@[simp] theorem modHost_busWord (h : HostLane) (f : HostSt → HostSt) (d : Dev) : (d.modHost h f).busWord = d.busWord := (rfl)
@[simp] theorem modHost_busRes (h : HostLane) (f : HostSt → HostSt) (d : Dev) : (d.modHost h f).busRes = d.busRes := (rfl)
@[simp] theorem modHost_tap (h : HostLane) (f : HostSt → HostSt) (d : Dev) : (d.modHost h f).tap = d.tap := (rfl)
@[simp] theorem modHost_boundary (h : HostLane) (f : HostSt → HostSt) (d : Dev) : (d.modHost h f).boundary = d.boundary := (rfl)
@[simp] theorem modHost_reg (h : HostLane) (f : HostSt → HostSt) (k : Nat) (d : Dev) : (d.modHost h f).reg k = d.reg k := (rfl)
@[simp] theorem modHost_fld (h : HostLane) (f : HostSt → HostSt) (g : Fld) (d : Dev) : (d.modHost h f).fld g = d.fld g := (rfl)
@[simp] theorem modHost_on (h : HostLane) (f : HostSt → HostSt) (g : Fld) (d : Dev) : (d.modHost h f).on g = d.on g := (rfl)
@[simp] theorem modHost_domOn (h : HostLane) (f : HostSt → HostSt) (x : Dom) (d : Dev) : (d.modHost h f).domOn x = d.domOn x := (rfl)
@[simp] theorem modHost_rest (h : HostLane) (f : HostSt → HostSt) (d : Dev) : (d.modHost h f).rest = d.rest.modHost h f := (rfl)
@[simp] theorem modHost_liveWord (h : HostLane) (f : HostSt → HostSt) (k : Nat) (d : Dev) : (d.modHost h f).liveWord k = d.liveWord k := (rfl)
@[simp] theorem modHost_lv (h : HostLane) (f : HostSt → HostSt) (g : Fld) (d : Dev) : (d.modHost h f).lv g = d.lv g := (rfl)
@[simp] theorem modHost_lvOn (h : HostLane) (f : HostSt → HostSt) (g : Fld) (d : Dev) : (d.modHost h f).lvOn g = d.lvOn g := (rfl)

/-! ### modClk -/

@[simp] theorem modClk_regs (f : Clk → Clk) (d : Dev) : (d.modClk f).regs = d.regs := (rfl)
@[simp] theorem modClk_live (f : Clk → Clk) (d : Dev) : (d.modClk f).live = d.live := (rfl)
@[simp] theorem modClk_staged (f : Clk → Clk) (d : Dev) : (d.modClk f).staged = d.staged := (rfl)
@[simp] theorem modClk_hold (f : Clk → Clk) (d : Dev) : (d.modClk f).hold = d.hold := (rfl)
@[simp] theorem modClk_latch (f : Clk → Clk) (d : Dev) : (d.modClk f).latch = d.latch := (rfl)
@[simp] theorem modClk_raised (f : Clk → Clk) (d : Dev) : (d.modClk f).raised = d.raised := (rfl)
@[simp] theorem modClk_popped (f : Clk → Clk) (d : Dev) : (d.modClk f).popped = d.popped := (rfl)
@[simp] theorem modClk_emptied (f : Clk → Clk) (d : Dev) : (d.modClk f).emptied = d.emptied := (rfl)
@[simp] theorem modClk_clk (f : Clk → Clk) (d : Dev) : (d.modClk f).clk = f d.clk := (rfl)
@[simp] theorem modClk_host (f : Clk → Clk) (d : Dev) : (d.modClk f).host = d.host := (rfl)
@[simp] theorem modClk_streams (f : Clk → Clk) (d : Dev) : (d.modClk f).streams = d.streams := (rfl)
@[simp] theorem modClk_lanes (f : Clk → Clk) (d : Dev) : (d.modClk f).lanes = d.lanes := (rfl)
@[simp] theorem modClk_spr (f : Clk → Clk) (d : Dev) : (d.modClk f).spr = d.spr := (rfl)
@[simp] theorem modClk_msh (f : Clk → Clk) (d : Dev) : (d.modClk f).msh = d.msh := (rfl)
@[simp] theorem modClk_cap (f : Clk → Clk) (d : Dev) : (d.modClk f).cap = d.cap := (rfl)
@[simp] theorem modClk_flt (f : Clk → Clk) (d : Dev) : (d.modClk f).flt = d.flt := (rfl)
@[simp] theorem modClk_mem (f : Clk → Clk) (d : Dev) : (d.modClk f).mem = d.mem := (rfl)
@[simp] theorem modClk_chk (f : Clk → Clk) (d : Dev) : (d.modClk f).chk = d.chk := (rfl)
@[simp] theorem modClk_freeCtr (f : Clk → Clk) (d : Dev) : (d.modClk f).freeCtr = d.freeCtr := (rfl)
@[simp] theorem modClk_mapSnap (f : Clk → Clk) (d : Dev) : (d.modClk f).mapSnap = d.mapSnap := (rfl)
@[simp] theorem modClk_powerList (f : Clk → Clk) (d : Dev) : (d.modClk f).powerList = d.powerList := (rfl)
@[simp] theorem modClk_hkp (f : Clk → Clk) (d : Dev) : (d.modClk f).hkp = d.hkp := (rfl)
@[simp] theorem modClk_cpu (f : Clk → Clk) (d : Dev) : (d.modClk f).cpu = d.cpu := (rfl)
@[simp] theorem modClk_ecc (f : Clk → Clk) (d : Dev) : (d.modClk f).ecc = d.ecc := (rfl)
@[simp] theorem modClk_dma (f : Clk → Clk) (d : Dev) : (d.modClk f).dma = d.dma := (rfl)
@[simp] theorem modClk_bst (f : Clk → Clk) (d : Dev) : (d.modClk f).bst = d.bst := (rfl)
@[simp] theorem modClk_clsWritten (f : Clk → Clk) (d : Dev) : (d.modClk f).clsWritten = d.clsWritten := (rfl)
@[simp] theorem modClk_mgmt (f : Clk → Clk) (d : Dev) : (d.modClk f).mgmt = d.mgmt := (rfl)
@[simp] theorem modClk_pwr (f : Clk → Clk) (d : Dev) : (d.modClk f).pwr = d.pwr := (rfl)
@[simp] theorem modClk_thm (f : Clk → Clk) (d : Dev) : (d.modClk f).thm = d.thm := (rfl)
@[simp] theorem modClk_sec (f : Clk → Clk) (d : Dev) : (d.modClk f).sec = d.sec := (rfl)
@[simp] theorem modClk_nvm (f : Clk → Clk) (d : Dev) : (d.modClk f).nvm = d.nvm := (rfl)
@[simp] theorem modClk_cnt (f : Clk → Clk) (d : Dev) : (d.modClk f).cnt = d.cnt := (rfl)
@[simp] theorem modClk_busWord (f : Clk → Clk) (d : Dev) : (d.modClk f).busWord = d.busWord := (rfl)
@[simp] theorem modClk_busRes (f : Clk → Clk) (d : Dev) : (d.modClk f).busRes = d.busRes := (rfl)
@[simp] theorem modClk_tap (f : Clk → Clk) (d : Dev) : (d.modClk f).tap = d.tap := (rfl)
@[simp] theorem modClk_boundary (f : Clk → Clk) (d : Dev) : (d.modClk f).boundary = d.boundary := (rfl)
@[simp] theorem modClk_reg (f : Clk → Clk) (k : Nat) (d : Dev) : (d.modClk f).reg k = d.reg k := (rfl)
@[simp] theorem modClk_fld (f : Clk → Clk) (g : Fld) (d : Dev) : (d.modClk f).fld g = d.fld g := (rfl)
@[simp] theorem modClk_on (f : Clk → Clk) (g : Fld) (d : Dev) : (d.modClk f).on g = d.on g := (rfl)
@[simp] theorem modClk_domOn (f : Clk → Clk) (x : Dom) (d : Dev) : (d.modClk f).domOn x = d.domOn x := (rfl)
@[simp] theorem modClk_rest (f : Clk → Clk) (d : Dev) : (d.modClk f).rest = d.rest.modClk f := (rfl)
@[simp] theorem modClk_liveWord (f : Clk → Clk) (k : Nat) (d : Dev) : (d.modClk f).liveWord k = d.liveWord k := (rfl)
@[simp] theorem modClk_lv (f : Clk → Clk) (g : Fld) (d : Dev) : (d.modClk f).lv g = d.lv g := (rfl)
@[simp] theorem modClk_lvOn (f : Clk → Clk) (g : Fld) (d : Dev) : (d.modClk f).lvOn g = d.lvOn g := (rfl)

/-! ### modSpr -/

@[simp] theorem modSpr_regs (f : SprSt → SprSt) (d : Dev) : (d.modSpr f).regs = d.regs := (rfl)
@[simp] theorem modSpr_live (f : SprSt → SprSt) (d : Dev) : (d.modSpr f).live = d.live := (rfl)
@[simp] theorem modSpr_staged (f : SprSt → SprSt) (d : Dev) : (d.modSpr f).staged = d.staged := (rfl)
@[simp] theorem modSpr_hold (f : SprSt → SprSt) (d : Dev) : (d.modSpr f).hold = d.hold := (rfl)
@[simp] theorem modSpr_latch (f : SprSt → SprSt) (d : Dev) : (d.modSpr f).latch = d.latch := (rfl)
@[simp] theorem modSpr_raised (f : SprSt → SprSt) (d : Dev) : (d.modSpr f).raised = d.raised := (rfl)
@[simp] theorem modSpr_popped (f : SprSt → SprSt) (d : Dev) : (d.modSpr f).popped = d.popped := (rfl)
@[simp] theorem modSpr_emptied (f : SprSt → SprSt) (d : Dev) : (d.modSpr f).emptied = d.emptied := (rfl)
@[simp] theorem modSpr_clk (f : SprSt → SprSt) (d : Dev) : (d.modSpr f).clk = d.clk := (rfl)
@[simp] theorem modSpr_host (f : SprSt → SprSt) (d : Dev) : (d.modSpr f).host = d.host := (rfl)
@[simp] theorem modSpr_streams (f : SprSt → SprSt) (d : Dev) : (d.modSpr f).streams = d.streams := (rfl)
@[simp] theorem modSpr_lanes (f : SprSt → SprSt) (d : Dev) : (d.modSpr f).lanes = d.lanes := (rfl)
@[simp] theorem modSpr_spr (f : SprSt → SprSt) (d : Dev) : (d.modSpr f).spr = f d.spr := (rfl)
@[simp] theorem modSpr_msh (f : SprSt → SprSt) (d : Dev) : (d.modSpr f).msh = d.msh := (rfl)
@[simp] theorem modSpr_cap (f : SprSt → SprSt) (d : Dev) : (d.modSpr f).cap = d.cap := (rfl)
@[simp] theorem modSpr_flt (f : SprSt → SprSt) (d : Dev) : (d.modSpr f).flt = d.flt := (rfl)
@[simp] theorem modSpr_mem (f : SprSt → SprSt) (d : Dev) : (d.modSpr f).mem = d.mem := (rfl)
@[simp] theorem modSpr_chk (f : SprSt → SprSt) (d : Dev) : (d.modSpr f).chk = d.chk := (rfl)
@[simp] theorem modSpr_freeCtr (f : SprSt → SprSt) (d : Dev) : (d.modSpr f).freeCtr = d.freeCtr := (rfl)
@[simp] theorem modSpr_mapSnap (f : SprSt → SprSt) (d : Dev) : (d.modSpr f).mapSnap = d.mapSnap := (rfl)
@[simp] theorem modSpr_powerList (f : SprSt → SprSt) (d : Dev) : (d.modSpr f).powerList = d.powerList := (rfl)
@[simp] theorem modSpr_hkp (f : SprSt → SprSt) (d : Dev) : (d.modSpr f).hkp = d.hkp := (rfl)
@[simp] theorem modSpr_cpu (f : SprSt → SprSt) (d : Dev) : (d.modSpr f).cpu = d.cpu := (rfl)
@[simp] theorem modSpr_ecc (f : SprSt → SprSt) (d : Dev) : (d.modSpr f).ecc = d.ecc := (rfl)
@[simp] theorem modSpr_dma (f : SprSt → SprSt) (d : Dev) : (d.modSpr f).dma = d.dma := (rfl)
@[simp] theorem modSpr_bst (f : SprSt → SprSt) (d : Dev) : (d.modSpr f).bst = d.bst := (rfl)
@[simp] theorem modSpr_clsWritten (f : SprSt → SprSt) (d : Dev) : (d.modSpr f).clsWritten = d.clsWritten := (rfl)
@[simp] theorem modSpr_mgmt (f : SprSt → SprSt) (d : Dev) : (d.modSpr f).mgmt = d.mgmt := (rfl)
@[simp] theorem modSpr_pwr (f : SprSt → SprSt) (d : Dev) : (d.modSpr f).pwr = d.pwr := (rfl)
@[simp] theorem modSpr_thm (f : SprSt → SprSt) (d : Dev) : (d.modSpr f).thm = d.thm := (rfl)
@[simp] theorem modSpr_sec (f : SprSt → SprSt) (d : Dev) : (d.modSpr f).sec = d.sec := (rfl)
@[simp] theorem modSpr_nvm (f : SprSt → SprSt) (d : Dev) : (d.modSpr f).nvm = d.nvm := (rfl)
@[simp] theorem modSpr_cnt (f : SprSt → SprSt) (d : Dev) : (d.modSpr f).cnt = d.cnt := (rfl)
@[simp] theorem modSpr_busWord (f : SprSt → SprSt) (d : Dev) : (d.modSpr f).busWord = d.busWord := (rfl)
@[simp] theorem modSpr_busRes (f : SprSt → SprSt) (d : Dev) : (d.modSpr f).busRes = d.busRes := (rfl)
@[simp] theorem modSpr_tap (f : SprSt → SprSt) (d : Dev) : (d.modSpr f).tap = d.tap := (rfl)
@[simp] theorem modSpr_boundary (f : SprSt → SprSt) (d : Dev) : (d.modSpr f).boundary = d.boundary := (rfl)
@[simp] theorem modSpr_reg (f : SprSt → SprSt) (k : Nat) (d : Dev) : (d.modSpr f).reg k = d.reg k := (rfl)
@[simp] theorem modSpr_fld (f : SprSt → SprSt) (g : Fld) (d : Dev) : (d.modSpr f).fld g = d.fld g := (rfl)
@[simp] theorem modSpr_on (f : SprSt → SprSt) (g : Fld) (d : Dev) : (d.modSpr f).on g = d.on g := (rfl)
@[simp] theorem modSpr_domOn (f : SprSt → SprSt) (x : Dom) (d : Dev) : (d.modSpr f).domOn x = d.domOn x := (rfl)
@[simp] theorem modSpr_rest (f : SprSt → SprSt) (d : Dev) : (d.modSpr f).rest = d.rest.modSpr f := (rfl)
@[simp] theorem modSpr_liveWord (f : SprSt → SprSt) (k : Nat) (d : Dev) : (d.modSpr f).liveWord k = d.liveWord k := (rfl)
@[simp] theorem modSpr_lv (f : SprSt → SprSt) (g : Fld) (d : Dev) : (d.modSpr f).lv g = d.lv g := (rfl)
@[simp] theorem modSpr_lvOn (f : SprSt → SprSt) (g : Fld) (d : Dev) : (d.modSpr f).lvOn g = d.lvOn g := (rfl)

/-! ### modMsh -/

@[simp] theorem modMsh_regs (f : MshSt → MshSt) (d : Dev) : (d.modMsh f).regs = d.regs := (rfl)
@[simp] theorem modMsh_live (f : MshSt → MshSt) (d : Dev) : (d.modMsh f).live = d.live := (rfl)
@[simp] theorem modMsh_staged (f : MshSt → MshSt) (d : Dev) : (d.modMsh f).staged = d.staged := (rfl)
@[simp] theorem modMsh_hold (f : MshSt → MshSt) (d : Dev) : (d.modMsh f).hold = d.hold := (rfl)
@[simp] theorem modMsh_latch (f : MshSt → MshSt) (d : Dev) : (d.modMsh f).latch = d.latch := (rfl)
@[simp] theorem modMsh_raised (f : MshSt → MshSt) (d : Dev) : (d.modMsh f).raised = d.raised := (rfl)
@[simp] theorem modMsh_popped (f : MshSt → MshSt) (d : Dev) : (d.modMsh f).popped = d.popped := (rfl)
@[simp] theorem modMsh_emptied (f : MshSt → MshSt) (d : Dev) : (d.modMsh f).emptied = d.emptied := (rfl)
@[simp] theorem modMsh_clk (f : MshSt → MshSt) (d : Dev) : (d.modMsh f).clk = d.clk := (rfl)
@[simp] theorem modMsh_host (f : MshSt → MshSt) (d : Dev) : (d.modMsh f).host = d.host := (rfl)
@[simp] theorem modMsh_streams (f : MshSt → MshSt) (d : Dev) : (d.modMsh f).streams = d.streams := (rfl)
@[simp] theorem modMsh_lanes (f : MshSt → MshSt) (d : Dev) : (d.modMsh f).lanes = d.lanes := (rfl)
@[simp] theorem modMsh_spr (f : MshSt → MshSt) (d : Dev) : (d.modMsh f).spr = d.spr := (rfl)
@[simp] theorem modMsh_msh (f : MshSt → MshSt) (d : Dev) : (d.modMsh f).msh = f d.msh := (rfl)
@[simp] theorem modMsh_cap (f : MshSt → MshSt) (d : Dev) : (d.modMsh f).cap = d.cap := (rfl)
@[simp] theorem modMsh_flt (f : MshSt → MshSt) (d : Dev) : (d.modMsh f).flt = d.flt := (rfl)
@[simp] theorem modMsh_mem (f : MshSt → MshSt) (d : Dev) : (d.modMsh f).mem = d.mem := (rfl)
@[simp] theorem modMsh_chk (f : MshSt → MshSt) (d : Dev) : (d.modMsh f).chk = d.chk := (rfl)
@[simp] theorem modMsh_freeCtr (f : MshSt → MshSt) (d : Dev) : (d.modMsh f).freeCtr = d.freeCtr := (rfl)
@[simp] theorem modMsh_mapSnap (f : MshSt → MshSt) (d : Dev) : (d.modMsh f).mapSnap = d.mapSnap := (rfl)
@[simp] theorem modMsh_powerList (f : MshSt → MshSt) (d : Dev) : (d.modMsh f).powerList = d.powerList := (rfl)
@[simp] theorem modMsh_hkp (f : MshSt → MshSt) (d : Dev) : (d.modMsh f).hkp = d.hkp := (rfl)
@[simp] theorem modMsh_cpu (f : MshSt → MshSt) (d : Dev) : (d.modMsh f).cpu = d.cpu := (rfl)
@[simp] theorem modMsh_ecc (f : MshSt → MshSt) (d : Dev) : (d.modMsh f).ecc = d.ecc := (rfl)
@[simp] theorem modMsh_dma (f : MshSt → MshSt) (d : Dev) : (d.modMsh f).dma = d.dma := (rfl)
@[simp] theorem modMsh_bst (f : MshSt → MshSt) (d : Dev) : (d.modMsh f).bst = d.bst := (rfl)
@[simp] theorem modMsh_clsWritten (f : MshSt → MshSt) (d : Dev) : (d.modMsh f).clsWritten = d.clsWritten := (rfl)
@[simp] theorem modMsh_mgmt (f : MshSt → MshSt) (d : Dev) : (d.modMsh f).mgmt = d.mgmt := (rfl)
@[simp] theorem modMsh_pwr (f : MshSt → MshSt) (d : Dev) : (d.modMsh f).pwr = d.pwr := (rfl)
@[simp] theorem modMsh_thm (f : MshSt → MshSt) (d : Dev) : (d.modMsh f).thm = d.thm := (rfl)
@[simp] theorem modMsh_sec (f : MshSt → MshSt) (d : Dev) : (d.modMsh f).sec = d.sec := (rfl)
@[simp] theorem modMsh_nvm (f : MshSt → MshSt) (d : Dev) : (d.modMsh f).nvm = d.nvm := (rfl)
@[simp] theorem modMsh_cnt (f : MshSt → MshSt) (d : Dev) : (d.modMsh f).cnt = d.cnt := (rfl)
@[simp] theorem modMsh_busWord (f : MshSt → MshSt) (d : Dev) : (d.modMsh f).busWord = d.busWord := (rfl)
@[simp] theorem modMsh_busRes (f : MshSt → MshSt) (d : Dev) : (d.modMsh f).busRes = d.busRes := (rfl)
@[simp] theorem modMsh_tap (f : MshSt → MshSt) (d : Dev) : (d.modMsh f).tap = d.tap := (rfl)
@[simp] theorem modMsh_boundary (f : MshSt → MshSt) (d : Dev) : (d.modMsh f).boundary = d.boundary := (rfl)
@[simp] theorem modMsh_reg (f : MshSt → MshSt) (k : Nat) (d : Dev) : (d.modMsh f).reg k = d.reg k := (rfl)
@[simp] theorem modMsh_fld (f : MshSt → MshSt) (g : Fld) (d : Dev) : (d.modMsh f).fld g = d.fld g := (rfl)
@[simp] theorem modMsh_on (f : MshSt → MshSt) (g : Fld) (d : Dev) : (d.modMsh f).on g = d.on g := (rfl)
@[simp] theorem modMsh_domOn (f : MshSt → MshSt) (x : Dom) (d : Dev) : (d.modMsh f).domOn x = d.domOn x := (rfl)
@[simp] theorem modMsh_rest (f : MshSt → MshSt) (d : Dev) : (d.modMsh f).rest = d.rest.modMsh f := (rfl)
@[simp] theorem modMsh_liveWord (f : MshSt → MshSt) (k : Nat) (d : Dev) : (d.modMsh f).liveWord k = d.liveWord k := (rfl)
@[simp] theorem modMsh_lv (f : MshSt → MshSt) (g : Fld) (d : Dev) : (d.modMsh f).lv g = d.lv g := (rfl)
@[simp] theorem modMsh_lvOn (f : MshSt → MshSt) (g : Fld) (d : Dev) : (d.modMsh f).lvOn g = d.lvOn g := (rfl)

/-! ### modDma -/

@[simp] theorem modDma_regs (f : DmaSt → DmaSt) (d : Dev) : (d.modDma f).regs = d.regs := (rfl)
@[simp] theorem modDma_live (f : DmaSt → DmaSt) (d : Dev) : (d.modDma f).live = d.live := (rfl)
@[simp] theorem modDma_staged (f : DmaSt → DmaSt) (d : Dev) : (d.modDma f).staged = d.staged := (rfl)
@[simp] theorem modDma_hold (f : DmaSt → DmaSt) (d : Dev) : (d.modDma f).hold = d.hold := (rfl)
@[simp] theorem modDma_latch (f : DmaSt → DmaSt) (d : Dev) : (d.modDma f).latch = d.latch := (rfl)
@[simp] theorem modDma_raised (f : DmaSt → DmaSt) (d : Dev) : (d.modDma f).raised = d.raised := (rfl)
@[simp] theorem modDma_popped (f : DmaSt → DmaSt) (d : Dev) : (d.modDma f).popped = d.popped := (rfl)
@[simp] theorem modDma_emptied (f : DmaSt → DmaSt) (d : Dev) : (d.modDma f).emptied = d.emptied := (rfl)
@[simp] theorem modDma_clk (f : DmaSt → DmaSt) (d : Dev) : (d.modDma f).clk = d.clk := (rfl)
@[simp] theorem modDma_host (f : DmaSt → DmaSt) (d : Dev) : (d.modDma f).host = d.host := (rfl)
@[simp] theorem modDma_streams (f : DmaSt → DmaSt) (d : Dev) : (d.modDma f).streams = d.streams := (rfl)
@[simp] theorem modDma_lanes (f : DmaSt → DmaSt) (d : Dev) : (d.modDma f).lanes = d.lanes := (rfl)
@[simp] theorem modDma_spr (f : DmaSt → DmaSt) (d : Dev) : (d.modDma f).spr = d.spr := (rfl)
@[simp] theorem modDma_msh (f : DmaSt → DmaSt) (d : Dev) : (d.modDma f).msh = d.msh := (rfl)
@[simp] theorem modDma_cap (f : DmaSt → DmaSt) (d : Dev) : (d.modDma f).cap = d.cap := (rfl)
@[simp] theorem modDma_flt (f : DmaSt → DmaSt) (d : Dev) : (d.modDma f).flt = d.flt := (rfl)
@[simp] theorem modDma_mem (f : DmaSt → DmaSt) (d : Dev) : (d.modDma f).mem = d.mem := (rfl)
@[simp] theorem modDma_chk (f : DmaSt → DmaSt) (d : Dev) : (d.modDma f).chk = d.chk := (rfl)
@[simp] theorem modDma_freeCtr (f : DmaSt → DmaSt) (d : Dev) : (d.modDma f).freeCtr = d.freeCtr := (rfl)
@[simp] theorem modDma_mapSnap (f : DmaSt → DmaSt) (d : Dev) : (d.modDma f).mapSnap = d.mapSnap := (rfl)
@[simp] theorem modDma_powerList (f : DmaSt → DmaSt) (d : Dev) : (d.modDma f).powerList = d.powerList := (rfl)
@[simp] theorem modDma_hkp (f : DmaSt → DmaSt) (d : Dev) : (d.modDma f).hkp = d.hkp := (rfl)
@[simp] theorem modDma_cpu (f : DmaSt → DmaSt) (d : Dev) : (d.modDma f).cpu = d.cpu := (rfl)
@[simp] theorem modDma_ecc (f : DmaSt → DmaSt) (d : Dev) : (d.modDma f).ecc = d.ecc := (rfl)
@[simp] theorem modDma_dma (f : DmaSt → DmaSt) (d : Dev) : (d.modDma f).dma = f d.dma := (rfl)
@[simp] theorem modDma_bst (f : DmaSt → DmaSt) (d : Dev) : (d.modDma f).bst = d.bst := (rfl)
@[simp] theorem modDma_clsWritten (f : DmaSt → DmaSt) (d : Dev) : (d.modDma f).clsWritten = d.clsWritten := (rfl)
@[simp] theorem modDma_mgmt (f : DmaSt → DmaSt) (d : Dev) : (d.modDma f).mgmt = d.mgmt := (rfl)
@[simp] theorem modDma_pwr (f : DmaSt → DmaSt) (d : Dev) : (d.modDma f).pwr = d.pwr := (rfl)
@[simp] theorem modDma_thm (f : DmaSt → DmaSt) (d : Dev) : (d.modDma f).thm = d.thm := (rfl)
@[simp] theorem modDma_sec (f : DmaSt → DmaSt) (d : Dev) : (d.modDma f).sec = d.sec := (rfl)
@[simp] theorem modDma_nvm (f : DmaSt → DmaSt) (d : Dev) : (d.modDma f).nvm = d.nvm := (rfl)
@[simp] theorem modDma_cnt (f : DmaSt → DmaSt) (d : Dev) : (d.modDma f).cnt = d.cnt := (rfl)
@[simp] theorem modDma_busWord (f : DmaSt → DmaSt) (d : Dev) : (d.modDma f).busWord = d.busWord := (rfl)
@[simp] theorem modDma_busRes (f : DmaSt → DmaSt) (d : Dev) : (d.modDma f).busRes = d.busRes := (rfl)
@[simp] theorem modDma_tap (f : DmaSt → DmaSt) (d : Dev) : (d.modDma f).tap = d.tap := (rfl)
@[simp] theorem modDma_boundary (f : DmaSt → DmaSt) (d : Dev) : (d.modDma f).boundary = d.boundary := (rfl)
@[simp] theorem modDma_reg (f : DmaSt → DmaSt) (k : Nat) (d : Dev) : (d.modDma f).reg k = d.reg k := (rfl)
@[simp] theorem modDma_fld (f : DmaSt → DmaSt) (g : Fld) (d : Dev) : (d.modDma f).fld g = d.fld g := (rfl)
@[simp] theorem modDma_on (f : DmaSt → DmaSt) (g : Fld) (d : Dev) : (d.modDma f).on g = d.on g := (rfl)
@[simp] theorem modDma_domOn (f : DmaSt → DmaSt) (x : Dom) (d : Dev) : (d.modDma f).domOn x = d.domOn x := (rfl)
@[simp] theorem modDma_rest (f : DmaSt → DmaSt) (d : Dev) : (d.modDma f).rest = d.rest.modDma f := (rfl)
@[simp] theorem modDma_liveWord (f : DmaSt → DmaSt) (k : Nat) (d : Dev) : (d.modDma f).liveWord k = d.liveWord k := (rfl)
@[simp] theorem modDma_lv (f : DmaSt → DmaSt) (g : Fld) (d : Dev) : (d.modDma f).lv g = d.lv g := (rfl)
@[simp] theorem modDma_lvOn (f : DmaSt → DmaSt) (g : Fld) (d : Dev) : (d.modDma f).lvOn g = d.lvOn g := (rfl)

/-! ### modEcc -/

@[simp] theorem modEcc_regs (f : EccSt → EccSt) (d : Dev) : (d.modEcc f).regs = d.regs := (rfl)
@[simp] theorem modEcc_live (f : EccSt → EccSt) (d : Dev) : (d.modEcc f).live = d.live := (rfl)
@[simp] theorem modEcc_staged (f : EccSt → EccSt) (d : Dev) : (d.modEcc f).staged = d.staged := (rfl)
@[simp] theorem modEcc_hold (f : EccSt → EccSt) (d : Dev) : (d.modEcc f).hold = d.hold := (rfl)
@[simp] theorem modEcc_latch (f : EccSt → EccSt) (d : Dev) : (d.modEcc f).latch = d.latch := (rfl)
@[simp] theorem modEcc_raised (f : EccSt → EccSt) (d : Dev) : (d.modEcc f).raised = d.raised := (rfl)
@[simp] theorem modEcc_popped (f : EccSt → EccSt) (d : Dev) : (d.modEcc f).popped = d.popped := (rfl)
@[simp] theorem modEcc_emptied (f : EccSt → EccSt) (d : Dev) : (d.modEcc f).emptied = d.emptied := (rfl)
@[simp] theorem modEcc_clk (f : EccSt → EccSt) (d : Dev) : (d.modEcc f).clk = d.clk := (rfl)
@[simp] theorem modEcc_host (f : EccSt → EccSt) (d : Dev) : (d.modEcc f).host = d.host := (rfl)
@[simp] theorem modEcc_streams (f : EccSt → EccSt) (d : Dev) : (d.modEcc f).streams = d.streams := (rfl)
@[simp] theorem modEcc_lanes (f : EccSt → EccSt) (d : Dev) : (d.modEcc f).lanes = d.lanes := (rfl)
@[simp] theorem modEcc_spr (f : EccSt → EccSt) (d : Dev) : (d.modEcc f).spr = d.spr := (rfl)
@[simp] theorem modEcc_msh (f : EccSt → EccSt) (d : Dev) : (d.modEcc f).msh = d.msh := (rfl)
@[simp] theorem modEcc_cap (f : EccSt → EccSt) (d : Dev) : (d.modEcc f).cap = d.cap := (rfl)
@[simp] theorem modEcc_flt (f : EccSt → EccSt) (d : Dev) : (d.modEcc f).flt = d.flt := (rfl)
@[simp] theorem modEcc_mem (f : EccSt → EccSt) (d : Dev) : (d.modEcc f).mem = d.mem := (rfl)
@[simp] theorem modEcc_chk (f : EccSt → EccSt) (d : Dev) : (d.modEcc f).chk = d.chk := (rfl)
@[simp] theorem modEcc_freeCtr (f : EccSt → EccSt) (d : Dev) : (d.modEcc f).freeCtr = d.freeCtr := (rfl)
@[simp] theorem modEcc_mapSnap (f : EccSt → EccSt) (d : Dev) : (d.modEcc f).mapSnap = d.mapSnap := (rfl)
@[simp] theorem modEcc_powerList (f : EccSt → EccSt) (d : Dev) : (d.modEcc f).powerList = d.powerList := (rfl)
@[simp] theorem modEcc_hkp (f : EccSt → EccSt) (d : Dev) : (d.modEcc f).hkp = d.hkp := (rfl)
@[simp] theorem modEcc_cpu (f : EccSt → EccSt) (d : Dev) : (d.modEcc f).cpu = d.cpu := (rfl)
@[simp] theorem modEcc_ecc (f : EccSt → EccSt) (d : Dev) : (d.modEcc f).ecc = f d.ecc := (rfl)
@[simp] theorem modEcc_dma (f : EccSt → EccSt) (d : Dev) : (d.modEcc f).dma = d.dma := (rfl)
@[simp] theorem modEcc_bst (f : EccSt → EccSt) (d : Dev) : (d.modEcc f).bst = d.bst := (rfl)
@[simp] theorem modEcc_clsWritten (f : EccSt → EccSt) (d : Dev) : (d.modEcc f).clsWritten = d.clsWritten := (rfl)
@[simp] theorem modEcc_mgmt (f : EccSt → EccSt) (d : Dev) : (d.modEcc f).mgmt = d.mgmt := (rfl)
@[simp] theorem modEcc_pwr (f : EccSt → EccSt) (d : Dev) : (d.modEcc f).pwr = d.pwr := (rfl)
@[simp] theorem modEcc_thm (f : EccSt → EccSt) (d : Dev) : (d.modEcc f).thm = d.thm := (rfl)
@[simp] theorem modEcc_sec (f : EccSt → EccSt) (d : Dev) : (d.modEcc f).sec = d.sec := (rfl)
@[simp] theorem modEcc_nvm (f : EccSt → EccSt) (d : Dev) : (d.modEcc f).nvm = d.nvm := (rfl)
@[simp] theorem modEcc_cnt (f : EccSt → EccSt) (d : Dev) : (d.modEcc f).cnt = d.cnt := (rfl)
@[simp] theorem modEcc_busWord (f : EccSt → EccSt) (d : Dev) : (d.modEcc f).busWord = d.busWord := (rfl)
@[simp] theorem modEcc_busRes (f : EccSt → EccSt) (d : Dev) : (d.modEcc f).busRes = d.busRes := (rfl)
@[simp] theorem modEcc_tap (f : EccSt → EccSt) (d : Dev) : (d.modEcc f).tap = d.tap := (rfl)
@[simp] theorem modEcc_boundary (f : EccSt → EccSt) (d : Dev) : (d.modEcc f).boundary = d.boundary := (rfl)
@[simp] theorem modEcc_reg (f : EccSt → EccSt) (k : Nat) (d : Dev) : (d.modEcc f).reg k = d.reg k := (rfl)
@[simp] theorem modEcc_fld (f : EccSt → EccSt) (g : Fld) (d : Dev) : (d.modEcc f).fld g = d.fld g := (rfl)
@[simp] theorem modEcc_on (f : EccSt → EccSt) (g : Fld) (d : Dev) : (d.modEcc f).on g = d.on g := (rfl)
@[simp] theorem modEcc_domOn (f : EccSt → EccSt) (x : Dom) (d : Dev) : (d.modEcc f).domOn x = d.domOn x := (rfl)
@[simp] theorem modEcc_rest (f : EccSt → EccSt) (d : Dev) : (d.modEcc f).rest = d.rest.modEcc f := (rfl)
@[simp] theorem modEcc_liveWord (f : EccSt → EccSt) (k : Nat) (d : Dev) : (d.modEcc f).liveWord k = d.liveWord k := (rfl)
@[simp] theorem modEcc_lv (f : EccSt → EccSt) (g : Fld) (d : Dev) : (d.modEcc f).lv g = d.lv g := (rfl)
@[simp] theorem modEcc_lvOn (f : EccSt → EccSt) (g : Fld) (d : Dev) : (d.modEcc f).lvOn g = d.lvOn g := (rfl)

/-! ### modHkp -/

@[simp] theorem modHkp_regs (f : HkpSt → HkpSt) (d : Dev) : (d.modHkp f).regs = d.regs := (rfl)
@[simp] theorem modHkp_live (f : HkpSt → HkpSt) (d : Dev) : (d.modHkp f).live = d.live := (rfl)
@[simp] theorem modHkp_staged (f : HkpSt → HkpSt) (d : Dev) : (d.modHkp f).staged = d.staged := (rfl)
@[simp] theorem modHkp_hold (f : HkpSt → HkpSt) (d : Dev) : (d.modHkp f).hold = d.hold := (rfl)
@[simp] theorem modHkp_latch (f : HkpSt → HkpSt) (d : Dev) : (d.modHkp f).latch = d.latch := (rfl)
@[simp] theorem modHkp_raised (f : HkpSt → HkpSt) (d : Dev) : (d.modHkp f).raised = d.raised := (rfl)
@[simp] theorem modHkp_popped (f : HkpSt → HkpSt) (d : Dev) : (d.modHkp f).popped = d.popped := (rfl)
@[simp] theorem modHkp_emptied (f : HkpSt → HkpSt) (d : Dev) : (d.modHkp f).emptied = d.emptied := (rfl)
@[simp] theorem modHkp_clk (f : HkpSt → HkpSt) (d : Dev) : (d.modHkp f).clk = d.clk := (rfl)
@[simp] theorem modHkp_host (f : HkpSt → HkpSt) (d : Dev) : (d.modHkp f).host = d.host := (rfl)
@[simp] theorem modHkp_streams (f : HkpSt → HkpSt) (d : Dev) : (d.modHkp f).streams = d.streams := (rfl)
@[simp] theorem modHkp_lanes (f : HkpSt → HkpSt) (d : Dev) : (d.modHkp f).lanes = d.lanes := (rfl)
@[simp] theorem modHkp_spr (f : HkpSt → HkpSt) (d : Dev) : (d.modHkp f).spr = d.spr := (rfl)
@[simp] theorem modHkp_msh (f : HkpSt → HkpSt) (d : Dev) : (d.modHkp f).msh = d.msh := (rfl)
@[simp] theorem modHkp_cap (f : HkpSt → HkpSt) (d : Dev) : (d.modHkp f).cap = d.cap := (rfl)
@[simp] theorem modHkp_flt (f : HkpSt → HkpSt) (d : Dev) : (d.modHkp f).flt = d.flt := (rfl)
@[simp] theorem modHkp_mem (f : HkpSt → HkpSt) (d : Dev) : (d.modHkp f).mem = d.mem := (rfl)
@[simp] theorem modHkp_chk (f : HkpSt → HkpSt) (d : Dev) : (d.modHkp f).chk = d.chk := (rfl)
@[simp] theorem modHkp_freeCtr (f : HkpSt → HkpSt) (d : Dev) : (d.modHkp f).freeCtr = d.freeCtr := (rfl)
@[simp] theorem modHkp_mapSnap (f : HkpSt → HkpSt) (d : Dev) : (d.modHkp f).mapSnap = d.mapSnap := (rfl)
@[simp] theorem modHkp_powerList (f : HkpSt → HkpSt) (d : Dev) : (d.modHkp f).powerList = d.powerList := (rfl)
@[simp] theorem modHkp_hkp (f : HkpSt → HkpSt) (d : Dev) : (d.modHkp f).hkp = f d.hkp := (rfl)
@[simp] theorem modHkp_cpu (f : HkpSt → HkpSt) (d : Dev) : (d.modHkp f).cpu = d.cpu := (rfl)
@[simp] theorem modHkp_ecc (f : HkpSt → HkpSt) (d : Dev) : (d.modHkp f).ecc = d.ecc := (rfl)
@[simp] theorem modHkp_dma (f : HkpSt → HkpSt) (d : Dev) : (d.modHkp f).dma = d.dma := (rfl)
@[simp] theorem modHkp_bst (f : HkpSt → HkpSt) (d : Dev) : (d.modHkp f).bst = d.bst := (rfl)
@[simp] theorem modHkp_clsWritten (f : HkpSt → HkpSt) (d : Dev) : (d.modHkp f).clsWritten = d.clsWritten := (rfl)
@[simp] theorem modHkp_mgmt (f : HkpSt → HkpSt) (d : Dev) : (d.modHkp f).mgmt = d.mgmt := (rfl)
@[simp] theorem modHkp_pwr (f : HkpSt → HkpSt) (d : Dev) : (d.modHkp f).pwr = d.pwr := (rfl)
@[simp] theorem modHkp_thm (f : HkpSt → HkpSt) (d : Dev) : (d.modHkp f).thm = d.thm := (rfl)
@[simp] theorem modHkp_sec (f : HkpSt → HkpSt) (d : Dev) : (d.modHkp f).sec = d.sec := (rfl)
@[simp] theorem modHkp_nvm (f : HkpSt → HkpSt) (d : Dev) : (d.modHkp f).nvm = d.nvm := (rfl)
@[simp] theorem modHkp_cnt (f : HkpSt → HkpSt) (d : Dev) : (d.modHkp f).cnt = d.cnt := (rfl)
@[simp] theorem modHkp_busWord (f : HkpSt → HkpSt) (d : Dev) : (d.modHkp f).busWord = d.busWord := (rfl)
@[simp] theorem modHkp_busRes (f : HkpSt → HkpSt) (d : Dev) : (d.modHkp f).busRes = d.busRes := (rfl)
@[simp] theorem modHkp_tap (f : HkpSt → HkpSt) (d : Dev) : (d.modHkp f).tap = d.tap := (rfl)
@[simp] theorem modHkp_boundary (f : HkpSt → HkpSt) (d : Dev) : (d.modHkp f).boundary = d.boundary := (rfl)
@[simp] theorem modHkp_reg (f : HkpSt → HkpSt) (k : Nat) (d : Dev) : (d.modHkp f).reg k = d.reg k := (rfl)
@[simp] theorem modHkp_fld (f : HkpSt → HkpSt) (g : Fld) (d : Dev) : (d.modHkp f).fld g = d.fld g := (rfl)
@[simp] theorem modHkp_on (f : HkpSt → HkpSt) (g : Fld) (d : Dev) : (d.modHkp f).on g = d.on g := (rfl)
@[simp] theorem modHkp_domOn (f : HkpSt → HkpSt) (x : Dom) (d : Dev) : (d.modHkp f).domOn x = d.domOn x := (rfl)
@[simp] theorem modHkp_rest (f : HkpSt → HkpSt) (d : Dev) : (d.modHkp f).rest = d.rest.modHkp f := (rfl)
@[simp] theorem modHkp_liveWord (f : HkpSt → HkpSt) (k : Nat) (d : Dev) : (d.modHkp f).liveWord k = d.liveWord k := (rfl)
@[simp] theorem modHkp_lv (f : HkpSt → HkpSt) (g : Fld) (d : Dev) : (d.modHkp f).lv g = d.lv g := (rfl)
@[simp] theorem modHkp_lvOn (f : HkpSt → HkpSt) (g : Fld) (d : Dev) : (d.modHkp f).lvOn g = d.lvOn g := (rfl)

/-! ### modMgmt -/

@[simp] theorem modMgmt_regs (f : MgmtSt → MgmtSt) (d : Dev) : (d.modMgmt f).regs = d.regs := (rfl)
@[simp] theorem modMgmt_live (f : MgmtSt → MgmtSt) (d : Dev) : (d.modMgmt f).live = d.live := (rfl)
@[simp] theorem modMgmt_staged (f : MgmtSt → MgmtSt) (d : Dev) : (d.modMgmt f).staged = d.staged := (rfl)
@[simp] theorem modMgmt_hold (f : MgmtSt → MgmtSt) (d : Dev) : (d.modMgmt f).hold = d.hold := (rfl)
@[simp] theorem modMgmt_latch (f : MgmtSt → MgmtSt) (d : Dev) : (d.modMgmt f).latch = d.latch := (rfl)
@[simp] theorem modMgmt_raised (f : MgmtSt → MgmtSt) (d : Dev) : (d.modMgmt f).raised = d.raised := (rfl)
@[simp] theorem modMgmt_popped (f : MgmtSt → MgmtSt) (d : Dev) : (d.modMgmt f).popped = d.popped := (rfl)
@[simp] theorem modMgmt_emptied (f : MgmtSt → MgmtSt) (d : Dev) : (d.modMgmt f).emptied = d.emptied := (rfl)
@[simp] theorem modMgmt_clk (f : MgmtSt → MgmtSt) (d : Dev) : (d.modMgmt f).clk = d.clk := (rfl)
@[simp] theorem modMgmt_host (f : MgmtSt → MgmtSt) (d : Dev) : (d.modMgmt f).host = d.host := (rfl)
@[simp] theorem modMgmt_streams (f : MgmtSt → MgmtSt) (d : Dev) : (d.modMgmt f).streams = d.streams := (rfl)
@[simp] theorem modMgmt_lanes (f : MgmtSt → MgmtSt) (d : Dev) : (d.modMgmt f).lanes = d.lanes := (rfl)
@[simp] theorem modMgmt_spr (f : MgmtSt → MgmtSt) (d : Dev) : (d.modMgmt f).spr = d.spr := (rfl)
@[simp] theorem modMgmt_msh (f : MgmtSt → MgmtSt) (d : Dev) : (d.modMgmt f).msh = d.msh := (rfl)
@[simp] theorem modMgmt_cap (f : MgmtSt → MgmtSt) (d : Dev) : (d.modMgmt f).cap = d.cap := (rfl)
@[simp] theorem modMgmt_flt (f : MgmtSt → MgmtSt) (d : Dev) : (d.modMgmt f).flt = d.flt := (rfl)
@[simp] theorem modMgmt_mem (f : MgmtSt → MgmtSt) (d : Dev) : (d.modMgmt f).mem = d.mem := (rfl)
@[simp] theorem modMgmt_chk (f : MgmtSt → MgmtSt) (d : Dev) : (d.modMgmt f).chk = d.chk := (rfl)
@[simp] theorem modMgmt_freeCtr (f : MgmtSt → MgmtSt) (d : Dev) : (d.modMgmt f).freeCtr = d.freeCtr := (rfl)
@[simp] theorem modMgmt_mapSnap (f : MgmtSt → MgmtSt) (d : Dev) : (d.modMgmt f).mapSnap = d.mapSnap := (rfl)
@[simp] theorem modMgmt_powerList (f : MgmtSt → MgmtSt) (d : Dev) : (d.modMgmt f).powerList = d.powerList := (rfl)
@[simp] theorem modMgmt_hkp (f : MgmtSt → MgmtSt) (d : Dev) : (d.modMgmt f).hkp = d.hkp := (rfl)
@[simp] theorem modMgmt_cpu (f : MgmtSt → MgmtSt) (d : Dev) : (d.modMgmt f).cpu = d.cpu := (rfl)
@[simp] theorem modMgmt_ecc (f : MgmtSt → MgmtSt) (d : Dev) : (d.modMgmt f).ecc = d.ecc := (rfl)
@[simp] theorem modMgmt_dma (f : MgmtSt → MgmtSt) (d : Dev) : (d.modMgmt f).dma = d.dma := (rfl)
@[simp] theorem modMgmt_bst (f : MgmtSt → MgmtSt) (d : Dev) : (d.modMgmt f).bst = d.bst := (rfl)
@[simp] theorem modMgmt_clsWritten (f : MgmtSt → MgmtSt) (d : Dev) : (d.modMgmt f).clsWritten = d.clsWritten := (rfl)
@[simp] theorem modMgmt_mgmt (f : MgmtSt → MgmtSt) (d : Dev) : (d.modMgmt f).mgmt = f d.mgmt := (rfl)
@[simp] theorem modMgmt_pwr (f : MgmtSt → MgmtSt) (d : Dev) : (d.modMgmt f).pwr = d.pwr := (rfl)
@[simp] theorem modMgmt_thm (f : MgmtSt → MgmtSt) (d : Dev) : (d.modMgmt f).thm = d.thm := (rfl)
@[simp] theorem modMgmt_sec (f : MgmtSt → MgmtSt) (d : Dev) : (d.modMgmt f).sec = d.sec := (rfl)
@[simp] theorem modMgmt_nvm (f : MgmtSt → MgmtSt) (d : Dev) : (d.modMgmt f).nvm = d.nvm := (rfl)
@[simp] theorem modMgmt_cnt (f : MgmtSt → MgmtSt) (d : Dev) : (d.modMgmt f).cnt = d.cnt := (rfl)
@[simp] theorem modMgmt_busWord (f : MgmtSt → MgmtSt) (d : Dev) : (d.modMgmt f).busWord = d.busWord := (rfl)
@[simp] theorem modMgmt_busRes (f : MgmtSt → MgmtSt) (d : Dev) : (d.modMgmt f).busRes = d.busRes := (rfl)
@[simp] theorem modMgmt_tap (f : MgmtSt → MgmtSt) (d : Dev) : (d.modMgmt f).tap = d.tap := (rfl)
@[simp] theorem modMgmt_boundary (f : MgmtSt → MgmtSt) (d : Dev) : (d.modMgmt f).boundary = d.boundary := (rfl)
@[simp] theorem modMgmt_reg (f : MgmtSt → MgmtSt) (k : Nat) (d : Dev) : (d.modMgmt f).reg k = d.reg k := (rfl)
@[simp] theorem modMgmt_fld (f : MgmtSt → MgmtSt) (g : Fld) (d : Dev) : (d.modMgmt f).fld g = d.fld g := (rfl)
@[simp] theorem modMgmt_on (f : MgmtSt → MgmtSt) (g : Fld) (d : Dev) : (d.modMgmt f).on g = d.on g := (rfl)
@[simp] theorem modMgmt_domOn (f : MgmtSt → MgmtSt) (x : Dom) (d : Dev) : (d.modMgmt f).domOn x = d.domOn x := (rfl)
@[simp] theorem modMgmt_rest (f : MgmtSt → MgmtSt) (d : Dev) : (d.modMgmt f).rest = d.rest.modMgmt f := (rfl)
@[simp] theorem modMgmt_liveWord (f : MgmtSt → MgmtSt) (k : Nat) (d : Dev) : (d.modMgmt f).liveWord k = d.liveWord k := (rfl)
@[simp] theorem modMgmt_lv (f : MgmtSt → MgmtSt) (g : Fld) (d : Dev) : (d.modMgmt f).lv g = d.lv g := (rfl)
@[simp] theorem modMgmt_lvOn (f : MgmtSt → MgmtSt) (g : Fld) (d : Dev) : (d.modMgmt f).lvOn g = d.lvOn g := (rfl)

/-! ### modThm -/

@[simp] theorem modThm_regs (f : ThmSt → ThmSt) (d : Dev) : (d.modThm f).regs = d.regs := (rfl)
@[simp] theorem modThm_live (f : ThmSt → ThmSt) (d : Dev) : (d.modThm f).live = d.live := (rfl)
@[simp] theorem modThm_staged (f : ThmSt → ThmSt) (d : Dev) : (d.modThm f).staged = d.staged := (rfl)
@[simp] theorem modThm_hold (f : ThmSt → ThmSt) (d : Dev) : (d.modThm f).hold = d.hold := (rfl)
@[simp] theorem modThm_latch (f : ThmSt → ThmSt) (d : Dev) : (d.modThm f).latch = d.latch := (rfl)
@[simp] theorem modThm_raised (f : ThmSt → ThmSt) (d : Dev) : (d.modThm f).raised = d.raised := (rfl)
@[simp] theorem modThm_popped (f : ThmSt → ThmSt) (d : Dev) : (d.modThm f).popped = d.popped := (rfl)
@[simp] theorem modThm_emptied (f : ThmSt → ThmSt) (d : Dev) : (d.modThm f).emptied = d.emptied := (rfl)
@[simp] theorem modThm_clk (f : ThmSt → ThmSt) (d : Dev) : (d.modThm f).clk = d.clk := (rfl)
@[simp] theorem modThm_host (f : ThmSt → ThmSt) (d : Dev) : (d.modThm f).host = d.host := (rfl)
@[simp] theorem modThm_streams (f : ThmSt → ThmSt) (d : Dev) : (d.modThm f).streams = d.streams := (rfl)
@[simp] theorem modThm_lanes (f : ThmSt → ThmSt) (d : Dev) : (d.modThm f).lanes = d.lanes := (rfl)
@[simp] theorem modThm_spr (f : ThmSt → ThmSt) (d : Dev) : (d.modThm f).spr = d.spr := (rfl)
@[simp] theorem modThm_msh (f : ThmSt → ThmSt) (d : Dev) : (d.modThm f).msh = d.msh := (rfl)
@[simp] theorem modThm_cap (f : ThmSt → ThmSt) (d : Dev) : (d.modThm f).cap = d.cap := (rfl)
@[simp] theorem modThm_flt (f : ThmSt → ThmSt) (d : Dev) : (d.modThm f).flt = d.flt := (rfl)
@[simp] theorem modThm_mem (f : ThmSt → ThmSt) (d : Dev) : (d.modThm f).mem = d.mem := (rfl)
@[simp] theorem modThm_chk (f : ThmSt → ThmSt) (d : Dev) : (d.modThm f).chk = d.chk := (rfl)
@[simp] theorem modThm_freeCtr (f : ThmSt → ThmSt) (d : Dev) : (d.modThm f).freeCtr = d.freeCtr := (rfl)
@[simp] theorem modThm_mapSnap (f : ThmSt → ThmSt) (d : Dev) : (d.modThm f).mapSnap = d.mapSnap := (rfl)
@[simp] theorem modThm_powerList (f : ThmSt → ThmSt) (d : Dev) : (d.modThm f).powerList = d.powerList := (rfl)
@[simp] theorem modThm_hkp (f : ThmSt → ThmSt) (d : Dev) : (d.modThm f).hkp = d.hkp := (rfl)
@[simp] theorem modThm_cpu (f : ThmSt → ThmSt) (d : Dev) : (d.modThm f).cpu = d.cpu := (rfl)
@[simp] theorem modThm_ecc (f : ThmSt → ThmSt) (d : Dev) : (d.modThm f).ecc = d.ecc := (rfl)
@[simp] theorem modThm_dma (f : ThmSt → ThmSt) (d : Dev) : (d.modThm f).dma = d.dma := (rfl)
@[simp] theorem modThm_bst (f : ThmSt → ThmSt) (d : Dev) : (d.modThm f).bst = d.bst := (rfl)
@[simp] theorem modThm_clsWritten (f : ThmSt → ThmSt) (d : Dev) : (d.modThm f).clsWritten = d.clsWritten := (rfl)
@[simp] theorem modThm_mgmt (f : ThmSt → ThmSt) (d : Dev) : (d.modThm f).mgmt = d.mgmt := (rfl)
@[simp] theorem modThm_pwr (f : ThmSt → ThmSt) (d : Dev) : (d.modThm f).pwr = d.pwr := (rfl)
@[simp] theorem modThm_thm (f : ThmSt → ThmSt) (d : Dev) : (d.modThm f).thm = f d.thm := (rfl)
@[simp] theorem modThm_sec (f : ThmSt → ThmSt) (d : Dev) : (d.modThm f).sec = d.sec := (rfl)
@[simp] theorem modThm_nvm (f : ThmSt → ThmSt) (d : Dev) : (d.modThm f).nvm = d.nvm := (rfl)
@[simp] theorem modThm_cnt (f : ThmSt → ThmSt) (d : Dev) : (d.modThm f).cnt = d.cnt := (rfl)
@[simp] theorem modThm_busWord (f : ThmSt → ThmSt) (d : Dev) : (d.modThm f).busWord = d.busWord := (rfl)
@[simp] theorem modThm_busRes (f : ThmSt → ThmSt) (d : Dev) : (d.modThm f).busRes = d.busRes := (rfl)
@[simp] theorem modThm_tap (f : ThmSt → ThmSt) (d : Dev) : (d.modThm f).tap = d.tap := (rfl)
@[simp] theorem modThm_boundary (f : ThmSt → ThmSt) (d : Dev) : (d.modThm f).boundary = d.boundary := (rfl)
@[simp] theorem modThm_reg (f : ThmSt → ThmSt) (k : Nat) (d : Dev) : (d.modThm f).reg k = d.reg k := (rfl)
@[simp] theorem modThm_fld (f : ThmSt → ThmSt) (g : Fld) (d : Dev) : (d.modThm f).fld g = d.fld g := (rfl)
@[simp] theorem modThm_on (f : ThmSt → ThmSt) (g : Fld) (d : Dev) : (d.modThm f).on g = d.on g := (rfl)
@[simp] theorem modThm_domOn (f : ThmSt → ThmSt) (x : Dom) (d : Dev) : (d.modThm f).domOn x = d.domOn x := (rfl)
@[simp] theorem modThm_rest (f : ThmSt → ThmSt) (d : Dev) : (d.modThm f).rest = d.rest.modThm f := (rfl)
@[simp] theorem modThm_liveWord (f : ThmSt → ThmSt) (k : Nat) (d : Dev) : (d.modThm f).liveWord k = d.liveWord k := (rfl)
@[simp] theorem modThm_lv (f : ThmSt → ThmSt) (g : Fld) (d : Dev) : (d.modThm f).lv g = d.lv g := (rfl)
@[simp] theorem modThm_lvOn (f : ThmSt → ThmSt) (g : Fld) (d : Dev) : (d.modThm f).lvOn g = d.lvOn g := (rfl)

/-! ### modPwr -/

@[simp] theorem modPwr_regs (f : PwrSt → PwrSt) (d : Dev) : (d.modPwr f).regs = d.regs := (rfl)
@[simp] theorem modPwr_live (f : PwrSt → PwrSt) (d : Dev) : (d.modPwr f).live = d.live := (rfl)
@[simp] theorem modPwr_staged (f : PwrSt → PwrSt) (d : Dev) : (d.modPwr f).staged = d.staged := (rfl)
@[simp] theorem modPwr_hold (f : PwrSt → PwrSt) (d : Dev) : (d.modPwr f).hold = d.hold := (rfl)
@[simp] theorem modPwr_latch (f : PwrSt → PwrSt) (d : Dev) : (d.modPwr f).latch = d.latch := (rfl)
@[simp] theorem modPwr_raised (f : PwrSt → PwrSt) (d : Dev) : (d.modPwr f).raised = d.raised := (rfl)
@[simp] theorem modPwr_popped (f : PwrSt → PwrSt) (d : Dev) : (d.modPwr f).popped = d.popped := (rfl)
@[simp] theorem modPwr_emptied (f : PwrSt → PwrSt) (d : Dev) : (d.modPwr f).emptied = d.emptied := (rfl)
@[simp] theorem modPwr_clk (f : PwrSt → PwrSt) (d : Dev) : (d.modPwr f).clk = d.clk := (rfl)
@[simp] theorem modPwr_host (f : PwrSt → PwrSt) (d : Dev) : (d.modPwr f).host = d.host := (rfl)
@[simp] theorem modPwr_streams (f : PwrSt → PwrSt) (d : Dev) : (d.modPwr f).streams = d.streams := (rfl)
@[simp] theorem modPwr_lanes (f : PwrSt → PwrSt) (d : Dev) : (d.modPwr f).lanes = d.lanes := (rfl)
@[simp] theorem modPwr_spr (f : PwrSt → PwrSt) (d : Dev) : (d.modPwr f).spr = d.spr := (rfl)
@[simp] theorem modPwr_msh (f : PwrSt → PwrSt) (d : Dev) : (d.modPwr f).msh = d.msh := (rfl)
@[simp] theorem modPwr_cap (f : PwrSt → PwrSt) (d : Dev) : (d.modPwr f).cap = d.cap := (rfl)
@[simp] theorem modPwr_flt (f : PwrSt → PwrSt) (d : Dev) : (d.modPwr f).flt = d.flt := (rfl)
@[simp] theorem modPwr_mem (f : PwrSt → PwrSt) (d : Dev) : (d.modPwr f).mem = d.mem := (rfl)
@[simp] theorem modPwr_chk (f : PwrSt → PwrSt) (d : Dev) : (d.modPwr f).chk = d.chk := (rfl)
@[simp] theorem modPwr_freeCtr (f : PwrSt → PwrSt) (d : Dev) : (d.modPwr f).freeCtr = d.freeCtr := (rfl)
@[simp] theorem modPwr_mapSnap (f : PwrSt → PwrSt) (d : Dev) : (d.modPwr f).mapSnap = d.mapSnap := (rfl)
@[simp] theorem modPwr_powerList (f : PwrSt → PwrSt) (d : Dev) : (d.modPwr f).powerList = d.powerList := (rfl)
@[simp] theorem modPwr_hkp (f : PwrSt → PwrSt) (d : Dev) : (d.modPwr f).hkp = d.hkp := (rfl)
@[simp] theorem modPwr_cpu (f : PwrSt → PwrSt) (d : Dev) : (d.modPwr f).cpu = d.cpu := (rfl)
@[simp] theorem modPwr_ecc (f : PwrSt → PwrSt) (d : Dev) : (d.modPwr f).ecc = d.ecc := (rfl)
@[simp] theorem modPwr_dma (f : PwrSt → PwrSt) (d : Dev) : (d.modPwr f).dma = d.dma := (rfl)
@[simp] theorem modPwr_bst (f : PwrSt → PwrSt) (d : Dev) : (d.modPwr f).bst = d.bst := (rfl)
@[simp] theorem modPwr_clsWritten (f : PwrSt → PwrSt) (d : Dev) : (d.modPwr f).clsWritten = d.clsWritten := (rfl)
@[simp] theorem modPwr_mgmt (f : PwrSt → PwrSt) (d : Dev) : (d.modPwr f).mgmt = d.mgmt := (rfl)
@[simp] theorem modPwr_pwr (f : PwrSt → PwrSt) (d : Dev) : (d.modPwr f).pwr = f d.pwr := (rfl)
@[simp] theorem modPwr_thm (f : PwrSt → PwrSt) (d : Dev) : (d.modPwr f).thm = d.thm := (rfl)
@[simp] theorem modPwr_sec (f : PwrSt → PwrSt) (d : Dev) : (d.modPwr f).sec = d.sec := (rfl)
@[simp] theorem modPwr_nvm (f : PwrSt → PwrSt) (d : Dev) : (d.modPwr f).nvm = d.nvm := (rfl)
@[simp] theorem modPwr_cnt (f : PwrSt → PwrSt) (d : Dev) : (d.modPwr f).cnt = d.cnt := (rfl)
@[simp] theorem modPwr_busWord (f : PwrSt → PwrSt) (d : Dev) : (d.modPwr f).busWord = d.busWord := (rfl)
@[simp] theorem modPwr_busRes (f : PwrSt → PwrSt) (d : Dev) : (d.modPwr f).busRes = d.busRes := (rfl)
@[simp] theorem modPwr_tap (f : PwrSt → PwrSt) (d : Dev) : (d.modPwr f).tap = d.tap := (rfl)
@[simp] theorem modPwr_boundary (f : PwrSt → PwrSt) (d : Dev) : (d.modPwr f).boundary = d.boundary := (rfl)
@[simp] theorem modPwr_reg (f : PwrSt → PwrSt) (k : Nat) (d : Dev) : (d.modPwr f).reg k = d.reg k := (rfl)
@[simp] theorem modPwr_fld (f : PwrSt → PwrSt) (g : Fld) (d : Dev) : (d.modPwr f).fld g = d.fld g := (rfl)
@[simp] theorem modPwr_on (f : PwrSt → PwrSt) (g : Fld) (d : Dev) : (d.modPwr f).on g = d.on g := (rfl)
@[simp] theorem modPwr_domOn (f : PwrSt → PwrSt) (x : Dom) (d : Dev) : (d.modPwr f).domOn x = d.domOn x := (rfl)
@[simp] theorem modPwr_rest (f : PwrSt → PwrSt) (d : Dev) : (d.modPwr f).rest = d.rest.modPwr f := (rfl)
@[simp] theorem modPwr_liveWord (f : PwrSt → PwrSt) (k : Nat) (d : Dev) : (d.modPwr f).liveWord k = d.liveWord k := (rfl)
@[simp] theorem modPwr_lv (f : PwrSt → PwrSt) (g : Fld) (d : Dev) : (d.modPwr f).lv g = d.lv g := (rfl)
@[simp] theorem modPwr_lvOn (f : PwrSt → PwrSt) (g : Fld) (d : Dev) : (d.modPwr f).lvOn g = d.lvOn g := (rfl)

/-! ### modCap -/

@[simp] theorem modCap_regs (f : CapSt → CapSt) (d : Dev) : (d.modCap f).regs = d.regs := (rfl)
@[simp] theorem modCap_live (f : CapSt → CapSt) (d : Dev) : (d.modCap f).live = d.live := (rfl)
@[simp] theorem modCap_staged (f : CapSt → CapSt) (d : Dev) : (d.modCap f).staged = d.staged := (rfl)
@[simp] theorem modCap_hold (f : CapSt → CapSt) (d : Dev) : (d.modCap f).hold = d.hold := (rfl)
@[simp] theorem modCap_latch (f : CapSt → CapSt) (d : Dev) : (d.modCap f).latch = d.latch := (rfl)
@[simp] theorem modCap_raised (f : CapSt → CapSt) (d : Dev) : (d.modCap f).raised = d.raised := (rfl)
@[simp] theorem modCap_popped (f : CapSt → CapSt) (d : Dev) : (d.modCap f).popped = d.popped := (rfl)
@[simp] theorem modCap_emptied (f : CapSt → CapSt) (d : Dev) : (d.modCap f).emptied = d.emptied := (rfl)
@[simp] theorem modCap_clk (f : CapSt → CapSt) (d : Dev) : (d.modCap f).clk = d.clk := (rfl)
@[simp] theorem modCap_host (f : CapSt → CapSt) (d : Dev) : (d.modCap f).host = d.host := (rfl)
@[simp] theorem modCap_streams (f : CapSt → CapSt) (d : Dev) : (d.modCap f).streams = d.streams := (rfl)
@[simp] theorem modCap_lanes (f : CapSt → CapSt) (d : Dev) : (d.modCap f).lanes = d.lanes := (rfl)
@[simp] theorem modCap_spr (f : CapSt → CapSt) (d : Dev) : (d.modCap f).spr = d.spr := (rfl)
@[simp] theorem modCap_msh (f : CapSt → CapSt) (d : Dev) : (d.modCap f).msh = d.msh := (rfl)
@[simp] theorem modCap_cap (f : CapSt → CapSt) (d : Dev) : (d.modCap f).cap = f d.cap := (rfl)
@[simp] theorem modCap_flt (f : CapSt → CapSt) (d : Dev) : (d.modCap f).flt = d.flt := (rfl)
@[simp] theorem modCap_mem (f : CapSt → CapSt) (d : Dev) : (d.modCap f).mem = d.mem := (rfl)
@[simp] theorem modCap_chk (f : CapSt → CapSt) (d : Dev) : (d.modCap f).chk = d.chk := (rfl)
@[simp] theorem modCap_freeCtr (f : CapSt → CapSt) (d : Dev) : (d.modCap f).freeCtr = d.freeCtr := (rfl)
@[simp] theorem modCap_mapSnap (f : CapSt → CapSt) (d : Dev) : (d.modCap f).mapSnap = d.mapSnap := (rfl)
@[simp] theorem modCap_powerList (f : CapSt → CapSt) (d : Dev) : (d.modCap f).powerList = d.powerList := (rfl)
@[simp] theorem modCap_hkp (f : CapSt → CapSt) (d : Dev) : (d.modCap f).hkp = d.hkp := (rfl)
@[simp] theorem modCap_cpu (f : CapSt → CapSt) (d : Dev) : (d.modCap f).cpu = d.cpu := (rfl)
@[simp] theorem modCap_ecc (f : CapSt → CapSt) (d : Dev) : (d.modCap f).ecc = d.ecc := (rfl)
@[simp] theorem modCap_dma (f : CapSt → CapSt) (d : Dev) : (d.modCap f).dma = d.dma := (rfl)
@[simp] theorem modCap_bst (f : CapSt → CapSt) (d : Dev) : (d.modCap f).bst = d.bst := (rfl)
@[simp] theorem modCap_clsWritten (f : CapSt → CapSt) (d : Dev) : (d.modCap f).clsWritten = d.clsWritten := (rfl)
@[simp] theorem modCap_mgmt (f : CapSt → CapSt) (d : Dev) : (d.modCap f).mgmt = d.mgmt := (rfl)
@[simp] theorem modCap_pwr (f : CapSt → CapSt) (d : Dev) : (d.modCap f).pwr = d.pwr := (rfl)
@[simp] theorem modCap_thm (f : CapSt → CapSt) (d : Dev) : (d.modCap f).thm = d.thm := (rfl)
@[simp] theorem modCap_sec (f : CapSt → CapSt) (d : Dev) : (d.modCap f).sec = d.sec := (rfl)
@[simp] theorem modCap_nvm (f : CapSt → CapSt) (d : Dev) : (d.modCap f).nvm = d.nvm := (rfl)
@[simp] theorem modCap_cnt (f : CapSt → CapSt) (d : Dev) : (d.modCap f).cnt = d.cnt := (rfl)
@[simp] theorem modCap_busWord (f : CapSt → CapSt) (d : Dev) : (d.modCap f).busWord = d.busWord := (rfl)
@[simp] theorem modCap_busRes (f : CapSt → CapSt) (d : Dev) : (d.modCap f).busRes = d.busRes := (rfl)
@[simp] theorem modCap_tap (f : CapSt → CapSt) (d : Dev) : (d.modCap f).tap = d.tap := (rfl)
@[simp] theorem modCap_boundary (f : CapSt → CapSt) (d : Dev) : (d.modCap f).boundary = d.boundary := (rfl)
@[simp] theorem modCap_reg (f : CapSt → CapSt) (k : Nat) (d : Dev) : (d.modCap f).reg k = d.reg k := (rfl)
@[simp] theorem modCap_fld (f : CapSt → CapSt) (g : Fld) (d : Dev) : (d.modCap f).fld g = d.fld g := (rfl)
@[simp] theorem modCap_on (f : CapSt → CapSt) (g : Fld) (d : Dev) : (d.modCap f).on g = d.on g := (rfl)
@[simp] theorem modCap_domOn (f : CapSt → CapSt) (x : Dom) (d : Dev) : (d.modCap f).domOn x = d.domOn x := (rfl)
@[simp] theorem modCap_rest (f : CapSt → CapSt) (d : Dev) : (d.modCap f).rest = d.rest.modCap f := (rfl)
@[simp] theorem modCap_liveWord (f : CapSt → CapSt) (k : Nat) (d : Dev) : (d.modCap f).liveWord k = d.liveWord k := (rfl)
@[simp] theorem modCap_lv (f : CapSt → CapSt) (g : Fld) (d : Dev) : (d.modCap f).lv g = d.lv g := (rfl)
@[simp] theorem modCap_lvOn (f : CapSt → CapSt) (g : Fld) (d : Dev) : (d.modCap f).lvOn g = d.lvOn g := (rfl)

/-! ### modBst -/

@[simp] theorem modBst_regs (f : BstSt → BstSt) (d : Dev) : (d.modBst f).regs = d.regs := (rfl)
@[simp] theorem modBst_live (f : BstSt → BstSt) (d : Dev) : (d.modBst f).live = d.live := (rfl)
@[simp] theorem modBst_staged (f : BstSt → BstSt) (d : Dev) : (d.modBst f).staged = d.staged := (rfl)
@[simp] theorem modBst_hold (f : BstSt → BstSt) (d : Dev) : (d.modBst f).hold = d.hold := (rfl)
@[simp] theorem modBst_latch (f : BstSt → BstSt) (d : Dev) : (d.modBst f).latch = d.latch := (rfl)
@[simp] theorem modBst_raised (f : BstSt → BstSt) (d : Dev) : (d.modBst f).raised = d.raised := (rfl)
@[simp] theorem modBst_popped (f : BstSt → BstSt) (d : Dev) : (d.modBst f).popped = d.popped := (rfl)
@[simp] theorem modBst_emptied (f : BstSt → BstSt) (d : Dev) : (d.modBst f).emptied = d.emptied := (rfl)
@[simp] theorem modBst_clk (f : BstSt → BstSt) (d : Dev) : (d.modBst f).clk = d.clk := (rfl)
@[simp] theorem modBst_host (f : BstSt → BstSt) (d : Dev) : (d.modBst f).host = d.host := (rfl)
@[simp] theorem modBst_streams (f : BstSt → BstSt) (d : Dev) : (d.modBst f).streams = d.streams := (rfl)
@[simp] theorem modBst_lanes (f : BstSt → BstSt) (d : Dev) : (d.modBst f).lanes = d.lanes := (rfl)
@[simp] theorem modBst_spr (f : BstSt → BstSt) (d : Dev) : (d.modBst f).spr = d.spr := (rfl)
@[simp] theorem modBst_msh (f : BstSt → BstSt) (d : Dev) : (d.modBst f).msh = d.msh := (rfl)
@[simp] theorem modBst_cap (f : BstSt → BstSt) (d : Dev) : (d.modBst f).cap = d.cap := (rfl)
@[simp] theorem modBst_flt (f : BstSt → BstSt) (d : Dev) : (d.modBst f).flt = d.flt := (rfl)
@[simp] theorem modBst_mem (f : BstSt → BstSt) (d : Dev) : (d.modBst f).mem = d.mem := (rfl)
@[simp] theorem modBst_chk (f : BstSt → BstSt) (d : Dev) : (d.modBst f).chk = d.chk := (rfl)
@[simp] theorem modBst_freeCtr (f : BstSt → BstSt) (d : Dev) : (d.modBst f).freeCtr = d.freeCtr := (rfl)
@[simp] theorem modBst_mapSnap (f : BstSt → BstSt) (d : Dev) : (d.modBst f).mapSnap = d.mapSnap := (rfl)
@[simp] theorem modBst_powerList (f : BstSt → BstSt) (d : Dev) : (d.modBst f).powerList = d.powerList := (rfl)
@[simp] theorem modBst_hkp (f : BstSt → BstSt) (d : Dev) : (d.modBst f).hkp = d.hkp := (rfl)
@[simp] theorem modBst_cpu (f : BstSt → BstSt) (d : Dev) : (d.modBst f).cpu = d.cpu := (rfl)
@[simp] theorem modBst_ecc (f : BstSt → BstSt) (d : Dev) : (d.modBst f).ecc = d.ecc := (rfl)
@[simp] theorem modBst_dma (f : BstSt → BstSt) (d : Dev) : (d.modBst f).dma = d.dma := (rfl)
@[simp] theorem modBst_bst (f : BstSt → BstSt) (d : Dev) : (d.modBst f).bst = f d.bst := (rfl)
@[simp] theorem modBst_clsWritten (f : BstSt → BstSt) (d : Dev) : (d.modBst f).clsWritten = d.clsWritten := (rfl)
@[simp] theorem modBst_mgmt (f : BstSt → BstSt) (d : Dev) : (d.modBst f).mgmt = d.mgmt := (rfl)
@[simp] theorem modBst_pwr (f : BstSt → BstSt) (d : Dev) : (d.modBst f).pwr = d.pwr := (rfl)
@[simp] theorem modBst_thm (f : BstSt → BstSt) (d : Dev) : (d.modBst f).thm = d.thm := (rfl)
@[simp] theorem modBst_sec (f : BstSt → BstSt) (d : Dev) : (d.modBst f).sec = d.sec := (rfl)
@[simp] theorem modBst_nvm (f : BstSt → BstSt) (d : Dev) : (d.modBst f).nvm = d.nvm := (rfl)
@[simp] theorem modBst_cnt (f : BstSt → BstSt) (d : Dev) : (d.modBst f).cnt = d.cnt := (rfl)
@[simp] theorem modBst_busWord (f : BstSt → BstSt) (d : Dev) : (d.modBst f).busWord = d.busWord := (rfl)
@[simp] theorem modBst_busRes (f : BstSt → BstSt) (d : Dev) : (d.modBst f).busRes = d.busRes := (rfl)
@[simp] theorem modBst_tap (f : BstSt → BstSt) (d : Dev) : (d.modBst f).tap = d.tap := (rfl)
@[simp] theorem modBst_boundary (f : BstSt → BstSt) (d : Dev) : (d.modBst f).boundary = d.boundary := (rfl)
@[simp] theorem modBst_reg (f : BstSt → BstSt) (k : Nat) (d : Dev) : (d.modBst f).reg k = d.reg k := (rfl)
@[simp] theorem modBst_fld (f : BstSt → BstSt) (g : Fld) (d : Dev) : (d.modBst f).fld g = d.fld g := (rfl)
@[simp] theorem modBst_on (f : BstSt → BstSt) (g : Fld) (d : Dev) : (d.modBst f).on g = d.on g := (rfl)
@[simp] theorem modBst_domOn (f : BstSt → BstSt) (x : Dom) (d : Dev) : (d.modBst f).domOn x = d.domOn x := (rfl)
@[simp] theorem modBst_rest (f : BstSt → BstSt) (d : Dev) : (d.modBst f).rest = d.rest.modBst f := (rfl)
@[simp] theorem modBst_liveWord (f : BstSt → BstSt) (k : Nat) (d : Dev) : (d.modBst f).liveWord k = d.liveWord k := (rfl)
@[simp] theorem modBst_lv (f : BstSt → BstSt) (g : Fld) (d : Dev) : (d.modBst f).lv g = d.lv g := (rfl)
@[simp] theorem modBst_lvOn (f : BstSt → BstSt) (g : Fld) (d : Dev) : (d.modBst f).lvOn g = d.lvOn g := (rfl)

/-! ### modSec -/

@[simp] theorem modSec_regs (f : SecSt → SecSt) (d : Dev) : (d.modSec f).regs = d.regs := (rfl)
@[simp] theorem modSec_live (f : SecSt → SecSt) (d : Dev) : (d.modSec f).live = d.live := (rfl)
@[simp] theorem modSec_staged (f : SecSt → SecSt) (d : Dev) : (d.modSec f).staged = d.staged := (rfl)
@[simp] theorem modSec_hold (f : SecSt → SecSt) (d : Dev) : (d.modSec f).hold = d.hold := (rfl)
@[simp] theorem modSec_latch (f : SecSt → SecSt) (d : Dev) : (d.modSec f).latch = d.latch := (rfl)
@[simp] theorem modSec_raised (f : SecSt → SecSt) (d : Dev) : (d.modSec f).raised = d.raised := (rfl)
@[simp] theorem modSec_popped (f : SecSt → SecSt) (d : Dev) : (d.modSec f).popped = d.popped := (rfl)
@[simp] theorem modSec_emptied (f : SecSt → SecSt) (d : Dev) : (d.modSec f).emptied = d.emptied := (rfl)
@[simp] theorem modSec_clk (f : SecSt → SecSt) (d : Dev) : (d.modSec f).clk = d.clk := (rfl)
@[simp] theorem modSec_host (f : SecSt → SecSt) (d : Dev) : (d.modSec f).host = d.host := (rfl)
@[simp] theorem modSec_streams (f : SecSt → SecSt) (d : Dev) : (d.modSec f).streams = d.streams := (rfl)
@[simp] theorem modSec_lanes (f : SecSt → SecSt) (d : Dev) : (d.modSec f).lanes = d.lanes := (rfl)
@[simp] theorem modSec_spr (f : SecSt → SecSt) (d : Dev) : (d.modSec f).spr = d.spr := (rfl)
@[simp] theorem modSec_msh (f : SecSt → SecSt) (d : Dev) : (d.modSec f).msh = d.msh := (rfl)
@[simp] theorem modSec_cap (f : SecSt → SecSt) (d : Dev) : (d.modSec f).cap = d.cap := (rfl)
@[simp] theorem modSec_flt (f : SecSt → SecSt) (d : Dev) : (d.modSec f).flt = d.flt := (rfl)
@[simp] theorem modSec_mem (f : SecSt → SecSt) (d : Dev) : (d.modSec f).mem = d.mem := (rfl)
@[simp] theorem modSec_chk (f : SecSt → SecSt) (d : Dev) : (d.modSec f).chk = d.chk := (rfl)
@[simp] theorem modSec_freeCtr (f : SecSt → SecSt) (d : Dev) : (d.modSec f).freeCtr = d.freeCtr := (rfl)
@[simp] theorem modSec_mapSnap (f : SecSt → SecSt) (d : Dev) : (d.modSec f).mapSnap = d.mapSnap := (rfl)
@[simp] theorem modSec_powerList (f : SecSt → SecSt) (d : Dev) : (d.modSec f).powerList = d.powerList := (rfl)
@[simp] theorem modSec_hkp (f : SecSt → SecSt) (d : Dev) : (d.modSec f).hkp = d.hkp := (rfl)
@[simp] theorem modSec_cpu (f : SecSt → SecSt) (d : Dev) : (d.modSec f).cpu = d.cpu := (rfl)
@[simp] theorem modSec_ecc (f : SecSt → SecSt) (d : Dev) : (d.modSec f).ecc = d.ecc := (rfl)
@[simp] theorem modSec_dma (f : SecSt → SecSt) (d : Dev) : (d.modSec f).dma = d.dma := (rfl)
@[simp] theorem modSec_bst (f : SecSt → SecSt) (d : Dev) : (d.modSec f).bst = d.bst := (rfl)
@[simp] theorem modSec_clsWritten (f : SecSt → SecSt) (d : Dev) : (d.modSec f).clsWritten = d.clsWritten := (rfl)
@[simp] theorem modSec_mgmt (f : SecSt → SecSt) (d : Dev) : (d.modSec f).mgmt = d.mgmt := (rfl)
@[simp] theorem modSec_pwr (f : SecSt → SecSt) (d : Dev) : (d.modSec f).pwr = d.pwr := (rfl)
@[simp] theorem modSec_thm (f : SecSt → SecSt) (d : Dev) : (d.modSec f).thm = d.thm := (rfl)
@[simp] theorem modSec_sec (f : SecSt → SecSt) (d : Dev) : (d.modSec f).sec = f d.sec := (rfl)
@[simp] theorem modSec_nvm (f : SecSt → SecSt) (d : Dev) : (d.modSec f).nvm = d.nvm := (rfl)
@[simp] theorem modSec_cnt (f : SecSt → SecSt) (d : Dev) : (d.modSec f).cnt = d.cnt := (rfl)
@[simp] theorem modSec_busWord (f : SecSt → SecSt) (d : Dev) : (d.modSec f).busWord = d.busWord := (rfl)
@[simp] theorem modSec_busRes (f : SecSt → SecSt) (d : Dev) : (d.modSec f).busRes = d.busRes := (rfl)
@[simp] theorem modSec_tap (f : SecSt → SecSt) (d : Dev) : (d.modSec f).tap = d.tap := (rfl)
@[simp] theorem modSec_boundary (f : SecSt → SecSt) (d : Dev) : (d.modSec f).boundary = d.boundary := (rfl)
@[simp] theorem modSec_reg (f : SecSt → SecSt) (k : Nat) (d : Dev) : (d.modSec f).reg k = d.reg k := (rfl)
@[simp] theorem modSec_fld (f : SecSt → SecSt) (g : Fld) (d : Dev) : (d.modSec f).fld g = d.fld g := (rfl)
@[simp] theorem modSec_on (f : SecSt → SecSt) (g : Fld) (d : Dev) : (d.modSec f).on g = d.on g := (rfl)
@[simp] theorem modSec_domOn (f : SecSt → SecSt) (x : Dom) (d : Dev) : (d.modSec f).domOn x = d.domOn x := (rfl)
@[simp] theorem modSec_rest (f : SecSt → SecSt) (d : Dev) : (d.modSec f).rest = d.rest.modSec f := (rfl)
@[simp] theorem modSec_liveWord (f : SecSt → SecSt) (k : Nat) (d : Dev) : (d.modSec f).liveWord k = d.liveWord k := (rfl)
@[simp] theorem modSec_lv (f : SecSt → SecSt) (g : Fld) (d : Dev) : (d.modSec f).lv g = d.lv g := (rfl)
@[simp] theorem modSec_lvOn (f : SecSt → SecSt) (g : Fld) (d : Dev) : (d.modSec f).lvOn g = d.lvOn g := (rfl)

/-! ### modNvm -/

@[simp] theorem modNvm_regs (f : NvmSt → NvmSt) (d : Dev) : (d.modNvm f).regs = d.regs := (rfl)
@[simp] theorem modNvm_live (f : NvmSt → NvmSt) (d : Dev) : (d.modNvm f).live = d.live := (rfl)
@[simp] theorem modNvm_staged (f : NvmSt → NvmSt) (d : Dev) : (d.modNvm f).staged = d.staged := (rfl)
@[simp] theorem modNvm_hold (f : NvmSt → NvmSt) (d : Dev) : (d.modNvm f).hold = d.hold := (rfl)
@[simp] theorem modNvm_latch (f : NvmSt → NvmSt) (d : Dev) : (d.modNvm f).latch = d.latch := (rfl)
@[simp] theorem modNvm_raised (f : NvmSt → NvmSt) (d : Dev) : (d.modNvm f).raised = d.raised := (rfl)
@[simp] theorem modNvm_popped (f : NvmSt → NvmSt) (d : Dev) : (d.modNvm f).popped = d.popped := (rfl)
@[simp] theorem modNvm_emptied (f : NvmSt → NvmSt) (d : Dev) : (d.modNvm f).emptied = d.emptied := (rfl)
@[simp] theorem modNvm_clk (f : NvmSt → NvmSt) (d : Dev) : (d.modNvm f).clk = d.clk := (rfl)
@[simp] theorem modNvm_host (f : NvmSt → NvmSt) (d : Dev) : (d.modNvm f).host = d.host := (rfl)
@[simp] theorem modNvm_streams (f : NvmSt → NvmSt) (d : Dev) : (d.modNvm f).streams = d.streams := (rfl)
@[simp] theorem modNvm_lanes (f : NvmSt → NvmSt) (d : Dev) : (d.modNvm f).lanes = d.lanes := (rfl)
@[simp] theorem modNvm_spr (f : NvmSt → NvmSt) (d : Dev) : (d.modNvm f).spr = d.spr := (rfl)
@[simp] theorem modNvm_msh (f : NvmSt → NvmSt) (d : Dev) : (d.modNvm f).msh = d.msh := (rfl)
@[simp] theorem modNvm_cap (f : NvmSt → NvmSt) (d : Dev) : (d.modNvm f).cap = d.cap := (rfl)
@[simp] theorem modNvm_flt (f : NvmSt → NvmSt) (d : Dev) : (d.modNvm f).flt = d.flt := (rfl)
@[simp] theorem modNvm_mem (f : NvmSt → NvmSt) (d : Dev) : (d.modNvm f).mem = d.mem := (rfl)
@[simp] theorem modNvm_chk (f : NvmSt → NvmSt) (d : Dev) : (d.modNvm f).chk = d.chk := (rfl)
@[simp] theorem modNvm_freeCtr (f : NvmSt → NvmSt) (d : Dev) : (d.modNvm f).freeCtr = d.freeCtr := (rfl)
@[simp] theorem modNvm_mapSnap (f : NvmSt → NvmSt) (d : Dev) : (d.modNvm f).mapSnap = d.mapSnap := (rfl)
@[simp] theorem modNvm_powerList (f : NvmSt → NvmSt) (d : Dev) : (d.modNvm f).powerList = d.powerList := (rfl)
@[simp] theorem modNvm_hkp (f : NvmSt → NvmSt) (d : Dev) : (d.modNvm f).hkp = d.hkp := (rfl)
@[simp] theorem modNvm_cpu (f : NvmSt → NvmSt) (d : Dev) : (d.modNvm f).cpu = d.cpu := (rfl)
@[simp] theorem modNvm_ecc (f : NvmSt → NvmSt) (d : Dev) : (d.modNvm f).ecc = d.ecc := (rfl)
@[simp] theorem modNvm_dma (f : NvmSt → NvmSt) (d : Dev) : (d.modNvm f).dma = d.dma := (rfl)
@[simp] theorem modNvm_bst (f : NvmSt → NvmSt) (d : Dev) : (d.modNvm f).bst = d.bst := (rfl)
@[simp] theorem modNvm_clsWritten (f : NvmSt → NvmSt) (d : Dev) : (d.modNvm f).clsWritten = d.clsWritten := (rfl)
@[simp] theorem modNvm_mgmt (f : NvmSt → NvmSt) (d : Dev) : (d.modNvm f).mgmt = d.mgmt := (rfl)
@[simp] theorem modNvm_pwr (f : NvmSt → NvmSt) (d : Dev) : (d.modNvm f).pwr = d.pwr := (rfl)
@[simp] theorem modNvm_thm (f : NvmSt → NvmSt) (d : Dev) : (d.modNvm f).thm = d.thm := (rfl)
@[simp] theorem modNvm_sec (f : NvmSt → NvmSt) (d : Dev) : (d.modNvm f).sec = d.sec := (rfl)
@[simp] theorem modNvm_nvm (f : NvmSt → NvmSt) (d : Dev) : (d.modNvm f).nvm = f d.nvm := (rfl)
@[simp] theorem modNvm_cnt (f : NvmSt → NvmSt) (d : Dev) : (d.modNvm f).cnt = d.cnt := (rfl)
@[simp] theorem modNvm_busWord (f : NvmSt → NvmSt) (d : Dev) : (d.modNvm f).busWord = d.busWord := (rfl)
@[simp] theorem modNvm_busRes (f : NvmSt → NvmSt) (d : Dev) : (d.modNvm f).busRes = d.busRes := (rfl)
@[simp] theorem modNvm_tap (f : NvmSt → NvmSt) (d : Dev) : (d.modNvm f).tap = d.tap := (rfl)
@[simp] theorem modNvm_boundary (f : NvmSt → NvmSt) (d : Dev) : (d.modNvm f).boundary = d.boundary := (rfl)
@[simp] theorem modNvm_reg (f : NvmSt → NvmSt) (k : Nat) (d : Dev) : (d.modNvm f).reg k = d.reg k := (rfl)
@[simp] theorem modNvm_fld (f : NvmSt → NvmSt) (g : Fld) (d : Dev) : (d.modNvm f).fld g = d.fld g := (rfl)
@[simp] theorem modNvm_on (f : NvmSt → NvmSt) (g : Fld) (d : Dev) : (d.modNvm f).on g = d.on g := (rfl)
@[simp] theorem modNvm_domOn (f : NvmSt → NvmSt) (x : Dom) (d : Dev) : (d.modNvm f).domOn x = d.domOn x := (rfl)
@[simp] theorem modNvm_rest (f : NvmSt → NvmSt) (d : Dev) : (d.modNvm f).rest = d.rest.modNvm f := (rfl)
@[simp] theorem modNvm_liveWord (f : NvmSt → NvmSt) (k : Nat) (d : Dev) : (d.modNvm f).liveWord k = d.liveWord k := (rfl)
@[simp] theorem modNvm_lv (f : NvmSt → NvmSt) (g : Fld) (d : Dev) : (d.modNvm f).lv g = d.lv g := (rfl)
@[simp] theorem modNvm_lvOn (f : NvmSt → NvmSt) (g : Fld) (d : Dev) : (d.modNvm f).lvOn g = d.lvOn g := (rfl)

/-! ### modCpu -/

@[simp] theorem modCpu_regs (f : CpuSt → CpuSt) (d : Dev) : (d.modCpu f).regs = d.regs := (rfl)
@[simp] theorem modCpu_live (f : CpuSt → CpuSt) (d : Dev) : (d.modCpu f).live = d.live := (rfl)
@[simp] theorem modCpu_staged (f : CpuSt → CpuSt) (d : Dev) : (d.modCpu f).staged = d.staged := (rfl)
@[simp] theorem modCpu_hold (f : CpuSt → CpuSt) (d : Dev) : (d.modCpu f).hold = d.hold := (rfl)
@[simp] theorem modCpu_latch (f : CpuSt → CpuSt) (d : Dev) : (d.modCpu f).latch = d.latch := (rfl)
@[simp] theorem modCpu_raised (f : CpuSt → CpuSt) (d : Dev) : (d.modCpu f).raised = d.raised := (rfl)
@[simp] theorem modCpu_popped (f : CpuSt → CpuSt) (d : Dev) : (d.modCpu f).popped = d.popped := (rfl)
@[simp] theorem modCpu_emptied (f : CpuSt → CpuSt) (d : Dev) : (d.modCpu f).emptied = d.emptied := (rfl)
@[simp] theorem modCpu_clk (f : CpuSt → CpuSt) (d : Dev) : (d.modCpu f).clk = d.clk := (rfl)
@[simp] theorem modCpu_host (f : CpuSt → CpuSt) (d : Dev) : (d.modCpu f).host = d.host := (rfl)
@[simp] theorem modCpu_streams (f : CpuSt → CpuSt) (d : Dev) : (d.modCpu f).streams = d.streams := (rfl)
@[simp] theorem modCpu_lanes (f : CpuSt → CpuSt) (d : Dev) : (d.modCpu f).lanes = d.lanes := (rfl)
@[simp] theorem modCpu_spr (f : CpuSt → CpuSt) (d : Dev) : (d.modCpu f).spr = d.spr := (rfl)
@[simp] theorem modCpu_msh (f : CpuSt → CpuSt) (d : Dev) : (d.modCpu f).msh = d.msh := (rfl)
@[simp] theorem modCpu_cap (f : CpuSt → CpuSt) (d : Dev) : (d.modCpu f).cap = d.cap := (rfl)
@[simp] theorem modCpu_flt (f : CpuSt → CpuSt) (d : Dev) : (d.modCpu f).flt = d.flt := (rfl)
@[simp] theorem modCpu_mem (f : CpuSt → CpuSt) (d : Dev) : (d.modCpu f).mem = d.mem := (rfl)
@[simp] theorem modCpu_chk (f : CpuSt → CpuSt) (d : Dev) : (d.modCpu f).chk = d.chk := (rfl)
@[simp] theorem modCpu_freeCtr (f : CpuSt → CpuSt) (d : Dev) : (d.modCpu f).freeCtr = d.freeCtr := (rfl)
@[simp] theorem modCpu_mapSnap (f : CpuSt → CpuSt) (d : Dev) : (d.modCpu f).mapSnap = d.mapSnap := (rfl)
@[simp] theorem modCpu_powerList (f : CpuSt → CpuSt) (d : Dev) : (d.modCpu f).powerList = d.powerList := (rfl)
@[simp] theorem modCpu_hkp (f : CpuSt → CpuSt) (d : Dev) : (d.modCpu f).hkp = d.hkp := (rfl)
@[simp] theorem modCpu_cpu (f : CpuSt → CpuSt) (d : Dev) : (d.modCpu f).cpu = f d.cpu := (rfl)
@[simp] theorem modCpu_ecc (f : CpuSt → CpuSt) (d : Dev) : (d.modCpu f).ecc = d.ecc := (rfl)
@[simp] theorem modCpu_dma (f : CpuSt → CpuSt) (d : Dev) : (d.modCpu f).dma = d.dma := (rfl)
@[simp] theorem modCpu_bst (f : CpuSt → CpuSt) (d : Dev) : (d.modCpu f).bst = d.bst := (rfl)
@[simp] theorem modCpu_clsWritten (f : CpuSt → CpuSt) (d : Dev) : (d.modCpu f).clsWritten = d.clsWritten := (rfl)
@[simp] theorem modCpu_mgmt (f : CpuSt → CpuSt) (d : Dev) : (d.modCpu f).mgmt = d.mgmt := (rfl)
@[simp] theorem modCpu_pwr (f : CpuSt → CpuSt) (d : Dev) : (d.modCpu f).pwr = d.pwr := (rfl)
@[simp] theorem modCpu_thm (f : CpuSt → CpuSt) (d : Dev) : (d.modCpu f).thm = d.thm := (rfl)
@[simp] theorem modCpu_sec (f : CpuSt → CpuSt) (d : Dev) : (d.modCpu f).sec = d.sec := (rfl)
@[simp] theorem modCpu_nvm (f : CpuSt → CpuSt) (d : Dev) : (d.modCpu f).nvm = d.nvm := (rfl)
@[simp] theorem modCpu_cnt (f : CpuSt → CpuSt) (d : Dev) : (d.modCpu f).cnt = d.cnt := (rfl)
@[simp] theorem modCpu_busWord (f : CpuSt → CpuSt) (d : Dev) : (d.modCpu f).busWord = d.busWord := (rfl)
@[simp] theorem modCpu_busRes (f : CpuSt → CpuSt) (d : Dev) : (d.modCpu f).busRes = d.busRes := (rfl)
@[simp] theorem modCpu_tap (f : CpuSt → CpuSt) (d : Dev) : (d.modCpu f).tap = d.tap := (rfl)
@[simp] theorem modCpu_boundary (f : CpuSt → CpuSt) (d : Dev) : (d.modCpu f).boundary = d.boundary := (rfl)
@[simp] theorem modCpu_reg (f : CpuSt → CpuSt) (k : Nat) (d : Dev) : (d.modCpu f).reg k = d.reg k := (rfl)
@[simp] theorem modCpu_fld (f : CpuSt → CpuSt) (g : Fld) (d : Dev) : (d.modCpu f).fld g = d.fld g := (rfl)
@[simp] theorem modCpu_on (f : CpuSt → CpuSt) (g : Fld) (d : Dev) : (d.modCpu f).on g = d.on g := (rfl)
@[simp] theorem modCpu_domOn (f : CpuSt → CpuSt) (x : Dom) (d : Dev) : (d.modCpu f).domOn x = d.domOn x := (rfl)
@[simp] theorem modCpu_rest (f : CpuSt → CpuSt) (d : Dev) : (d.modCpu f).rest = d.rest.modCpu f := (rfl)
@[simp] theorem modCpu_liveWord (f : CpuSt → CpuSt) (k : Nat) (d : Dev) : (d.modCpu f).liveWord k = d.liveWord k := (rfl)
@[simp] theorem modCpu_lv (f : CpuSt → CpuSt) (g : Fld) (d : Dev) : (d.modCpu f).lv g = d.lv g := (rfl)
@[simp] theorem modCpu_lvOn (f : CpuSt → CpuSt) (g : Fld) (d : Dev) : (d.modCpu f).lvOn g = d.lvOn g := (rfl)

end Sys2Proof.Machine.Dev
end

