-- ==== Sys2Proof/Laws/Fields.lean ====
section
/-! SUPPORT. Register words and fields after a write: read after write, and every other word or field as before. -/

namespace Sys2Proof.Machine.Dev

theorem reg_setReg (a b : Nat) (v : Word) (d : Dev) : (d.setReg a v).reg b = if b = a then v else d.reg b :=
  Cells.get_put _ _ _ _ _

@[simp] theorem reg_setReg_self (a : Nat) (v : Word) (d : Dev) : (d.setReg a v).reg a = v := by simp [reg_setReg]

theorem reg_setReg_ne {a b : Nat} (v : Word) (d : Dev) (h : b ≠ a) : (d.setReg a v).reg b = d.reg b := by
  simp [reg_setReg, h]

theorem reg_setFld_ne {b : Nat} (f : Fld) (x : Nat) (d : Dev) (h : b ≠ f.addr) : (d.setFld f x).reg b = d.reg b :=
  reg_setReg_ne _ d h

theorem reg_setOn_ne {b : Nat} (f : Fld) (x : Bool) (d : Dev) (h : b ≠ f.addr) : (d.setOn f x).reg b = d.reg b :=
  reg_setReg_ne _ d h

theorem fld_setFld_self (f : Fld) (x : Nat) (d : Dev) (h : f.lo + f.w ≤ 32) : (d.setFld f x).fld f = x % 2 ^ f.w := by
  unfold fld setFld
  rw [reg_setReg_self]
  exact getBits_putBits_self _ _ _ h

theorem fld_setFld_word {f g : Fld} (x : Nat) (d : Dev) (h : g.addr ≠ f.addr) : (d.setFld f x).fld g = d.fld g := by
  unfold fld
  rw [reg_setFld_ne _ _ _ h]

theorem fld_setFld_apart {f g : Fld} (x : Nat) (d : Dev) (h : f.lo + f.w ≤ 32) (ha : f.apart g) :
    (d.setFld f x).fld g = d.fld g := by
  by_cases e : g.addr = f.addr
  · unfold fld setFld
    rw [e, reg_setReg_self]
    exact getBits_putBits_apart _ _ _ _ h ha
  · exact fld_setFld_word x d e

theorem fld_setReg_ne {a : Nat} {g : Fld} (v : Word) (d : Dev) (h : g.addr ≠ a) : (d.setReg a v).fld g = d.fld g := by
  unfold fld; rw [reg_setReg_ne _ _ h]

theorem on_setOn_self (f : Fld) (b : Bool) (d : Dev) (h : f.lo + f.w ≤ 32) (hw : f.w = 1) : (d.setOn f b).on f = b := by
  unfold on setOn
  rw [fld_setFld_self _ _ _ h, hw]
  cases b <;> rfl

theorem on_setOn_word {f g : Fld} (b : Bool) (d : Dev) (h : g.addr ≠ f.addr) : (d.setOn f b).on g = d.on g := by
  unfold on setOn; rw [fld_setFld_word _ _ h]

theorem on_setOn_apart {f g : Fld} (b : Bool) (d : Dev) (h : f.lo + f.w ≤ 32) (ha : f.apart g) :
    (d.setOn f b).on g = d.on g := by
  unfold on setOn; rw [fld_setFld_apart _ _ h ha]

theorem liveWord_setLive (a b : Nat) (v : Word) (d : Dev) :
    (d.setLive a v).liveWord b = if b = a then v else d.liveWord b :=
  Cells.get_put _ _ _ _ _

theorem reg_bump (a b : Nat) (d : Dev) : (d.bump a).reg b = if b = a then d.reg a + 1 else d.reg b := by
  unfold bump bumpBy; rw [reg_setReg]; rfl

theorem reg_bump_ne {a b : Nat} (d : Dev) (h : b ≠ a) : (d.bump a).reg b = d.reg b := by simp [reg_bump, h]

theorem each_keeps {α β : Type} (l : List α) (f : α → Dev → Dev) (g : Dev → β) (h : ∀ x d, g (f x d) = g d) (d : Dev) :
    g (d.each l f) = g d := by
  unfold each
  induction l generalizing d with
  | nil => rfl
  | cons x l ih => rw [List.foldl_cons, ih, h]

end Sys2Proof.Machine.Dev
end

