-- ==== Sys2Proof/Laws/Bus.lean ====
section
/-! SUPPORT. A register access that is performed: the word access of a master that may make it, in a domain that is on. -/

namespace Sys2Proof.Machine

theorem busTarget_reg {a : Nat} (h : isAlias a = false) (h4 : a % 4 = 0) : busTarget a = (a, none) := by
  unfold busTarget
  simp [h, h4]

namespace Dev

theorem judge_done {m : Master} {a : Nat} {w : Width} {read : Bool} {p : Place} {d : Dev} (h4 : a % 4 = 0)
    (ha : isAlias a = false) (hp : place a = some p) (hg : p.guarded = true → d.trusted m = true)
    (hq : m = .mesh → read = true → p.queue = false) (hd : d.domOn (domainOf a) = true) :
    d.judge m a w read = (.done, d.touch (domainOf a)) := by
  have hw : a % widthBytes w = 0 := by cases w <;> simp only [widthBytes] <;> omega
  have h1 : ¬ (a % widthBytes w ≠ 0 ∨ (isAlias a ∧ w ≠ .word)) := by simp [hw, ha]
  have h2 : ((p.guarded && !d.trusted m) || (m == .mesh && read && p.queue && !isAlias a)) = false := by
    rw [Bool.or_eq_false_iff]
    refine ⟨?_, ?_⟩
    · cases hpg : p.guarded with
      | false => rfl
      | true => simp [hg hpg]
    · by_cases hm : m = .mesh
      · cases hr : read with
        | false => simp
        | true => simp [hq hm hr]
      · simp [hm]
  unfold judge
  rw [if_neg h1]
  simp only [busTarget_reg ha h4, hp, h2, hd]
  simp

@[simp] theorem touch_reg (x : Dom) (a : Nat) (d : Dev) : (d.touch x).reg a = d.reg a := (rfl)
@[simp] theorem touch_fld (x : Dom) (f : Fld) (d : Dev) : (d.touch x).fld f = d.fld f := (rfl)
@[simp] theorem touch_on (x : Dom) (f : Fld) (d : Dev) : (d.touch x).on f = d.on f := (rfl)
@[simp] theorem touch_domOn (x y : Dom) (d : Dev) : (d.touch x).domOn y = d.domOn y := (rfl)
@[simp] theorem touch_rest (x : Dom) (d : Dev) : (d.touch x).rest = d.rest.touch x := (rfl)
@[simp] theorem touch_raised (x : Dom) (d : Dev) : (d.touch x).raised = d.raised := (rfl)
@[simp] theorem touch_popped (x : Dom) (d : Dev) : (d.touch x).popped = d.popped := (rfl)
@[simp] theorem touch_emptied (x : Dom) (d : Dev) : (d.touch x).emptied = d.emptied := (rfl)

@[simp] theorem returned_reg (r : Access) (v : Word) (a : Nat) (d : Dev) : (d.returned r v).reg a = d.reg a := (rfl)
@[simp] theorem returned_fld (r : Access) (v : Word) (f : Fld) (d : Dev) : (d.returned r v).fld f = d.fld f := (rfl)
@[simp] theorem returned_on (r : Access) (v : Word) (f : Fld) (d : Dev) : (d.returned r v).on f = d.on f := (rfl)
@[simp] theorem returned_rest (r : Access) (v : Word) (d : Dev) : (d.returned r v).rest = d.rest.returned r v := (rfl)
@[simp] theorem returned_raised (r : Access) (v : Word) (d : Dev) : (d.returned r v).raised = d.raised := (rfl)
@[simp] theorem returned_popped (r : Access) (v : Word) (d : Dev) : (d.returned r v).popped = d.popped := (rfl)
@[simp] theorem returned_emptied (r : Access) (v : Word) (d : Dev) : (d.returned r v).emptied = d.emptied := (rfl)

theorem busUp_on {m : Master} {d : Dev} (h : d.domOn .mgt = true) : d.busUp m = d := by simp [busUp, h]

theorem when_busUp_on {b : Bool} {m : Master} {d : Dev} (h : d.domOn .mgt = true) : d.when b (busUp m) = d := by
  cases b <;> simp [Dev.when, busUp_on h]

/-- No SRAM lies where a register does. -/
theorem debugWay_reg {m : Master} {a : Nat} {p : Place} (hp : place a = some p) : debugWay m a = none := by
  have h : ¬ (a < 0x10000000 ∨ 0x10200000 ≤ a ∨ a % 4 ≠ 0) := by
    intro h; simp [place, h] at hp
  have h1 : memOf a = none := by
    unfold memOf
    rw [List.find?_eq_none]
    intro k hk
    have : k < 4 := List.mem_range.mp hk
    interval_cases k <;> simp [memBase, memSize] <;> omega
  simp [debugWay, debugSram, h1]

/-- A word write that is performed is the register's store. -/
theorem busWriteAt_done {clk : Option Nat} {tok : Option ImageIn} {m : Master} {a : Nat} {v : Word} {r : RegRow} {d : Dev}
    (hm : d.domOn .mgt = true) (ha : a % 4 = 0) (hl : isAlias a = false) (hp : place a = some (.live r))
    (hg : r.guarded = true → d.trusted m = true) (hd : d.domOn (domainOf a) = true) :
    d.busWriteAt clk tok m a .word v
      = ((d.touch (domainOf a)).busStore ⟨m, coverMask a .word, v, true, clk, tok⟩ a r).returned .done 0 := by
  have hj : d.judge m a .word false = (.done, d.touch (domainOf a)) :=
    judge_done ha hl hp hg (by simp) hd
  unfold busWriteAt
  simp only [when_busUp_on hm, debugWay_reg hp, hm, hj, busTarget_reg hl ha, hp]
  simp [ha]

theorem busWrite_done {m : Master} {a : Nat} {v : Word} {r : RegRow} {d : Dev}
    (hm : d.domOn .mgt = true) (ha : a % 4 = 0) (hl : isAlias a = false) (hp : place a = some (.live r))
    (hg : r.guarded = true → d.trusted m = true) (hd : d.domOn (domainOf a) = true) :
    d.busWrite m a .word v
      = ((d.touch (domainOf a)).busStore ⟨m, coverMask a .word, v, true, none, none⟩ a r).returned .done 0 :=
  busWriteAt_done hm ha hl hp hg hd

/-- A word read that is performed. -/
theorem busRead_done {q : Vector EvQ 32} {m : Master} {a : Nat} {p : Place} {d : Dev}
    (hm : d.domOn .mgt = true) (ha : a % 4 = 0) (hl : isAlias a = false) (hp : place a = some p)
    (hg : p.guarded = true → d.trusted m = true) (hq : m = .mesh → p.queue = false) (hd : d.domOn (domainOf a) = true) :
    d.busRead q m a .word =
      let e := d.touch (domainOf a)
      (e.readEffect q m a p).returned .done
        (narrowRead a .word (if e.isLatched a then e.getLatch m a else e.placeWord q a p)) := by
  have hj : d.judge m a .word true = (.done, d.touch (domainOf a)) :=
    judge_done ha hl hp hg (fun h _ => hq h) hd
  unfold busRead
  simp only [when_busUp_on hm, debugWay_reg hp, hm, hj, busTarget_reg hl ha, hp]
  simp

/-! ### A word write as each block takes it -/

/-- The word an aligned word write leaves (R511, R515). -/
def merged (d : Dev) (m : Master) (a : Nat) (r : RegRow) (v : Word) : Word :=
  (d.heldWord m a &&& ~~~BitVec.ofNat 32 (r.rw ||| r.rb)) ||| (v &&& BitVec.ofNat 32 (r.rw ||| r.rb))

/-- An aligned word write. -/
def wordWr (m : Master) (v : Word) (clk : Option Nat) (tok : Option ImageIn) : Wr := ⟨m, 0xFFFFFFFF#32, v, true, clk, tok⟩

theorem coverMask_word {a : Nat} (h : a % 4 = 0) : coverMask a .word = 0xFFFFFFFF#32 := by
  unfold coverMask; rw [h]; decide

theorem all_ones_and (x : Word) : 0xFFFFFFFF#32 &&& x = x := BitVec.allOnes_and

section
variable {clk : Option Nat} {tok : Option ImageIn} {m : Master} {a : Nat} {v : Word} {r : RegRow}

theorem busStore_word (d : Dev) (hb : BitVec.ofNat 32 (r.rw ||| r.rb ||| r.wt) ≠ 0) :
    d.busStore (wordWr m v clk tok) a r =
      let t := v &&& BitVec.ofNat 32 r.wt
      let new := d.merged m a r v
      let x := wordWr m v clk tok
      if blockOf a = 0 then d.writeSys a new t x
      else if blockOf a = 1 then d.writePwr a new t
      else if blockOf a = 3 then d.writeClk a new t
      else if blockOf a = 4 then (d.setReg a new).hostSignals
      else if 8 ≤ blockOf a ∧ blockOf a ≤ 16 then d.writeSlc (blockOf a - 8) (a % 0x10000) a new
      else if blockOf a = 17 then d.writeLane (Fin.ofNat 8 (a % 0x10000 / 0x1000)) a new t x
      else if blockOf a = 18 then d.writeBrl a new
      else if blockOf a = 19 then d.writeCal a new t
      else if blockOf a = 20 then d.writeSpr a new t
      else if blockOf a = 21 then d.writeMsh a new t x
      else if blockOf a = 22 then d.writeHkp a new t
      else if blockOf a = 23 then d.writeDma a new t
      else if blockOf a = 24 then d.writeEcc a new t x
      else if blockOf a = 25 then d.writeBst a new t
      else if blockOf a = 26 then d.writeCnt a new t x
      else if blockOf a = 27 then d.writeMgt a new t
      else if blockOf a = 28 then d.writeSec a new t x
      else if blockOf a = 29 then d.writeNvm a new t
      else if blockOf a = 30 then d.writeFlt a new
      else d.setReg a new := by
  have h2 : v &&& 0xFFFFFFFF#32 = v := BitVec.and_allOnes
  unfold busStore
  simp only [wordWr, h2, all_ones_and, if_neg hb, if_true]
  rfl

theorem store_sys (d : Dev) (h : blockOf a = 0) (hb : BitVec.ofNat 32 (r.rw ||| r.rb ||| r.wt) ≠ 0) :
    d.busStore (wordWr m v clk tok) a r = d.writeSys a (d.merged m a r v) (v &&& BitVec.ofNat 32 r.wt) (wordWr m v clk tok) := by
  rw [busStore_word d hb]; simp [h]

theorem store_pwr (d : Dev) (h : blockOf a = 1) (hb : BitVec.ofNat 32 (r.rw ||| r.rb ||| r.wt) ≠ 0) :
    d.busStore (wordWr m v clk tok) a r = d.writePwr a (d.merged m a r v) (v &&& BitVec.ofNat 32 r.wt) := by
  rw [busStore_word d hb]; simp [h]

theorem store_clk (d : Dev) (h : blockOf a = 3) (hb : BitVec.ofNat 32 (r.rw ||| r.rb ||| r.wt) ≠ 0) :
    d.busStore (wordWr m v clk tok) a r = d.writeClk a (d.merged m a r v) (v &&& BitVec.ofNat 32 r.wt) := by
  rw [busStore_word d hb]; simp [h]

theorem store_lane (d : Dev) (h : blockOf a = 17) (hb : BitVec.ofNat 32 (r.rw ||| r.rb ||| r.wt) ≠ 0) :
    d.busStore (wordWr m v clk tok) a r = d.writeLane (Fin.ofNat 8 (a % 0x10000 / 0x1000)) a (d.merged m a r v) (v &&& BitVec.ofNat 32 r.wt) (wordWr m v clk tok) := by
  rw [busStore_word d hb]; simp [h]

theorem store_brl (d : Dev) (h : blockOf a = 18) (hb : BitVec.ofNat 32 (r.rw ||| r.rb ||| r.wt) ≠ 0) :
    d.busStore (wordWr m v clk tok) a r = d.writeBrl a (d.merged m a r v) := by
  rw [busStore_word d hb]; simp [h]

theorem store_cal (d : Dev) (h : blockOf a = 19) (hb : BitVec.ofNat 32 (r.rw ||| r.rb ||| r.wt) ≠ 0) :
    d.busStore (wordWr m v clk tok) a r = d.writeCal a (d.merged m a r v) (v &&& BitVec.ofNat 32 r.wt) := by
  rw [busStore_word d hb]; simp [h]

theorem store_spr (d : Dev) (h : blockOf a = 20) (hb : BitVec.ofNat 32 (r.rw ||| r.rb ||| r.wt) ≠ 0) :
    d.busStore (wordWr m v clk tok) a r = d.writeSpr a (d.merged m a r v) (v &&& BitVec.ofNat 32 r.wt) := by
  rw [busStore_word d hb]; simp [h]

theorem store_msh (d : Dev) (h : blockOf a = 21) (hb : BitVec.ofNat 32 (r.rw ||| r.rb ||| r.wt) ≠ 0) :
    d.busStore (wordWr m v clk tok) a r = d.writeMsh a (d.merged m a r v) (v &&& BitVec.ofNat 32 r.wt) (wordWr m v clk tok) := by
  rw [busStore_word d hb]; simp [h]

theorem store_hkp (d : Dev) (h : blockOf a = 22) (hb : BitVec.ofNat 32 (r.rw ||| r.rb ||| r.wt) ≠ 0) :
    d.busStore (wordWr m v clk tok) a r = d.writeHkp a (d.merged m a r v) (v &&& BitVec.ofNat 32 r.wt) := by
  rw [busStore_word d hb]; simp [h]

theorem store_dma (d : Dev) (h : blockOf a = 23) (hb : BitVec.ofNat 32 (r.rw ||| r.rb ||| r.wt) ≠ 0) :
    d.busStore (wordWr m v clk tok) a r = d.writeDma a (d.merged m a r v) (v &&& BitVec.ofNat 32 r.wt) := by
  rw [busStore_word d hb]; simp [h]

theorem store_ecc (d : Dev) (h : blockOf a = 24) (hb : BitVec.ofNat 32 (r.rw ||| r.rb ||| r.wt) ≠ 0) :
    d.busStore (wordWr m v clk tok) a r = d.writeEcc a (d.merged m a r v) (v &&& BitVec.ofNat 32 r.wt) (wordWr m v clk tok) := by
  rw [busStore_word d hb]; simp [h]

theorem store_bst (d : Dev) (h : blockOf a = 25) (hb : BitVec.ofNat 32 (r.rw ||| r.rb ||| r.wt) ≠ 0) :
    d.busStore (wordWr m v clk tok) a r = d.writeBst a (d.merged m a r v) (v &&& BitVec.ofNat 32 r.wt) := by
  rw [busStore_word d hb]; simp [h]

theorem store_cnt (d : Dev) (h : blockOf a = 26) (hb : BitVec.ofNat 32 (r.rw ||| r.rb ||| r.wt) ≠ 0) :
    d.busStore (wordWr m v clk tok) a r = d.writeCnt a (d.merged m a r v) (v &&& BitVec.ofNat 32 r.wt) (wordWr m v clk tok) := by
  rw [busStore_word d hb]; simp [h]

theorem store_mgt (d : Dev) (h : blockOf a = 27) (hb : BitVec.ofNat 32 (r.rw ||| r.rb ||| r.wt) ≠ 0) :
    d.busStore (wordWr m v clk tok) a r = d.writeMgt a (d.merged m a r v) (v &&& BitVec.ofNat 32 r.wt) := by
  rw [busStore_word d hb]; simp [h]

theorem store_sec (d : Dev) (h : blockOf a = 28) (hb : BitVec.ofNat 32 (r.rw ||| r.rb ||| r.wt) ≠ 0) :
    d.busStore (wordWr m v clk tok) a r = d.writeSec a (d.merged m a r v) (v &&& BitVec.ofNat 32 r.wt) (wordWr m v clk tok) := by
  rw [busStore_word d hb]; simp [h]

theorem store_nvm (d : Dev) (h : blockOf a = 29) (hb : BitVec.ofNat 32 (r.rw ||| r.rb ||| r.wt) ≠ 0) :
    d.busStore (wordWr m v clk tok) a r = d.writeNvm a (d.merged m a r v) (v &&& BitVec.ofNat 32 r.wt) := by
  rw [busStore_word d hb]; simp [h]

theorem store_flt (d : Dev) (h : blockOf a = 30) (hb : BitVec.ofNat 32 (r.rw ||| r.rb ||| r.wt) ≠ 0) :
    d.busStore (wordWr m v clk tok) a r = d.writeFlt a (d.merged m a r v) := by
  rw [busStore_word d hb]; simp [h]

end

/-- A performed word write, in the terms of the block that takes it. -/
theorem busWriteAt_word {clk : Option Nat} {tok : Option ImageIn} {m : Master} {a : Nat} {v : Word} {r : RegRow} {d : Dev}
    (hm : d.domOn .mgt = true) (ha : a % 4 = 0) (hl : isAlias a = false) (hp : place a = some (.live r))
    (hg : r.guarded = true → d.trusted m = true) (hd : d.domOn (domainOf a) = true) :
    d.busWriteAt clk tok m a .word v
      = ((d.touch (domainOf a)).busStore (wordWr m v clk tok) a r).returned .done 0 := by
  rw [busWriteAt_done hm ha hl hp hg hd, coverMask_word ha]
  rfl

end Dev

end Sys2Proof.Machine
end

