-- ==== Sys2Proof/Laws/Bytes.lean ====
section
/-! SUPPORT. A number written most significant byte first is read back (R561 and every field of the port's pages). -/

namespace Sys2Proof.Machine

theorem bytesBE_succ (n v : Nat) : bytesBE (n + 1) v = bytesBE n (v / 256) ++ [BitVec.ofNat 8 v] := by
  unfold bytesBE
  rw [List.range_succ, List.map_append]
  congr 1
  · refine List.map_congr_left fun i hi => ?_
    have hi := List.mem_range.1 hi
    congr 1
    have h : 8 * (n + 1 - 1 - i) = 8 + 8 * (n - 1 - i) := by omega
    rw [h, Nat.pow_add, ← Nat.div_div_eq_div_mul]
  · simp

theorem natBE_bytesBE (n : Nat) : ∀ v, natBE (bytesBE n v) = v % 256 ^ n := by
  induction n with
  | zero => intro v; simp [bytesBE, natBE, Nat.mod_one]
  | succ n ih =>
    intro v
    have h := ih (v / 256)
    unfold natBE at h ⊢
    rw [bytesBE_succ, List.foldl_append, h]
    simp only [List.foldl_cons, List.foldl_nil, BitVec.toNat_ofNat]
    have e : v % 256 ^ (n + 1) = v % 256 + 256 * (v / 256 % 256 ^ n) := by
      rw [Nat.pow_succ', Nat.mod_mul]
    omega

end Sys2Proof.Machine
end

