-- ==== Sys2Proof/Laws/Commit.lean ====
section
/-! SUPPORT. What the end of a command leaves, and that every command ends there. -/

namespace Sys2Proof.Machine

theorem Dev.settleMgt_reg (d : Dev) {a : Nat} (h : a ≠ R.MGT_STAT) : d.settleMgt.reg a = d.reg a := by
  unfold Dev.settleMgt
  iterate 6 rw [Dev.reg_setOn_ne _ _ _ h]
  exact Dev.reg_setFld_ne _ _ _ h

/-- Settling writes register words only. -/
theorem Dev.settleMgt_rest (d : Dev) : d.settleMgt.rest = d.rest := by
  unfold Dev.settleMgt; simp only [Dev.setOn_rest, Dev.setFld_rest]

theorem Dev.settleMgt_books (d : Dev) : d.settleMgt.raised = d.raised ∧ d.settleMgt.popped = d.popped ∧
    d.settleMgt.emptied = d.emptied ∧ d.settleMgt.clk = d.clk := by
  unfold Dev.settleMgt; simp

/-- The device when a command ends, before what it raised is queued. -/
def settledAt (d : Dev) : Dev := if d.domOn .mgt then d.settleMgt else d

theorem settledAt_rest (d : Dev) : (settledAt d).rest = d.rest := by
  unfold settledAt
  split
  · exact d.settleMgt_rest
  · rfl

theorem settledAt_books (d : Dev) : (settledAt d).raised = d.raised ∧ (settledAt d).popped = d.popped ∧
    (settledAt d).emptied = d.emptied ∧ (settledAt d).clk = d.clk := by
  unfold settledAt
  split
  · exact d.settleMgt_books
  · exact ⟨rfl, rfl, rfl, rfl⟩

theorem settledAt_reg (d : Dev) {a : Nat} (h : a ≠ R.MGT_STAT) : (settledAt d).reg a = d.reg a := by
  unfold settledAt
  split
  · exact d.settleMgt_reg h
  · rfl

section
variable (order : List Raise → List Raise) (s : State) (d : Dev)

theorem finish_dev :
    (finish order s d).dev = { settledAt d with raised := [], popped := [], emptied := false } := rfl

/-- Every register but `MGT.STAT` is as the command left it. -/
theorem finish_reg {a : Nat} (h : a ≠ R.MGT_STAT) : (finish order s d).dev.reg a = d.reg a :=
  settledAt_reg d h

/-- All but the register words and the event bookkeeping is as the command left it. -/
theorem finish_rest : (finish order s d).dev.rest = d.rest := settledAt_rest d

@[simp] theorem finish_pending : (finish order s d).pending = s.pending := rfl

theorem finish_settled : (finish order s d).dev.settled = true := rfl

theorem finish_pins : (finish order s d).pins = pinsOf (settledAt d) := rfl

/-- The queues after the end of a command: emptied or popped as the command asked, then its events in order. -/
theorem finish_evq (b : Fin 32) : (finish order s d).evq[b] = queueAfter s.evq[b] b d order := by
  obtain ⟨hr, hp, he, hc⟩ := settledAt_books d
  have : (finish order s d).evq[b] = queueAfter s.evq[b] b (settledAt d) order := by
    show (Vector.ofFn fun b : Fin 32 => queueAfter s.evq[b] b (settledAt d) order)[b] = _
    simp
  rw [this]
  unfold queueAfter
  rw [hr, hp, he, hc]

end

end Sys2Proof.Machine
end

