-- ==== Sys2Proof/Laws/Commits.lean ====
section
/-! SUPPORT. Every command ends in a next state, at the end of a command that `finish` describes. -/

namespace Sys2Proof.Machine

/-- Whatever the command and the state, `exec` answers a next state that `finish` made. -/
theorem exec_finishes (c : Instr) (s : State) : ∃ o d, exec c s = .next (finish o s d) := by
  cases c <;> exact ⟨_, _, rfl⟩

end Sys2Proof.Machine
end

