-- ==== Sys2Proof/Laws/Claims.lean ====
section
/-! SUPPORT. How a command's end gives the terms of the statements: registers, events and the frame. -/

namespace Sys2Proof.Claims

open Sys2Proof.Machine Sys2Proof.Machine.Dev

variable {o : List Raise → List Raise} {s : State} {d d' : Dev} {as : List Nat}

theorem books (h : d.settled = true) : d.raised = [] ∧ d.popped = [] ∧ d.emptied = false := by
  simp only [Dev.settled, Bool.and_eq_true, List.isEmpty_iff, Bool.not_eq_true'] at h
  exact ⟨h.1.1, h.1.2, h.2⟩

theorem finish_clk : (finish o s d).dev.clk = d.clk := by
  have h : (finish o s d).dev.rest.clk = d.rest.clk := by rw [finish_rest]
  exact h

theorem fld_finish {f : Fld} (h : f.addr ≠ R.MGT_STAT) : (finish o s d).dev.fld f = d.fld f := by
  unfold fld; rw [finish_reg _ _ _ h]

theorem on_finish {f : Fld} (h : f.addr ≠ R.MGT_STAT) : (finish o s d).dev.on f = d.on f := by
  unfold on; rw [fld_finish h]

theorem kept_finish (h : ∀ a, a ∉ as → d.reg a = s.dev.reg a) : Kept as s (finish o s d) :=
  fun a ha hn => (finish_reg _ _ _ ha).trans (h a hn)

/-- The events of a command are what it raised, in the order it ends with. -/
theorem events_finish {rs : List Raise} (hp : d.popped = []) (he : d.emptied = false) (ho : o d.raised = rs) :
    Events (rs.map fun r => (r.blk, r.code, r.lane)) s (finish o s d) := by
  intro b
  rw [finish_evq, finish_clk]
  simp only [queueAfter, hp, he, ho]
  generalize s.evq[b] = q
  clear ho
  simp only [List.contains_nil, Bool.false_eq_true, if_false]
  induction rs generalizing q with
  | nil => rfl
  | cons r rs ih =>
    by_cases h : r.blk = b.val
    · simp only [List.filter_cons, h, beq_self_eq_true, if_true, List.foldl_cons, List.map_cons]
      exact ih _
    · simp only [List.filter_cons, beq_eq_false_iff_ne.mpr h, Bool.false_eq_true, if_false, List.map_cons]
      exact ih _

/-- The frame of a command that raises no event. -/
theorem frame_quiet (hs : s.dev.settled = true) (ho : o [] = []) (hk : ∀ a, a ∉ as → d.reg a = s.dev.reg a)
    (hr : d.rest = d'.rest) (h1 : d.raised = s.dev.raised) (h2 : d.popped = s.dev.popped)
    (h3 : d.emptied = s.dev.emptied) : Frame as d' [] s (finish o s d) := by
  obtain ⟨a, b, c⟩ := books hs
  refine ⟨kept_finish hk, (finish_rest o s d).trans hr, ?_, rfl⟩
  exact events_finish (rs := []) (h2.trans b) (h3.trans c) (by rw [h1, a]; exact ho)

/-- The frame of a command that raises the events `rs`. -/
theorem frame_raised {es : List (Nat × Nat × Nat)} (rs : List Raise) (hs : s.dev.settled = true)
    (hk : ∀ a, a ∉ as → d.reg a = s.dev.reg a) (hr : d.rest = d'.rest) (h1 : d.raised = s.dev.raised ++ rs)
    (h2 : d.popped = s.dev.popped) (h3 : d.emptied = s.dev.emptied) (ho : o rs = rs)
    (he : es = rs.map fun r => (r.blk, r.code, r.lane)) : Frame as d' es s (finish o s d) := by
  obtain ⟨a, b, c⟩ := books hs
  subst he
  refine ⟨kept_finish hk, (finish_rest o s d).trans hr, events_finish (h2.trans b) (h3.trans c) ?_, rfl⟩
  rw [h1, a, List.nil_append, ho]

/-- A command that raises no event. -/
theorem yields_quiet {c : Instr} (h : exec c s = .next (commit s d)) (hs : s.dev.settled = true)
    (hk : ∀ a, a ∉ as → d.reg a = s.dev.reg a) (hg : ∀ a, d.reg a = d'.reg a) (hr : d.rest = d'.rest)
    (h1 : d.raised = s.dev.raised) (h2 : d.popped = s.dev.popped) (h3 : d.emptied = s.dev.emptied) :
    Yields c s d' as [] :=
  ⟨_, h, fun a ha => (finish_reg _ _ _ ha).trans (hg a), frame_quiet hs rfl hk hr h1 h2 h3⟩

/-- A command that raises the events `rs`, in ascending order of their codes. -/
theorem yields_raised {c : Instr} {es : List (Nat × Nat × Nat)} (rs : List Raise) (h : exec c s = .next (commit s d))
    (hs : s.dev.settled = true) (hk : ∀ a, a ∉ as → d.reg a = s.dev.reg a) (hg : ∀ a, d.reg a = d'.reg a)
    (hr : d.rest = d'.rest) (h1 : d.raised = s.dev.raised ++ rs) (h2 : d.popped = s.dev.popped)
    (h3 : d.emptied = s.dev.emptied) (ho : sortRaises rs = rs) (he : es = rs.map fun r => (r.blk, r.code, r.lane)) :
    Yields c s d' as es :=
  ⟨_, h, fun a ha => (finish_reg _ _ _ ha).trans (hg a), frame_raised rs hs hk hr h1 h2 h3 ho he⟩

end Sys2Proof.Claims
end

