-- ==== Sys2Proof/Laws/Memory.lean ====
section
/-! SUPPORT. The memories, the check bits, the registers and the page store keep their canonical form under every write. -/

namespace Sys2Proof.Machine

/-- The SRAM contents, the check bits, the register words and the page store are in canonical form. -/
def Dev.memWf (d : Dev) : Bool :=
  Cells.wf zeroByte d.mem && Cells.wf zeroByte d.chk && Cells.wf regReset d.regs && Cells.wf zeroByte d.mgmt.pages

theorem memWf_iff (d : Dev) : d.memWf = true ↔ Cells.wf zeroByte d.mem = true ∧ Cells.wf zeroByte d.chk = true ∧
    Cells.wf regReset d.regs = true ∧ Cells.wf zeroByte d.mgmt.pages = true := by
  simp [Dev.memWf, and_assoc]

theorem foldl_put_wf (l : List (Nat × Byte)) (a : Nat) (m : List (Nat × Byte)) (h : Cells.wf zeroByte m = true) :
    Cells.wf zeroByte (l.foldl (fun m p => Cells.put zeroByte m (a + p.1) p.2) m) = true := by
  induction l generalizing m with
  | nil => exact h
  | cons p l ih => exact ih _ (Cells.put_wf _ _ _ _ h)

theorem setReg_memWf {d : Dev} (a : Nat) (v : Word) (h : d.memWf = true) : (d.setReg a v).memWf = true := by
  rw [memWf_iff] at h ⊢
  exact ⟨h.1, h.2.1, Cells.put_wf _ _ _ _ h.2.2.1, h.2.2.2⟩

theorem putWord_memWf {d : Dev} (a : Nat) (w : Word) (h : d.memWf = true) : (d.putWord a w).memWf = true := by
  rw [memWf_iff] at h ⊢
  exact ⟨foldl_put_wf _ _ _ h.1, h.2⟩

theorem putCheck_memWf {d : Dev} (a c : Nat) (h : d.memWf = true) : (d.putCheck a c).memWf = true := by
  rw [memWf_iff] at h ⊢
  exact ⟨h.1, Cells.put_wf _ _ _ _ h.2.1, h.2.2⟩

theorem storeWord_memWf {d : Dev} (a : Nat) (w : Word) (h : d.memWf = true) : (d.storeWord a w).memWf = true :=
  putCheck_memWf (d := d.putWord a w) a (checkBits w) (putWord_memWf a w h)

theorem storePoison_memWf {d : Dev} (a : Nat) (w : Word) (h : d.memWf = true) : (d.storePoison a w).memWf = true :=
  putCheck_memWf (d := d.putWord a w) a (checkBits w ^^^ 0x7F) (putWord_memWf a w h)

theorem flipStored_memWf {d : Dev} (a b : Nat) (h : d.memWf = true) : (d.flipStored a b).memWf = true := by
  unfold Dev.flipStored
  split
  · exact putWord_memWf _ _ h
  · split
    · exact putCheck_memWf _ _ h
    · exact h

theorem setPageByte_memWf {d : Dev} (k : Nat) (b : Byte) (h : d.memWf = true) : (d.setPageByte k b).memWf = true := by
  rw [memWf_iff] at h ⊢
  exact ⟨h.1, h.2.1, h.2.2.1, Cells.put_wf _ _ _ _ h.2.2.2⟩

/-- Contents that a loss of power or a restart drops leave a canonical memory. -/
theorem kept_memWf {m : List (Nat × Byte)} (p : Nat → Bool) (h : Cells.wf zeroByte m = true) :
    Cells.wf zeroByte (m.filter fun c => p c.1) = true := Cells.filter_wf _ _ _ h

/-- The contents after reset are canonical. -/
theorem reset_memWf : State.reset.dev.memWf = true := by decide

end Sys2Proof.Machine
end

