-- ==== Sys2Proof/WellFormed.lean ====
section
/-! DEFINITION. Which command terms name an occurrence the spec knows: sizes and ranges of the operands that the types
do not already bound. -/

namespace Sys2Proof

/-- A leaf slot brings 144 codes per converter pair (R207), and those that follow reach as far as MAIN and the 32 symbols of R244
ask. -/
def RxLeaf.wf (rx : RxLeaf) : Bool := rx.codes.length == 144 && decide (79 ≤ rx.ahead.length)

/-- A register address lies in register space, word-aligned (R511). -/
def regAddrWf (a : Nat) : Bool := decide (0x10000000 ≤ a) && decide (a < 0x10200000) && a % 4 == 0

/-- A word of an SRAM in the processor's map (R463, R496). -/
def sramAddrWf (a : Nat) : Bool :=
  decide (a < 0x80000 ∨ (0x100000 ≤ a ∧ a < 0x140000) ∨ (0x200000 ≤ a ∧ a < 0x600000)) && a % 4 == 0

/-- A byte address of the processor's 32-bit space. -/
def byteAddrWf (a : Nat) : Bool := decide (a < 2 ^ 32)

/-- An alias word's address (R520). -/
def aliasAddrWf (a : Nat) : Bool := decide (0x20000000 ≤ a) && decide (a < 0x24000000) && a % 4 == 0

/-- An image slot has a 256-byte header when every read completes (R628). -/
def ImageIn.wf (i : ImageIn) : Bool := !i.late.isEmpty || i.header.length == 256

/-- Headers of 256 bytes (R626), and a device secret of 32 (R641). -/
def BootStore.wf (b : BootStore) : Bool :=
  b.hdr0.length == 256 && b.hdr1.length == 256 && b.fwA.wf && b.fwB.wf && b.prov.all fun p => p.devSec.length == 32

/-- A software write's address lies in register space or among the alias words (R511, R520). -/
def SwWrite.wf (w : SwWrite) : Bool :=
  decide (0x10000000 ≤ w.addr ∧ w.addr < 0x10200000) || decide (0x20000000 ≤ w.addr ∧ w.addr < 0x24000000)

def TickInput.wf (t : TickInput) : Bool := t.writes.all SwWrite.wf

/-- The received leaf slot a command brings, if any. -/
def Instr.leaf? : Instr → Option RxLeaf
  | .markerReceived _ rx | .pilotLeafReceived _ rx | .leafDecode _ rx | .updateIntervalEnd _ rx => some rx
  | _ => none

/-- The check of a command term. -/
def Instr.wf : Instr → Bool
  | .quireTick inp => inp.wf
  | .loWordRead m a => regAddrWf a || (m == .debug && sramAddrWf a)
  | .subwindowEnd _ front => front.all fun p => decide (p.2 < 16)
  | .alignmentMarkerSet _ _ pos => pos.all fun p => decide (p < 5440)
  | .hostCodewordDecode _ word => word.length == 544
  | .markerReceived _ rx => rx.wf
  | .pilotLeafReceived _ rx => rx.wf
  | .leafDecode _ rx => rx.wf
  | .updateIntervalEnd _ rx => rx.wf
  | .registerWrite _ a _ _ => byteAddrWf a
  | .aliasWrite _ a _ => aliasAddrWf a
  | .mgmtPortWrite _ data => decide (data.length ≤ 128)
  | .mgmtPortRead _ len => decide (len ≤ 128)
  | .bootSequence b _ => b.wf
  | .lcRequest _ _ t => t.wf
  | .hashOpDone i => i.wf
  | .nvmOpDone data => decide (data.length ≤ 128)
  | _ => true

end Sys2Proof
end

