-- ==== Sys2Proof/Laws/PerInstr.lean ====
section
/-! SUPPORT. One lemma per command for each statement about all commands. -/

namespace Sys2Proof.Laws.ReceivedCodes

/-- A well-formed command that brings a received leaf slot brings 144 converter codes of it (R207). -/
def Statement (i : Instr) : Prop := ∀ rx, i.leaf? = some rx → i.wf = true → rx.codes.length = 144

/-- A command that brings no leaf slot. -/
theorem of_none {i : Instr} (h : i.leaf? = none) : Statement i := by
  intro r e; cases h.symm.trans e

/-- A command that brings one and whose check is that of the slot. -/
theorem of_leaf {i : Instr} {rx : RxLeaf} (h : i.leaf? = some rx) (c : i.wf = rx.wf) : Statement i := by
  intro r e w
  cases h.symm.trans e
  have h := c.symm.trans w
  simp only [RxLeaf.wf, Bool.and_eq_true, beq_iff_eq] at h
  exact h.1

theorem quireTick (inp : TickInput) : Statement (.quireTick inp) := of_none rfl
theorem receivedQuireBoundary (n : Lane) (clk : Fin 16384) : Statement (.receivedQuireBoundary n clk) := of_none rfl
theorem hostPllLock : Statement (.hostPllLock) := of_none rfl
theorem hostPllLockLoss : Statement (.hostPllLockLoss) := of_none rfl
theorem tsrcLaneLoss : Statement (.tsrcLaneLoss) := of_none rfl
theorem tsrcLaneRecovery : Statement (.tsrcLaneRecovery) := of_none rfl
theorem refRangeCheck (count : Nat) : Statement (.refRangeCheck count) := of_none rfl
theorem loWordRead (m : Master) (addr : Nat) : Statement (.loWordRead m addr) := of_none rfl
theorem hostLaneLost (h : HostLane) : Statement (.hostLaneLost h) := of_none rfl
theorem hostLaneRestored (h : HostLane) : Statement (.hostLaneRestored h) := of_none rfl
theorem alignmentMarkerSet (s : Stream) (valid : Bool) (pos : List Nat) : Statement (.alignmentMarkerSet s valid pos) := of_none rfl
theorem hostCodewordDecode (s : Stream) (word : List (BitVec 10 × HostLane)) : Statement (.hostCodewordDecode s word) := of_none rfl
theorem transmitLeaf (n : Lane) (ab : BitVec 544 × BitVec 544) (smp : Byte) : Statement (.transmitLeaf n ab smp) := of_none rfl
theorem markerReceived (n : Lane) (rx : RxLeaf) : Statement (.markerReceived n rx) := of_leaf rfl rfl
theorem pilotLeafReceived (n : Lane) (rx : RxLeaf) : Statement (.pilotLeafReceived n rx) := of_leaf rfl rfl
theorem leafDecode (n : Lane) (rx : RxLeaf) : Statement (.leafDecode n rx) := of_leaf rfl rfl
theorem faultLeak (c : Fin 13) (inst : Nat) : Statement (.faultLeak c inst) := of_none rfl
theorem queueFault (n : Lane) (cause : QueueCause) : Statement (.queueFault n cause) := of_none rfl
theorem swingMoveDone (n : Lane) : Statement (.swingMoveDone n) := of_none rfl
theorem transmitterStart (n : Lane) : Statement (.transmitterStart n) := of_none rfl
theorem agcWindowEnd (n : Lane) : Statement (.agcWindowEnd n) := of_none rfl
theorem acqWindowEnd (n : Lane) : Statement (.acqWindowEnd n) := of_none rfl
theorem signalDetect (n : Lane) : Statement (.signalDetect n) := of_none rfl
theorem signalLoss (n : Lane) : Statement (.signalLoss n) := of_none rfl
theorem acqTimeout (n : Lane) : Statement (.acqTimeout n) := of_none rfl
theorem warmFallback (n : Lane) : Statement (.warmFallback n) := of_none rfl
theorem updateIntervalEnd (n : Lane) (rx : RxLeaf) : Statement (.updateIntervalEnd n rx) := of_leaf rfl rfl
theorem reacq (m : Master) (n : Lane) (v : Word) : Statement (.reacq m n v) := of_none rfl
theorem save (m : Master) (n : Lane) (v : Word) : Statement (.save m n v) := of_none rfl
theorem eqFreezeWrite (m : Master) (n : Lane) (v : Word) : Statement (.eqFreezeWrite m n v) := of_none rfl
theorem interpFreezeWrite (m : Master) (n : Lane) (v : Word) : Statement (.interpFreezeWrite m n v) := of_none rfl
theorem rotationStepDue (n : Lane) (m0 m1 : MatchSums) : Statement (.rotationStepDue n m0 m1) := of_none rfl
theorem rotationSwitch (n : Lane) : Statement (.rotationSwitch n) := of_none rfl
theorem offlineCheckDone (n : Lane) (c : Fin 2) (meas : OfflineMeas) : Statement (.offlineCheckDone n c meas) := of_none rfl
theorem adcRetWrite (m : Master) (n : Lane) (v : Word) : Statement (.adcRetWrite m n v) := of_none rfl
theorem captureStart (m : Master) (v : Word) : Statement (.captureStart m v) := of_none rfl
theorem captureAbort (m : Master) (v : Word) : Statement (.captureAbort m v) := of_none rfl
theorem captureTrigger : Statement (.captureTrigger) := of_none rfl
theorem captureDone : Statement (.captureDone) := of_none rfl
theorem brlNextWrite (m : Master) (n : Lane) (v : Word) : Statement (.brlNextWrite m n v) := of_none rfl
theorem ribbonLookupDone (n : Lane) : Statement (.ribbonLookupDone n) := of_none rfl
theorem subwindowEnd (n : Lane) (front : List (Nat × Nat)) : Statement (.subwindowEnd n front) := of_none rfl
theorem presetLoad (n : Lane) : Statement (.presetLoad n) := of_none rfl
theorem ribbonFallback (n : Lane) : Statement (.ribbonFallback n) := of_none rfl
theorem calRun (m : Master) (n : Lane) (v : Word) : Statement (.calRun m n v) := of_none rfl
theorem calAbort (m : Master) (n : Lane) (v : Word) : Statement (.calAbort m n v) := of_none rfl
theorem calWindowEnd (n : Lane) (i : Fin 4) (w : Nat) : Statement (.calWindowEnd n i w) := of_none rfl
theorem calTakeUp (n : Lane) (i : Fin 4) : Statement (.calTakeUp n i) := of_none rfl
theorem rotationDue : Statement (.rotationDue) := of_none rfl
theorem swap (m : Master) (v : Word) : Statement (.swap m v) := of_none rfl
theorem shadowStart : Statement (.shadowStart) := of_none rfl
theorem convergeTimeout : Statement (.convergeTimeout) := of_none rfl
theorem shadowMismatch : Statement (.shadowMismatch) := of_none rfl
theorem swapUndo : Statement (.swapUndo) := of_none rfl
theorem sprAbort (m : Master) (v : Word) : Statement (.sprAbort m v) := of_none rfl
theorem sprRetWrite (m : Master) (v : Word) : Statement (.sprRetWrite m v) := of_none rfl
theorem helloReceived (n : Lane) : Statement (.helloReceived n) := of_none rfl
theorem helloTimeout (n : Lane) : Statement (.helloTimeout n) := of_none rfl
theorem timeLeafReceived (n : Lane) : Statement (.timeLeafReceived n) := of_none rfl
theorem stitchReceived (n : Lane) : Statement (.stitchReceived n) := of_none rfl
theorem remoteRegRead : Statement (.remoteRegRead) := of_none rfl
theorem remoteRegWrite : Statement (.remoteRegWrite) := of_none rfl
theorem routeAdvertise : Statement (.routeAdvertise) := of_none rfl
theorem routeExpiry : Statement (.routeExpiry) := of_none rfl
theorem stitchAged : Statement (.stitchAged) := of_none rfl
theorem addressSelfAssigned : Statement (.addressSelfAssigned) := of_none rfl
theorem arm (m : Master) (k : Fin 2) (clk : Fin 16384) (v : Word) : Statement (.arm m k clk v) := of_none rfl
theorem send (m : Master) (v : Word) : Statement (.send m v) := of_none rfl
theorem stitchSent : Statement (.stitchSent) := of_none rfl
theorem pop (m : Master) (v : Word) : Statement (.pop m v) := of_none rfl
theorem subintervalStart : Statement (.subintervalStart) := of_none rfl
theorem safeClr (m : Master) (v : Word) : Statement (.safeClr m v) := of_none rfl
theorem conversionClose (mean : Int) (sat : Bool) : Statement (.conversionClose mean sat) := of_none rfl
theorem conversionFault : Statement (.conversionFault) := of_none rfl
theorem ureqGo (m : Master) (v : Word) : Statement (.ureqGo m v) := of_none rfl
theorem sequencerEnable (m : Master) (v : Word) : Statement (.sequencerEnable m v) := of_none rfl
theorem instructionFetch (stalled : Nat) : Statement (.instructionFetch stalled) := of_none rfl
theorem processorLoad (clk : AccessClocks) : Statement (.processorLoad clk) := of_none rfl
theorem processorStore (clk : AccessClocks) : Statement (.processorStore clk) := of_none rfl
theorem memoryErrorInterrupt : Statement (.memoryErrorInterrupt) := of_none rfl
theorem quireInterrupt : Statement (.quireInterrupt) := of_none rfl
theorem machineExternalInterrupt : Statement (.machineExternalInterrupt) := of_none rfl
theorem mret : Statement (.mret) := of_none rfl
theorem done (m : Master) (v : Word) : Statement (.done m v) := of_none rfl
theorem wdtKick (m : Master) (v : Word) : Statement (.wdtKick m v) := of_none rfl
theorem watchdogExpiry : Statement (.watchdogExpiry) := of_none rfl
theorem managementRestart : Statement (.managementRestart) := of_none rfl
theorem remapReq (m : Master) (v : Word) : Statement (.remapReq m v) := of_none rfl
theorem ulogRead (m : Master) : Statement (.ulogRead m) := of_none rfl
theorem scrubStart (m : Master) (v : Word) : Statement (.scrubStart m v) := of_none rfl
theorem scrubWord (clocks : Nat) : Statement (.scrubWord clocks) := of_none rfl
theorem scrubAbort (m : Master) (v : Word) : Statement (.scrubAbort m v) := of_none rfl
theorem dmaStart (m : Master) (c : Fin 8) (v : Word) : Statement (.dmaStart m c v) := of_none rfl
theorem dmaNext (m : Master) (c : Fin 8) (v : Word) : Statement (.dmaNext m c v) := of_none rfl
theorem dmaAbort (m : Master) (c : Fin 8) (v : Word) : Statement (.dmaAbort m c v) := of_none rfl
theorem dmaRequest (line : Fin 32) : Statement (.dmaRequest line) := of_none rfl
theorem dmaActivate : Statement (.dmaActivate) := of_none rfl
theorem dmaBeat : Statement (.dmaBeat) := of_none rfl
theorem dmaComplete : Statement (.dmaComplete) := of_none rfl
theorem registerWrite (m : Master) (addr : Nat) (w : Width) (v : Word) : Statement (.registerWrite m addr w v) := of_none rfl
theorem aliasWrite (m : Master) (addr : Nat) (v : Word) : Statement (.aliasWrite m addr v) := of_none rfl
theorem eventQueueRead (m : Master) (blk : Fin 32) (w : Width) : Statement (.eventQueueRead m blk w) := of_none rfl
theorem clkPressWrite (m : Master) (v : Word) : Statement (.clkPressWrite m v) := of_none rfl
theorem domainWake (m : Master) (dom : Dom) : Statement (.domainWake m dom) := of_none rfl
theorem domainIdleOff (dom : Dom) : Statement (.domainIdleOff dom) := of_none rfl
theorem mgmtPortWrite (addr : BitVec 7 × Byte) (data : List Byte) : Statement (.mgmtPortWrite addr data) := of_none rfl
theorem mgmtPortRead (addr : BitVec 7 × Byte) (len : Nat) : Statement (.mgmtPortRead addr len) := of_none rfl
theorem windowFetch : Statement (.windowFetch) := of_none rfl
theorem windowWrite : Statement (.windowWrite) := of_none rfl
theorem newnonce : Statement (.newnonce) := of_none rfl
theorem submit : Statement (.submit) := of_none rfl
theorem lock : Statement (.lock) := of_none rfl
theorem refresh : Statement (.refresh) := of_none rfl
theorem popevq : Statement (.popevq) := of_none rfl
theorem sessionIdleTimeout : Statement (.sessionIdleTimeout) := of_none rfl
theorem lockoutExpiry : Statement (.lockoutExpiry) := of_none rfl
theorem setdasa (staticAddr dynAddr : BitVec 7) : Statement (.setdasa staticAddr dynAddr) := of_none rfl
theorem entdaa (dynAddr : BitVec 7) (won : Bool) : Statement (.entdaa dynAddr won) := of_none rfl
theorem rstdaa : Statement (.rstdaa) := of_none rfl
theorem getpid : Statement (.getpid) := of_none rfl
theorem getbcr : Statement (.getbcr) := of_none rfl
theorem getdcr : Statement (.getdcr) := of_none rfl
theorem getstatus : Statement (.getstatus) := of_none rfl
theorem getmwl : Statement (.getmwl) := of_none rfl
theorem getmrl : Statement (.getmrl) := of_none rfl
theorem enec (mask : Byte) : Statement (.enec mask) := of_none rfl
theorem disec (mask : Byte) : Statement (.disec mask) := of_none rfl
theorem wctrlDone (m : Master) (v : Word) : Statement (.wctrlDone m v) := of_none rfl
theorem ready (m : Master) (v : Word) : Statement (.ready m v) := of_none rfl
theorem resetNLow : Statement (.resetNLow) := of_none rfl
theorem resetNRelease : Statement (.resetNRelease) := of_none rfl
theorem lpmodeChange (level : Bool) : Statement (.lpmodeChange level) := of_none rfl
theorem lowPowerRequestChange : Statement (.lowPowerRequestChange) := of_none rfl
theorem standbyRetry : Statement (.standbyRetry) := of_none rfl
theorem activeEntry : Statement (.activeEntry) := of_none rfl
theorem rest (m : Master) (v : Word) : Statement (.rest m v) := of_none rfl
theorem suppliesValid : Statement (.suppliesValid) := of_none rfl
theorem vbakPresent : Statement (.vbakPresent) := of_none rfl
theorem vbakLoss : Statement (.vbakLoss) := of_none rfl
theorem mainSupplyLoss : Statement (.mainSupplyLoss) := of_none rfl
theorem mainSupplyReturn : Statement (.mainSupplyReturn) := of_none rfl
theorem laneDozeEntry (n : Lane) : Statement (.laneDozeEntry n) := of_none rfl
theorem laneWake (n : Lane) (src : WakeSource) : Statement (.laneWake n src) := of_none rfl
theorem wakeTx (m : Master) (v : Word) : Statement (.wakeTx m v) := of_none rfl
theorem wakePatternEnd (n : Lane) : Statement (.wakePatternEnd n) := of_none rfl
theorem rtcAlarm : Statement (.rtcAlarm) := of_none rfl
theorem load (m : Master) (v : Word) : Statement (.load m v) := of_none rfl
theorem rtcSubRead (m : Master) : Statement (.rtcSubRead m) := of_none rfl
theorem avsVsetWrite (m : Master) (v : Word) : Statement (.avsVsetWrite m v) := of_none rfl
theorem avsRequestAck : Statement (.avsRequestAck) := of_none rfl
theorem avsTimeout : Statement (.avsTimeout) := of_none rfl
theorem thermalSample : Statement (.thermalSample) := of_none rfl
theorem thermalJudgement (readings : List Int) : Statement (.thermalJudgement readings) := of_none rfl
theorem throttleEnforce : Statement (.throttleEnforce) := of_none rfl
theorem bootSequence (store : BootStore) (chkFail : BitVec 4) : Statement (.bootSequence store chkFail) := of_none rfl
theorem confirm (m : Master) (v : Word) : Statement (.confirm m v) := of_none rfl
theorem rollfwd (m : Master) (v : Word) : Statement (.rollfwd m v) := of_none rfl
theorem verifySlot (m : Master) (v : Word) : Statement (.verifySlot m v) := of_none rfl
theorem lcRequest (m : Master) (v : Word) (token : ImageIn) : Statement (.lcRequest m v token) := of_none rfl
theorem enrol (m : Master) (v : Word) : Statement (.enrol m v) := of_none rfl
theorem attest (m : Master) (v : Word) : Statement (.attest m v) := of_none rfl
theorem hashOpStart : Statement (.hashOpStart) := of_none rfl
theorem hashOpDone (img : ImageIn) : Statement (.hashOpDone img) := of_none rfl
theorem journalCommit (m : Master) (v : Word) : Statement (.journalCommit m v) := of_none rfl
theorem journalCommitDone : Statement (.journalCommitDone) := of_none rfl
theorem nvmRead (m : Master) (v : Word) : Statement (.nvmRead m v) := of_none rfl
theorem nvmProgram (m : Master) (v : Word) : Statement (.nvmProgram m v) := of_none rfl
theorem nvmErase (m : Master) (v : Word) : Statement (.nvmErase m v) := of_none rfl
theorem nvmAbort (m : Master) (v : Word) : Statement (.nvmAbort m v) := of_none rfl
theorem nvmOpDone (data : List Byte) : Statement (.nvmOpDone data) := of_none rfl
theorem nvmTimeout : Statement (.nvmTimeout) := of_none rfl
theorem rbuf31Read (m : Master) : Statement (.rbuf31Read m) := of_none rfl
theorem wbuf31Write (m : Master) (v : Word) : Statement (.wbuf31Write m v) := of_none rfl
theorem budgetWindowEnd : Statement (.budgetWindowEnd) := of_none rfl
theorem selfTestStart : Statement (.selfTestStart) := of_none rfl
theorem selfTestDone (r : TestRun) : Statement (.selfTestDone r) := of_none rfl
theorem mcmdGo (m : Master) (v : Word) : Statement (.mcmdGo m v) := of_none rfl
theorem fullGo (m : Master) (v : Word) : Statement (.fullGo m v) := of_none rfl
theorem fullTestDone : Statement (.fullTestDone) := of_none rfl
theorem snap (m : Master) (v : Word) : Statement (.snap m v) := of_none rfl
theorem freeze (m : Master) (v : Word) : Statement (.freeze m v) := of_none rfl
theorem pmcHiWrite (m : Master) (i : Fin 8) (v : Word) : Statement (.pmcHiWrite m i v) := of_none rfl
theorem pmcLoWrite (m : Master) (i : Fin 8) (v : Word) : Statement (.pmcLoWrite m i v) := of_none rfl
theorem pmcWrap (i : Fin 8) : Statement (.pmcWrap i) := of_none rfl
theorem sampleRecord (latency : Nat) : Statement (.sampleRecord latency) := of_none rfl
theorem smpEnt2Read (m : Master) : Statement (.smpEnt2Read m) := of_none rfl
theorem compatLaneLock (n : Lane) (gained : Bool) : Statement (.compatLaneLock n gained) := of_none rfl
theorem orderlyStopTimeout : Statement (.orderlyStopTimeout) := of_none rfl
theorem attestationPublicKeyReady : Statement (.attestationPublicKeyReady) := of_none rfl
theorem otpProgrammingDone : Statement (.otpProgrammingDone) := of_none rfl
theorem tapInstruction (ir : Nat) : Statement (.tapInstruction ir) := of_none rfl

end Sys2Proof.Laws.ReceivedCodes
end

