-- ==== Sys2Proof/Laws/SramCode.lean ====
section
/-! SUPPORT. The SEC-DED columns of the device, whatever arrangement it has (log 4): each data column is one of weight 3,
so that the poison syndrome is no column, and a poisoned word is classed so. -/

namespace Sys2Proof.Machine

theorem pickColumns_mem (n : Nat) : ∀ (l : List Nat) (s : Nat), n ≤ l.length → ∀ c ∈ pickColumns n l s, c ∈ l := by
  induction n with
  | zero => intro l s _ c h; simp [pickColumns] at h
  | succ n ih =>
    intro l s hn c hc
    have hi : s % l.length < l.length := Nat.mod_lt _ (by omega)
    simp only [pickColumns, List.mem_cons] at hc
    rcases hc with rfl | hc
    · rw [List.getD_eq_getElem _ _ hi]; exact List.getElem_mem hi
    · exact List.mem_of_mem_eraseIdx (ih _ _ (by rw [List.length_eraseIdx_of_lt hi]; omega) c hc)

theorem weightThree_length : weightThree.length = 35 := by decide +kernel

theorem secdedColumns_mem {c : Nat} (h : c ∈ secdedColumns) : c ∈ weightThree :=
  pickColumns_mem 32 _ _ (by rw [weightThree_length]; omega) c h

/-- The poison syndrome is the column of no stored bit. -/
theorem storedColumns_ne_poison (b : Nat) : storedColumns.getD b 0 ≠ 0x7F := by
  intro h
  by_cases hb : b < storedColumns.length
  · rw [List.getD_eq_getElem _ _ hb] at h
    have hm : (0x7F : Nat) ∈ storedColumns := h ▸ List.getElem_mem hb
    rcases List.mem_append.1 hm with hm | hm
    · exact absurd (secdedColumns_mem hm) (by decide +kernel)
    · exact absurd hm (by decide +kernel)
  · rw [List.getD_eq_default _ _ (by omega)] at h; cases h

/-- A word with the poison pattern is classed poisoned (R470). -/
theorem classifyWord_poison (w : Word) (c : Nat) (h : checkBits w ^^^ c = 0x7F) : classifyWord w c = .poisoned := by
  unfold classifyWord
  simp only [h]
  have hf : (List.range 39).find? (fun b => storedColumns.getD b 0 == 0x7F) = none :=
    List.find?_eq_none.2 fun b _ => by simpa using storedColumns_ne_poison b
  rw [hf]
  rfl

theorem secdedColumns_length : secdedColumns.length = 32 := by
  have go : ∀ (n : Nat) (l : List Nat) (s : Nat), (pickColumns n l s).length = n := by
    intro n
    induction n with
    | zero => intro l s; rfl
    | succ n ih => intro l s; simp [pickColumns, ih]
  exact go _ _ _

/-- The column of a data bit has weight 3. -/
theorem storedColumns_data {b : Nat} (hb : b < 32) : storedColumns.getD b 0 ∈ weightThree := by
  have hl := secdedColumns_length
  have h : storedColumns.getD b 0 = secdedColumns[b]'(by omega) := by
    unfold storedColumns
    rw [List.getD_eq_getElem _ _ (by simp; omega), List.getElem_append_left (by omega)]
  exact h ▸ secdedColumns_mem (List.getElem_mem _)

/-- The column of check bit k is 2^k. -/
theorem storedColumns_check {k : Nat} (hk : k < 7) : storedColumns.getD (32 + k) 0 = 2 ^ k := by
  have hl := secdedColumns_length
  unfold storedColumns
  rw [List.getD_eq_getElem _ _ (by simp; omega), List.getElem_append_right (by omega)]
  simp [hl]

/-- A word one of whose check bits is inverted is classed correctable there (R469). -/
theorem classifyWord_check (w : Word) (c : Nat) (h : checkBits w ^^^ c = 1) : classifyWord w c = .correctable 32 := by
  unfold classifyWord
  simp only [h]
  have hf : (List.range 39).find? (fun b => storedColumns.getD b 0 == 1) = some 32 := by
    rw [List.find?_range_eq_some]
    refine ⟨by simpa using storedColumns_check (k := 0) (by omega), by simp, fun j hj => ?_⟩
    have := storedColumns_data hj
    generalize storedColumns.getD j 0 = x at this
    revert this x; decide +kernel
  rw [hf]
  rfl

/-- A word two of whose check bits are inverted is classed uncorrectable (R469). -/
theorem classifyWord_pair (w : Word) (c : Nat) (h : checkBits w ^^^ c = 3) : classifyWord w c = .uncorrectable := by
  unfold classifyWord
  simp only [h]
  have hf : (List.range 39).find? (fun b => storedColumns.getD b 0 == 3) = none := by
    refine List.find?_eq_none.2 fun b hb => ?_
    have hb : b < 39 := List.mem_range.1 hb
    by_cases h32 : b < 32
    · have := storedColumns_data h32
      generalize storedColumns.getD b 0 = x at this
      revert this x; decide +kernel
    · have := storedColumns_check (k := b - 32) (by omega)
      rw [show 32 + (b - 32) = b by omega] at this
      rw [this]
      have : ∀ k < 7, ¬ (2 ^ k == 3) = true := by decide
      exact this _ (by omega)
  rw [hf]
  rfl

end Sys2Proof.Machine
end

