-- ==== Sys2Proof/Tests/Slice0.lean ====
section
/-! SUPPORT. The model's own tests: what WellFormed refuses, states that meet the hypotheses of every statement (one
theorem `witness_<statement>` for each, the cases of a statement among them), and small checks of one command whose
expected result the spec gives (`test_<what>`). -/

set_option Elab.async false

namespace Sys2Proof.Tests

open Sys2Proof.Machine Sys2Proof.Machine.Dev Sys2Proof.Claims

/-! ### Small states -/

/-- A device with some register fields set. -/
def sets (fs : List (Fld × Nat)) (d : Dev) : Dev := fs.foldl (fun d p => d.setFld p.1 p.2) d

/-- A device with some live fields set. -/
def lives (fs : List (Fld × Nat)) (d : Dev) : Dev :=
  fs.foldl (fun d p => d.setLive p.1.addr (putBits (d.liveWord p.1.addr) p.1 p.2)) d

/-- The state after reset with another device in it. -/
def st (d : Dev) : State := { State.reset with dev := d }

/-- The device after reset: STANDBY, the data path off. -/
def sby : Dev := State.reset.dev

/-- A device in ACTIVE with every domain on, every lane in RUN on its own slice and the quire tick running. -/
def act : Dev :=
  { sby with regs := [(R.PWR_STAT, 0x80000000), (R.PWR_DOM, 0xFFFFFFFF), (R.PWR_LANE_STAT, 0xAAAA), (R.CLK_STAT, 7)] }

/-- That device with lane 0 in DATA and its markers locked. -/
def data0 : Dev :=
  { act with regs := act.regs ++ [(R.LANE_FMT_STAT 0, 1), (R.LANE_EQ_STAT 0, 0xA3000000)] }

/-- Lane 0 receiving at slot k, with marker lock. -/
def receiving (k : Nat) : Dev := data0.modFr 0 fun f => { f with slot := k }

/-- The device in state k of R572. -/
def inState (k : Nat) : Dev := (sets [(F.PWR_STAT_DSTATE, k)] sby).setReg R.PWR_DOM (if k < stSTANDBY then 0 else sby.reg R.PWR_DOM)

/-- The device after reset in life-cycle state k. -/
def life (k : Nat) (f : SecSt → SecSt) : Dev := { sby with sec := f { sby.sec with lc := k } }

/-- The device a command ends with. -/
def after (c : Instr) (d : Dev) : Dev := match exec c (st d) with | .next t => t.dev | _ => d

theorem reaches_cpu {s : State} {a : Nat} (h : s.dev.domOn .mgt = true ∧ s.dev.domOn (domainOf a) = true) :
    Reaches s .cpuM a := ⟨h.1, h.2, fun _ _ _ => rfl⟩

/-! ### Clocks, host side, registers -/

theorem witness_PllLocks : sby.settled = true ∧ sby.domOn .mgt = true ∧ sby.on F.CLK_STAT_HOST_LOCK = false := by
  decide +kernel

theorem witness_PllLoses :
    let d := act.modPwr fun p => { p with lossQ := some 0 }
    act.settled = true ∧ act.on F.CLK_STAT_HOST_LOCK = true ∧ act.pwr.lossQ = none ∧ d.settled = true ∧
      d.on F.CLK_STAT_HOST_LOCK = true ∧ d.pwr.lossQ.isSome = true := by decide +kernel

/-- A device whose REFCLK PLL follows host lane 0. -/
def timed : Dev := act.modClk fun c => { c with cfg := 1, source := .lane, seen := true, refQ := 5 }

theorem witness_TimingLoss : timed.settled = true ∧ timed.recovers = true ∧ timed.clk.source = .lane := by decide +kernel

theorem witness_TimingRecovery :
    let d := timed.modClk fun c => { c with source := .holdover }
    d.settled = true ∧ d.recovers = true ∧ d.active = true ∧ d.clk.source ≠ .lane := by decide +kernel

theorem witness_RefChecked : timed.settled = true ∧ timed.on F.CLK_STAT_TICK_RUN = true ∧ 5 ≤ timed.clk.refQ := by
  decide +kernel

theorem witness_QnumRead : sby.settled = true ∧ sby.domOn .mgt = true := by decide +kernel

theorem witness_HostLost : act.settled = true ∧ act.active = true ∧ act.hostWanted 15 = true ∧ act.hostLost 15 = false := by
  decide +kernel

theorem witness_HostRestored :
    let d := act.setReg R.HST_LSTAT 0x8000
    d.settled = true ∧ d.active = true ∧ d.hostLost 15 = true := by decide +kernel

theorem witness_MarkerSet :
    act.settled = true ∧ act.active = true ∧ (7 : Stream).val < act.streamCount ∧
      act.on (Dev.fecLock 7) = false ∧ act.streams[7].valid = 0 ∧ [0, 5439].length = (act.streamHosts 7).length := by
  decide +kernel

theorem witness_MarkerSet_locked :
    let d := sets [(Dev.fecLock 7, 1)] act
    d.settled = true ∧ d.active = true ∧ (7 : Stream).val < d.streamCount ∧ d.on (Dev.fecLock 7) = true ∧
      [0, 5439].length = (d.streamHosts 7).length := by decide +kernel

theorem witness_MonitorCounts :
    let d := lives [(⟨R.FEC_CFG, 7, 1⟩, 1)] (sets [(Dev.fecLock 7, 1)] act)
    d.settled = true ∧ d.active = true ∧ d.on (Dev.fecLock 7) = true ∧ d.lvOn ⟨R.FEC_CFG, 7, 1⟩ = true := by decide +kernel

/-- What an undamaged codeword decodes to the standard says and not the model (`Config.rsDecode`): one of the two cases is met by
every word. -/
theorem witness_MonitorCounts_cases (word : List (BitVec 10 × HostLane)) :
    (∃ hs, correctedHosts word = some hs ∧ hs.length ≤ 15) ∨ (∀ hs, correctedHosts word = some hs → 15 < hs.length) := by
  by_cases h : ∃ hs, correctedHosts word = some hs ∧ hs.length ≤ 15
  · exact .inl h
  · exact .inr fun hs e => Nat.lt_of_not_le fun l => h ⟨hs, e, l⟩

theorem witness_MarkerLocks :
    let d : Dev := { act with streams := act.streams.set 7 ⟨1, 0⟩ }
    d.settled = true ∧ d.active = true ∧ (7 : Stream).val < d.streamCount ∧ d.on (Dev.fecLock 7) = false ∧
      1 ≤ d.streams[7].valid ∧ [0, 5439].length = (d.streamHosts 7).length := by decide +kernel

theorem witness_RegisterStored :
    (∀ a ∈ [R.THM_CFG + 2, R.HST_POL + 2, R.LANE_EQ_CFG 7 + 2, R.SLC_PM_CFG 8 + 2, R.CAL_CFG 7 + 2, R.MSH_CFG + 2, R.PWR_RTC_ALM_LO + 2],
      act.settled = true ∧ a % widthBytes .half = 0 ∧ act.domOn .mgt = true ∧ act.domOn (domainOf (a - a % 4)) = true ∧
        (plainWord (a - a % 4) = true ↔ a ≠ R.HST_POL + 2)) ∧
      (∃ r, place R.THM_CFG = some (.live r)) ∧ (∃ r, place (R.LANE_EQ_CFG 7) = some (.live r)) :=
  ⟨by decide +kernel, ⟨_, rfl⟩, ⟨_, rfl⟩⟩

theorem witness_AliasStored :
    act.settled = true ∧ R.THM_CFG % 4 = 0 ∧ 31 < 32 ∧ (∃ r, place R.THM_CFG = some (.live r)) ∧ plainWord R.THM_CFG = true ∧
      Reaches (st act) .cpuM R.THM_CFG ∧ R.LANE_EQ_CFG 7 % 4 = 0 ∧ (∃ r, place (R.LANE_EQ_CFG 7) = some (.live r)) ∧
      plainWord (R.LANE_EQ_CFG 7) = true ∧ Reaches (st act) .cpuM (R.LANE_EQ_CFG 7) :=
  ⟨by decide +kernel, by decide +kernel, by decide, ⟨_, rfl⟩, by decide +kernel, reaches_cpu (by decide +kernel), by decide +kernel,
    ⟨_, rfl⟩, by decide +kernel, reaches_cpu (by decide +kernel)⟩

theorem witness_FollowedStored :
    act.settled = true ∧ (∀ a ∈ [R.HST_POL, R.HST_CFG, R.CNT_PMC_CFG 0, R.CNT_PMC_CFG 7, R.CNT_SMP_CFG],
      act.domOn .mgt = true ∧ act.domOn (domainOf a) = true) := by decide +kernel

theorem witness_PressRequested : sby.settled = true ∧ Reaches (st sby) .cpuM R.CLK_PRESS :=
  ⟨by decide +kernel, reaches_cpu (by decide +kernel)⟩

theorem witness_EventPopped :
    sby.settled = true ∧ blockExists (30 : Fin 32) = true ∧ Master.cpuM ≠ .mesh ∧ Reaches (st sby) .cpuM (evqAddr 30) :=
  ⟨by decide +kernel, by decide +kernel, by decide, reaches_cpu (by decide +kernel)⟩

theorem witness_WriteDenied :
    sby.settled = true ∧ sby.domOn .mgt = true ∧ R.PWR_CTRL % widthBytes .word = 0 ∧
      (∃ p, place (R.PWR_CTRL - R.PWR_CTRL % 4) = some p ∧ p.guarded = true) ∧ sby.trusted .host = false ∧
      denyCounter .host = some R.SYS_DENY_HOST :=
  ⟨by decide +kernel, by decide +kernel, by decide +kernel, ⟨_, rfl, by decide +kernel⟩, by decide +kernel, rfl⟩

theorem witness_AccessBad :
    sby.settled = true ∧ sby.domOn .mgt = true ∧ (R.THM_CFG + 1) % widthBytes .half ≠ 0 ∧
      debugWay .debug (R.THM_CFG + 1) = none ∧ debugWay .debug 0x10200000 = none ∧
      isAlias 0x10200000 = false ∧ place (0x10200000 - 0x10200000 % 4) = none := by decide +kernel

theorem witness_DomainIdles :
    let d := sby.modPwr fun p => { p with woken := [(.slc 8, 1024)] }
    let e := act.modPwr fun p => { p with woken := [(.msh, 1024)] }
    let f := sby.modPwr fun p => { p with woken := [(.lfe 7, 1024)] }
    f.settled = true ∧ (f.pwr.woken.any fun p => p.1 == .lfe 7 && decide (1024 ≤ p.2)) = true ∧ f.required (.lfe 7) = false ∧
      d.settled = true ∧ (d.pwr.woken.any fun p => p.1 == .slc 8 && decide (1024 ≤ p.2)) = true ∧ d.required (.slc 8) = false ∧
      e.settled = true ∧ (e.pwr.woken.any fun p => p.1 == .msh && decide (1024 ≤ p.2)) = true ∧ e.required .msh = true := by
  decide +kernel

theorem witness_DomainOff : (Dom.lfe 7) ≠ .aon := by decide

theorem witness_AccessWakes :
    ∀ x ∈ [Dom.slc 8, .lfe 7, .hg 3, .msh], isDataDomain x = true ∧ sby.settled = true ∧ sby.domOn .mgt = true ∧
      wakes .cpuM = true ∧ sby.heldDomain x = false ∧ sby.dstate ≠ stToSTANDBY ∧ sby.trusted .cpuM = true ∧
      sby.domOn x = false ∧ act.settled = true ∧ act.domOn x = true := by decide +kernel

theorem witness_MgtWakes :
    (inState stREST).settled = true ∧ (inState stREST).dstate = stREST ∧ (inState stREST).domOn .mgt = false ∧
      (inState stREST).mgmt.resetLow = false ∧ sby.settled = true ∧ sby.domOn .mgt = true := by decide +kernel

theorem witness_SliceWoken :
    sby.settled = true ∧ sby.domOn .mgt = true ∧ sby.domOn (.slc 8) = false ∧ wakes .cpuM = true ∧
      sby.heldDomain (.slc 8) = false ∧ sby.trusted .cpuM = true ∧ sby.dstate ≠ stToSTANDBY := by decide +kernel

theorem witness_LowWordRead :
    let d := lives [(F.SLC_PM_CFG_CH01 8, 1), (F.SLC_PM_CFG_CH23 0, 1)] act
    sby.settled = true ∧ sby.isLo (busTarget R.THM_CFG).1 = false ∧ debugWay .cpuM R.THM_CFG = none ∧
      (∀ a ∈ [R.CNT_PMC_LO 7, R.LANE_COR_BIN_LO 7 5, R.MAP_RX_DISC_LO 15, R.FEC_UNCORR_LO 15, R.CAL_LASTQ_LO 7 3, R.CNT_CYC_LO],
        a ∈ lowWords ∧ act.domOn .mgt = true ∧ act.domOn (domainOf a) = true ∧ act.domOn (domainOf (a + 0x8000)) = true) ∧
      d.settled = true ∧ d.lvOn (F.SLC_PM_CFG_CH01 8) = true ∧ d.lvOn (F.SLC_PM_CFG_CH23 0) = true ∧
      d.domOn .mgt = true ∧ d.domOn (domainOf (R.SLC_PMC 8 0)) = true ∧ d.domOn (domainOf (R.SLC_PMC 0 2)) = true := by
  decide +kernel

theorem witness_DebugRead :
    let a := 0x13FFFC
    let held (k : Nat) : Dev := (life 1 id).putCheck a (checkBits 0 ^^^ k)
    (∀ k ∈ [0, 1, 0x7F, 3], (held k).settled = true ∧ (held k).trusted .debug = true ∧ (held k).domOn .mgt = true ∧ a % 4 = 0 ∧
      debugWay .debug a = some 1) ∧
      classifyWord ((held 0).memWord a) ((held 0).memCheck a) = .clean ∧
      classifyWord ((held 1).memWord a) ((held 1).memCheck a) = .correctable 32 ∧
      classifyWord ((held 0x7F).memWord a) ((held 0x7F).memCheck a) = .poisoned ∧
      classifyWord ((held 3).memWord a) ((held 3).memCheck a) = .uncorrectable ∧
      (life 2 id).settled = true ∧ (life 2 id).domOn .mgt = true ∧ (life 2 id).trusted .debug = false :=
  ⟨by decide +kernel, by decide +kernel, classifyWord_check _ _ (by decide +kernel), classifyWord_poison _ _ (by decide +kernel),
    classifyWord_pair _ _ (by decide +kernel), by decide +kernel⟩

theorem witness_LowWordRead_debug :
    let d : Dev := { sby with sec := { sby.sec with lc := 1 } }
    let e := d.storePoison 0x13FFFC 0
    debugWay .debug 0x13FFFC = some 1 ∧ 0x13FFFC % 4 = 0 ∧ d.settled = true ∧ d.domOn .mgt = true ∧
      d.admits .debug 0x13FFFC = true ∧ classifyWord (d.memWord 0x13FFFC) (d.memCheck 0x13FFFC) = .clean ∧
      e.settled = true ∧ e.domOn .mgt = true ∧ e.admits .debug 0x13FFFC = true ∧
      classifyWord (e.memWord 0x13FFFC) (e.memCheck 0x13FFFC) = .poisoned :=
  ⟨by decide +kernel, by decide, by decide +kernel, by decide +kernel, by decide +kernel, by decide +kernel, by decide +kernel,
    by decide +kernel, by decide +kernel, classifyWord_poison _ _ (by decide +kernel)⟩

theorem witness_BoundaryOrdered :
    sby.settled = true ∧ sby.ticking = false ∧ act.settled = true ∧ act.ticking = true := by decide +kernel

theorem witness_TimeAdvances : sby.meshOn = false := by decide +kernel

theorem witness_SnapshotTaken :
    (act.regs.map Prod.fst).Nodup ∧ act.internalCapture R.THM_WARNS = true ∧ R.THM_WARNS % 0x10000 < 0x7F00 ∧
      (∀ k, k < 16 → R.THM_WARNS ≠ R.MAP_INFL k) := by decide +kernel

theorem witness_PressTaken : (0xFFFF : Nat) ≠ 0 ∧ 0xFFFF < 2 ^ 16 := by decide

theorem witness_SlotBegins :
    (act.modCpu fun c => { c with slotSeen := true }).cpu.slotSeen = true ∧
      (act.modCpu fun c => { c with slotSeen := false }).cpu.slotSeen = false := by decide +kernel

theorem witness_ReceivedBoundary :
    let d := data0.modFr 0 fun f => { f with slot := 16448 }
    let e := d.modPwr fun p => { p with sbyDown := 1 }
    d.settled = true ∧ d.samples 0 = true ∧ d.receives 0 = true ∧ d.ownBoundary 0 = true ∧ (d.lane 0).fr.slot = 16448 ∧
      e.settled = true ∧ e.samples 0 = true ∧ e.receives 0 = false ∧ e.ownBoundary 0 = true ∧ (e.lane 0).fr.slot = 16448 ∧
      sby.settled = true ∧ sby.samples 0 = false := by decide +kernel/-! ### The line, acquisition and relock -/

/-- A running transmitter of lane 0 at slot k. -/
def sending (k : Nat) : Dev := act.modTx 0 fun t => { t with start := 2, slot := k }

theorem witness_SlotUnsent :
    let d := act.modTx 0 fun t => { t with start := 1, slot := 0 }
    d.settled = true ∧ SlotOpen (st d) 0 ∧ (d.lane 0).tx.start < 2 ∧ slotKind (d.lane 0).tx.slot = .data 0 := by
  unfold SlotOpen; decide +kernel

theorem witness_SlotFixed :
    (sending 14648).settled = true ∧ SlotOpen (st (sending 14648)) 0 ∧ 2 ≤ ((sending 14648).lane 0).tx.start ∧
      slotKind ((sending 14648).lane 0).tx.slot = .marker 7 ∧
      (sending 16447).settled = true ∧ SlotOpen (st (sending 16447)) 0 ∧ 2 ≤ ((sending 16447).lane 0).tx.start ∧
      slotKind ((sending 16447).lane 0).tx.slot = .pilot 47 := by unfold SlotOpen; decide +kernel

theorem witness_SlotStitch :
    let d := sending 14905
    d.settled = true ∧ SlotOpen (st d) 0 ∧ 2 ≤ (d.lane 0).tx.start ∧ slotKind (d.lane 0).tx.slot = .stitch 7 ∧
      (d.link 0).gaspLeft = 0 ∧ (d.stitchOut 0 7).2.native = true ∧ (d.stitchOut 0 7).2.active = true ∧
      (d.stitchOut 0 7).2.on F.CLK_STAT_TICK_RUN = true ∧ ((d.stitchOut 0 7).2.lane 0).tx = (d.lane 0).tx := by
  unfold SlotOpen; decide +kernel

theorem witness_SlotData :
    let d := sending 255
    d.settled = true ∧ SlotOpen (st d) 0 ∧ 2 ≤ (d.lane 0).tx.start ∧ slotKind (d.lane 0).tx.slot = .data 255 := by
  unfold SlotOpen; decide +kernel

theorem witness_SlotClosed : act.settled = true ∧ ¬ SlotOpen (st (sending 16448)) 0 := by unfold SlotOpen; decide +kernel

theorem witness_ClockBegins :
    let d (k : Nat) := act.modLink 0 fun l => { l with gaspLeft := k }
    ∀ k ∈ [1, 2], ((d k).link 0).gaspLeft = k ∧ (d k).slotOpen 0 = true ∧ (d k).slotOpen 7 = true ∧ sby.slotOpen 0 = false := by
  decide +kernel

theorem witness_DataLeaf : act.lvOn (F.LANE_FEC_INJ_EN 0) = false := by decide +kernel

theorem witness_MarkerAt : (receiving 14648).settled = true ∧ Receiving (st (receiving 14648)) 0 (.marker 7) := by
  unfold Receiving; decide +kernel

theorem witness_PilotAt : (receiving 770).settled = true ∧ Receiving (st (receiving 770)) 0 (.pilot 0) := by
  unfold Receiving; decide +kernel

theorem witness_LeafAt : (receiving 0).settled = true ∧ Receiving (st (receiving 0)) 0 (.data 0) := by
  unfold Receiving; decide +kernel

theorem witness_LeafPassed :
    let d := lives [(F.BRL_CFG_SP_EN 0, 1)] data0
    slotKind 0 = .data 0 ∧ data0.awaitsJudge 0 = false ∧ data0.deliverLock 0 = true ∧ d.awaitsJudge 0 = false ∧
      d.deliverLock 0 = false := by decide +kernel

/-- The content of an idle device's markers. -/
def content0 : MarkerContent := data0.markerContent 0

theorem witness_MarkerJudged :
    let d (k : Nat) := data0.modFr 0 fun f => { f with lqn := content0.lqn, miss := k }
    (∀ k ∈ [2, 3], (d k).spLive 0 = false ∧ (d k).ownBoundary 0 = true ∧ (d k).on (F.LANE_FMT_STAT_MK_LOCK 0) = true ∧
      ((d k).lane 0).fr.miss = k ∧ content0.lqn = ((d k).lane 0).fr.lqn) ∧
      Dev.validMarker (markerLeaf content0 7) = some (true, 7, content0) ∧
      content0.ver = 1 ∧ Dev.validMarker (List.replicate 288 false) = none ∧
      Dev.validMarker (markerLeaf content0 6) = some (true, 6, content0) := by decide +kernel

/-- A weak marker: one bit of its second copy is wrong. -/
def weak (j : Nat) : List Bool := (markerLeaf content0 j).set 140 true

/-- Lane 0 in state MARKER without marker lock. -/
def seeking : Dev := sets [(F.LANE_FMT_STAT_MK_LOCK 0, 0), (F.LANE_EQ_STAT_ACQ 0, 6)] data0

theorem witness_MarkerSought :
    seeking.settled = true ∧ seeking.receives 0 = true ∧ seeking.native = true ∧ seeking.ownBoundary 0 = false := by decide +kernel

theorem witness_MarkerFound :
    let d (l : List (Nat × BitVec 24 × Nat)) := seeking.modRx 0 fun r => { r with cand := l }
    (∀ l ∈ [[], [(6, content0.lqn, 2056)]], (d l).on (F.LANE_FMT_STAT_MK_LOCK 0) = false ∧ ((d l).lane 0).rx.cand = l) ∧
      Dev.followsOn 6 content0.lqn 7 content0 = true ∧
      Dev.validMarker (markerLeaf content0 7) = some (true, 7, content0) ∧
      Dev.validMarker (weak 7) = some (false, 7, content0) := by decide +kernel

theorem witness_LeafCounted :
    let x := innerDecode 2 (innerEncode (List.replicate 272 true)) (List.replicate 144 1)
    x.bad = false ∧ x.pat = 0 := by decide +kernel

theorem witness_QueueFaulted :
    let d := sets [(F.LANE_TX_STAT_SQUELCHED 0, 1)] act
    d.settled = true ∧ Dev.isQueueFault .pllLost = true ∧ d.inRun 0 = true ∧
      Dev.queueFaultHeld (d.lane 0).tx .pllLost = false ∧ d.on (F.LANE_TX_STAT_SQUELCHED 0) = true := by decide +kernel

theorem witness_QueueSquelched :
    let d := sets [(F.LANE_TX_STAT_SQUELCHED 7, 0)] act
    d.settled = true ∧ Dev.isQueueFault (.fill 143) = true ∧ d.inRun 7 = true ∧
      d.on (F.LANE_TX_STAT_SQUELCHED 7) = false := by decide +kernel

theorem witness_QueueSound :
    act.settled = true ∧ Dev.isQueueFault (.fill 288) = false ∧ sby.settled = true ∧ sby.inRun 0 = false := by decide +kernel

theorem witness_QueueFills :
    let q : QSlot := ⟨[1], [0], false, false, 96, 4⟩
    (act.lane 0).tx.queue = [] ∧ ((act.modTx 0 fun t => { t with queue := [q] }).lane 0).tx.queue = [q] ∧
      ((act.modTx 0 fun t => { t with queue := [q, q, q] }).lane 0).tx.queue = q :: q :: [q] := by decide +kernel

theorem witness_TransmitterStarts :
    let d := act.modTx 7 fun t => { t with start := 1, slot := 0 }
    d.settled = true ∧ (d.lane 7).tx.start = 1 ∧ (d.lane 7).tx.slot = 0 ∧ d.inRun 7 = true ∧ d.domOn (.lfe 7) = true ∧
      d.on F.CLK_STAT_TICK_RUN = true := by decide +kernel

theorem witness_TransmitterWaits :
    let d := act.modTx 7 fun t => { t with start := 1, slot := 1 }
    act.settled = true ∧ (act.lane 7).tx.start ≠ 1 ∧ d.settled = true ∧ (d.lane 7).tx.slot ≠ 0 := by decide +kernel

/-- The active device in compatibility mode. -/
def compat : Dev := lives [(F.MAP_MODE_MODE, 4)] act

theorem witness_CompatLocked :
    compat.settled = true ∧ compat.native = false ∧ compat.receives 0 = true ∧ (compat.lane 0).rx.pmdLock = false := by
  decide +kernel

theorem witness_SlotCompat : SlotOpen (st compat) 7 ∧ compat.native = false := by unfold SlotOpen; decide +kernel

theorem witness_CompatNone : act.settled = true ∧ act.native = true := by decide +kernel

theorem witness_CompatLocked_lost :
    let d := compat.modRx 0 fun r => { r with pmdLock := true }
    d.settled = true ∧ d.native = false ∧ d.receives 0 = true ∧ (d.lane 0).rx.pmdLock = true := by decide +kernel

/-- Lane 0 in state a of acquisition with what it measured. -/
def inAcq (a : Nat) (f : Meas → Meas) : Dev := (sets [(F.LANE_EQ_STAT_ACQ 0, a), (F.LANE_EQ_STAT_SIG 0, 1)] act).modMs 0 f

/-- Lane 0 in state a with an AGC window of one slot that has ended, of sum of squares v, half its samples at a rail if c. -/
def agcWindow (a : Nat) (moved : Bool) (v : Nat) (c : Nat) : Dev :=
  inAcq a fun m => { m with agcEnd := true, agcMoved := moved, agcN := 1, agcSS := v, agcClip := c }

theorem witness_AgcHolds :
    let d := agcWindow 10 false (144 * 25 ^ 2 * 16) 0
    d.settled = true ∧ AgcReady (st d) 0 false ∧ agcLow d 0 = false ∧ agcHigh d 0 = false := by
  unfold AgcReady; decide +kernel

theorem witness_AgcCounted :
    let d (v q : Nat) := lives [(F.LANE_AGC_CFG_UP_Q 0, q), (F.LANE_AGC_CFG_DN_Q 0, q)] (agcWindow 10 false v 0)
    let loud := 144 * 127 ^ 2 * 16
    (∀ e ∈ [d 0 1, d 0 2, d loud 1], e.settled = true ∧ AgcReady (st e) 0 false) ∧
      agcLow (d 0 1) 0 = true ∧ agcHigh (d 0 1) 0 = false ∧ max 1 ((d 0 1).lv (F.LANE_AGC_CFG_UP_Q 0)) = 1 ∧
      max 1 ((d 0 2).lv (F.LANE_AGC_CFG_UP_Q 0)) = 2 ∧ ((d 0 2).lane 0).ad.agcUp = 0 ∧
      agcLow (d loud 1) 0 = false ∧ agcHigh (d loud 1) 0 = true := by unfold AgcReady; decide +kernel

theorem witness_AgcCounted_both :
    let d (q : Nat) := lives [(F.LANE_AGC_CFG_UP_Q 0, q), (F.LANE_AGC_CFG_DN_Q 0, q)] (agcWindow 10 false 0 100000)
    (∀ q ∈ [0, 1, 2], (d q).settled = true ∧ AgcReady (st (d q)) 0 false ∧ agcLow (d q) 0 = true ∧ agcHigh (d q) 0 = true) ∧
      (∀ q ∈ [0, 1], max 1 ((d q).lv (F.LANE_AGC_CFG_UP_Q 0)) ≤ ((d q).lane 0).ad.agcUp + 1 ∧
        max 1 ((d q).lv (F.LANE_AGC_CFG_DN_Q 0)) ≤ ((d q).lane 0).ad.agcDn + 1) ∧
      ¬ max 1 ((d 2).lv (F.LANE_AGC_CFG_UP_Q 0)) ≤ ((d 2).lane 0).ad.agcUp + 1 := by unfold AgcReady; decide +kernel

theorem witness_AgcMoved :
    (agcWindow 3 true 0 0).settled = true ∧ AgcReady (st (agcWindow 3 true 0 0)) 0 true := by unfold AgcReady; decide +kernel

theorem witness_AgcStepped :
    (sets [(F.LANE_RX_AFE_STAT_GAIN 0, 15)] data0).agcStuck 0 1 = true ∧ data0.agcStuck 0 1 = false ∧
      data0.ownBoundary 0 = true := by decide +kernel

/-- A whole window of acquisition without error. -/
def wholeWindow (a : Nat) : Dev := inAcq a fun m => { m with winSlots := 16448, winN := 4096 }

theorem witness_AcqWindowed :
    ∀ a ∈ [2, 3, 4, 5, 6, 10], (wholeWindow a).settled = true ∧ (wholeWindow a).hasSignal 0 = true ∧
      (wholeWindow a).windowLen 0 ≤ ((wholeWindow a).lane 0).ms.winSlots ∧ (wholeWindow a).acq 0 = a ∧
      mseBelow ((wholeWindow a).lane 0).ms ((wholeWindow a).lv (F.LANE_ACQ_CFG_MSE_DD 0)) = true ∧
      mseBelow ((wholeWindow a).lane 0).ms ((wholeWindow a).lv (F.LANE_ACQ_CFG_MSE_LK 0)) = true := by decide +kernel

theorem witness_SignalDetected :
    let d := inAcq 1 fun m => { m with above := 16 }
    d.settled = true ∧ d.acq 0 = 1 ∧ d.spLive 0 = false ∧ 16 ≤ (d.lane 0).ms.above := by decide +kernel

theorem witness_SignalLost :
    let d := inAcq 2 fun m => { m with below := 16 }
    d.settled = true ∧ 2 ≤ d.acq 0 ∧ d.spLive 0 = false ∧ 16 ≤ (d.lane 0).ms.below := by decide +kernel

theorem witness_SignalWaits :
    let d := inAcq 1 fun m => { m with above := 15, below := 15 }
    d.settled = true ∧ (d.lane 0).ms.above < 16 ∧ (d.lane 0).ms.below < 16 := by decide +kernel

theorem witness_AcqEntered : 9 < 10 ∧ act.acq 0 ≠ 10 := by decide +kernel

theorem witness_AcqTimedOut :
    let d := (inAcq 4 id).modRx 0 fun r => { r with tState := 2105345 }
    let e := (inAcq 9 id).modRx 0 fun r => { r with tAgc := 78424065 }
    d.settled = true ∧ d.acq 0 ≠ 9 ∧ d.acqBound 0 = some 2105344 ∧ 2105344 < (d.lane 0).rx.tState ∧
      e.settled = true ∧ e.acq 0 = 9 ∧ e.quiresOf 4768 < (e.lane 0).rx.tAgc := by decide +kernel

theorem witness_WarmFellBack :
    let d := (sets [(F.LANE_EQ_STAT_WARM 0, 1)] (inAcq 5 id)).modRx 0 fun r => { r with tState := 526337 }
    d.settled = true ∧ d.acq 0 = 5 ∧ d.on (F.LANE_EQ_STAT_WARM 0) = true ∧ (d.lane 0).rx.hit = false ∧
      d.quiresOf (if d.spLive 0 then 12 else 32) < (d.lane 0).rx.tState := by decide +kernel

theorem witness_IntervalEnded :
    (receiving 770).settled = true ∧ Receiving (st (receiving 770)) 0 (.pilot 0) ∧
      act.settled = true ∧ act.receives 0 = true ∧ act.ownBoundary 0 = false := by unfold Receiving; decide +kernel

theorem witness_EqCtrlWritten :
    let swap := sets [(F.SPR_STAT_PHASE, 3), (F.SPR_STAT_TLANE, 0)] data0
    let swap5 := sets [(F.LANE_EQ_STAT_ACQ 0, 5)] swap
    let acq5 := sets [(F.LANE_EQ_STAT_ACQ 0, 5)] data0
    let acq0 := sets [(F.LANE_EQ_STAT_ACQ 0, 0)] data0
    (∀ d ∈ [data0, swap, swap5, acq5, acq0], d.settled = true ∧ d.domOn .mgt = true ∧ d.domOn (domainOf (R.LANE_EQ_CTRL 0)) = true) ∧
      (0x102 : Word).getLsbD 4 = false ∧ (0x102 : Word).getLsbD 0 = false ∧
      (0x10 : Word).getLsbD 4 = true ∧ (0x10 : Word).getLsbD 0 = false ∧ (1 : Word).getLsbD 4 = false ∧ (1 : Word).getLsbD 0 = true ∧
      (0x11 : Word).getLsbD 4 = true ∧ (0x11 : Word).getLsbD 0 = true ∧
      (data0.inData 0 = true ∧ data0.inRun 0 = true ∧ data0.swapping 0 = false) ∧
      (swap.inData 0 = true ∧ swap.inRun 0 = true ∧ swap.swapping 0 = true) ∧
      (swap5.inData 0 = false ∧ swap5.inRun 0 = true ∧ swap5.acq 0 ≠ 0 ∧ swap5.swapping 0 = true) ∧
      (acq5.inData 0 = false ∧ acq5.inRun 0 = true ∧ acq5.acq 0 ≠ 0 ∧ acq5.swapping 0 = false) ∧
      (acq0.inData 0 = false ∧ acq0.inRun 0 = true ∧ acq0.acq 0 = 0) := by decide +kernel

theorem witness_PhcfgWritten : act.settled = true ∧ Reaches (st act) .cpuM (R.LANE_RX_PHCFG 7) :=
  ⟨by decide +kernel, reaches_cpu (by decide +kernel)⟩

theorem witness_NextWritten :
    act.settled = true ∧ Reaches (st act) .cpuM (R.BRL_NEXT 7) ∧ (0x10000 : Word).getLsbD 16 = true ∧
      (0xFFFF : Word).getLsbD 16 = false := ⟨by decide +kernel, reaches_cpu (by decide +kernel), by decide⟩

/-- Lane 0 in switched-path mode, its relock machine in state k. -/
def switched (k : Nat) (f : BrlSt → BrlSt) : Dev :=
  (lives [(F.BRL_CFG_SP_EN 0, 1)] (sets [(F.BRL_STAT_STATE 0, k)] act)).modBrl 0 f

theorem witness_LookupDone :
    let d := switched 2 fun b => { b with lookup := some 5 }
    d.settled = true ∧ (d.lane 0).brl.lookup = some 5 ∧
      (List.range 64).find? (fun i => ribbonValid (d.ribbonEntry 0 i) && ribbonSrc (d.ribbonEntry 0 i) == 5) = none := by
  decide +kernel

/-- The samples of 16 slots, all of sum of squares v, at gain 0. -/
def dark16 (v : Nat) (d : Dev) : Dev := d.modMs 0 fun m => { m with lvl := List.replicate 16 (0, v) }

theorem witness_SubwindowDark :
    (∀ v ∈ [0, 144 * 16384], (dark16 v (switched 1 id)).settled = true ∧ (dark16 v (switched 1 id)).receives 0 = true ∧
      (dark16 v (switched 1 id)).spLive 0 = true ∧ (dark16 v (switched 1 id)).brlState 0 = 1) := by decide +kernel

theorem witness_SubwindowQual :
    let j : Judge := ⟨3, true, true, 4, true⟩
    ∀ d ∈ [switched 6 fun b => { b with dark := 3, stronger := 3 }, switched 6 fun b => { b with judge := some j },
        switched 6 fun b => { b with judge := none }],
      d.settled = true ∧ d.receives 0 = true ∧ d.spLive 0 = true ∧ d.brlState 0 = 6 := by decide +kernel

theorem witness_SubwindowUnqual :
    let j (q : Bool) : Judge := ⟨3, true, q, 4, false⟩
    ∀ d ∈ [switched 4 fun b => { b with dark := 3, strong := 3 }, switched 3 fun b => { b with judge := some (j true) },
        switched 5 fun b => { b with judge := some (j false) }, switched 4 fun b => { b with judge := none }],
      d.settled = true ∧ d.receives 0 = true ∧ d.spLive 0 = true ∧ 3 ≤ d.brlState 0 ∧ d.brlState 0 ≠ 6 := by decide +kernel

theorem witness_PresetLoaded :
    let d := switched 3 id
    let e := sets [(F.BRL_STAT_STAGED 0, 1)] d
    d.settled = true ∧ d.spLive 0 = true ∧ d.brlState 0 = 3 ∧ (d.lane 0).brl.lookup = none ∧
      d.on (F.BRL_STAT_STAGED 0) = false ∧ e.settled = true ∧ e.spLive 0 = true ∧ e.brlState 0 = 3 ∧
      (e.lane 0).brl.lookup = none ∧ e.on (F.BRL_STAT_STAGED 0) = true := by decide +kernel

theorem witness_RibbonFellBack :
    let d := (lives [(F.BRL_CFG_SP_EN 0, 1)] (inAcq 5 id)).modRx 0 fun r => { r with hit := true, tState := 515 }
    d.settled = true ∧ d.spLive 0 = true ∧ d.acq 0 = 5 ∧ (d.lane 0).rx.hit = true ∧ 514 < (d.lane 0).rx.tState := by
  decide +kernel/-! ### Receive sampling, capture, calibration and the flyleaf -/

theorem witness_RotationStepped :
    let d := (lives [(F.LANE_ADC_CFG_ROT_Q 0, 1)] act).modRx 0 fun r => { r with rotQ := 1 }
    d.settled = true ∧ d.lv (F.LANE_ADC_CFG_ROT_Q 0) ≠ 0 ∧ d.lv (F.LANE_ADC_CFG_ROT_Q 0) ≤ (d.lane 0).rx.rotQ := by
  decide +kernel

theorem witness_CoreMatched :
    (∀ c : Fin 2, act.on (rstop 0 c) = false ∧ (act.core 0 c).ok = false ∧ (act.core 0 c).chk = false ∧ (act.core 0 c).rep = [] ∧
      (act.core 0 c).bad = false) ∧ matches_ ⟨-8192, 147456⟩ = true := by decide +kernel

theorem witness_RotationSwitched :
    act.settled = true ∧ act.ownBoundary 0 = false ∧
      (receiving 770).settled = true ∧ slotKind ((receiving 770).lane 0).fr.slot = .pilot 0 ∧
      (receiving 0).settled = true ∧ (receiving 0).ownBoundary 0 = true ∧ slotKind ((receiving 0).lane 0).fr.slot = .data 0 := by
  decide +kernel

theorem witness_CoreSwitched :
    let d := act.modRx 0 fun r => { r with ok0 := true, ok1 := true }
    ∀ c : Fin 2, (d.core 0 c).ok = true ∧ (d.core 0 c).rep = [] := by decide +kernel

theorem witness_CoreReplaced :
    ∀ c : Fin 2, let d := act.setCore 0 c { act.core 0 c with ok := true, rep := [(act.core 0 c).pos.getD (act.core 0 c).tgt 0] }
      (d.core 0 c).ok = true ∧ (d.core 0 c).rep.head? = some ((d.core 0 c).pos.getD (d.core 0 c).tgt 0) := by decide +kernel

theorem witness_OfflineChecked :
    let d := (sets [(F.LANE_ADC_CFG_TRIM_HOLD 0, 1)] act).modRx 0 fun r => { r with chk1 := true }
    let e (k : Nat) := lives [(F.LANE_ADC_CFG_CAL_EN 0, k)] ((sets [(F.LANE_ADC_CFG_TRIM_HOLD 0, 0)] act).modRx 0 fun r =>
      { r with chk1 := true })
    act.settled = true ∧ (act.core 0 1).chk = false ∧ d.settled = true ∧ (d.core 0 1).chk = true ∧
      (-128 : Int).natAbs ≤ 128 ∧ (512 : Int).natAbs ≤ 512 ∧ d.on (F.LANE_ADC_CFG_TRIM_HOLD 0) = true ∧
      (∀ k ∈ [0, 1], (e k).settled = true ∧ ((e k).core 0 1).chk = true ∧ (e k).on (F.LANE_ADC_CFG_TRIM_HOLD 0) = false ∧
        ((e k).lvOn (F.LANE_ADC_CFG_CAL_EN 0) = true ↔ k = 1)) ∧
      128 < (-129 : Int).natAbs ∧ 512 < (-513 : Int).natAbs := by decide +kernel

theorem witness_RetireKept :
    act.settled = true ∧ Reaches (st act) .cpuM (R.LANE_ADC_RET 0) ∧
      (∀ c : Fin 2, act.fld (retField 0 c) ≠ 0x7F ∨
        (64 < (0x4141 : Word).toNat / 2 ^ (8 * c.val) % 2 ^ 7 ∧ act.fld (retField 0 c) = 0x7F)) :=
  ⟨by decide +kernel, reaches_cpu (by decide +kernel), by decide +kernel⟩

theorem witness_UnitRetired :
    let d := sets [(retField 0 1, 5)] act
    let e := sets [(rstop 0 0, 1)] d
    (∀ x ∈ [d, e], x.settled = true ∧ x.domOn .mgt = true ∧ x.domOn (domainOf (R.LANE_ADC_RET 0)) = true ∧
      x.fld (retField 0 0) = 0x7F ∧ x.fld (retField 0 1) ≠ 0x7F ∧ x.calUnit 0 0 ≤ 64 ∧ x.calUnit 0 0 ≠ 7) ∧
      d.on (rstop 0 0) = false ∧ e.on (rstop 0 0) = true ∧ 7 ∉ (d.core 0 0).rep ∧
      7 ∈ ((d.setCore 0 0 { d.core 0 0 with rep := [7] }).core 0 0).rep := by decide +kernel

theorem witness_CaptureControlled :
    let d := sets [(F.CAL_CAP_STAT_STATE, 2)] act
    let e := d.modCap fun c => { c with cfg := 0x80000000, left := some 0 }
    act.settled = true ∧ Reaches (st act) .cpuM R.CAL_CAP_CTRL ∧ act.capOpen = false ∧
      d.settled = true ∧ Reaches (st d) .cpuM R.CAL_CAP_CTRL ∧ d.capOpen = true ∧ d.capFull = false ∧
      e.settled = true ∧ Reaches (st e) .cpuM R.CAL_CAP_CTRL ∧ e.capState = 2 ∧ e.capFull = true ∧
      (1 : Word).getLsbD 1 = false ∧ (1 : Word).getLsbD 0 = true ∧ (2 : Word).getLsbD 1 = true :=
  ⟨by decide +kernel, reaches_cpu (by decide +kernel), by decide +kernel, by decide +kernel, reaches_cpu (by decide +kernel),
    by decide +kernel, by decide +kernel, by decide +kernel, reaches_cpu (by decide +kernel), by decide +kernel, by decide +kernel,
    by decide, by decide, by decide⟩

theorem witness_CaptureChecked : act.capOpen = false := by decide +kernel

theorem witness_CaptureTriggered :
    let d := (sets [(F.CAL_CAP_STAT_STATE, 1)] act).modCap fun c => { c with due := true }
    d.settled = true ∧ d.capState = 1 ∧ d.cap.due = true := by decide +kernel

theorem witness_CaptureDone :
    let d := (sets [(F.CAL_CAP_STAT_STATE, 2)] act).modCap fun c => { c with cfg := 0x80000000, left := some 0 }
    d.settled = true ∧ d.capState = 2 ∧ d.capTrig = 2 ∧ d.capFull = true := by decide +kernel

theorem witness_CalCommanded :
    act.settled = true ∧ Reaches (st act) .cpuM (R.CAL_CMD 7) ∧ (0x1F : Word).getLsbD 4 = true ∧
      (0xF : Word).getLsbD 4 = false := ⟨by decide +kernel, reaches_cpu (by decide +kernel), by decide⟩

/-- Lane 0 with calibration enabled. -/
def calOn : Dev :=
  lives [(⟨R.CAL_CFG 0, 0, 4⟩, 15), (F.LANE_ADC_CFG_CAL_EN 0, 1), (F.LANE_TX_CFG_CAL_EN 0, 1)] act

theorem witness_CalTriggered :
    let busy := calOn.modCal 0 3 fun c => { c with phase := 1 }
    let held := sets [(F.LANE_TX_CFG_NLT_HOLD 0, 1)] calOn
    (lives [(⟨R.CAL_CFG 0, 0, 4⟩, 0)] act).lvOn ⟨R.CAL_CFG 0, 3, 1⟩ = false ∧ busy.calBusy 0 3 = true ∧
      held.lvOn ⟨R.CAL_CFG 0, 3, 1⟩ = true ∧ held.calBusy 0 3 = false ∧ held.calHeld 0 3 = true ∧
      calOn.lvOn ⟨R.CAL_CFG 0, 3, 1⟩ = true ∧ calOn.calBusy 0 3 = false ∧ calOn.calHeld 0 3 = false := by decide +kernel

/-- A run of item 0 of lane 0 at the end of a window of one quire. -/
def calRunning (ph : Nat) (est : List (Option Int)) (re : Nat) : Dev :=
  act.modCal 0 0 fun c => { c with phase := ph, begun := true, quires := 1, cfg := 0, tol := 0, est1 := est, retries := re }

theorem witness_CalFirstWindow :
    (calRunning 1 [] 0).settled = true ∧ CalJudged (st (calRunning 1 [] 0)) 0 0 ∧
      ((calRunning 1 [] 0).calItem 0 0).phase = 1 := by unfold CalJudged; decide +kernel

theorem witness_CalSecondWindow :
    let d := calRunning 2 ((act.calEstimate 0 0 []).1) 1
    let e := calRunning 2 ((act.calEstimate 0 0 []).1.map fun _ => some 100) 1
    d.settled = true ∧ CalJudged (st d) 0 0 ∧ (d.calItem 0 0).phase = 2 ∧
      calAgree 0 0 (d.calItem 0 0) (d.calItem 0 0).est1 (d.calEstimate 0 0 (d.calItem 0 0).ended).1 = true ∧
      e.settled = true ∧ CalJudged (st e) 0 0 ∧ (e.calItem 0 0).phase = 2 ∧ 0 < (e.calItem 0 0).retries := by
  unfold CalJudged; decide +kernel

/-- A run of transmit item i of lane 0 at the end of a window of one quire. -/
def calTx (i : Fin 4) : Dev :=
  act.modCal 0 i fun c => { c with phase := 2, begun := true, quires := 1048576, cfg := 0, tol := 0, retries := 1 }

theorem witness_CalDiscarded :
    let calTx (i : Fin 4) := sets [(F.LANE_TX_STAT_TX_RUN 0, 1), (F.LANE_TX_STAT_SQUELCHED 0, 0)] (calTx i)
    let shut := sets [(F.LANE_TX_STAT_SQUELCHED 0, 1)] (calTx 2)
    shut.settled = true ∧ shut.calWindowOver 0 2 = true ∧ shut.calFg 0 2 = false ∧ 0 < (shut.calItem 0 2).retries ∧
      shut.transmitEst 0 = false ∧ (calTx 3).settled = true ∧ (calTx 3).calWindowOver 0 3 = true ∧ (calTx 3).calFg 0 3 = false ∧
      0 < ((calTx 3).calItem 0 3).retries ∧ (calTx 3).transmitEst 0 = true ∧ fewSamples ((calTx 3).calItem 0 3).ended = true := by
  decide +kernel

theorem witness_CalForegroundWindow :
    let d := sets [(⟨R.CAL_STAT 0, 4, 1⟩, 1)] (calRunning 1 [] 0)
    d.settled = true ∧ d.calWindowOver 0 0 = true ∧ d.calFg 0 0 = true ∧ d.calWindow 0 0 = 1 := by decide +kernel

theorem witness_CalOtherWindow :
    act.settled = true ∧ act.calWindowOver 0 0 = false ∧ (calRunning 1 [] 0).settled = true ∧
      2 ≠ (calRunning 1 [] 0).calWindow 0 0 := by decide +kernel

theorem witness_CalTakenUp :
    let d := (calRunning 4 [] 0).modCal 0 0 fun c => { c with taken := true }
    d.settled = true ∧ (d.calItem 0 0).phase = 4 ∧ (d.calItem 0 0).taken = true ∧ d.calFg 0 0 = false ∧
      act.settled = true ∧ (act.calItem 0 0).taken = false := by decide +kernel

theorem witness_TrimsTakenUp :
    (sets [(F.LANE_ADC_CFG_TRIM_HOLD 0, 1)] act).on (F.LANE_ADC_CFG_TRIM_HOLD 0) = true ∧
      act.on (F.LANE_ADC_CFG_TRIM_HOLD 0) = false ∧ (act.calItem 0 0).phase ≠ 4 ∧ (act.calItem 0 1).phase ≠ 4 := by
  decide +kernel

theorem witness_RotationFell :
    let d := lives [(F.SPR_CFG_ROT_EN, 1), (F.SPR_CFG_ROT_EXP, 16)] (act.setReg R.SPR_ROTQ 65536)
    d.settled = true ∧ d.lvOn F.SPR_CFG_ROT_EN = true ∧ d.exhausted = false ∧ d.on F.SPR_STAT_ROT_DUE = false ∧
      d.spr.holdoff = 0 ∧ 2 ^ max 16 (d.lv F.SPR_CFG_ROT_EXP) ≤ (d.reg R.SPR_ROTQ).toNat := by decide +kernel

theorem witness_SprControlled :
    let shadowing := sets [(F.SPR_STAT_PHASE, 1)] act
    let asked := act.modSpr fun p => { p with cmd := [7] }
    act.settled = true ∧ Reaches (st act) .cpuM R.SPR_CTRL ∧ act.phase = 0 ∧ act.spr.cmd = [] ∧
      (∀ v : Word, v = 0x17 ∨ v = 0x37 → v.getLsbD 4 = true ∧ act.inRun (Fin.ofNat 8 (v.toNat % 8)) = true) ∧
      (0x17 : Word).getLsbD 5 = false ∧ (0x37 : Word).getLsbD 5 = true ∧
      (0x20 : Word).getLsbD 4 = false ∧ (0x20 : Word).getLsbD 5 = true ∧
      shadowing.settled = true ∧ Reaches (st shadowing) .cpuM R.SPR_CTRL ∧ shadowing.phase ≠ 0 ∧
      asked.settled = true ∧ Reaches (st asked) .cpuM R.SPR_CTRL ∧ Fin.ofNat 8 ((0x17 : Word).toNat % 8) ∈ asked.spr.cmd :=
  ⟨by decide +kernel, reaches_cpu (by decide +kernel), by decide +kernel, by decide +kernel,
    fun v h => by rcases h with rfl | rfl <;> decide +kernel, by decide, by decide, by decide, by decide, by decide +kernel,
    reaches_cpu (by decide +kernel), by decide +kernel, by decide +kernel, reaches_cpu (by decide +kernel), by decide +kernel⟩

/-- The active device with S8 as its flyleaf and a swap of lane 0 asked for. -/
def swapAsked : Dev := (sets [(F.SPR_STAT_FLY, 8)] data0).modSpr fun p => { p with cmd := [0] }

theorem witness_ShadowStarted :
    let d := (sets [(F.SPR_STAT_REPAIR_PEND, 1)] swapAsked).modSpr fun p => { p with repairs := [(0, 0)], cmd := [] }
    d.settled = true ∧ d.dueShadow = some (0, 2) ∧ (d.lane 0).tx.slot = 0 ∧ (2 : Nat) ≠ 1 := by decide +kernel

theorem witness_ConvergeJudged :
    ∀ k ∈ [2, 3], let d := (sets [(F.SPR_STAT_PHASE, 1)] act).modSpr fun p => { p with age := k }
      d.settled = true ∧ d.phase = 1 ∧ d.spr.age = k := by decide +kernel

theorem witness_ShadowEnded :
    let d := sets [(F.SPR_STAT_PHASE, 2), (F.SPR_STAT_KIND, 1)] act
    (d.phase = 1 ∨ d.phase = 2) ∧ d.kind = 1 ∧ 7 ≠ 2 ∧ 7 < 8 := by decide +kernel

theorem witness_MismatchJudged :
    (∀ p ∈ [2, 3], let d := sets [(F.SPR_STAT_PHASE, p), (F.SPR_STAT_KIND, 2), (F.SPR_STAT_FLY, 8)] act
      d.settled = true ∧ d.kind ≠ 3 ∧ d.phase = p) ∧ (sets [(F.SPR_STAT_KIND, 3)] act).kind = 3 := by decide +kernel

theorem witness_SwapUndone :
    ∀ k ∈ [0, 1, 2], let d := (sets [(F.SPR_STAT_PHASE, 4), (F.SPR_STAT_KIND, k)] act).modSpr fun p => { p with wholeQ := true }
      d.settled = true ∧ d.phase = 4 ∧ d.spr.wholeQ = true ∧ d.kind = k := by decide +kernel

theorem witness_AttemptCounted : (act.modSpr fun p => { p with repairs := [(3, 1)] }).spr.repairs = [(3, 1)] := by decide +kernel

theorem witness_SliceStays :
    let d := sets [(F.SPR_STAT_EXHAUSTED, 1), (F.SPR_RET_RET, 0)] act
    d.exhausted = true ∧ (d.laneOf 5).isSome = true := by decide +kernel

theorem witness_RetWritten :
    act.settled = true ∧ Reaches (st act) .cpuM R.SPR_RET ∧ act.retired = 15 ∧ (8 : Word).toNat % 16 ≤ 8 ∧
      8 < (9 : Word).toNat % 16 ∧ (sets [(F.SPR_RET_RET, 8)] act).retired ≠ 15 :=
  ⟨by decide +kernel, reaches_cpu (by decide +kernel), by decide +kernel⟩
/-! ### The mesh -/

/-- A received stitch leaf of slot word w. -/
def leafAt (w : Nat) : StitchLeaf := ⟨w, linkLeaf (0xC8 * 2 ^ 248), false⟩

/-- Link 0 UP with leaves in its inbox. -/
def linked (ls : List StitchLeaf) : Dev := (sets [(F.MSH_NBR_STAT_LSTATE 0, 2)] act).modLink 0 fun l => { l with inbox := ls }

theorem witness_HelloTaken :
    (linked [leafAt 0]).settled = true ∧ ((linked [leafAt 0]).link 0).inbox.find? (fun x => x.w == 0) = some (leafAt 0) := by
  decide +kernel

theorem witness_HelloIgnored : linkFcsOk (linkLeaf 0 ^^^ 1#272) = false ∧ linkFcsOk (leafAt 0).bits = true := by decide +kernel

theorem witness_HelloTimedOut :
    ∀ k ∈ [3, 4], let d := (linked []).modLink 0 fun l => { l with misses := k }
      d.settled = true ∧ d.linkUp 0 = true ∧ (d.link 0).misses = k := by decide +kernel

theorem witness_TimeKept :
    let d := sets [(F.MSH_TSTAT_PARENT, 15)] (linked [leafAt 4])
    d.settled = true ∧ (d.link 0).inbox.find? (fun x => x.w == 4) = some (leafAt 4) ∧ (leafAt 4).bad = false ∧
      leafField (leafAt 4).bits 271 264 = 0xC8 ∧ linkFcsOk (leafAt 4).bits = true ∧ d.parent ≠ ((0 : Lane) : Nat) := by decide +kernel

theorem witness_TimeFollowed :
    let d := sets [(F.MSH_TSTAT_PARENT, 0)] (linked [leafAt 4])
    d.settled = true ∧ (d.link 0).inbox.find? (fun x => x.w == 4) = some (leafAt 4) ∧ (leafAt 4).bad = false ∧
      leafField (leafAt 4).bits 271 264 = 0xC8 ∧ linkFcsOk (leafAt 4).bits = true ∧ d.parent = ((0 : Lane) : Nat) := by decide +kernel

theorem witness_TimeDisciplined :
    let d (k a t h : Nat) : Dev := (sets [(F.MSH_TSTAT_TSTATE, k)] act).modMsh fun m =>
      { m with acqRun := a, trackRun := t, stepHold := h }
    (∀ a ∈ [14, 15], ∀ h ∈ [0, 256], (d 1 a 0 h).meshState = 1 ∧ (d 1 a 0 h).msh.acqRun = a ∧ (d 1 a 0 h).msh.stepHold = h) ∧
      (∀ t ∈ [2, 3], (d 2 0 t 0).meshState = 2 ∧ (d 2 0 t 0).msh.trackRun = t) ∧
      (∀ e ∈ [(511 : Int), -511], e.natAbs < 512) ∧ (∀ e ∈ [(512 : Int), -512, 8191], 512 ≤ e.natAbs ∧ e.natAbs < 8192) ∧
      (∀ e ∈ [(8192 : Int), -8192], 8192 ≤ e.natAbs) := by decide +kernel

theorem witness_TrafficTaken :
    (linked [leafAt 7]).settled = true ∧ (linked [leafAt 7]).linkUp 0 = true ∧
      ((linked [leafAt 7]).link 0).inbox.filter (fun x => x.w != 0 && x.w != 4) = [leafAt 7] ∧
      ((linked []).link 0).inbox.filter (fun x => x.w != 0 && x.w != 4) = [] ∧ act.settled = true ∧ act.linkUp 0 = false := by
  decide +kernel

/-- A request of another device for one word at `CLK.PRESS_STAT`. -/
def request (type : Nat) (pay : List Byte) : Stitch := ⟨1, 2, type, 1, 0, [0, 0, 1, 0] ++ bytesBE 4 R.CLK_PRESS_STAT ++ pay, none, 0, false⟩

/-- The active device with that request waiting. -/
def asked (en : Nat) (r : Stitch) : Dev :=
  (lives [(F.MSH_RA_CFG_RD_EN, en), (F.MSH_RA_CFG_WR_EN, en), (⟨R.MSH_RA_WMASK, 0, 32⟩, 2 ^ 32 - 1)] act).modMsh fun m =>
    { m with requests := [r] }

theorem witness_RemoteReadRefused :
    let d := asked 0 (request 2 [])
    d.settled = true ∧ d.msh.requests = [request 2 []] ∧ (request 2 []).type = 2 ∧ d.domOn .msh = true ∧
      d.requestStatus false (request 2 []) ≠ 0 := by decide +kernel

theorem witness_RemoteReadServed :
    let d := asked 1 (request 2 [])
    d.settled = true ∧ d.msh.requests = [request 2 []] ∧ (request 2 []).type = 2 ∧ d.domOn .msh = true ∧
      d.requestStatus false (request 2 []) = 0 := by decide +kernel

theorem witness_RemoteWritten :
    let r := request 3 [0, 0, 0, 1]
    ∀ en ∈ [0, 1], (asked en r).settled = true ∧ (asked en r).msh.requests = [r] ∧ r.type = 3 ∧ (asked en r).domOn .msh = true ∧
      ((asked en r).requestStatus true r = 0 ↔ en = 1) := by decide +kernel

theorem witness_RemoteDisabled :
    sby.lvOn F.MSH_RA_CFG_WR_EN = false ∧ (asked 0 (request 2 [])).lvOn F.MSH_RA_CFG_RD_EN = false := by decide +kernel

/-- A route to address 9 by lane 3, of age a. -/
def route9 (a : Nat) : Route := ⟨9, 1, 3, false, false, 0, a, 0⟩

/-- The active device with that route. -/
def routed (a : Nat) : Dev := act.modMsh fun m => { m with routes := [route9 a], advQ := a, addrQ := 2 * a }

theorem witness_RoutesAdvertised :
    act.settled = true ∧ act.meshOn = true ∧ act.msh.advQ < act.routePeriod ∧
      (routed act.routePeriod).settled = true ∧ (routed act.routePeriod).meshOn = true ∧
      (routed act.routePeriod).routePeriod ≤ (routed act.routePeriod).msh.advQ := by decide +kernel

theorem witness_RoutesKept :
    let d := routed (4 * act.routePeriod - 1)
    d.settled = true ∧ d.meshOn = true ∧ (∀ r ∈ d.msh.routes, r.dist ≠ 63 ∧ r.age < 4 * d.routePeriod) := by decide +kernel

/-- The active device with a fresh route, one unconfirmed for four periods, one that was unreachable for a period and one that was not. -/
def oldRoutes : Dev := act.modMsh fun m =>
  { m with routes := [{ route9 0 with addr := 1 }, { route9 (4 * act.routePeriod) with addr := 2 },
      { route9 0 with addr := 3, dist := 63, gone := act.routePeriod }, { route9 0 with addr := 4, dist := 63, gone := act.routePeriod - 1 }] }

theorem witness_RoutesAged :
    let gone := (after .routeExpiry oldRoutes).msh
    oldRoutes.settled = true ∧ oldRoutes.meshOn = true ∧ oldRoutes.msh.routes.map (·.dist) = [1, 1, 63, 63] ∧
      gone.routes.map (fun r => (r.addr, r.dist)) = [(1, 1), (2, 63), (4, 63)] ∧ gone.advDue = [2] ∧ gone.removed.map (·.addr) = [3] := by
  decide +kernel

theorem witness_StitchesKept :
    let x : Stitch := ⟨9, 2, 7, 1, 0, [], none, 2 ^ act.lv F.MSH_CFG_AGE_EXP - 1, true⟩
    let d := act.modLink 0 fun l => { l with queue := [x] }
    d.settled = true ∧ d.meshOn = true ∧ (∀ n : Lane, ∀ x ∈ (d.link n).queue, x.age < 2 ^ d.lv F.MSH_CFG_AGE_EXP) ∧
      (∀ x ∈ d.msh.ringWait, x.age < 2 ^ d.lv F.MSH_CFG_AGE_EXP) := by decide +kernel

theorem witness_StitchDropped :
    let x (a : Nat) : Stitch := ⟨9, 2, 7, 1, 0, [], none, a, true⟩
    let b := 2 ^ act.lv F.MSH_CFG_AGE_EXP
    let d := act.modLink 7 fun l => { l with queue := [x b, x (b - 1)] }
    d.settled = true ∧ d.meshOn = true ∧ (d.link 7).queue = x b :: [x (b - 1)] ∧ ¬ (x b).age < b ∧
      (∀ y ∈ [x (b - 1)], y.age < b) ∧ (∀ n : Lane, n ≠ 7 → ∀ y ∈ (d.link n).queue, y.age < b) ∧
      (∀ y ∈ d.msh.ringWait, y.age < b) := by decide +kernel

theorem witness_AddressSettled :
    let d := sets [(F.MSH_ADDR_STAT_ASTATE, 1)] (routed act.routePeriod)
    d.settled = true ∧ d.meshOn = true ∧ d.astate = 1 ∧ d.msh.loseDue = false ∧ 2 * d.routePeriod ≤ d.msh.addrQ := by
  decide +kernel

theorem witness_SlotArmed :
    act.settled = true ∧ Reaches (st act) .cpuM (R.MSH_SCHED_CTRL 1) ∧ (0x80000000 : Word).getLsbD 31 = true :=
  ⟨by decide +kernel, reaches_cpu (by decide +kernel), by decide⟩

theorem witness_SendRefused :
    let d := sets [(F.MSH_TX_STAT_STATE, 1)] act
    let e := sets [(F.MSH_TX_HDR_PLEN, 251)] act
    (d.settled = true ∧ Reaches (st d) .cpuM R.MSH_TX_CTRL ∧ (1 : Word).getLsbD 0 = true ∧ d.msh.leaving = false ∧
      d.fld F.MSH_TX_STAT_STATE = 1) ∧
    (e.settled = true ∧ Reaches (st e) .cpuM R.MSH_TX_CTRL ∧ e.msh.leaving = false ∧ e.fld F.MSH_TX_STAT_STATE ≠ 1 ∧
      250 < e.fld F.MSH_TX_HDR_PLEN) :=
  ⟨⟨by decide +kernel, reaches_cpu (by decide +kernel), by decide +kernel⟩,
    ⟨by decide +kernel, reaches_cpu (by decide +kernel), by decide +kernel⟩⟩

theorem witness_SendQueued :
    let d := sets [(F.MSH_TX_HDR_TYPE, 7), (F.MSH_TX_HDR_PLEN, 250), (F.MSH_TX_HDR_DST, 9)] (routed 0)
    d.settled = true ∧ Reaches (st d) .cpuM R.MSH_TX_CTRL ∧ (1 : Word).getLsbD 0 = true ∧ d.msh.leaving = false ∧
      d.fld F.MSH_TX_STAT_STATE ≠ 1 ∧ d.fld F.MSH_TX_HDR_TYPE = 7 ∧ d.fld F.MSH_TX_HDR_PLEN ≤ 250 ∧
      d.localStitch.dst.toNat ≠ d.maddr ∧ d.routeLane d.localStitch.dst.toNat = some 3 :=
  ⟨by decide +kernel, reaches_cpu (by decide +kernel), by decide +kernel⟩

theorem witness_SendEnded :
    let d := act.modMsh fun m => { m with localSent := true }
    d.settled = true ∧ d.msh.localSent = true := by decide +kernel

theorem witness_RingPopped :
    let d := act.modMsh fun m => { m with ring := [request 7 []], ringHead := 7 }
    act.settled = true ∧ Reaches (st act) .cpuM R.MSH_RX_CTRL ∧ (1 : Word).getLsbD 0 = true ∧ act.msh.ring = [] ∧
      d.settled = true ∧ Reaches (st d) .cpuM R.MSH_RX_CTRL ∧ d.msh.ring = [request 7 []] ∧ d.msh.ringWait = [] :=
  ⟨by decide +kernel, reaches_cpu (by decide +kernel), by decide, by decide +kernel, by decide +kernel,
    reaches_cpu (by decide +kernel), by decide +kernel⟩
/-! ### Housekeeping, the processor, the memories and the DMA engine -/

theorem witness_SubintervalStarts :
    let d : Dev := { act with hkp := { act.hkp with sub := 15 } }
    let e : Dev := { act with hkp := { act.hkp with sub := 16 } }
    d.settled = true ∧ d.hkp.sub < 16 ∧ d.on F.CLK_STAT_TICK_RUN = true ∧ d.domOn .mgt = true ∧
      e.settled = true ∧ 16 ≤ e.hkp.sub ∧ sby.settled = true ∧ sby.on F.CLK_STAT_TICK_RUN = false := by decide +kernel

theorem witness_BiasStepped :
    let d : Dev := { act with hkp := { act.hkp with goal := Vector.replicate 24 16383 } }
    let e := sets [(F.HKP_BSTAT_OUT 23, 16383)] act
    d.hkp.goal[23] < 2 ^ 14 ∧ d.fld (F.HKP_BSTAT_OUT 23) ≤ d.hkp.goal[23] ∧
      e.hkp.goal[23] < 2 ^ 14 ∧ e.hkp.goal[23] < e.fld (F.HKP_BSTAT_OUT 23) := by decide +kernel

theorem witness_BiasTaken :
    let d := sets [(F.HKP_BCFG_RATE 3, 7), (F.HKP_BSTAT_OUT 3, 40)] act
    let e := sets [(F.HKP_BSTAT_SAFE 3, 1)] d
    0 * 8 / 16 = (0 + 1) * 8 / 16 ∧ d.fld (F.HKP_BCFG_RATE 3) + 1 = 8 ∧ e.on (F.HKP_BSTAT_SAFE 3) = true ∧
      d.on (F.HKP_BSTAT_SAFE 3) = false ∧ d.on (F.HKP_BDIT_DEN 3) = false ∧ d.fld (F.HKP_BSTAT_OUT 3) < 2 ^ 14 ∧
      d.hkp.goal[3] < 2 ^ 14 := by decide +kernel

theorem witness_SafeHeld :
    let d : Dev := { act with hkp := { act.hkp with causeSup := true } }
    d.settled = true ∧ Reaches (st d) .cpuM R.HKP_BCTRL ∧ (1 : Word).getLsbD 0 = true ∧ d.safeCause = true :=
  ⟨by decide +kernel, reaches_cpu (by decide +kernel), by decide +kernel⟩

theorem witness_SafeUnasked : act.settled = true ∧ Reaches (st act) .cpuM R.HKP_BCTRL ∧ (2 : Word).getLsbD 0 = false :=
  ⟨by decide +kernel, reaches_cpu (by decide +kernel), by decide⟩

theorem witness_SafeCleared :
    let d : Dev := { act with hkp := { act.hkp with causeSup := false, causeSby := false } }
    d.settled = true ∧ Reaches (st d) .cpuM R.HKP_BCTRL ∧ (1 : Word).getLsbD 0 = true ∧ d.safeCause = false :=
  ⟨by decide +kernel, reaches_cpu (by decide +kernel), by decide +kernel⟩

/-- A firmware's conversion of channel 31 that closes. -/
def closing : Dev := act.modHkp fun h => { h with closing := some ⟨3, 31, 0, 0⟩ }

theorem witness_ConversionClosed : closing.settled = true ∧ closing.hkp.closing = some ⟨3, 31, 0, 0⟩ := by decide +kernel

theorem witness_ConversionFaulted : closing.settled = true ∧ closing.hkp.closing = some ⟨3, 31, 0, 0⟩ := by decide +kernel

theorem witness_NoConversion : act.settled = true ∧ act.hkp.closing = none := by decide +kernel

theorem witness_UrgentAsked :
    let d := sets [(F.HKP_SEQ_STAT_UPEND, 1)] act
    act.settled = true ∧ Reaches (st act) .cpuM R.HKP_UREQ ∧ (0x80000000 : Word).getLsbD 31 = true ∧
      act.on F.HKP_SEQ_STAT_UPEND = false ∧ d.settled = true ∧ Reaches (st d) .cpuM R.HKP_UREQ ∧
      d.on F.HKP_SEQ_STAT_UPEND = true :=
  ⟨by decide +kernel, reaches_cpu (by decide +kernel), by decide, by decide +kernel, by decide +kernel,
    reaches_cpu (by decide +kernel), by decide +kernel⟩

theorem witness_SequencerEnabled :
    let d := sets [(F.HKP_SEQ_CFG_EN, 0)] act
    let e := sets [(F.HKP_SEQ_CFG_EN, 1), (F.HKP_SEQ_STAT_ENTRY, 17)] act
    (16 < e.fld F.HKP_SEQ_STAT_ENTRY ∧ ¬ 17 < e.fld F.HKP_SEQ_STAT_ENTRY) ∧ d.settled = true ∧ Reaches (st d) .cpuM R.HKP_SEQ_CFG ∧ (0x80000000 : Word).getLsbD 31 = true ∧
      d.on F.HKP_SEQ_CFG_EN = false ∧ e.settled = true ∧ Reaches (st e) .cpuM R.HKP_SEQ_CFG ∧ e.on F.HKP_SEQ_CFG_EN = true :=
  ⟨by decide +kernel, by decide +kernel, reaches_cpu (by decide +kernel), by decide, by decide +kernel, by decide +kernel,
    reaches_cpu (by decide +kernel), by decide +kernel⟩

/-- The active device with its processor running at address a. -/
def running (a : Word) : Dev := act.modCpu fun c => { c with running := true, pc := a }

theorem witness_FetchRuns :
    ∀ a ∈ [0, 0x7FFFC], let d := running (BitVec.ofNat 32 a)
      d.settled = true ∧ d.between = true ∧ d.cpu.pc.toNat % 4 = 0 ∧ d.cpu.pc.toNat + 4 ≤ 0x80000 ∧
      d.pmpAllows d.cpu.user d.cpu.pc.toNat 2 2 = true ∧ d.pmpAllows d.cpu.user (d.cpu.pc.toNat + 2) 2 2 = true ∧
      classifyWord (d.memWord d.cpu.pc.toNat) (d.memCheck d.cpu.pc.toNat) = .clean := by decide +kernel

theorem witness_FetchFaults :
    let d := running 0x100000
    let e := (running 0).modCpu fun c => { c with user := true }
    d.settled = true ∧ d.between = true ∧ fetchRegion d.cpu.pc.toNat 2 = false ∧
      e.settled = true ∧ e.between = true ∧ e.pmpAllows e.cpu.user e.cpu.pc.toNat 2 2 = false := by decide +kernel

theorem witness_InsnWaits : (running 0).cpu.user = false := by decide +kernel

theorem witness_InsnCsr :
    csrAllowed false 0x340 true = true ∧ csrPlain 0x340 = true ∧ csrAllowed false 0xF11 true = false ∧
      csrAllowed true 0xC00 false = false ∧ csrAllowed false 0xC01 false = false := by decide +kernel

theorem witness_InsnTraps :
    decodeInsn (if isShort 0x12340000 then BitVec.ofNat 32 ((0x12340000 : Word).toNat % 65536) else 0x12340000) = none ∧
      ((running 0).modCpu fun c => { c with user := true }).cpu.user = true := by decide +kernel

/-- The processor with an instruction fetched that is not yet performed. -/
def holding (o : PendingOp) : Dev := (running 0).modCpu fun c => { c with op := some o }

theorem witness_Loads :
    ∀ a ∈ [1, 0x13FFFC, 0x80000000], let s := holding (.load 3 (BitVec.ofNat 32 a) .word false)
      let d := s.opDone.accessClocks ⟨0, 0⟩
      s.settled = true ∧ s.executing = true ∧ (BitVec.ofNat 32 a).toNat = a ∧
        (a % widthBytes .word = 0 → d.pmpAllows d.dataUser a (widthBytes .word) 0 = true) ∧
        (a = 1 → a % widthBytes .word ≠ 0 ∧ regionOf a ≠ .regs) ∧
        (a = 0x13FFFC → regionOf a = .sram 1 ∧ classifyWord (d.memWord a) (d.memCheck a) = .clean) ∧
        (a = 0x80000000 → regionOf a = .nowhere) := by decide +kernel

/-- That device with the check bits of a word changed in the bits of k. -/
def hit (a k : Nat) (d : Dev) : Dev := d.putCheck a (checkBits (d.memWord a) ^^^ k)

theorem witness_Loads_damaged :
    let s (k : Nat) := hit 0x13FFFC k (holding (.load 3 0x13FFFC .half false))
    let d (k : Nat) := (s k).opDone.accessClocks ⟨0, 0⟩
    (∀ k ∈ [1, 3, 0x7F], (s k).settled = true ∧ (s k).executing = true ∧ regionOf 0x13FFFC = .sram 1 ∧
      (d k).pmpAllows (d k).dataUser 0x13FFFC (widthBytes .half) 0 = true) ∧
      classifyWord ((d 1).memWord 0x13FFFC) ((d 1).memCheck 0x13FFFC) = .correctable 32 ∧
      classifyWord ((d 3).memWord 0x13FFFC) ((d 3).memCheck 0x13FFFC) = .uncorrectable ∧
      classifyWord ((d 0x7F).memWord 0x13FFFC) ((d 0x7F).memCheck 0x13FFFC) = .poisoned :=
  ⟨by decide +kernel, classifyWord_check _ _ (by decide +kernel), classifyWord_pair _ _ (by decide +kernel),
    classifyWord_poison _ _ (by decide +kernel)⟩

theorem witness_Loads_rom :
    let s := holding (.load 3 0x600000 .byte true)
    let d := s.opDone.accessClocks ⟨0, 0⟩
    s.settled = true ∧ s.executing = true ∧ (0x600000 : Word).toNat % widthBytes .byte = 0 ∧
      d.pmpAllows d.dataUser 0x600000 (widthBytes .byte) 0 = true ∧ regionOf 0x600000 = .rom := by decide +kernel

theorem witness_Loads_user :
    let s := (holding (.load 3 0x100000 .word false)).modCpu fun c => { c with user := true }
    let e := s.opDone.accessClocks ⟨0, 0⟩
    s.settled = true ∧ s.executing = true ∧ 0x100000 % widthBytes .word = 0 ∧
      e.pmpAllows e.dataUser 0x100000 (widthBytes .word) 0 = false ∧ e.pmpAllows e.dataUser 0x100000 (widthBytes .word) 1 = false := by
  decide +kernel

theorem witness_LoadsRegister :
    let s := holding (.load 3 (BitVec.ofNat 32 R.CLK_PRESS_STAT) .word false)
    let d := s.opDone.accessClocks ⟨0, 0⟩
    let a := (BitVec.ofNat 32 R.CLK_PRESS_STAT).toNat
    s.settled = true ∧ s.executing = true ∧ a % widthBytes .word = 0 ∧
      d.pmpAllows d.dataUser a (widthBytes .word) 0 = true ∧ regionOf a = .regs ∧ s.waiting a .word true = false ∧
      (d.busRead State.reset.evq d.cpuMaster a .word).busRes = .done := by decide +kernel

theorem witness_LoadsRegister_stops :
    let at_ (a : Nat) (w : Width) : Dev := holding (.load 3 (BitVec.ofNat 32 a) w false)
    let d (e : Dev) := e.opDone.accessClocks ⟨0, 0⟩
    let got (e : Dev) (a : Nat) (w : Width) := ((d e).busRead State.reset.evq (d e).cpuMaster a w).busRes
    let lane := R.LANE_RX_LVL 0
    let bit := 0x20000000 + (R.CLK_PRESS_STAT - 0x10000000) * 32 + 12
    let rising := (sets [(F.PWR_STAT_DSTATE, 5)] (at_ lane .word)).setReg R.PWR_DOM (sby.reg R.PWR_DOM)
    let off := ((at_ lane .word).modPwr fun p => { p with heldOff := true }).setReg R.PWR_DOM (sby.reg R.PWR_DOM)
    (rising.settled = true ∧ rising.executing = true ∧ regionOf lane = .regs ∧ rising.waiting lane .word true = true) ∧
    (off.settled = true ∧ off.executing = true ∧ off.waiting lane .word true = false ∧
      (d off).pmpAllows (d off).dataUser lane (widthBytes .word) 0 = true ∧ got off lane .word = .off) ∧
    (regionOf bit = .regs ∧ isAlias bit = true ∧ (at_ bit .half).settled = true ∧ (at_ bit .half).executing = true ∧
      (at_ bit .half).waiting bit .half true = false ∧ got (at_ bit .half) bit .half = .bad ∧ bit % widthBytes .half = 0) ∧
    ((at_ (lane + 2) .word).settled = true ∧ (at_ (lane + 2) .word).waiting (lane + 2) .word true = false ∧
      (lane + 2) % widthBytes .word ≠ 0 ∧ regionOf (lane + 2) = .regs) := by decide +kernel

theorem witness_Stores :
    ∀ a ∈ [2, 0x13FFFC, R.CLK_PRESS, 0x600000, 0x80000000], let s := holding (.store (BitVec.ofNat 32 a) .word 1)
      let d := s.opDone.accessClocks ⟨0, 0⟩
      s.settled = true ∧ s.executing = true ∧ (BitVec.ofNat 32 a).toNat = a ∧
        (a = 2 → a % widthBytes .word ≠ 0 ∧ regionOf a ≠ .regs) ∧
        (a % widthBytes .word = 0 → d.pmpAllows d.dataUser a (widthBytes .word) 1 = true) ∧
        (a = 0x13FFFC → regionOf a = .sram 1) ∧
        (a = R.CLK_PRESS → regionOf a = .regs ∧ s.waiting a .word false = false ∧ (d.busWrite d.cpuMaster a .word 1).busRes = .done) ∧
        (a = 0x600000 → regionOf a = .rom) ∧ (a = 0x80000000 → regionOf a = .nowhere) := by decide +kernel

theorem witness_Stores_narrow :
    let s := holding (.store 0x13FFFE .half 1)
    let d := s.opDone.accessClocks ⟨0, 0⟩
    s.settled = true ∧ s.executing = true ∧ 0x13FFFE % widthBytes .half = 0 ∧
      d.pmpAllows d.dataUser 0x13FFFE (widthBytes .half) 1 = true ∧ regionOf 0x13FFFE = .sram 1 := by decide +kernel

theorem witness_Stores_stops :
    let at_ (a : Nat) (w : Width) : Dev := holding (.store (BitVec.ofNat 32 a) w 1)
    let d (e : Dev) := e.opDone.accessClocks ⟨0, 0⟩
    let got (e : Dev) (a : Nat) (w : Width) := ((d e).busWrite (d e).cpuMaster a w 1).busRes
    let lane := R.LANE_RX_LVL 0
    let bit := 0x20000000 + (R.CLK_PRESS_STAT - 0x10000000) * 32 + 12
    let rising := (sets [(F.PWR_STAT_DSTATE, 5)] (at_ lane .word)).setReg R.PWR_DOM (sby.reg R.PWR_DOM)
    let off := ((at_ lane .word).modPwr fun p => { p with heldOff := true }).setReg R.PWR_DOM (sby.reg R.PWR_DOM)
    (rising.settled = true ∧ rising.executing = true ∧ regionOf lane = .regs ∧ rising.waiting lane .word false = true) ∧
    (off.settled = true ∧ off.executing = true ∧ off.waiting lane .word false = false ∧
      (d off).pmpAllows (d off).dataUser lane (widthBytes .word) 1 = true ∧ got off lane .word = .off) ∧
    (regionOf bit = .regs ∧ isAlias bit = true ∧ (at_ bit .half).settled = true ∧ (at_ bit .half).executing = true ∧
      (at_ bit .half).waiting bit .half false = false ∧ got (at_ bit .half) bit .half = .bad ∧ bit % widthBytes .half = 0) ∧
    ((at_ (lane + 2) .word).settled = true ∧ (at_ (lane + 2) .word).waiting (lane + 2) .word false = false ∧
      (lane + 2) % widthBytes .word ≠ 0 ∧ regionOf (lane + 2) = .regs) := by decide +kernel

theorem witness_WordStored : 0x100000 % 4 = 0 ∧ act.on F.ECC_INJ_EN = false := by decide +kernel

theorem witness_MemoryRead :
    let word (k a : Nat) := classifyWord ((hit a k act).memWord a) ((hit a k act).memCheck a)
    word 0 0 = .clean ∧ word 1 0x100000 = .correctable 32 ∧ word 3 0x13FFFC = .uncorrectable ∧ word 0x7F 0 = .poisoned :=
  ⟨by decide +kernel, classifyWord_check _ _ (by decide +kernel), classifyWord_pair _ _ (by decide +kernel),
    classifyWord_poison _ _ (by decide +kernel)⟩

theorem witness_MemoryErrorTaken :
    ∀ f ∈ [false, true], let d := (running 0).modCpu fun c => { c with memPend := true, memFlag := f }
      d.settled = true ∧ d.between = true ∧ d.cpu.memPend = true ∧ d.cpu.memFlag = f := by decide +kernel

/-- The processor running with interrupts 11 and 17 open. -/
def open_ : Dev :=
  (running 0).modCpu fun c => { c with quirePend := true, csr := Cells.put zeroWord (Cells.put zeroWord c.csr csrMSTATUS 8) csrMIE 0x20800 }

/-- An event queue of `CLK` that holds one event. -/
def evqs : Vector EvQ 32 := State.reset.evq.set Blk.clk ⟨[⟨5, 0, 0⟩], 0⟩

theorem witness_InterruptsTaken :
    let d := open_.setReg R.SYS_IRQ_EN 0xFFFFFFFF
    d.settled = true ∧ d.between = true ∧ d.cpu.memPend = false ∧ d.cpu.quirePend = true ∧ d.intOpen 17 = true ∧
      (irqPend evqs &&& d.reg R.SYS_IRQ_EN) ≠ 0 ∧ d.intOpen 11 = true ∧
      (running 0).settled = true ∧ (running 0).between = true ∧ (running 0).intOpen 17 = false ∧ (running 0).intOpen 11 = false := by
  decide +kernel

theorem witness_MretReturns :
    (holding .mret).settled = true ∧ (holding .mret).executing = true ∧ (holding .mret).cpu.op = some .mret := by decide +kernel

theorem witness_CpuKicks :
    act.settled = true ∧ Reaches (st act) .cpuM R.SYS_RT ∧ Reaches (st act) .cpuM R.SYS_WDT_KICK ∧
      (1 : Word).getLsbD 0 = true ∧ (2 : Word).getLsbD 0 = false :=
  ⟨by decide +kernel, reaches_cpu (by decide +kernel), reaches_cpu (by decide +kernel), by decide⟩

theorem witness_WatchdogExpired :
    let d := (sets [(F.SYS_WDT_CFG_EN, 1), (F.SYS_WDT_CFG_PERIOD, 1)] sby).modPwr fun p => { p with wdt := 32 }
    d.settled = true ∧ d.domOn .mgt = true ∧ d.on F.SYS_WDT_CFG_EN = true ∧ d.pwr.mrst = 0 ∧
      d.fld F.SYS_WDT_CFG_PERIOD * 32 ≤ d.pwr.wdt := by decide +kernel

theorem witness_RestartTaken :
    let d := sby.modPwr fun p => { p with mrst := 15 }
    let e := sby.modCpu fun c => { c with halted := true }
    sby.settled = true ∧ sby.pwr.mrst = 0 ∧ sby.cpu.halted = false ∧
      d.settled = true ∧ d.pwr.mrst ≠ 0 ∧ d.pwr.mrst < 16 ∧ d.domOn .mgt = true ∧
      e.settled = true ∧ e.pwr.mrst = 0 ∧ e.cpu.halted = true ∧ e.domOn .mgt = true := by decide +kernel

theorem witness_RemapAsked :
    sby.settled = true ∧ Reaches (st sby) .cpuM R.ECC_REMAP_REQ ∧
      memSize ((0x3FFF : Word).toNat % 65536 / 16384) ≤ 256 * ((0x3FFF : Word).toNat % 16384) ∧
      sby.ecc.remaps.contains (0, 2047) = false ∧ sby.sparesUsed 0 < spareRows 0 ∧ 256 * 2047 < memSize 0 ∧
      (sby.modEcc fun e => { e with remaps := [(0, 2047)] }).ecc.remaps.contains (0, 2047) = true :=
  ⟨by decide +kernel, reaches_cpu (by decide +kernel), by decide +kernel⟩

theorem witness_UlogPopped : sby.settled = true ∧ Master.cpuM ≠ .mesh ∧ Reaches (st sby) .cpuM R.ECC_ULOG :=
  ⟨by decide +kernel, by decide, reaches_cpu (by decide +kernel)⟩

/-- The scrubber running at an offset of memory 0. -/
def scrubbing (off : Nat) : Dev :=
  (sets [(F.ECC_SCRUB_STAT_STATE, 1)] sby).modEcc fun x => { x with scrubAt := off, scrubMem := 0, scrubLast := 0x7FFFC }

theorem witness_ScrubControlled :
    let legal := (sby.setReg R.ECC_SCRUB_BASE 0x7FFFC).setReg R.ECC_SCRUB_END 0x7FFFC
    legal.settled = true ∧ Reaches (st legal) .cpuM R.ECC_SCRUB_CTRL ∧ legal.scrubRunning = false ∧
      ((legal.reg R.ECC_SCRUB_BASE).toNat % 4 = 0 ∧ (legal.reg R.ECC_SCRUB_END).toNat % 4 = 0 ∧
        (legal.reg R.ECC_SCRUB_BASE).toNat ≤ (legal.reg R.ECC_SCRUB_END).toNat ∧
        (legal.reg R.ECC_SCRUB_END).toNat < memSize (legal.fld F.ECC_SCRUB_CFG_MEM)) ∧
      ((sby.setReg R.ECC_SCRUB_BASE 2).reg R.ECC_SCRUB_BASE).toNat % 4 ≠ 0 ∧ (scrubbing 0).scrubRunning = true :=
  ⟨by decide +kernel, reaches_cpu (by decide +kernel), by decide +kernel⟩

theorem witness_ScrubStepped :
    ∀ off ∈ [0, 0x7FFF8, 0x7FFFC], (scrubbing off).settled = true ∧ (scrubbing off).scrubRunning = true ∧
      (scrubbing off).ecc.scrubAt = off ∧
      classifyWord ((scrubbing off).memWord (memBase (scrubbing off).ecc.scrubMem + off))
        ((scrubbing off).memCheck (memBase (scrubbing off).ecc.scrubMem + off)) = .clean ∧
      (off < (scrubbing off).ecc.scrubLast ↔ off ≠ 0x7FFFC) := by decide +kernel

theorem witness_ScrubStepped_hit :
    let s (off k : Nat) := hit off k (scrubbing off)
    let word (off k : Nat) := classifyWord ((s off k).memWord off) ((s off k).memCheck off)
    (∀ off ∈ [0, 0x7FFFC], ∀ k ∈ [1, 3, 0x7F], (s off k).settled = true ∧ (s off k).scrubRunning = true ∧ (s off k).ecc.scrubAt = off ∧
      memBase (s off k).ecc.scrubMem + off = off ∧ (off < (s off k).ecc.scrubLast ↔ off = 0)) ∧
      word 0 1 = .correctable 32 ∧ word 0x7FFFC 1 = .correctable 32 ∧ word 0 3 = .uncorrectable ∧ word 0x7FFFC 3 = .uncorrectable ∧
      word 0 0x7F = .poisoned ∧ word 0x7FFFC 0x7F = .poisoned :=
  ⟨by decide +kernel, classifyWord_check _ _ (by decide +kernel), classifyWord_check _ _ (by decide +kernel),
    classifyWord_pair _ _ (by decide +kernel), classifyWord_pair _ _ (by decide +kernel),
    classifyWord_poison _ _ (by decide +kernel), classifyWord_poison _ _ (by decide +kernel)⟩

/-- DMA channel c with a transfer of n bytes from a to b, in state k. -/
def dmaAt (c : Fin 8) (a b n k : Nat) : Dev :=
  sets [(F.DMA_COUNT_COUNT c, n), (F.DMA_NCOUNT_NCOUNT c, n), (F.DMA_STAT_STATE c, k)]
    ((((sby.setReg (R.DMA_SRC c) (BitVec.ofNat 32 a)).setReg (R.DMA_DST c) (BitVec.ofNat 32 b)).setReg (R.DMA_NSRC c)
      (BitVec.ofNat 32 a)).setReg (R.DMA_NDST c) (BitVec.ofNat 32 b))

theorem witness_DmaStarted :
    let d := dmaAt 7 0x7FFF0 0x100000 16 0
    d.settled = true ∧ Reaches (st d) .cpuM (R.DMA_CTRL 7) ∧ ¬ handing d 7 ∧ (1 : Word).getLsbD 2 = false ∧
      (1 : Word).getLsbD 1 = false ∧ (1 : Word).getLsbD 0 = true ∧ d.dmaState 7 ≠ 1 ∧ d.dmaState 7 ≠ 2 ∧
      DmaLegal d 7 0x7FFF0 0x100000 16 ∧ ¬ DmaLegal d 7 0x7FFF0 0x100000 32 ∧ ¬ 0x7FFF0 % 32 = 0 ∧
      (dmaAt 7 0 0x100000 16 1).dmaState 7 = 1 :=
  ⟨by decide +kernel, reaches_cpu (by decide +kernel), by unfold handing DmaLegal; decide +kernel⟩

theorem witness_DmaArmed :
    let d := dmaAt 7 0x7FFF0 0x100000 16 2
    let e := sets [(F.DMA_STAT_SH_VALID 7, 1)] d
    let f := dmaAt 7 0x7FFF0 0x100000 32 2
    (d.settled = true ∧ Reaches (st d) .cpuM (R.DMA_CTRL 7) ∧ ¬ handing d 7 ∧ d.on (F.DMA_STAT_SH_VALID 7) = false ∧
      DmaLegal d 7 0x7FFF0 0x100000 16) ∧
    (e.settled = true ∧ Reaches (st e) .cpuM (R.DMA_CTRL 7) ∧ ¬ handing e 7 ∧ e.on (F.DMA_STAT_SH_VALID 7) = true) ∧
    (f.settled = true ∧ Reaches (st f) .cpuM (R.DMA_CTRL 7) ∧ ¬ handing f 7 ∧ f.on (F.DMA_STAT_SH_VALID 7) = false ∧
      ¬ DmaLegal f 7 0x7FFF0 0x100000 32) ∧
    (4 : Word).getLsbD 2 = true ∧ (4 : Word).getLsbD 1 = false ∧ (4 : Word).getLsbD 0 = false :=
  ⟨⟨by decide +kernel, reaches_cpu (by decide +kernel), by unfold handing DmaLegal; decide +kernel⟩,
    ⟨by decide +kernel, reaches_cpu (by decide +kernel), by unfold handing; decide +kernel⟩,
    ⟨by decide +kernel, reaches_cpu (by decide +kernel), by unfold handing DmaLegal; decide +kernel⟩, by decide⟩

theorem witness_DmaAborted :
    ∀ k ∈ [0, 1, 2, 3], (dmaAt 7 0 0x100000 16 k).settled = true ∧ ¬ handing (dmaAt 7 0 0x100000 16 k) 7 ∧
      (3 : Word).getLsbD 2 = false ∧ (3 : Word).getLsbD 1 = true ∧ (dmaAt 7 0 0x100000 16 k).dmaState 7 = k ∧
      (dmaAt 7 0 0x100000 16 k).domOn .mgt = true := by unfold handing; decide +kernel

theorem witness_DmaRegWritten :
    (∀ a ∈ [R.DMA_SRC 7, R.DMA_DST 7, R.DMA_NSRC 7, R.DMA_NDST 7], Reaches (st sby) .cpuM a) ∧ sby.settled = true ∧
      ¬ handing sby 7 ∧ sby.dmaState 7 = 0 ∧ sby.on (F.DMA_STAT_SH_VALID 7) = false := by
  refine ⟨fun a ha => reaches_cpu ⟨by decide +kernel, ?_⟩, by unfold handing; decide +kernel⟩
  revert a; decide +kernel

theorem witness_DmaRequested :
    let d := sets [(F.DMA_CFG_REQ 7, 31), (F.DMA_STAT_PEND 7, 254)] (dmaAt 7 0 0x100000 16 1)
    d.settled = true ∧ (31 : Nat) ≠ 0 ∧ ¬ (10 ≤ 31 ∧ 31 ≤ 15) ∧ d.fld (F.DMA_CFG_REQ 7) = 31 ∧ d.dmaState 7 = 1 ∧
      d.fld (F.DMA_STAT_PEND 7) < 255 := by decide +kernel

theorem witness_DmaActivated :
    let d := dmaAt 7 0 0x100000 16 1
    let e := sets [(F.DMA_ACTIVE_CH, 7)] d
    d.settled = true ∧ d.fld F.DMA_ACTIVE_CH = 15 ∧ d.dmaState 7 = 1 ∧ d.fld (F.DMA_CFG_REQ 7) = 0 ∧
      (∀ k : Fin 8, k < 7 → d.dmaState k ≠ 1) ∧ e.settled = true ∧ e.fld F.DMA_ACTIVE_CH ≠ 15 ∧
      sby.settled = true ∧ (∀ k : Fin 8, sby.dmaState k ≠ 1) := by decide +kernel

/-- Channel 7 with the engine. -/
def beating (a b : Nat) : Dev := sets [(F.DMA_ACTIVE_CH, 7)] (dmaAt 7 a b 16 2)

theorem witness_DmaBeatMoved :
    let d := beating 0x7FFFC 0x13FFFC
    d.settled = true ∧ beatDue d 7 ∧ (memOf 0x7FFFC).isSome = true ∧ (memOf 0x13FFFC).isSome = true ∧ 0x13FFFC % 4 = 0 ∧
      classifyWord (d.memWord 0x7FFFC) (d.memCheck 0x7FFFC) = .clean := by unfold beatDue; decide +kernel

theorem poison_damages {d : Dev} {q : Vector EvQ 32} {a m : Nat} (hm : memOf a = some m)
    (h : checkBits (d.memWord a) ^^^ d.memCheck a = 0x7F) : (d.beatRead q a).1 = .damaged := by
  simp [beatRead, hm, readMem, classifyWord_poison _ _ h]

theorem witness_DmaBeatHalted :
    let d := (beating R.MSH_CFG 0x100000).setReg R.PWR_DOM 0
    let e := (beating 0x100000 0x200000).storePoison 0x100000 0
    sby.settled = true ∧ sby.dmaBeatDue = none ∧ d.settled = true ∧ d.dmaBeatDue = some 7 ∧
      (((d.dmaBurstStart 7).devEvent 11 1).beatRead State.reset.evq R.MSH_CFG).1 = BeatEnd.domain ∧
      e.settled = true ∧ e.dmaBeatDue = some 7 ∧
      (((e.dmaBurstStart 7).devEvent 11 1).beatRead State.reset.evq 0x100000).1 = BeatEnd.damaged :=
  ⟨by decide +kernel, by decide +kernel, by decide +kernel, by decide +kernel, by decide +kernel, by decide +kernel,
    by decide +kernel, poison_damages rfl (by decide +kernel)⟩

theorem witness_DmaCompleted :
    ∀ sh ∈ [0, 1], let d := (sets [(F.DMA_CFG_EVT_EN 7, 0), (F.DMA_STAT_SH_VALID 7, sh)] (beating 0 0x100000)).modDma fun x =>
        { x with handOver := true }
      d.settled = true ∧ handing d 7 ∧ d.on (F.DMA_CFG_EVT_EN 7) = false ∧ d.on (F.DMA_STAT_SH_VALID 7) = (sh == 1) := by
  unfold handing; decide +kernel

theorem witness_DmaPulses :
    let d := (sets [(F.DMA_CFG_EVT_EN 7, 1), (F.DMA_CFG_EVL 7, 15), (F.DMA_CFG_REQ 0, 31), (F.DMA_STAT_STATE 0, 1),
      (F.DMA_STAT_PEND 0, 254)] (beating 0 0x100000)).modDma fun x => { x with handOver := true }
    d.settled = true ∧ handing d 7 ∧ d.on (F.DMA_CFG_EVT_EN 7) = true ∧ (0 : Fin 8) ≠ 7 ∧
      d.fld (F.DMA_CFG_REQ 0) = 16 + d.fld (F.DMA_CFG_EVL 7) ∧ d.dmaState 0 = 1 ∧ d.fld (F.DMA_STAT_PEND 0) < 255 := by
  unfold handing; decide +kernel
/-! ### The port and power -/

/-- The device after reset with its port taking writes, page p selected. -/
def port (p : Byte) : Dev := (sby.modMgmt fun m => { m with ready := true }).setPageByte 127 p

/-- That device with a busy port. -/
def busy (l : List Busy) : Dev := (port 0x80).modMgmt fun m => { m with busy := l }

theorem witness_PortSilent :
    (port 0).settled = true ∧ ¬ OwnAddress (port 0) 0x51 ∧ OwnAddress (port 0) 0x50 ∧
      OwnAddress (sets [(F.MGT_STAT_I3C, 1), (F.MGT_STAT_DADDR, 0x7D)] (port 0)) 0x7D ∧
      sby.settled = true ∧ sby.mgmt.ready = false ∧ (busy [.firmware]).settled = true ∧ (busy [.firmware]).mgmt.busy ≠ [] := by
  unfold OwnAddress; decide +kernel

theorem witness_PortBytesWritten :
    (port 0).settled = true ∧ portOpen (port 0) 0x50 ∧ List.replicate 126 (7 : Byte) ≠ [] ∧
      (List.replicate 126 (7 : Byte)).length ≤ 128 ∧ (0 : Byte).toNat + (List.replicate 126 (7 : Byte)).length ≤ 126 := by
  unfold portOpen OwnAddress; decide +kernel

theorem witness_PortByteWritten :
    (∀ p ∈ [0x80, 0x81, 0x8F, 0x03, 0x10, 0x13, 0x14, 0x15, 0xFF], (port p).settled = true ∧ portOpen (port p) 0x50 ∧
        (port p).selPage = p.toNat ∧ (pageListed (port p).selPage (port p).selBank = false ↔ p = 0x03 ∨ p = 0x15 ∨ p = 0xFF)) ∧
      (125 : Byte).toNat < 126 ∧ 128 ≤ (255 : Byte).toNat ∧ (0x1F : Byte) = BitVec.ofNat 8 (0x10 + 15) ∧
      banked 0x10 0 128 = true ∧ banked 0x03 0 128 = false := by unfold portOpen OwnAddress; decide +kernel

theorem witness_PortByteWritten_checker :
    let t := after (.mgmtPortWrite (0x50, 160) [1]) (port 0x13)
    ∃ h : HostLane, t.checkerPattern h ≠ (port 0x13).checkerPattern h := ⟨0, by decide +kernel⟩

theorem witness_PortBytesRead :
    OwnAddress (port 0) 0x50 ∧ OwnAddress sby 0x50 ∧ mediaField 0x11 132 = false ∧
      (port 0).settled = true ∧ (port 0).portOn = true ∧ (port 0).mgmt.busy = [] ∧ (port 0).mgmt.ready = true ∧
      (port 0).selPage ≠ 0x80 ∧ pageListed (port 0).selPage (port 0).selBank = true ∧ sby.settled = true ∧ sby.portOn = true ∧
      sby.mgmt.busy = [] ∧ sby.mgmt.ready = false ∧
      (∀ p ∈ [0x01, 0x11, 0x13, 0x14], (port p).settled = true ∧ (port p).portOn = true ∧ (port p).mgmt.busy = [] ∧ (port p).mgmt.ready = true ∧
        OwnAddress (port p) 0x50 ∧ (port p).selPage = p.toNat ∧ (port p).selBank < 2 ∧
        pageListed (port p).selPage (port p).selBank = true) := by unfold OwnAddress; decide +kernel

theorem witness_FlagCleared :
    (port 0).settled = true ∧ portOpen (port 0) 0x50 ∧ 8 ≤ (13 : Byte).toNat ∧ (13 : Byte).toNat ≤ 13 ∧
      (port 0).fld F.THM_STAT_LEVEL = 0 := by unfold portOpen OwnAddress; decide +kernel

theorem witness_WindowFetched :
    (busy [.fetch 15]).settled = true ∧ (busy [.fetch 15]).mgmt.busy = [.fetch 15] ∧
      (busy [.refresh 15]).mgmt.busy = [.refresh 15] ∧
      ((busy [.fetch 15]).windowBase 15 % 4 ≠ 0 ∨ (busy [.fetch 15]).windowBase 15 < 0x10000000 ∨
        0x10200000 < (busy [.fetch 15]).windowBase 15 + 128) := by decide +kernel

theorem witness_WindowIdle : (port 0x80).settled = true ∧ (port 0x80).mgmt.busy = [] := by decide +kernel

theorem witness_NonceLoaded : (busy [.newnonce]).settled = true ∧ (busy [.newnonce]).mgmt.busy = [.newnonce] := by
  decide +kernel

theorem witness_ResponseJudged :
    let wrong (k : Nat) := (busy [.submit]).modMgmt fun m => { m with fails := k }
    let out := (busy [.submit]).modMgmt fun m => { m with lockout := true }
    (∀ k ∈ [0, 6, 7], (wrong k).settled = true ∧ (wrong k).mgmt.busy = [.submit] ∧ (wrong k).mgmt.lockout = false ∧
      (wrong k).sec.maint.enrolled ≠ true ∧ (wrong k).mgmt.fails = k) ∧
    out.settled = true ∧ out.mgmt.busy = [.submit] ∧ out.mgmt.lockout = true := by decide +kernel

/-- A device with a sealed maintenance key. -/
def keyed : Dev := { busy [.submit] with sec := { sby.sec with maint := ⟨0, keyCrc 0, true⟩ } }

/-- Whatever response a device expects, it can be entered. -/
theorem expectedResponse_lt (d : Dev) : d.expectedResponse < 256 ^ 16 := by
  unfold expectedResponse
  exact Nat.div_lt_of_lt_mul (BitVec.isLt _)

theorem witness_ResponseJudged_right :
    ∃ r, let d := keyed.modMgmt fun m => { m with resp := r }
      d.settled = true ∧ d.mgmt.busy = [.submit] ∧ d.mgmt.lockout = false ∧ d.sec.maint.enrolled = true ∧
        natBE d.mgmt.resp = d.expectedResponse := by
  refine ⟨bytesBE 16 keyed.expectedResponse, by rfl, by rfl, by rfl, ?_, ?_⟩
  · exact (by decide +kernel : keyed.sec.maint.enrolled = true)
  · have h : ∀ r, (keyed.modMgmt fun m => { m with resp := r }).expectedResponse = keyed.expectedResponse := fun _ => rfl
    rw [h]
    have g := natBE_bytesBE 16 keyed.expectedResponse
    rw [Nat.mod_eq_of_lt (expectedResponse_lt keyed)] at g
    exact g

theorem witness_SessionEnds :
    let d := (busy [.lock]).modMgmt fun m => { m with unlocked := true, sessQ := 2 ^ 31, lockout := true, lockQ := 2 ^ 26 }
    (busy [.lock]).settled = true ∧ (busy [.lock]).mgmt.busy = [.lock] ∧ (busy [.lock]).mgmt.unlocked = false ∧
      (busy [.lock]).mgmt.lockout = false ∧ d.settled = true ∧ d.mgmt.busy = [.lock] ∧ d.mgmt.unlocked = true ∧
      2 ^ d.fld F.MGT_CFG_SESS_EXP ≤ d.mgmt.sessQ ∧ d.mgmt.lockout = true ∧ 2 ^ 26 ≤ d.mgmt.lockQ := by decide +kernel

theorem witness_QueuePopped :
    let d := ((busy [.popevq]).setPageByte (maint 130) 30).modMgmt fun m => { m with unlocked := true }
    d.settled = true ∧ d.mgmt.busy = [.popevq] ∧ d.pageByte (maint 130) = BitVec.ofNat 8 30 ∧ blockExists 30 = true ∧
      Reaches (st d) .host (evqAddr 30) :=
  ⟨by decide +kernel, by decide +kernel, by decide +kernel, by decide +kernel, by decide +kernel, by decide +kernel,
    fun _ _ _ => by decide +kernel⟩

theorem witness_AddressAssigned :
    sby.settled = true ∧ sby.portOn = true ∧ sby.mgmt.busy = [] ∧ (busy [.lock]).mgmt.busy ≠ [] ∧
      sby.on F.MGT_STAT_I3C = false ∧ (sets [(F.MGT_STAT_I3C, 1)] sby).on F.MGT_STAT_I3C = true ∧
      (sby.modMgmt fun m => { m with resetLow := true }).portOn = false := by decide +kernel

theorem witness_GetAnswered :
    sby.settled = true ∧ sby.portOn = true ∧ sby.mgmt.busy = [] ∧ (busy [.lock]).settled = true ∧ (busy [.lock]).portOn = true ∧
      (busy [.lock]).mgmt.busy ≠ [] ∧ sby.on F.MGT_STAT_I3C = false ∧
      (sets [(F.MGT_STAT_I3C, 1)] sby).settled = true ∧ (sets [(F.MGT_STAT_I3C, 1)] sby).portOn = true ∧
      (sets [(F.MGT_STAT_I3C, 1)] sby).mgmt.busy = [] ∧ (sets [(F.MGT_STAT_I3C, 1)] sby).on F.MGT_STAT_I3C = true := by decide +kernel

theorem witness_PortReleased :
    sby.settled = true ∧ Reaches (st sby) .cpuM R.MGT_WCTRL ∧ (1 : Word).getLsbD 0 = true ∧ (1 : Word).getLsbD 1 = false ∧
      (2 : Word).getLsbD 0 = false ∧ (2 : Word).getLsbD 1 = true :=
  ⟨by decide +kernel, reaches_cpu (by decide +kernel), by decide⟩

theorem witness_ResetAsserted :
    (inState stHOLD).settled = true ∧ (inState stHOLD).dstate < stREST ∧ sby.settled = true ∧ stREST ≤ sby.dstate ∧ sby.pwr.lossQ = none ∧
      (sby.modPwr fun p => { p with lossQ := some 3 }).pwr.lossQ.isSome = true := by
  decide +kernel

theorem witness_ResetReleased :
    sby.settled = true ∧ sby.dstate ≠ stREST ∧ (inState stREST).settled = true ∧ (inState stREST).dstate = stREST := by
  decide +kernel

theorem witness_LpmodeChanged :
    let d := (inState stREST).modPwr fun p => { p with restCmd := true }
    let e := (inState stREST).modPwr fun p => { p with restCmd := false }
    sby.settled = true ∧ sby.mgmt.lpmode ≠ true ∧ sby.domOn .mgt = true ∧
      d.settled = true ∧ d.mgmt.lpmode ≠ true ∧ d.domOn .mgt = false ∧ d.pwr.restCmd = true ∧ d.dstate = stREST ∧
      d.mgmt.resetLow = false ∧ e.settled = true ∧ e.mgmt.lpmode ≠ true ∧ e.domOn .mgt = false ∧ e.pwr.restCmd = false := by
  decide +kernel

/-- The device with the host's request for low power, or without it. -/
def asking (low : Bool) (d : Dev) : Dev := d.setPageByte 26 (if low then 0x10 else 0)

theorem witness_RequestFollowed :
    let free := (asking false sby).modMgmt fun m => { m with ready := true }
    let free : Dev := { free with thm := { free.thm with acted := true } }
    (asking true act).settled = true ∧ (asking true act).dstate = stACTIVE ∧ (asking true act).lowPower = true ∧
      (asking true act).thm.stop = 0 ∧ (asking true act).fullRunning = false ∧ (asking true act).bst.run = none ∧ (asking true act).pwr.lossQ = none ∧
      free.settled = true ∧ free.dstate = stSTANDBY ∧ free.lowPower = false ∧ free.mgmt.ready = true ∧ free.pwr.heldOff = false ∧
      free.thm.stop = 0 ∧ free.thermalAllows = true ∧ free.pwr.lossQ = none ∧ free.pwr.restDue = false ∧
      (asking false act).settled = true ∧ (asking false act).dstate = stACTIVE ∧ (asking false act).lowPower = false ∧
      (asking true sby).settled = true ∧ (asking true sby).dstate = stSTANDBY ∧ (asking true sby).lowPower = true ∧
      (inState stREST).settled = true ∧ (inState stREST).dstate ≠ stSTANDBY ∧ (inState stREST).dstate ≠ stACTIVE := by
  decide +kernel

theorem witness_StandbyRetried :
    let d := (sets [(F.PWR_STAT_DSTATE, stToSTANDBY)] act).modPwr fun p => { p with sbyRetry := true, sbyWait := 0 }
    d.settled = true ∧ d.dstate = stToSTANDBY ∧ d.pwr.sbyRetry = true ∧ d.pwr.sbyWait = 0 ∧ act.settled = true ∧
      act.dstate ≠ stToSTANDBY := by decide +kernel

theorem witness_ActiveEntered :
    let d := (sets [(F.PWR_STAT_DSTATE, stToACTIVE)] act).modPwr fun p => { p with entry := [.msh, .lfe 7] }
    let e := (sets [(F.PWR_DOM_MSH, 0)] d)
    e.settled = true ∧ e.dstate = stToACTIVE ∧ e.domOn .msh = false ∧ (∀ x ∈ d.pwr.entry, d.domOn x = true) ∧ d.settled = true ∧ d.dstate = stToACTIVE ∧ d.on F.CLK_STAT_TICK_RUN = true ∧ act.settled = true ∧ act.dstate ≠ stToACTIVE := by
  decide +kernel

theorem witness_RestAsked :
    sby.settled = true ∧ Reaches (st sby) .cpuM R.PWR_CTRL ∧ (1 : Word).getLsbD 0 = true ∧ sby.dstate = stSTANDBY ∧
      (2 : Word).getLsbD 0 = false :=
  ⟨by decide +kernel, reaches_cpu (by decide +kernel), by decide, by decide +kernel, by decide⟩

theorem witness_SuppliesChange :
    (∀ k ∈ [stOFF, stHOLD, stREST], (inState k).settled = true ∧ (inState k).dstate = k ∧ (inState k).mgmt.resetLow = false ∧
      (inState k).domOn .mgt = false ∧
      ((inState k).modPwr fun p => { p with mainOk := false }).pwr.mainOk = false) ∧
    ((act.modPwr fun p => { p with lossQ := some 0, mainOk := false }).pwr.lossQ.isSome = true) ∧
    ((inState stHOLD).modMgmt fun m => { m with resetLow := true }).mgmt.resetLow = true ∧ stREST ≤ (inState stREST).dstate ∧
    sby.settled = true ∧ sby.dstate ≠ stOFF ∧ sby.dstate ≠ stHOLD ∧ sby.domOn .mgt = true := by decide +kernel

theorem witness_MainLost :
    let held (b v : Bool) := (inState stHOLD).modPwr fun p => { p with mainOk := b, vbak := v }
    let losing (b : Bool) := act.modPwr fun p => { p with lossQ := some 0, mainOk := b }
    (∀ b v, (held b v).settled = true ∧ (held b v).dstate = stHOLD ∧ (held b v).dstate < stREST ∧ (held b v).pwr.mainOk = b ∧
      (held b v).pwr.vbak = v) ∧
    (∀ b, (losing b).settled = true ∧ stREST ≤ (losing b).dstate ∧ (losing b).pwr.lossQ.isSome = true ∧ (losing b).pwr.mainOk = b) ∧
    act.settled = true ∧ stREST ≤ act.dstate ∧ act.pwr.lossQ = none ∧ act.active = true ∧ sby.settled = true ∧
      stREST ≤ sby.dstate ∧ sby.pwr.lossQ = none ∧ sby.active = false := by decide +kernel

theorem witness_LossFinished : (act.modPwr fun p => { p with validDue := false }).pwr.validDue = false := by decide +kernel

theorem witness_LaneDozes :
    let d := (lives [(F.PWR_LANE_CFG_MODE 7, 2), (F.PWR_LANE_CFG_DOZE_EXP 7, 0)] (sets [(F.LANE_EQ_STAT_ACQ 7, 1)] act)).modPwr
      fun p => { p with dozeQ := p.dozeQ.set 7 2 }
    d.settled = true ∧ d.active = true ∧ d.pwr.sbyDown = 0 ∧ d.inRun 7 = true ∧ d.laneMode 7 = 2 ∧ d.spLive 7 = false ∧ d.acq 7 = 1 ∧
      d.swapping 7 = false ∧ 2 ^ d.lv (F.PWR_LANE_CFG_DOZE_EXP 7) + 1 ≤ d.pwr.dozeQ[7] ∧ act.settled = true ∧ act.acq 7 ≠ 1 := by
  decide +kernel

theorem witness_LaneWakes :
    let d := lives [(F.PWR_LANE_CFG_WAKE 7, 2)] (sets [(laneStat 7, 1)] act)
    let lvl := d.slv (F.PWR_LANE_CFG_DOZE_LVL 7)
    let hs : List (Int × Nat) := (List.range 100).map fun i => (if i % 2 = 1 then lvl else lvl - 25, 400 + 2 * i)
    16 ≤ (List.replicate 16 lvl).length ∧ (∀ l ∈ (List.replicate 16 lvl).take 16, lvl ≤ l) ∧
      100 ≤ hs.length ∧ (∀ x ∈ hs.take 100, 400 ≤ x.2 ∧ x.2 ≤ 600) ∧
      ((List.range 100).all fun i => match hs[i]? with
        | some x => if i % 2 = 1 then decide (lvl ≤ x.1) else decide (x.1 < lvl - 24)
        | none => false) = true ∧
      d.settled = true ∧ d.active = true ∧ d.pwr.sbyDown < 2 ∧ d.fld (laneStat 7) = 1 ∧ d.lv (F.PWR_LANE_CFG_WAKE 7) ≠ 1 ∧
      d.lv (F.PWR_LANE_CFG_WAKE 7) ≠ 0 ∧ d.pwr.wakeDue.getLsbD 7 = false ∧ act.settled = true ∧ act.fld (laneStat 7) ≠ 1 := by
  decide +kernel

theorem witness_WakePattern :
    let d := act.modTx 7 fun t => { t with wake := 4, wakeLeft := 0 }
    act.settled = true ∧ Reaches (st act) .cpuM R.PWR_WAKE_TX ∧ (act.lane 7).tx.wake ≠ 2 ∧
      d.settled = true ∧ (d.lane 7).tx.wake = 4 ∧ (d.lane 7).tx.wakeLeft = 0 :=
  ⟨by decide +kernel, reaches_cpu (by decide +kernel), by decide +kernel⟩

theorem witness_AlarmTaken :
    let on_ := sby.modPwr fun p => { p with alarmDue := true }
    let off (c : Bool) := (inState stREST).modPwr fun p => { p with alarmDue := true, restCmd := c }
    sby.settled = true ∧ sby.pwr.alarmDue = false ∧ on_.settled = true ∧ on_.pwr.alarmDue = true ∧ on_.domOn .mgt = true ∧
      (∀ c, (off c).settled = true ∧ (off c).pwr.alarmDue = true ∧ (off c).domOn .mgt = false ∧ (off c).pwr.restCmd = c ∧
        (off c).dstate = stREST ∧ (off c).mgmt.resetLow = false) := by decide +kernel

theorem witness_RtcAccessed :
    sby.settled = true ∧ Reaches (st sby) .cpuM R.PWR_RTC_CTRL ∧ Reaches (st sby) .cpuM R.PWR_RTC_SUB ∧
      (1 : Word).getLsbD 0 = true ∧ (2 : Word).getLsbD 0 = false :=
  ⟨by decide +kernel, reaches_cpu (by decide +kernel), reaches_cpu (by decide +kernel), by decide⟩

theorem witness_VoltageAsked :
    let d := sets [(F.PWR_AVS_STAT_VNOW, 750)] sby
    let e := d.modPwr fun p => { p with avsFlight := some 775 }
    d.settled = true ∧ Reaches (st d) .cpuM R.PWR_AVS_VSET ∧ d.pwr.avsFlight = none ∧ d.pwr.avsStop = false ∧
      d.fld F.PWR_AVS_STAT_VNOW = 750 ∧ e.settled = true ∧ Reaches (st e) .cpuM R.PWR_AVS_VSET ∧ e.pwr.avsFlight.isSome = true ∧
      (649 : Word).toNat % 1024 < 650 ∧ 650 ≤ (650 : Word).toNat % 1024 ∧ (850 : Word).toNat % 1024 ≤ 850 ∧
      850 < (851 : Word).toNat % 1024 :=
  ⟨by decide +kernel, reaches_cpu (by decide +kernel), by decide +kernel, by decide +kernel, by decide +kernel,
    by decide +kernel, reaches_cpu (by decide +kernel), by decide +kernel⟩

theorem witness_VoltageReached :
    let d (t : Nat) := sby.modPwr fun p => { p with avsFlight := some 775, avsTarget := t, avsStop := false }
    sby.settled = true ∧ sby.pwr.avsFlight = none ∧
      (∀ t ∈ [775, 776], (d t).settled = true ∧ (d t).pwr.avsFlight = some 775 ∧ (d t).pwr.avsStop = false ∧
        (d t).pwr.avsTarget = t) := by decide +kernel

theorem witness_VoltageTimedOut :
    let d (s : Bool) := sby.modPwr fun p => { p with avsFlight := some 775, avsStop := s }
    sby.settled = true ∧ sby.pwr.avsFlight = none ∧
      (∀ s, (d s).settled = true ∧ (d s).pwr.avsFlight.isSome = true ∧ (d s).pwr.avsStop = s) := by decide +kernel

/-! ### Thermal protection -/

/-- The active device with a sample under way. -/
def sampling (d : Dev) : Dev := { d with thm := { d.thm with sampling := true, started := true, age := 1 } }

theorem witness_SampleStarts :
    let d : Dev := { act with thm := { act.thm with sampling := false, started := true, age := 96 } }
    d.settled = true ∧ d.domOn .mgt = true ∧ d.on F.CLK_STAT_TICK_RUN = true ∧ d.thm.sampling = false ∧
      (if d.on F.THM_STAT_FAST then 4 else 96) ≤ d.thm.age ∧ (sampling act).settled = true ∧ (sampling act).thm.sampling = true := by
  decide +kernel

theorem witness_ReadingsTaken :
    let d := asking false (sampling act)
    d.settled = true ∧ d.domOn .mgt = true ∧ d.thm.sampling = true ∧ 1 ≤ d.thm.age ∧ (-200 : Int) ≤ -200 ∧
      (-200 : Int) + 20 < 4 * (d.lv F.THM_CFG_WARN : Int) ∧ d.lv F.THM_CFG_WARN < d.lv F.THM_CFG_THROT ∧
      d.lv F.THM_CFG_THROT < d.lv F.THM_CFG_SHUT ∧ d.lv F.THM_CFG_SHUT ≤ 125 ∧ d.reg R.THM_EXCL = 0 ∧
      d.fld F.THM_STAT_LEVEL = 0 ∧ d.on F.THM_STAT_SAFE = false ∧ d.dstate = stACTIVE ∧ d.lowPower = false := by decide +kernel

theorem witness_ReadingsAwaited : act.settled = true ∧ act.thm.sampling = false := by decide +kernel

theorem witness_LevelsJudged :
    let w : Int := 4 * act.lv F.THM_CFG_WARN
    let t : Int := 4 * act.lv F.THM_CFG_THROT
    let x : Int := 4 * act.lv F.THM_CFG_SHUT
    let h : Int := 4 * (max 1 (act.lv F.THM_CFG_HYST) : Nat)
    w < t ∧ t < x ∧ w - h ≤ w - h ∧ w - h < t ∧ w - h ≤ t - h - 1 ∧ t - h ≤ x - 1 ∧ act.bst.run = none ∧ act.bst.full = [] ∧
      act.lv F.THM_GRACE_GRACE ≠ 0 ∧ act.on F.THM_STAT_SAFE = false ∧
      (∀ l, l < 4 → (sets [(F.THM_STAT_LEVEL, l)] act).fld F.THM_STAT_LEVEL = l) := by decide +kernel

theorem witness_ThrottleEnforced :
    let d := sets [(F.THM_STAT_LEVEL, 2), (F.THM_STAT_ENF, 0)] act
    let d : Dev := { d with thm := { d.thm with grace := d.lv F.THM_GRACE_GRACE * 1024 } }
    d.settled = true ∧ 2 ≤ d.fld F.THM_STAT_LEVEL ∧ d.lv F.THM_GRACE_GRACE * 1024 ≤ d.thm.grace ∧ d.on F.THM_STAT_ENF = false ∧
      d.phase = 0 ∧ d.bst.run = none ∧ d.thm.sampling = false ∧ act.settled = true ∧ act.fld F.THM_STAT_LEVEL < 2 := by decide +kernel

theorem witness_StopFinished :
    let d : Dev := { act with thm := { act.thm with stop := 1 } }
    act.settled = true ∧ act.thm.stop = 0 ∧ d.settled = true ∧ d.thm.stop ≠ 0 := by decide +kernel
/-! ### Start-up, security, the record store -/

/-- A list with a number of n bytes, least significant byte first, in place of those at offset o. -/
def place_ (l : List Byte) (o n v : Nat) : List Byte :=
  l.take o ++ ((List.range n).map fun k => BitVec.ofNat 8 (v / 2 ^ (8 * k))) ++ l.drop (o + n)

/-- A valid boot header of sequence number q (R626, R627). -/
def header (q : Nat) : List Byte :=
  let h := place_ (place_ (place_ (List.replicate 256 0) 0 4 0x4A524448) 4 4 q) 10 1 100
  place_ h 252 4 (crc32 (slice h 0 252))

def noImage : ImageIn := ⟨[0, 0], [], [], []⟩

theorem witness_BootWithout :
    sby.settled = true ∧ sby.domOn .mgt = true ∧ sby.pwr.booted = false ∧ (15 : BitVec 4) ≠ 0 ∧
      headerValid (List.replicate 256 0) = false ∧ (sby.modPwr fun p => { p with booted := true }).pwr.booted = true := by
  decide +kernel

/-- Whether an image verifies rests on the signature scheme, which the spec takes from outside (log 2); all else that
the statement asks is met by this device and store. -/
theorem witness_BootEnters (i : ImageIn) (h : verifyImage sby.sec 1 i = 1) :
    let s : BootStore := ⟨header 0, List.replicate 256 0, i, noImage, none, none, none, none, none⟩
    let d : Dev := { sby with sec := { sby.sec with lc := 1 } }
    d.settled = true ∧ d.domOn .mgt = true ∧ d.pwr.booted = false ∧ d.sec.lc ∈ [1, 2, 3] ∧ headerValid s.hdr0 = true ∧
      headerValid s.hdr1 = false ∧ natLE (slice s.hdr0 8 1) ≠ 1 ∧ natLE (slice s.hdr0 9 1) ≠ 1 ∧
      verifyImage d.sec 1 s.fwA = 1 ∧ s.extA = none ∧ s.extB = none ∧ s.cfgA = none ∧ s.cfgB = none :=
  have hs : headerValid (header 0) = true ∧ headerValid (List.replicate 256 0) = false ∧
      natLE (slice (header 0) 8 1) ≠ 1 ∧ natLE (slice (header 0) 9 1) ≠ 1 := by decide +kernel
  ⟨by decide +kernel, by decide +kernel, by decide +kernel, by decide +kernel, hs.1, hs.2.1, hs.2.2.1, hs.2.2.2, h,
    rfl, rfl, rfl, rfl⟩

theorem witness_HeaderChosen :
    headerValid (header 0) = true ∧ headerValid (header (2 ^ 31 - 1)) = true ∧ headerValid (header 1) = true ∧
      natLE (slice (header (2 ^ 31 - 1)) 4 4) = 2 ^ 31 - 1 ∧ natLE (slice (header 1) 4 4) = 1 ∧
      headerValid (List.replicate 256 0) = false := by decide +kernel

theorem witness_TrialConfirmed :
    let d := sets [(F.SEC_BOOTSTAT_TRIES, 0), (F.SEC_ROLL_SVN, 255)] (life 2 fun x => { x with roll := 127, otpOp := none })
    let e := d.modSec fun x => { x with otpOp := some (.life 4), otpQ := [.key 0 1] }
    (e.settled = true ∧ e.sec.otpOp = some (.life 4) ∧ OtpOp.life 4 ≠ .roll 128 ∧ OtpOp.roll 128 ∉ e.sec.otpQ) ∧ d.settled = true ∧ Reaches (st d) .cpuM R.SEC_CTRL ∧ d.fld F.SEC_BOOTSTAT_TRIES = 0 ∧ d.sec.roll < min 128 (d.fld F.SEC_ROLL_SVN) ∧
      d.sec.lc ≠ 4 ∧ d.sec.otpOp = none ∧ (1 : Word).toNat % 8 = 1 ∧ (2 : Word).toNat % 8 = 2 ∧ (4 : Word).toNat % 8 = 4 ∧
      (life 4 id).settled = true ∧ Reaches (st (life 4 id)) .cpuM R.SEC_CTRL ∧ (life 4 id).sec.lc = 4 :=
  ⟨by decide +kernel, by decide +kernel, reaches_cpu (by decide +kernel), by decide +kernel, by decide +kernel, by decide +kernel, by decide +kernel,
    by decide, by decide, by decide, by decide +kernel, reaches_cpu (by decide +kernel), by decide +kernel⟩

theorem witness_VerifyAsked :
    let d := life 2 fun x => { x with hash := some (.attest 0x100000 []), hashQ := [] }
    sby.settled = true ∧ Reaches (st sby) .cpuM R.SEC_VCMD ∧ sby.sec.hash = none ∧ sby.sec.hashQ = [] ∧ (0x80000031 : Word).getLsbD 31 = true ∧
      (0x31 : Word).getLsbD 31 = false ∧ d.settled = true ∧ Reaches (st d) .cpuM R.SEC_VCMD ∧
      d.sec.hash = some (.attest 0x100000 []) ∧ d.sec.hashQ = [] :=
  ⟨by decide +kernel, reaches_cpu (by decide +kernel), by decide +kernel, by decide +kernel, by decide, by decide, by decide +kernel,
    reaches_cpu (by decide +kernel), by decide +kernel⟩

theorem witness_LifeCycleAsked :
    let d := life 1 fun x => { x with mmKey := ⟨0, keyCrc 0, true⟩, maint := ⟨0, keyCrc 0, true⟩, otpOp := none }
    let e := d.modSec fun x => { x with otpOp := some (.roll 1), otpQ := [.roll 2] }
    (e.settled = true ∧ e.sec.otpOp = some (.roll 1) ∧ OtpOp.roll 1 ≠ .life 2 ∧ OtpOp.life 2 ∉ e.sec.otpQ) ∧ d.settled = true ∧ Reaches (st d) .cpuM R.SEC_LC_REQ ∧ d.sec.lc = 1 ∧ d.sec.mmKey.enrolled = true ∧ d.sec.maint.enrolled = true ∧
      d.sec.otpOp = none ∧ (0x80000002 : Word).getLsbD 31 = true ∧ (0x80000002 : Word).toNat % 8 = 2 ∧
      (0x80000004 : Word).toNat % 8 = 4 ∧ (0x80000001 : Word).toNat % 8 = 1 :=
  ⟨by decide +kernel, by decide +kernel, reaches_cpu (by decide +kernel), by decide +kernel⟩

theorem witness_EnrolAsked :
    let d := life 1 fun x => { x with mmKey := ⟨0, 0, false⟩, maint := ⟨0, 0, true⟩, otpOp := none }
    let q := d.modSec fun x => { x with otpOp := some (.roll 1), otpQ := [.life 4, .key 1 7] }
    let key := d.modSec fun x => { x with otpOp := some (.key 0 5) }
    let waits := d.modSec fun x => { x with otpOp := some (.roll 1), otpQ := [.key 0 5] }
    (∀ e ∈ [d, q, key, waits, life 2 id], e.settled = true ∧ e.domOn .mgt = true ∧ e.domOn (domainOf R.SEC_ENROL) = true) ∧
      (∀ e ∈ [d, q, key, waits], e.sec.lc = 1 ∧ e.sec.mmKey.sealed = false ∧ e.sec.maint.sealed = true) ∧
      (0x80000000 : Word).toNat % 4 = 0 ∧ (0x80000001 : Word).toNat % 4 = 1 ∧ (0x80000003 : Word).toNat % 4 = 3 ∧
      d.sec.otpOp = none ∧ d.sec.otpQ = [] ∧ q.sec.otpOp ≠ none ∧ key.sec.otpOp = some (.key 0 5) ∧
      OtpOp.key 0 5 ∈ waits.sec.otpQ ∧ (life 2 id).sec.lc ≠ 1 := by decide +kernel

theorem witness_EnrolAsked_free :
    ∀ k, OtpOp.key 0 k ∉ (some (OtpOp.roll 1)).toList ++ [.life 4, .key 1 7] := by simp

theorem witness_FusesBlown :
    sby.settled = true ∧ sby.sec.otpOp = none ∧
      (∀ op ∈ [OtpOp.life 4, .roll 255, .key 0 1, .key 1 0], (life 1 fun x => { x with otpOp := some op }).settled = true ∧
        (life 1 fun x => { x with otpOp := some op }).sec.otpOp = some op) ∧
      (∀ q ∈ [[], [OtpOp.life 4], [.roll 1, .key 1 7]],
        (life 1 fun x => { x with otpOp := some (.key 0 1), otpQ := q }).settled = true) := by decide +kernel

theorem witness_AttestAsked :
    let d := sby.setReg R.SEC_ATT_ADDR (BitVec.ofNat 32 (0x140000 - 30048))
    let e := sets [(F.SEC_ATT_STAT_STATE, 1)] d
    let f : Dev := { d with sec := { d.sec with hash := some (.verify 3 1), hashQ := [] } }
    (d.settled = true ∧ Reaches (st d) .cpuM R.SEC_ATT_CTRL ∧ (1 : Word).getLsbD 0 = true ∧
      (d.reg R.SEC_ATT_ADDR).toNat % 4 = 0 ∧ 0x100000 ≤ (d.reg R.SEC_ATT_ADDR).toNat ∧
      (d.reg R.SEC_ATT_ADDR).toNat + 30048 ≤ 0x140000 ∧ d.fld F.SEC_ATT_STAT_STATE ≠ 1 ∧ d.sec.hash = none ∧ d.sec.hashQ = [] ∧ d.sec.lc ≠ 4) ∧
    (e.settled = true ∧ Reaches (st e) .cpuM R.SEC_ATT_CTRL ∧ e.fld F.SEC_ATT_STAT_STATE = 1) ∧
    (f.settled = true ∧ Reaches (st f) .cpuM R.SEC_ATT_CTRL ∧ f.sec.hash = some (.verify 3 1) ∧ f.sec.hashQ = [] ∧ f.sec.lc ≠ 4 ∧
      f.fld F.SEC_ATT_STAT_STATE ≠ 1) ∧ ¬ 0x100000 ≤ (sby.reg R.SEC_ATT_ADDR).toNat :=
  ⟨⟨by decide +kernel, reaches_cpu (by decide +kernel), by decide +kernel⟩,
    ⟨by decide +kernel, reaches_cpu (by decide +kernel), by decide +kernel⟩,
    ⟨by decide +kernel, reaches_cpu (by decide +kernel), by decide +kernel⟩, by decide +kernel⟩

theorem witness_HashRuns :
    (∀ op ∈ [HashOp.verify 3 1, .attest 0x100000 []],
      (life 2 fun x => { x with hash := none, hashQ := [op] }).settled = true ∧
      (life 2 fun x => { x with hash := none, hashQ := [op] }).sec.hashQ = [op] ∧
      (life 2 fun x => { x with hash := some op }).settled = true ∧
      (life 2 fun x => { x with hash := some op }).sec.hash = some op) ∧
    (life 4 fun x => { x with hash := some (.attest 0x100000 []) }).sec.lc = 4 ∧
    (life 2 fun x => { x with hash := some .journal }).settled = true ∧
    sby.settled = true ∧ sby.sec.hash = none ∧ sby.sec.hashQ = [] := by decide +kernel

theorem witness_CommitAsked :
    let d := life 2 fun x => { x with jnlRun := some 3 }
    sby.settled = true ∧ Reaches (st sby) .cpuM R.SEC_JNL_CMD ∧ (1 : Word).getLsbD 0 = true ∧ (0 : Word).getLsbD 0 = false ∧
      sby.sec.jnlRun = none ∧ d.settled = true ∧ Reaches (st d) .cpuM R.SEC_JNL_CMD ∧ d.sec.jnlRun = some 3 :=
  ⟨by decide +kernel, reaches_cpu (by decide +kernel), by decide, by decide, by decide +kernel, by decide +kernel,
    reaches_cpu (by decide +kernel), by decide +kernel⟩

theorem clean_reset_mem {d : Dev} (hm : d.mem = []) (hc : d.chk = []) (a : Nat) :
    classifyWord (d.memWord a) (d.memCheck a) = .clean := by
  have h0 : d.memWord a = 0 := by simp [memWord, hm, Cells.get, zeroByte]; decide
  have h1 : d.memCheck a = 0 := by simp [memCheck, hc, Cells.get, zeroByte]
  rw [h0, h1]; decide +kernel

theorem witness_CommitDone :
    let d := life 2 fun x => { x with jnlRun := some 15, jnlQ := [] }
    (sby.settled = true ∧ sby.sec.jnlRun = none ∧ sby.thm.stop = 0 ∧ d.settled = true ∧ d.sec.jnlRun = some 15 ∧
      d.sec.jnlQ = [] ∧ d.thm.stop = 0) ∧
      ∀ i, i < 2048 → classifyWord (d.memWord (memBase 3 + 4 * i)) (d.memCheck (memBase 3 + 4 * i)) = .clean :=
  ⟨by decide +kernel, fun _ _ => clean_reset_mem (by decide +kernel) (by decide +kernel) _⟩

theorem witness_KeyShown :
    let d : Dev := (life 2 id).modCpu fun c => { c with running := true }
    (life 4 id).settled = true ∧ (life 4 id).sec.lc = 4 ∧ d.settled = true ∧ d.sec.lc ≠ 4 ∧ d.cpu.running = true := by
  decide +kernel

/-- The device after reset with an address and length of the record store set. -/
def storeAt (cs a len : Nat) : Dev := sets [(F.NVM_LEN_LEN, len), (F.NVM_ADDR_HI_CS, cs)] (sby.setReg R.NVM_ADDR_LO (BitVec.ofNat 32 a))

/-- The same with an operation of kind k in progress. -/
def storing (k : Nat) (access auto : Bool) : Dev :=
  (sets [(F.NVM_STAT_STATE, 1), (F.NVM_STAT_REMAIN, 128)] sby).modNvm fun n =>
    { n with op := k, cs := 1, accessing := access, auto := auto, abort := false }

theorem witness_StoreAsked :
    let a := 2 ^ sby.nvm.hdr.rsize - 128
    let d := storeAt 1 a 128
    let e := (storeAt 0 0x8FF80 128).modCpu fun c => { c with running := true }
    let f := sets [(F.NVM_BUDGET_CLASS, 0)] (d.setReg R.NVM_USED 16777216)
    let g := storing 0 true false
    (d.settled = true ∧ Reaches (st d) .cpuM R.NVM_CMD ∧ d.fld F.NVM_STAT_STATE ≠ 1 ∧ d.on F.NVM_ADDR_HI_CS = true ∧
      d.fld F.NVM_ADDR_HI_ADDR * 2 ^ 32 + (d.reg R.NVM_ADDR_LO).toNat = a ∧ d.fld F.NVM_LEN_LEN = 128 ∧ a % 4 = 0 ∧
      a / 128 = (a + 128 - 1) / 128 ∧ a + 128 ≤ 2 ^ d.nvm.hdr.rsize) ∧
    (e.settled = true ∧ Reaches (st e) .cpuM R.NVM_CMD ∧ e.fld F.NVM_STAT_STATE ≠ 1 ∧ e.on F.NVM_ADDR_HI_CS = false ∧
      e.cpu.running = true ∧ e.on F.SEC_BOOTSTAT_FW = false ∧ (e.reg R.NVM_ADDR_LO).toNat < 0x90000 ∧ 0x10000 ≤ (e.reg R.NVM_ADDR_LO).toNat ∧
      e.fld F.NVM_ADDR_HI_ADDR = 0 ∧ e.fld F.NVM_LEN_LEN = 128 ∧ 0x8FF80 / 128 = (0x8FF80 + 128 - 1) / 128) ∧
    (f.settled = true ∧ Reaches (st f) .cpuM R.NVM_CMD ∧ f.fld F.NVM_BUDGET_CLASS = 0 ∧
      16 * 2 ^ 20 < (f.reg R.NVM_USED).toNat + 128 ∧ f.fld F.NVM_STAT_STATE ≠ 1) ∧
    (g.settled = true ∧ Reaches (st g) .cpuM R.NVM_CMD ∧ g.fld F.NVM_STAT_STATE = 1) ∧
    (0x80000003 : Word).getLsbD 31 = true ∧ (0x80000003 : Word).getLsbD 30 = false ∧ (0x80000003 : Word).toNat % 4 = 3 ∧
      (0x80000001 : Word).toNat % 4 = 1 ∧ (0x80000000 : Word).toNat % 4 = 0 ∧ (0x80000001 : Word).getLsbD 4 = false :=
  ⟨⟨by decide +kernel, reaches_cpu (by decide +kernel), by decide +kernel⟩,
    ⟨by decide +kernel, reaches_cpu (by decide +kernel), by decide +kernel⟩,
    ⟨by decide +kernel, reaches_cpu (by decide +kernel), by decide +kernel⟩,
    ⟨by decide +kernel, reaches_cpu (by decide +kernel), by decide +kernel⟩, by decide⟩

theorem witness_EraseAsked :
    let a := 2 ^ sby.nvm.hdr.rsize - 2 ^ sby.nvm.hdr.ersz
    let d := storeAt 1 a 0
    d.settled = true ∧ Reaches (st d) .cpuM R.NVM_CMD ∧ (0x80000002 : Word).getLsbD 31 = true ∧
      (0x80000002 : Word).getLsbD 30 = false ∧ (0x80000002 : Word).toNat % 4 = 2 ∧ d.fld F.NVM_STAT_STATE ≠ 1 ∧
      d.on F.NVM_ADDR_HI_CS = true ∧ d.fld F.NVM_ADDR_HI_ADDR * 2 ^ 32 + (d.reg R.NVM_ADDR_LO).toNat = a ∧
      a % 2 ^ d.nvm.hdr.ersz = 0 ∧ a % (if (0x80000012 : Word).getLsbD 4 then 128 else 4) = 0 ∧
      a + 2 ^ d.nvm.hdr.ersz ≤ 2 ^ d.nvm.hdr.rsize :=
  ⟨by decide +kernel, reaches_cpu (by decide +kernel), by decide +kernel⟩

theorem witness_ProgramAsked :
    let d := (storeAt 1 128 128).setReg R.NVM_USED (BitVec.ofNat 32 (16 * 2 ^ 20 - 128))
    d.settled = true ∧ Reaches (st d) .cpuM R.NVM_CMD ∧ (0x80000001 : Word).toNat % 4 = 1 ∧ d.fld F.NVM_STAT_STATE ≠ 1 ∧
      d.on F.NVM_ADDR_HI_CS = true ∧ d.fld F.NVM_ADDR_HI_ADDR * 2 ^ 32 + (d.reg R.NVM_ADDR_LO).toNat = 128 ∧
      d.fld F.NVM_LEN_LEN = 128 ∧ 128 / 128 = (128 + 128 - 1) / 128 ∧ 128 + 128 ≤ 2 ^ d.nvm.hdr.rsize ∧
      (d.reg R.NVM_USED).toNat + 128 ≤ 16 * 2 ^ 20 :=
  ⟨by decide +kernel, reaches_cpu (by decide +kernel), by decide +kernel⟩

theorem witness_StoreAborted :
    (∀ b, (storing 0 b true).settled = true ∧ (storing 0 b true).fld F.NVM_STAT_STATE = 1 ∧ (storing 0 b true).nvm.accessing = b ∧
      (storing 0 b true).domOn .mgt = true) ∧
    sby.settled = true ∧ Reaches (st sby) .cpuM R.NVM_CMD ∧ (0xC0000000 : Word).getLsbD 30 = true ∧ sby.fld F.NVM_STAT_STATE ≠ 1 :=
  ⟨by decide +kernel, by decide +kernel, reaches_cpu (by decide +kernel), by decide, by decide +kernel⟩

theorem witness_StoreAnswers :
    (∀ k ∈ [0, 1], let d := storing k true false
      d.settled = true ∧ d.fld F.NVM_STAT_STATE = 1 ∧ d.nvm.accessing = true ∧ d.nvm.auto = false ∧ d.nvm.abort = false ∧
      d.nvm.op = k ∧ d.nvm.cs = 1 ∧ d.fld F.NVM_STAT_REMAIN = 128) ∧ (List.replicate 128 (0 : Byte)).length = 128 ∧
    sby.settled = true ∧ sby.fld F.NVM_STAT_STATE ≠ 1 := by decide +kernel

theorem witness_BuffersPaced :
    ∀ k ∈ [0, 1], (storing k false true).settled = true ∧ (storing k false true).fld F.NVM_STAT_STATE = 1 ∧
      (storing k false true).nvm.auto = true ∧ (storing k false true).nvm.op = k ∧ (storing k false true).domOn .mgt = true ∧
      domainOf R.NVM_RBUF31 = .mgt ∧ domainOf (R.NVM_WBUF 31) = .mgt := by decide +kernel

theorem witness_BudgetRenewed :
    (sby.setReg R.NVM_WIN_LEFT 0).reg R.NVM_WIN_LEFT = 0 ∧ (sby.setReg R.NVM_WIN_LEFT 1).reg R.NVM_WIN_LEFT ≠ 0 := by
  decide +kernel
/-! ### Fault classes, self-tests, counters, the block as a whole -/

theorem witness_FaultLeaked :
    let d (l : Bool) : Dev := sby.setBucket ⟨11, 0, 1, 0, l⟩
    sby.settled = true ∧ (sby.bucket 11 0).level = 0 ∧
      (∀ l, (d l).settled = true ∧ ((d l).bucket 11 0).level ≠ 0 ∧ ((d l).bucket 11 0).timer = 0 ∧
        ((d l).bucket 11 0).lasting = l) ∧ lastingFlag 11 0 = none := by decide +kernel

theorem witness_FaultCharged :
    let t := sby.faultT 1
    let d (v : Nat) (l : Bool) : Dev := sby.setBucket ⟨1, 0, v, 5, l⟩
    (sby.leak 1 0).faultT 1 = t ∧ (((d (t - 1) false).leak 1 0).bucket 1 0).level + 1 = t ∧
      (((d t true).leak 1 0).bucket 1 0).lasting = true ∧ t ≤ (((d t true).leak 1 0).bucket 1 0).level + 1 ∧
      (((d (t - 1) false).leak 1 0).bucket 1 0).lasting = false := by decide +kernel

theorem witness_TestStarts :
    let d := (sets [(F.SPR_RET_RET, 15), (F.BST_CFG_BUDGET, 15)] act).modSpr fun p => { p with queued := 0x100 }
    let e := (sets [(F.BST_CFG_BUDGET, 3)] act).modSpr fun p => { p with queued := 0 }
    let f := e.modBst fun b => { b with memQ := [⟨3, 0, 5⟩] }
    d.settled = true ∧ testable d ∧ d.nextSliceTest = some (8 : Slice).val ∧ testAllowed d 15 ∧ d.active = true ∧
      e.settled = true ∧ testable e ∧ e.nextSliceTest = none ∧ e.bst.memQ = [] ∧
      f.settled = true ∧ testable f ∧ f.nextSliceTest = none ∧ f.bst.memQ = [⟨3, 0, 5⟩] ∧ testAllowed f 3 := by
  unfold testable testAllowed; decide +kernel

theorem witness_TestEnds :
    let d (p : Nat) := act.modBst fun b => { b with run := some ⟨p, 0, 0⟩ }
    let r : TestRun := ⟨10240, false, [4]⟩
    act.settled = true ∧ act.fullRunning = false ∧ act.bst.run = none ∧ 10240 ≤ r.count ∧ r.words ≠ [] ∧
      (∀ p ∈ [0, 3], (d p).settled = true ∧ (d p).fullRunning = false ∧ (d p).bst.run = some ⟨p, 0, 0⟩) := by decide +kernel

theorem witness_SliceJudged :
    act.spr.blame = [] ∧ (act.modSpr fun p => { p with retried := 0 }).spr.retried.getLsbD 8 = false := by decide +kernel

theorem witness_SegmentsQueued :
    let d := act.modBst fun b => { b with memQ := [] }
    let last (m : Nat) := segments m - 1
    d.settled = true ∧ Reaches (st d) .cpuM R.BST_MCMD ∧ d.bst.memQ = [] ∧
      (BitVec.ofNat 32 (2 ^ 31 + last 0) : Word).getLsbD 31 = true ∧
      (BitVec.ofNat 32 (2 ^ 31 + last 0) : Word).toNat % 1024 + 1 ≤ segments 0 ∧
      ¬ (BitVec.ofNat 32 (2 ^ 31 + 2 ^ 16 + last 0) : Word).toNat % 1024 + 2 ≤ segments 0 :=
  ⟨by decide +kernel, reaches_cpu (by decide +kernel), by decide +kernel⟩

theorem witness_FullTestAsked :
    let d : Dev := { act with sec := { act.sec with lc := 1 } }
    let e : Dev := { act with sec := { act.sec with lc := 2 } }
    let f := sets [(F.BST_FULL_STATE, 1)] act
    d.settled = true ∧ Reaches (st d) .cpuM R.BST_FULL ∧ (0x80000000 : Word).getLsbD 31 = true ∧ d.fullRunning = false ∧
      d.sec.lc = 1 ∧ d.dstate = stACTIVE ∧ d.fld F.THM_STAT_LEVEL = 0 ∧ e.settled = true ∧ Reaches (st e) .cpuM R.BST_FULL ∧
      e.sec.lc = 2 ∧ e.fullRunning = false ∧ f.settled = true ∧ Reaches (st f) .cpuM R.BST_FULL ∧ f.fullRunning = true :=
  ⟨by decide +kernel, reaches_cpu (by decide +kernel), by decide, by decide +kernel, by decide +kernel, by decide +kernel,
    by decide +kernel, by decide +kernel, reaches_cpu (by decide +kernel), by decide +kernel, by decide +kernel, by decide +kernel,
    reaches_cpu (by decide +kernel), by decide +kernel⟩

theorem witness_FullTestEnds :
    let f := (sets [(F.BST_FULL_STATE, 1)] act).modBst fun b => { b with full := [] }
    act.settled = true ∧ act.fullRunning = false ∧ f.settled = true ∧ f.fullRunning = true ∧ f.bst.full = [] ∧ f.active = true ∧
      f.thm.stop = 0 ∧ f.pwr.heldOff = false ∧ f.pwr.lossQ = none ∧ (f.modPwr fun p => { p with heldOff := true }).pwr.heldOff = true := by decide +kernel

theorem witness_SnapshotAsked :
    act.settled = true ∧ Reaches (st act) .cpuM R.CNT_SNAP ∧ Reaches (st act) .cpuM R.CNT_FRZ ∧ (1 : Word).getLsbD 0 = true ∧
      (2 : Word).getLsbD 0 = false :=
  ⟨by decide +kernel, reaches_cpu (by decide +kernel), reaches_cpu (by decide +kernel), by decide⟩

theorem witness_CounterWritten :
    act.settled = true ∧ Reaches (st act) .cpuM (R.CNT_PMC_HI 7) ∧ Reaches (st act) .cpuM (R.CNT_PMC_LO 7) :=
  ⟨by decide +kernel, reaches_cpu (by decide +kernel), reaches_cpu (by decide +kernel)⟩

theorem witness_CounterWraps :
    let d := (act.setReg (R.CNT_PMC_LO 7) 0xFFFFFFFF).setReg (R.CNT_PMC_HI 7) 0xFFFF
    d.settled = true ∧ d.count48 (R.CNT_PMC_LO 7) = 2 ^ 48 - 1 ∧ d.frozen = false ∧
      act.count48 (R.CNT_PMC_LO 7) ≠ 2 ^ 48 - 1 := by decide +kernel

theorem witness_SampleTaken :
    let d (k : Nat) : Dev :=
      { act with cnt := { act.cnt with due := [⟨64, 0x13, true, 0⟩], samples := List.replicate k ⟨0, 0, true, 0⟩ } }
    (∀ k ∈ [127, 128], (d k).settled = true ∧ (d k).cnt.due = [⟨64, 0x13, true, 0⟩] ∧ (d k).cnt.samples.length = k) ∧
      act.settled = true ∧ act.cnt.due = [] := by decide +kernel

theorem witness_SampleCounted :
    ∀ k ∈ [1, 2], let d : Dev := { sets [(F.CNT_SMP_CFG_EN, 1)] act with cnt := { act.cnt with left := k } }
      d.on F.CNT_SMP_CFG_EN = true ∧ d.frozen = false ∧ d.cnt.left = k := by decide +kernel

theorem witness_SamplePopped : act.settled = true ∧ Master.cpuM ≠ .mesh ∧ Reaches (st act) .cpuM R.CNT_SMP_ENT2 :=
  ⟨by decide +kernel, by decide, reaches_cpu (by decide +kernel)⟩

theorem witness_StepIdles :
    let d (alm : Nat) (sub : BitVec 15) (ld : Bool) := (act.setReg R.PWR_RTC_CTRL (BitVec.ofNat 32 (2 * alm))).modPwr fun p =>
      { p with rtcSub := sub, loadDue := ld }
    (st act).pending = [] ∧ (inState stOFF).settled = true ∧ (inState stOFF).dstate = stOFF ∧
      (∀ x ∈ [(0, 0x7FFE, false), (0, 0x7FFF, false), (1, 0x7FFF, false), (0, 0x7FFF, true), (1, 0x7FFE, true)],
        (d x.1 x.2.1 x.2.2).settled = true ∧ (d x.1 x.2.1 x.2.2).dstate ≠ stOFF ∧ (d x.1 x.2.1 x.2.2).pwr.loadDue = x.2.2 ∧
          (d x.1 x.2.1 x.2.2).pwr.rtcSub = x.2.1 ∧
          (d x.1 x.2.1 x.2.2).on F.PWR_RTC_CTRL_ALM_EN = (x.1 == 1)) := by decide +kernel

theorem witness_StepInvariant :
    let s : State := { State.reset with dev := act, pins := pinsOf act, pending := [.hostPllLockLoss] }
    s.Inv ∧ ∃ t, step s = .next t :=
  ⟨⟨by decide +kernel, by unfold queuesBounded; decide +kernel, rfl⟩, _, rfl⟩

theorem witness_CodewordParityEven : (List.replicate 272 true).length = 272 := by decide +kernel

theorem witness_EventsInCodeOrder : ∀ inp, Instr.hostPllLock ≠ .quireTick inp := by intro inp h; cases h

theorem witness_FullQueueLoses :
    let r : Raise := ⟨5, 1, 0⟩
    let d : Dev := { sby with raised := [r], popped := [5], emptied := false }
    let q : EvQ := ⟨List.replicate 16 ⟨0, 0, 0⟩, 0⟩
    d.emptied = false ∧ d.popped.contains 5 = true ∧ d.raised = [r] ∧ r.blk = 5 ∧ q.q.length = 16 := by decide +kernel
/-! ### The remaining hypotheses of statements -/

theorem witness_WindowWritten :
    let d := (((port 0x81).setPageByte (maint 160) 0x10).setPageByte (maint 161) 0x14).modMgmt fun m =>
      { m with busy := [.write 1 [(252, 0), (253, 0), (254, 0), (255, 1)]] }
    d.settled = true ∧ windowBaseOk (d.windowBase 1) = true ∧ d.mgmt.busy = [.write 1 [(252, 0), (253, 0), (254, 0), (255, 1)]] := by
  decide +kernel

theorem witness_Plausibility :
    sby.plausible (List.replicate 16 600) 15 = true ∧ sby.plausible (List.replicate 16 601) 15 = false := by decide +kernel

theorem witness_TestJudged :
    let r : TestRun := ⟨10240, true, []⟩
    r.count = 10240 ∧ r.ok = true ∧ r.words = [] ∧ (⟨10239, true, []⟩ : TestRun).count < 10240 := by decide

theorem witness_DmaHalted : 7 < 8 := by decide

theorem witness_InnerCorrects : (List.replicate 272 true).length = 272 ∧ 287 < 288 ∧ 0 ≠ 287 := by decide +kernel

theorem witness_LineRecovered : (3 : Nat) < 4 ∧ ∀ x ∈ [0, 1, 2, 3], x < 4 := by decide

/-! ### WellFormed refuses ill-formed terms -/

theorem test_wf_leaf : (Instr.leafDecode 0 ⟨List.replicate 143 0, []⟩).wf = false := by decide +kernel
theorem test_wf_marker : (Instr.markerReceived 0 ⟨[], []⟩).wf = false := by decide +kernel
theorem test_wf_pilot : (Instr.pilotLeafReceived 0 ⟨[], []⟩).wf = false := by decide +kernel
theorem test_wf_interval : (Instr.updateIntervalEnd 0 ⟨[], []⟩).wf = false := by decide +kernel
theorem test_wf_tick : (Instr.quireTick ⟨[⟨.cpuM, 0x0FFFFFFC, .word, 0⟩], 0⟩).wf = false := by decide +kernel
theorem test_wf_low_word : (Instr.loWordRead .cpuM 0x0FFFFFFC).wf = false := by decide +kernel
theorem test_wf_positions : (Instr.alignmentMarkerSet 0 true [5440]).wf = false := by decide +kernel
theorem test_wf_codeword : (Instr.hostCodewordDecode 0 []).wf = false := by decide +kernel
theorem test_wf_register : (Instr.registerWrite .cpuM (2 ^ 32) .word 0).wf = false := by decide +kernel
theorem test_wf_alias : (Instr.aliasWrite .cpuM 0x24000000 0).wf = false := by decide +kernel
theorem test_wf_port_write : (Instr.mgmtPortWrite (0x50, 0) (List.replicate 129 0)).wf = false := by decide +kernel
theorem test_wf_port_read : (Instr.mgmtPortRead (0x50, 0) 129).wf = false := by decide +kernel
theorem test_wf_boot : (Instr.bootSequence ⟨[], [], noImage, noImage, none, none, none, none, none⟩ 0).wf = false := by decide +kernel
theorem test_wf_token : (Instr.lcRequest .cpuM 0 ⟨[], [], [], []⟩).wf = false := by decide +kernel
theorem test_wf_image : (Instr.hashOpDone ⟨[], [], [], []⟩).wf = false := by decide +kernel
theorem test_wf_store_data : (Instr.nvmOpDone (List.replicate 129 0)).wf = false := by decide +kernel

/-- The first bytes of SHAKE256 of no message, as published with FIPS 202. -/
theorem test_shake256 : shake256 [] 8 = [0x46, 0xB9, 0xDD, 0x2B, 0x0B, 0xA8, 0x8D, 0x13] := by decide +kernel

/-! ### The spec's worked examples -/

/-- Chapter 3: three slots of one quire. -/
theorem test_slots : slotKind 9000 = .data 8965 ∧ slotKind 4882 = .pilot 12 ∧ slotKind 14905 = .stitch 7 := by decide +kernel

/-- Chapter 3: the seed of lane L5 in the quire 0x12_3456, and its first eight outputs. -/
theorem test_scrambler :
    scramblerSeed 5 0x123456 = 0x02BA5C96E1123456 ∧
      (scramble (scramblerSeed 5 0x123456) (List.replicate 8 false)).1 = [true, false, false, false, false, false, true, true] := by
  decide +kernel

/-- Chapter 3: the content of a marker on lane L5. -/
theorem test_marker : markerHead ⟨0x123456, 5, 0x0A17, 0x00C3, 1⟩ = bitsOf 64 0x123456A0A1700C31 := by decide +kernel

/-- Chapter 4: the payload with p[0] = p[271] = 1. -/
def payload : List Bool := (List.range 272).map fun t => t == 0 || t == 271

/-- Chapter 4: its codeword has ones at the ten positions of the example. -/
theorem test_encode :
    (List.range 288).filter (fun t => (innerEncode payload).getD t false) = [0, 271, 272, 277, 278, 279, 280, 281, 282, 286] := by
  decide +kernel

/-- Chapter 4: the leaf with t = 100 and t = 150 inverted and its reliabilities. -/
def received : List Bool := flipBit (flipBit (innerEncode payload) 100) 150
def reliabilities : List Nat :=
  (List.range 288).map fun t => if t = 150 then 1 else if t = 40 ∨ t = 100 then 2 else if t = 200 then 3 else 15

/-- Chapter 4: Chase 16 selects the transmitted codeword, two bits from the hard decision. -/
theorem test_chase16 :
    (innerDecode 0 received reliabilities).bits = payload ∧ (innerDecode 0 received reliabilities).bad = false ∧
      (innerDecode 0 received reliabilities).change = 2 ∧ (innerDecode 0 received reliabilities).pat ≠ 0 := by decide +kernel

/-- Chapter 4: so does Chase 8; with pattern 0 alone the leaf is uncorrectable. -/
theorem test_chase8_hard :
    (innerDecode 1 received reliabilities).bits = payload ∧ (innerDecode 2 received reliabilities).bad = true := by decide +kernel

/-- Chapter 5: FFE codes at a rising edge, 38, 230 and 210. -/
theorem test_ffe :
    (ffeRaw [0xF440F800, 0, 0x200] [-3] [-3, 3, 3] [-1]).map (dacCode true []) = [38, 230, 210] := by decide +kernel

/-- Chapter 5: the first code, the peak and the negative peak of a tone of amplitude 64 in replace mode. -/
theorem test_tone :
    toneCode 2 64 0 77 = 128 ∧ toneCode 2 64 0x40000000 77 = 191 ∧ toneCode 2 64 0xC0000000 77 = 64 := by decide +kernel

/-- Chapters 6 and 9: raw code 200 with OFS −24 and GAIN 82 gives 75.00, with OFS −27 and GAIN 87 75.25. -/
theorem test_trim :
    corrected false (BitVec.ofNat 32 (82 * 256 + 256 - 24)) 200 = 300 ∧
      corrected false (BitVec.ofNat 32 (87 * 256 + 256 - 27)) 200 = 301 := by decide +kernel

/-- Chapter 6: an rms of 48 LSB at gain step 6 is LVL 300. -/
theorem test_level : levelOf (addAt (List.replicate 16 0) 6 (2304 * (4 * 48) ^ 2)) 2304 = 300 := by decide +kernel

/-- Chapter 9: −27 and −26 give −27, 86 and 88 give 87. -/
theorem test_cal_mean : calMean [some (-27), some 86] [some (-26), some 88] = [some (-27), some 87] := by decide

/-- Chapter 12: BD3 takes steps of 40, and a last step of 30. -/
theorem test_limiter :
    let d (out : Nat) : Dev := sets [(F.HKP_BCFG_STEP 3, 40), (F.HKP_BSTAT_OUT 3, out)]
      { act with hkp := { act.hkp with goal := act.hkp.goal.set 3 9830 } }
    ((d 0).biasStep 3).fld (F.HKP_BSTAT_OUT 3) = 40 ∧ ((d 9800).biasStep 3).fld (F.HKP_BSTAT_OUT 3) = 9830 := by decide +kernel

/-- Chapter 12: 412.6 mV on a range of 1.25 V is VALUE 0x5_4801. -/
theorem test_conversion :
    (after (.conversionClose (33008 * 2 ^ 43 / 100000) false) closing).fld (F.HKP_RES_VALUE 31) = 0x54801 := by decide +kernel

/-- Chapter 14: channel DMA3 as the example sets it up. -/
def dma3 (dst : Nat) : Dev :=
  sets [(F.DMA_CFG_BURST 3, 3), (F.DMA_CFG_EVT_EN 3, 1), (F.DMA_CFG_EVL 3, 3)] (dmaAt 3 0x200000 dst 0x2000 0)

/-- Chapter 14: DST 0x0012_0040 is not aligned to 128, error 1; 0x0012_0000 is legal. -/
theorem test_dma_start :
    (after (.dmaStart .cpuM 3 1) (dma3 0x120040)).dmaState 3 = 3 ∧
      (after (.dmaStart .cpuM 3 1) (dma3 0x120040)).fld (F.DMA_STAT_ERR 3) = 1 ∧
      (after (.dmaStart .cpuM 3 1) (dma3 0x120000)).dmaState 3 = 1 := by decide +kernel

/-- Chapter 14: DMA3 becomes active; its first beat leaves COUNT at 0x1FFC. -/
theorem test_dma_beat :
    let d := after .dmaActivate (after (.dmaStart .cpuM 3 1) (dma3 0x120000))
    d.fld F.DMA_ACTIVE_CH = 3 ∧ d.dmaState 3 = 2 ∧ (after .dmaBeat d).fld (F.DMA_COUNT_COUNT 3) = 0x1FFC := by decide +kernel

/-- Chapter 15: the alias of FREEZE of `LANE.EQ_CTRL3`, and of `LANE.EVSTAT.PEND`. -/
theorem test_alias_address :
    R.LANE_EQ_CTRL 3 = 0x10113714 ∧ busTarget 0x2226E284 = (0x10113714, some 1) ∧ busTarget 0x222FE0FC = (0x10117F04, some 31) := by
  decide +kernel

/-- Chapter 15: a write of 1 there changes FREEZE alone, and `FROZEN` reads 1. -/
theorem test_alias_write :
    let d := sets [(F.LANE_EQ_CTRL_PRE_VALID 3, 1)] act
    (after (.aliasWrite .cpuM 0x2226E284 1) d).reg (R.LANE_EQ_CTRL 3) = d.reg (R.LANE_EQ_CTRL 3) ||| 2 ∧
      (after (.aliasWrite .cpuM 0x2226E284 1) d).on (F.LANE_EQ_STAT_FROZEN 3) = true := by decide +kernel

/-- Chapter 15: the entry of data valid on L3. -/
theorem test_event_word : Dev.headWord ⟨[⟨0x61, 3, 0x24A10⟩], 0⟩ = 0x61324A10 := by decide +kernel

/-- Chapter 16: window 3 over SPR shows `SPR.STAT` at bytes 140 to 143. (The example's WSTAT 0 passes over the guarded
words of that window, log 22.) -/
theorem test_window :
    let d := ((((port 0x83).setReg R.SPR_STAT 0x0303F060).setPageByte (maint 168) 0x10).setPageByte (maint 169) 0x14).modMgmt
      fun m => { m with busy := [.fetch 3] }
    (List.range 4).map (fun k => (after .windowFetch d).pageByte (pageKey 0x83 0 (140 + k))) = [0x03, 0x03, 0xF0, 0x60] := by decide +kernel

/-- Chapter 16: what 0x0303_F060 says of the flyleaf. -/
theorem test_spr_stat :
    let d := sby.setReg R.SPR_STAT 0x0303F060
    d.target = 3 ∧ d.fld F.SPR_STAT_FLY = 3 ∧ d.fld F.SPR_STAT_TESTING = 15 ∧ d.fld F.SPR_STAT_RPTR = 3 ∧ d.phase = 0 ∧
      d.kind = 0 ∧ d.exhausted = false := by decide +kernel

/-- Chapter 20: the period of class 7 is 1,398,101 quires; the third mismatch brings its level to T. -/
theorem test_fault_class : sby.faultPeriod 7 = 1398101 ∧ sby.faultT 7 = 3 := by decide +kernel

/-- Chapter 22: the address and reset word of `LANE.EQ_STAT5`, its alias of DATA_VALID, and `SYS.IRQ_EN`'s guard. -/
theorem test_register_map :
    R.LANE_EQ_STAT 5 = 0x10115718 ∧ regReset (R.LANE_EQ_STAT 5) = 0x03000000 ∧ busTarget 0x222AE300 = (0x10115718, some 0) ∧
      R.LANE_ACQ_DONE 5 = 0x10115728 ∧ ((place R.SYS_IRQ_EN).map Place.guarded) = some true ∧
      ((place (R.LANE_EQ_STAT 5)).map Place.guarded) = some false := by decide +kernel

/-- Chapter 2: `MAP.REMAP3` resets to 0x0000_7676. -/
theorem test_remap_reset : regReset (R.MAP_REMAP 3) = 0x7676 := by decide +kernel

/-- Chapter 18: no table of bits names a command's word. -/
theorem test_decode_none : decodeTableWord 32 0 = none := by decide

/-! ### One command at a time -/

/-- R27: the tick runs once the host PLL locks. -/
theorem test_pll_lock : (after .hostPllLock sby).on F.CLK_STAT_TICK_RUN = true := by decide +kernel
/-- R52: only the bit of the lost lane is 1. -/
theorem test_host_lost : (after (.hostLaneLost 9) act).fld ⟨R.HST_LSTAT, 0, 16⟩ = 512 := by decide +kernel
/-- R533: groups are ORed into PEND. -/
theorem test_press : (after (.clkPressWrite .cpuM 0x11) (after (.clkPressWrite .cpuM 6) act)).fld F.CLK_PRESS_STAT_PEND = 0x17 := by
  decide +kernel
/-- R538: the host's write without a session is counted. -/
theorem test_denied :
    (after (.registerWrite .host R.SYS_IRQ_EN .word 1) sby).reg R.SYS_DENY_HOST = 1 ∧
      (after (.registerWrite .host R.SYS_IRQ_EN .word 1) sby).reg R.SYS_IRQ_EN = sby.reg R.SYS_IRQ_EN := by decide +kernel
/-- R474: a second memory error while one is handled halts the processor. -/
theorem test_memory_error_halts :
    (after .memoryErrorInterrupt ((running 0).modCpu fun c => { c with memPend := true, memFlag := true })).cpu.halted = true := by
  decide +kernel
/-- R460: the memory-error interrupt goes to cause 16. -/
theorem test_memory_error :
    (after .memoryErrorInterrupt ((running 64).modCpu fun c => { c with memPend := true })).csr csrMCAUSE = 0x80000010 ∧
      (after .memoryErrorInterrupt ((running 64).modCpu fun c => { c with memPend := true })).csr csrMEPC = 64 := by decide +kernel
/-- R477: the watchdog at PERIOD × 32 cycles asks for a restart of cause 1. -/
theorem test_watchdog :
    (after .watchdogExpiry ((sets [(F.SYS_WDT_CFG_EN, 1), (F.SYS_WDT_CFG_PERIOD, 1)] sby).modPwr fun p => { p with wdt := 32 })).pwr.mrst
      = 1 := by decide +kernel
/-- R520: a store through the alias word of a reserved bit of `LANE.EQ_CTRL0` changes nothing. -/
theorem test_alias_reserved :
    (after (.aliasWrite .cpuM (0x20000000 + (R.LANE_EQ_CTRL 0 - 0x10000000) * 32 + 31 * 4) 1) act).reg (R.LANE_EQ_CTRL 0)
      = act.reg (R.LANE_EQ_CTRL 0) := by decide +kernel
/-- R546: GETPID answers six bytes. -/
theorem test_getpid : (after .getpid (sets [(F.MGT_STAT_I3C, 1)] sby)).mgmt.rdata.length = 6 := by decide +kernel
/-- R593: a target of 850 mV is taken; the first request is 25 mV up. -/
theorem test_avs :
    (after (.avsVsetWrite .cpuM 850) (sets [(F.PWR_AVS_STAT_VNOW, 750)] sby)).pwr.avsFlight = some 775 := by decide +kernel
/-- R680: a counter at its last value wraps with its flag. -/
theorem test_pmc_wrap :
    let d := sets [(F.CNT_PMC_CFG_EVT 7, 5)] ((act.setReg (R.CNT_PMC_LO 7) 0xFFFFFFFF).setReg (R.CNT_PMC_HI 7) 0xFFFF)
    (after (.pmcWrap 7) d).count48 (R.CNT_PMC_LO 7) = 0 ∧ (after (.pmcWrap 7) d).on ⟨R.CNT_OVF, 7, 1⟩ = true := by decide +kernel
/-- R457: addi sp, sp, −32; sw s0, 28(sp); bge a4, a5, −36; mul a5, a5, a4, by the RV32I and M encodings. -/
theorem test_decode_long :
    [0xFE010113, 0x00812E23, 0xFCF75EE3, 0x02E787B3].map decodeInsn =
      [some (.aluImm .add 2 2 0xFFFFFFE0), some (.store .word 2 8 28), some (.branch .ge 14 15 0xFFFFFFDC),
        some (.alu .mul 15 15 14)] := by decide +kernel
/-- R457: c.addi16sp sp, −64; c.swsp s0, 28; c.jalr a5; c.beqz a5, −10, by the C encodings; the all-zero word is illegal. -/
theorem test_decode_short :
    [0x7139, 0xCE22, 0x9782, 0xDBFD, 0x0000].map decodeInsn =
      [some (.aluImm .add 2 2 0xFFFFFFC0), some (.store .word 2 8 28), some (.jalr 1 15 0), some (.branch .eq 15 0 0xFFFFFFF6),
        none] := by decide +kernel
/-- R457: the quotient and remainder of −2^31 by −1, and the high word of −1 times 2^32 − 1. -/
theorem test_muldiv :
    AluOp.result .div 0x80000000 0xFFFFFFFF = 0x80000000 ∧ AluOp.result .rem 0x80000000 0xFFFFFFFF = 0 ∧
      AluOp.result .mulhsu 0xFFFFFFFF 0xFFFFFFFF = 0xFFFFFFFF := by decide +kernel
/-- R457, R475: sw s0, 28(sp) waits, and then puts its word into data SRAM and retires. -/
theorem test_store_runs :
    let d := (running 64).modCpu fun c => { c with x := (c.x.set 2 0x100000).set 8 0x12345678 }
    let e := after (.processorStore ⟨0, 0⟩) (d.runWord State.reset.evq 0x00812E23)
    e.memWord 0x10001C = 0x12345678 ∧ e.cpu.pc = 68 ∧ e.cpu.op = none ∧ e.csr csrMINSTRET = 1 := by decide +kernel
/-- R459: a user-mode read of `cycle` is an illegal instruction, one of machine mode is not. -/
theorem test_user_counter :
    csrAllowed true 0xC00 false = false ∧ csrAllowed false 0xC00 false = true := by decide +kernel

end Sys2Proof.Tests
end

section
/-! SUPPORT. What a snapshot writes (R44, R690 to R693): the holding copies, the words of its status, the captures that fall due. -/

namespace Sys2Proof.Machine.Cells

variable {α : Type} [DecidableEq α] (dflt dflt' : Nat → α)

theorem get_foldl_put_notMem {a : Nat} (l m : List (Nat × α)) (h : a ∉ l.map Prod.fst) :
    get dflt (l.foldl (fun m c => put dflt m c.1 c.2) m) a = get dflt m a := by
  induction l generalizing m with
  | nil => rfl
  | cons c l ih =>
    simp only [List.map_cons, List.mem_cons, not_or] at h
    rw [List.foldl_cons, ih _ h.2, get_put, if_neg h.1]

theorem get_foldl_put_mem {a : Nat} (l m : List (Nat × α)) (hl : (l.map Prod.fst).Nodup) (h : a ∈ l.map Prod.fst) :
    get dflt (l.foldl (fun m c => put dflt m c.1 c.2) m) a = get dflt' l a := by
  induction l generalizing m with
  | nil => simp at h
  | cons c l ih =>
    obtain ⟨b, w⟩ := c
    obtain ⟨hb, hl⟩ := List.nodup_cons.mp hl
    rw [List.foldl_cons]
    by_cases hab : a = b
    · subst hab
      rw [get_foldl_put_notMem dflt l _ hb, get_put]
      simp [get]
    · have ha : a ∈ l.map Prod.fst := (List.mem_cons.mp h).resolve_left hab
      rw [ih _ hl ha, get, if_neg hab]

/-- A copied address that the source lists once reads as in the source. -/
theorem get_copyWhere_mem {p : Nat → Bool} {src : List (Nat × α)} (dst : List (Nat × α)) {a : Nat} (hs : (src.map Prod.fst).Nodup)
    (hp : p a = true) (h : a ∈ src.map Prod.fst) : get dflt (copyWhere dflt p src dst) a = get dflt' src a := by
  obtain ⟨c, hc, rfl⟩ := List.mem_map.mp h
  have hn : ((src.filter fun c => p c.1).map Prod.fst).Nodup := hs.sublist (List.filter_sublist.map _)
  have hm : c.1 ∈ (src.filter fun c => p c.1).map Prod.fst := List.mem_map_of_mem (List.mem_filter.mpr ⟨hc, hp⟩)
  rw [copyWhere, get_foldl_put_mem dflt dflt' _ _ hn hm, get_filter, if_pos hp]

/-- A copied address that the source does not list reads as unlisted. -/
theorem get_copyWhere_notMem {p : Nat → Bool} {src : List (Nat × α)} (dst : List (Nat × α)) {a : Nat} (hp : p a = true)
    (h : a ∉ src.map Prod.fst) : get dflt (copyWhere dflt p src dst) a = dflt a := by
  have hm : a ∉ (src.filter fun c => p c.1).map Prod.fst := fun hf => h ((List.filter_sublist.map Prod.fst).subset hf)
  rw [copyWhere, get_foldl_put_notMem dflt _ _ hm, get_filter dflt dst (fun b => !p b) a, hp]
  rfl

end Sys2Proof.Machine.Cells

namespace Sys2Proof.Machine.Dev

/-! ### The stages of a snapshot -/

/-- The holding copies that a snapshot takes at the boundary itself. -/
def snapshotCopies (lost : Nat → Word) (d : Dev) : Dev :=
  ((d.capture d.internalCapture).each (List.range 31) fun b d => d.setHold (0x10000000 + b * 0x10000 + 0x7F08) (lost b)).each
    (List.range 16) fun s d => d.captureInfl s 0

/-- The tag and quire number of a snapshot, and its status bits. -/
def snapshotStatus (d : Dev) : Dev :=
  let d := d.bumpFld F.CNT_SNAP_STAT_TAG
  let d := d.setReg R.CNT_SNAP_Q (d.clk.qnum.setWidth 32)
  let d := (d.setOn F.CNT_SNAP_STAT_PEND false).setOn F.CNT_SNAP_STAT_DONE false
  (d.setOn F.CNT_SNAP_STAT_PART d.someOff).setOn F.CNT_SNAP_STAT_DEFER d.cnt.deferred

/-- The captures of the received boundaries fall due. -/
def snapshotDue (d : Dev) : Dev := d.each allLanes fun n d => d.modRx n fun r => { r with snapDue := true }

/-- The snapshot is open, and none is deferred. -/
def snapshotOpened (d : Dev) : Dev :=
  { d with mapSnap := BitVec.allOnes 16, cnt := { d.cnt with snapOpen := true, deferred := false } }

theorem snapshotTake_stages (lost : Nat → Word) (d : Dev) :
    d.snapshotTake lost = (((d.snapshotCopies lost).snapshotStatus).when (d.snapshotCopies lost).snapshotStatus.cnt.deferred
      (raise Blk.cnt 0x49 0)).snapshotDue.snapshotOpened := by
  unfold snapshotTake
  rfl

/-! ### The holding copies -/

theorem get_setHold_ne {a b : Nat} (v : Word) (d : Dev) (h : b ≠ a) :
    Cells.get zeroWord (d.setHold a v).hold b = Cells.get zeroWord d.hold b := by
  rw [setHold, Cells.get_put, if_neg h]

/-- The first stage changes holding copies only. -/
theorem snapshotCopies_keeps {β : Type} (lost : Nat → Word) (d : Dev) (g : Dev → β)
    (h : ∀ (e : Dev) hold, g { e with hold := hold } = g e) : g (d.snapshotCopies lost) = g d :=
  (each_keeps _ _ g (fun _ _ => h _ _) _).trans ((each_keeps _ _ g (fun _ _ => h _ _) _).trans (h _ _))

theorem each_captureInfl_hold {a : Nat} (lo : Nat) (l : List Nat) (h : ∀ s ∈ l, a ≠ R.MAP_INFL s) (d : Dev) :
    Cells.get zeroWord (d.each l fun s d => d.captureInfl s lo).hold a = Cells.get zeroWord d.hold a := by
  induction l generalizing d with
  | nil => rfl
  | cons s l ih =>
    obtain ⟨hs, hl⟩ := List.forall_mem_cons.mp h
    exact (ih hl _).trans (get_setHold_ne _ d hs)

/-- A word that is neither an `EVLOST` nor a `MAP.INFL` has the copy that the capture took. -/
theorem snapshotCopies_hold (lost : Nat → Word) (d : Dev) {a : Nat} (ha : a % 0x10000 < 0x7F00)
    (hi : ∀ k, k < 16 → a ≠ R.MAP_INFL k) :
    Cells.get zeroWord (d.snapshotCopies lost).hold a
      = Cells.get zeroWord (Cells.copyWhere zeroWord d.internalCapture d.regs d.hold) a := by
  unfold snapshotCopies
  rw [each_captureInfl_hold 0 _ fun k hk => hi k (List.mem_range.mp hk),
    each_keeps _ _ (fun e : Dev => Cells.get zeroWord e.hold a) fun b e => get_setHold_ne _ e (by omega)]
  rfl

/-! ### The status words -/

theorem domBit_addr (x : Dom) : (domBit x).addr = R.PWR_DOM := by cases x <;> rfl

theorem someOff_of_reg {d e : Dev} (h : e.reg R.PWR_DOM = d.reg R.PWR_DOM) : e.someOff = d.someOff := by
  have hd : ∀ x, e.domOn x = d.domOn x := fun x => by simp only [domOn, on, fld, domBit_addr, h]
  simp only [someOff, hd]

theorem snapshotStatus_reg (d : Dev) {a : Nat} (hs : a ≠ R.CNT_SNAP_STAT) (hq : a ≠ R.CNT_SNAP_Q) :
    d.snapshotStatus.reg a = d.reg a := by
  unfold snapshotStatus
  iterate 4 rw [reg_setOn_ne _ _ _ hs]
  rw [reg_setReg_ne _ _ hq]
  exact reg_setFld_ne _ _ _ hs

theorem snapshotStatus_quire (d : Dev) : d.snapshotStatus.reg R.CNT_SNAP_Q = d.clk.qnum.setWidth 32 := by
  unfold snapshotStatus
  iterate 4 rw [reg_setOn_ne _ _ _ (by decide)]
  rw [reg_setReg_self, bumpFld, setFld_clk]

@[simp] theorem snapshotStatus_hold (d : Dev) : d.snapshotStatus.hold = d.hold := by
  simp only [snapshotStatus, bumpFld, setOn_hold, setReg_hold, setFld_hold]

@[simp] theorem snapshotStatus_raised (d : Dev) : d.snapshotStatus.raised = d.raised := by
  simp only [snapshotStatus, bumpFld, setOn_raised, setReg_raised, setFld_raised]

@[simp] theorem snapshotStatus_cnt (d : Dev) : d.snapshotStatus.cnt = d.cnt := by
  simp only [snapshotStatus, bumpFld, setOn_cnt, setReg_cnt, setFld_cnt]

theorem snapshotStatus_tag (d : Dev) :
    d.snapshotStatus.fld F.CNT_SNAP_STAT_TAG = (d.fld F.CNT_SNAP_STAT_TAG + 1) % 2 ^ 16 := by
  unfold snapshotStatus setOn
  iterate 4 rw [fld_setFld_apart _ _ (by decide) (by decide)]
  rw [fld_setReg_ne _ _ (by decide)]
  exact fld_setFld_self _ _ _ (by decide)

theorem snapshotStatus_pend (d : Dev) : d.snapshotStatus.on F.CNT_SNAP_STAT_PEND = false := by
  unfold snapshotStatus
  iterate 3 rw [on_setOn_apart _ _ (by decide) (by decide)]
  exact on_setOn_self _ _ _ (by decide) rfl

theorem snapshotStatus_done (d : Dev) : d.snapshotStatus.on F.CNT_SNAP_STAT_DONE = false := by
  unfold snapshotStatus
  iterate 2 rw [on_setOn_apart _ _ (by decide) (by decide)]
  exact on_setOn_self _ _ _ (by decide) rfl

theorem snapshotStatus_part (d : Dev) : d.snapshotStatus.on F.CNT_SNAP_STAT_PART = d.someOff := by
  unfold snapshotStatus
  rw [on_setOn_apart _ _ (by decide) (by decide), on_setOn_self _ _ _ (by decide) rfl]
  apply someOff_of_reg
  iterate 2 rw [reg_setOn_ne _ _ _ (by decide)]
  rw [reg_setReg_ne _ _ (by decide)]
  exact reg_setFld_ne _ _ _ (by decide)

theorem snapshotStatus_defer (d : Dev) : d.snapshotStatus.on F.CNT_SNAP_STAT_DEFER = d.cnt.deferred := by
  unfold snapshotStatus
  rw [on_setOn_self _ _ _ (by decide) rfl]
  simp only [setOn_cnt, setReg_cnt, bumpFld, setFld_cnt]

/-! ### The captures that fall due -/

@[simp] theorem snapshotOpened_regs (d : Dev) : d.snapshotOpened.regs = d.regs := rfl
@[simp] theorem snapshotOpened_hold (d : Dev) : d.snapshotOpened.hold = d.hold := rfl
@[simp] theorem snapshotOpened_raised (d : Dev) : d.snapshotOpened.raised = d.raised := rfl
@[simp] theorem snapshotOpened_lane (n : Lane) (d : Dev) : d.snapshotOpened.lane n = d.lane n := rfl
@[simp] theorem snapshotDue_regs (d : Dev) : d.snapshotDue.regs = d.regs := each_keeps _ _ Dev.regs (by intros; rfl) d
@[simp] theorem snapshotDue_hold (d : Dev) : d.snapshotDue.hold = d.hold := each_keeps _ _ Dev.hold (by intros; rfl) d
@[simp] theorem snapshotDue_raised (d : Dev) : d.snapshotDue.raised = d.raised := each_keeps _ _ Dev.raised (by intros; rfl) d

theorem lane_modRx (n k : Lane) (f : RxSt → RxSt) (d : Dev) :
    (d.modRx n f).lane k = if n = k then { d.lane k with rx := f (d.lane k).rx } else d.lane k := by
  by_cases h : n = k
  · subst h; simp [lane, modRx, modLane]
  · simp [lane, modRx, modLane, h, Fin.val_inj]

theorem each_snapDue_lane (n : Lane) (l : List Lane) (d : Dev) (h : n ∈ l ∨ (d.lane n).rx.snapDue = true) :
    ((d.each l fun k d => d.modRx k fun r => { r with snapDue := true }).lane n).rx.snapDue = true := by
  induction l generalizing d with
  | nil => exact h.resolve_left List.not_mem_nil
  | cons k l ih =>
    refine ih _ ?_
    rw [lane_modRx]
    by_cases hk : k = n
    · simp [hk]
    · simpa [hk, Ne.symm hk] using h

theorem snapshotDue_lane (d : Dev) (n : Lane) : (d.snapshotDue.lane n).rx.snapDue = true :=
  each_snapDue_lane n allLanes d (.inl (List.mem_finRange n))

/-! ### The snapshot -/

section
variable (lost : Nat → Word) (d : Dev)

/-- The status words are those of the second stage. -/
theorem snapshotTake_regs : (d.snapshotTake lost).regs = (d.snapshotCopies lost).snapshotStatus.regs := by
  rw [snapshotTake_stages, snapshotOpened_regs, snapshotDue_regs, Dev.when]
  split
  · rw [raise_regs]
  · rfl

theorem snapshotTake_reg (a : Nat) : (d.snapshotTake lost).reg a = (d.snapshotCopies lost).snapshotStatus.reg a := by
  rw [reg, snapshotTake_regs, reg]

theorem snapshotTake_fld (f : Fld) : (d.snapshotTake lost).fld f = (d.snapshotCopies lost).snapshotStatus.fld f := by
  rw [fld, snapshotTake_reg, fld]

theorem snapshotTake_on (f : Fld) : (d.snapshotTake lost).on f = (d.snapshotCopies lost).snapshotStatus.on f := by
  rw [on, snapshotTake_fld, on]

theorem snapshotCopies_reg (a : Nat) : (d.snapshotCopies lost).reg a = d.reg a :=
  snapshotCopies_keeps lost d (fun e => e.reg a) (by intros; rfl)

theorem snapshotCopies_fld (f : Fld) : (d.snapshotCopies lost).fld f = d.fld f :=
  snapshotCopies_keeps lost d (fun e => e.fld f) (by intros; rfl)

theorem snapshotCopies_someOff : (d.snapshotCopies lost).someOff = d.someOff :=
  someOff_of_reg (snapshotCopies_reg lost d _)

theorem snapshotCopies_deferred : (d.snapshotCopies lost).cnt.deferred = d.cnt.deferred :=
  snapshotCopies_keeps lost d (fun e => e.cnt.deferred) (by intros; rfl)

theorem snapshotCopies_qnum : (d.snapshotCopies lost).clk.qnum = d.clk.qnum :=
  snapshotCopies_keeps lost d (fun e => e.clk.qnum) (by intros; rfl)

theorem snapshotTake_hold : (d.snapshotTake lost).hold = (d.snapshotCopies lost).hold := by
  rw [snapshotTake_stages, snapshotOpened_hold, snapshotDue_hold, Dev.when]
  split
  · rw [raise_hold, snapshotStatus_hold]
  · rw [snapshotStatus_hold]

theorem snapshotTake_raised :
    (d.snapshotTake lost).raised = d.raised ++ if d.cnt.deferred then [⟨Blk.cnt, 0x49, 0⟩] else [] := by
  have hr : (d.snapshotCopies lost).raised = d.raised := snapshotCopies_keeps lost d (fun e => e.raised) (by intros; rfl)
  rw [snapshotTake_stages, snapshotOpened_raised, snapshotDue_raised, Dev.when, snapshotStatus_cnt, snapshotCopies_deferred]
  split
  · rw [raise_raised, snapshotStatus_raised, hr]
  · rw [snapshotStatus_raised, hr, List.append_nil]

theorem snapshotTake_lane (n : Lane) : ((d.snapshotTake lost).lane n).rx.snapDue = true := by
  rw [snapshotTake_stages, snapshotOpened_lane, snapshotDue_lane]

theorem snapshotOpened_open : d.snapshotOpened.mapSnap = BitVec.allOnes 16 ∧ d.snapshotOpened.cnt.snapOpen = true ∧
    d.snapshotOpened.cnt.deferred = false := ⟨rfl, rfl, rfl⟩

theorem snapshotTake_open : (d.snapshotTake lost).mapSnap = BitVec.allOnes 16 ∧ (d.snapshotTake lost).cnt.snapOpen = true ∧
    (d.snapshotTake lost).cnt.deferred = false := by
  rw [snapshotTake_stages]
  exact snapshotOpened_open _

end

end Sys2Proof.Machine.Dev

namespace Sys2Proof.Claims

open Sys2Proof.Machine Sys2Proof.Machine.Dev

theorem snapshotTake_takes (d : Dev) (lost : Nat → Word) : SnapshotTaken d lost := by
  obtain ⟨hmap, hopen, hdeferred⟩ := snapshotTake_open lost d
  refine ⟨fun hn a hi ha hm => ⟨fun hl => ?copied, fun hl => ?absent⟩, fun a hs hq => ?counters, ?tag, ?quire, ?pend, ?done,
    ?part, snapshotTake_lane lost d, hmap, hopen, ?defer, hdeferred, snapshotTake_raised lost d⟩
  case copied =>
    rw [snapshotTake_hold, snapshotCopies_hold lost d ha hm]
    exact Cells.get_copyWhere_mem _ _ _ hn hi hl
  case absent =>
    rw [snapshotTake_hold, snapshotCopies_hold lost d ha hm]
    exact Cells.get_copyWhere_notMem _ _ hi hl
  case counters => rw [snapshotTake_reg, snapshotStatus_reg _ hs hq, snapshotCopies_reg]
  case tag => rw [snapshotTake_fld, snapshotStatus_tag, snapshotCopies_fld]
  case quire => rw [snapshotTake_reg, snapshotStatus_quire, snapshotCopies_qnum]
  case pend => rw [snapshotTake_on, snapshotStatus_pend]
  case done => rw [snapshotTake_on, snapshotStatus_done]
  case part => rw [snapshotTake_on, snapshotStatus_part, snapshotCopies_someOff]
  case defer => rw [snapshotTake_on, snapshotStatus_defer, snapshotCopies_deferred]

end Sys2Proof.Claims
end

section
/-! SUPPORT. The quire boundary, mesh time away from the mesh, the real-time slot, and a lane's received boundary (R15, R39, R92, R462). -/

namespace Sys2Proof.Machine.Dev

/-- Away from the mesh a tick adds one quire to mesh time, modulo 2^48 quires. -/
theorem toField_meshTime_tick (d : Dev) :
    toField 64 (d.meshTime + 65536) = (d.clk.qnum + 1).toNat * 65536 + d.clk.frac.toNat := by
  have hq := d.clk.qnum.isLt
  have hf := d.clk.frac.isLt
  have h1 : (1 : BitVec 48).toNat = 1 := rfl
  simp only [toField, meshTime, BitVec.toNat_add, h1]
  omega

theorem advanceMesh_off {d : Dev} (h : d.meshOn = false) :
    d.advanceMesh = { d with clk := { d.clk with qnum := d.clk.qnum + 1, was := BitVec.ofNat 64 d.meshTime } } := by
  have hf := d.clk.frac.isLt
  have hq : BitVec.ofNat 48 (toField 64 (d.meshTime + 65536) / 65536) = d.clk.qnum + 1 := by
    rw [toField_meshTime_tick]
    apply BitVec.eq_of_toNat_eq
    have := (d.clk.qnum + 1).isLt
    rw [BitVec.toNat_ofNat]
    omega
  have hr : BitVec.ofNat 16 (toField 64 (d.meshTime + 65536)) = d.clk.frac := by
    rw [toField_meshTime_tick]
    apply BitVec.eq_of_toNat_eq
    rw [BitVec.toNat_ofNat]
    omega
  unfold advanceMesh
  simp only [h, Bool.false_eq_true, if_false, hq, hr]
  exact if_pos (show (!d.meshOn) = true by rw [h]; rfl)

theorem slotStep_seen {d : Dev} (h : d.cpu.slotSeen = true) :
    d.slotStep = (d.modCpu fun c => { c with quirePend := true, slotSeen := false }).pulse 7 := by
  rw [slotStep, if_pos h]

theorem slotStep_unseen {d : Dev} (h : d.cpu.slotSeen = false) :
    d.slotStep = (((d.bumpFld F.SYS_RT_OVR).raise Blk.sys 0x01 0).modCpu fun c =>
      { c with quirePend := true, slotSeen := false }).pulse 7 := by
  rw [slotStep, if_neg (by simp [h])]

theorem quireTick_stopped {d : Dev} (lost : Nat → Word) (inp : TickInput) (h : d.ticking = false) : d.quireTick lost inp = d := by
  simp [quireTick, h]

theorem receivedBoundary_notDue {d : Dev} {n : Lane} (clk : Nat)
    (h : ¬ (d.samples n = true ∧ d.ownBoundary n = true ∧ (d.lane n).fr.slot = 16448)) : d.receivedBoundary n clk = d := by
  rw [receivedBoundary, if_pos]
  simpa [quireSlots, imp_iff_not_or, not_and_or] using h

theorem receivedBoundary_due {d : Dev} {n : Lane} (clk : Nat)
    (h : d.samples n = true ∧ d.ownBoundary n = true ∧ (d.lane n).fr.slot = 16448) :
    d.receivedBoundary n clk =
      if d.receives n = false then (d.modFr n fun f => { f with slot := 0 }).levelQuire n 16448
      else (d.modFr n fun f =>
        { f with slot := 0, lqn := f.lqn + 1,
                 scr := scramblerSeed (d.fld (F.LANE_FMT_STAT_RX_LANE n)) (f.lqn + 1) }).receivedQuire n clk := by
  obtain ⟨hs, ho, hq⟩ := h
  rw [receivedBoundary, if_neg (by simp [hs, ho, hq, quireSlots])]
  cases hr : d.receives n
  · simp [quireSlots]
  · simp

end Sys2Proof.Machine.Dev

namespace Sys2Proof.Claims

open Sys2Proof.Machine Sys2Proof.Machine.Dev

theorem exec_quireTick (inp : TickInput) (s : State) :
    exec (.quireTick inp) s = .next (commitTick s (s.dev.quireTick (fun b => (Dev.queueOf s.evq b).lost) inp)) := by
  rfl

theorem exec_receivedQuireBoundary (n : Lane) (clk : Fin 16384) (s : State) :
    exec (.receivedQuireBoundary n clk) s = .next (commit s (s.dev.receivedBoundary n clk)) := by
  rfl

theorem quireTick_ordered {s : State} (hs : s.dev.settled = true) (inp : TickInput) : BoundaryOrdered s inp := by
  refine ⟨fun h => ⟨_, ?_, fun a ha => finish_reg id s s.dev ha, ?_⟩, fun h => ⟨_, exec_quireTick inp s, ?_, rfl⟩⟩
  · rw [exec_quireTick, quireTick_stopped _ inp h]; rfl
  · exact frame_quiet hs rfl (fun _ _ => rfl) rfl rfl rfl rfl
  · rw [quireTick, if_neg (by simp [h])]

theorem receivedQuireBoundary_acts {s : State} (hs : s.dev.settled = true) (n : Lane) (clk : Fin 16384) :
    ReceivedBoundary s n clk := by
  refine ⟨fun hd => ?_, fun hd hr => ⟨_, exec_receivedQuireBoundary n clk s, ?_⟩,
    fun hd hr => ⟨_, exec_receivedQuireBoundary n clk s, ?_⟩⟩
  · have he : exec (.receivedQuireBoundary n clk) s = .next (commit s s.dev) := by
      rw [exec_receivedQuireBoundary, receivedBoundary_notDue _ hd]
    exact yields_quiet he hs (fun _ _ => rfl) (fun _ => rfl) rfl rfl rfl rfl
  · rw [receivedBoundary_due _ hd, if_pos hr]
  · rw [receivedBoundary_due _ hd, if_neg (by simp [hr])]

/-- Settles O20: the boundary command is its stages in the order of R39; a snapshot, a tick of mesh time, the real-time slot and a
received boundary each by the lemma about what it writes. -/
theorem boundaryActs : Obligations.BoundaryActs := by
  intro s hs
  exact ⟨quireTick_ordered hs, fun d => ⟨advanceMesh_off, slotStep_seen, slotStep_unseen⟩, snapshotTake_takes,
    receivedQuireBoundary_acts hs⟩

end Sys2Proof.Claims
end

section
/-! SUPPORT. What the clock commands write: `CLK.STAT` and the clock's own record (R21 to R23, R27). -/

namespace Sys2Proof.Machine.Dev

variable {d : Dev}

theorem pllLock_unlocked (hm : d.domOn .mgt = true) (hl : d.on F.CLK_STAT_HOST_LOCK = false) :
    d.pllLock = ((((d.setOn F.CLK_STAT_HOST_LOCK true).setOn F.CLK_STAT_LINE_LOCK true).setOn F.CLK_STAT_COMPAT_LOCK true).setOn
      F.CLK_STAT_TICK_RUN true).modClk fun c => { c with refQ := 0 } := by
  simp only [pllLock, hm, hl, Bool.not_true, Bool.or_self, Bool.false_eq_true, if_false]

theorem pllLoss_locked (h : d.on F.CLK_STAT_HOST_LOCK = true) :
    d.pllLoss = ((d.setOn F.CLK_STAT_HOST_LOCK false).setOn F.CLK_STAT_LINE_LOCK false).setOn F.CLK_STAT_TICK_RUN false := by
  simp only [pllLoss, h, Bool.not_true, Bool.false_eq_true, if_false]

theorem pllLoss_pwr : d.pllLoss.pwr = d.pwr := by
  unfold pllLoss
  split <;> rfl

/-- The tick stands still after the loss (R27). -/
theorem pllLoss_tick (h : d.on F.CLK_STAT_HOST_LOCK = true) : d.pllLoss.on F.CLK_STAT_TICK_RUN = false := by
  rw [pllLoss_locked h, on_setOn_self _ _ _ (by decide) rfl]

theorem lossStopped_none (h : d.pwr.lossQ = none) : d.lossStopped = d := by
  simp [lossStopped, h]

theorem lossStopped_stopped (h : d.pwr.lossQ.isSome = true) (ht : d.on F.CLK_STAT_TICK_RUN = false) :
    d.lossStopped = d.lossFinish := by
  simp [lossStopped, h, ht]

theorem timingLoss_lane (hr : d.recovers = true) (hl : d.clk.source = .lane) :
    d.timingLoss = (d.modClk fun c => { c with source := .holdover }).setOn F.CLK_STAT_HOLDOVER true :=
  if_pos ⟨hr, hl⟩

theorem timingRecovery_away (hr : d.recovers = true) (ha : d.active = true) (hl : d.clk.source ≠ .lane) :
    d.timingRecovery = ((d.modClk fun c => { c with source := .lane, seen := true }).setOn F.CLK_STAT_HOLDOVER false).setOn
      F.CLK_STAT_TSRC_WAIT false :=
  if_pos ⟨hr, ha, hl⟩

/-- The window of R23: more than 200 ppm of 81,920 is more than 16 host clocks. -/
theorem refRange_iff (count : Nat) : 16 < ((count : Int) - 81920).natAbs ↔ count < 81904 ∨ 81936 < count := by
  omega

theorem refCheck_due (count : Nat) (ht : d.on F.CLK_STAT_TICK_RUN = true) (hq : 5 ≤ d.clk.refQ) :
    d.refCheck count =
      let e := d.modClk fun c => { c with refQ := 0 }
      let out := decide (count < 81904 ∨ 81936 < count)
      if out = d.on F.CLK_STAT_REF_RANGE then e
      else (e.setOn F.CLK_STAT_REF_RANGE out).raise Blk.clk (if out then 0x06 else 0x07) 0 := by
  simp only [refCheck, ht, refRange_iff, decide_eq_false (Nat.not_lt.mpr hq), Bool.not_true, Bool.or_self, Bool.false_eq_true,
    if_false, modClk_on, beq_iff_eq]

end Sys2Proof.Machine.Dev

namespace Sys2Proof.Claims

open Sys2Proof.Machine Sys2Proof.Machine.Dev

variable {s : State} {d e : Dev}

/-- The frame of a clock command that raises no event: of the registers only `CLK.STAT` changes. -/
theorem frame_clkStat (hs : s.dev.settled = true) (hk : ∀ a, a ≠ R.CLK_STAT → d.reg a = s.dev.reg a) (hr : d.rest = e.rest)
    (h1 : d.raised = s.dev.raised) (h2 : d.popped = s.dev.popped) (h3 : d.emptied = s.dev.emptied) :
    Frame [R.CLK_STAT] e [] s (commit s d) :=
  frame_quiet hs rfl (fun a ha => hk a (List.ne_of_not_mem_cons ha)) hr h1 h2 h3

theorem hostPllLock_locks (hs : s.dev.settled = true) : PllLocks s := by
  intro hm hl
  refine ⟨_, rfl, ?host, ?line, ?compat, ?tick, frame_clkStat hs (fun a ha => ?regs) ?rest ?_ ?_ ?_⟩
  all_goals rw [pllLock_unlocked hm hl]
  case regs => simp only [modClk_reg, reg_setOn_ne, ha, ne_eq, not_false_eq_true]
  case rest => simp only [modClk_rest, setOn_rest]
  case host | line | compat | tick =>
    simp (disch := decide) only [commit, on_finish, modClk_on, on_setOn_apart, on_setOn_self]
  all_goals simp only [modClk_raised, modClk_popped, modClk_emptied, setOn_raised, setOn_popped, setOn_emptied]

theorem hostPllLockLoss_unlocks (hs : s.dev.settled = true) : PllLoses s := by
  refine ⟨fun hl hq => ⟨_, ?_, rfl⟩,
    fun hl hq => ⟨_, rfl, ?host, ?line, ?tick, frame_clkStat hs (fun a ha => ?regs) ?rest ?_ ?_ ?_⟩⟩
  · have hp : s.dev.pllLoss.pwr.lossQ.isSome = true := by rwa [pllLoss_pwr]
    rw [← lossStopped_stopped hp (pllLoss_tick hl)]
    rfl
  all_goals rw [lossStopped_none (by rwa [pllLoss_pwr]), pllLoss_locked hl]
  case regs => simp only [reg_setOn_ne, ha, ne_eq, not_false_eq_true]
  case rest => simp only [setOn_rest]
  case host | line | tick => simp (disch := decide) only [commit, on_finish, on_setOn_apart, on_setOn_self]
  all_goals rfl

theorem tsrcLaneLoss_holds (hs : s.dev.settled = true) : TimingLoss s := by
  intro hr hl
  refine ⟨_, rfl, ?holdover, ?tick, frame_clkStat hs (fun a ha => ?regs) ?rest ?_ ?_ ?_⟩
  all_goals rw [timingLoss_lane hr hl]
  case regs => simp only [modClk_reg, reg_setOn_ne, ha, ne_eq, not_false_eq_true]
  case rest => simp only [setOn_rest]
  case holdover | tick => simp (disch := decide) only [commit, on_finish, modClk_on, on_setOn_apart, on_setOn_self]
  all_goals rfl

theorem tsrcLaneRecovery_moves (hs : s.dev.settled = true) : TimingRecovery s := by
  intro hr hact hl
  refine ⟨_, rfl, ?holdover, ?wait, ?qnum, frame_clkStat hs (fun a ha => ?regs) ?rest ?_ ?_ ?_⟩
  all_goals rw [timingRecovery_away hr hact hl]
  case regs => simp only [modClk_reg, reg_setOn_ne, ha, ne_eq, not_false_eq_true]
  case rest => simp only [setOn_rest]
  case holdover | wait => simp (disch := decide) only [commit, on_finish, on_setOn_apart, on_setOn_self]
  case qnum => rw [commit, finish_clk]; rfl
  all_goals rfl

theorem refRangeCheck_judges (hs : s.dev.settled = true) (count : Nat) : RefChecked s count := by
  intro ht hq out
  refine ⟨commit s (s.dev.refCheck count), rfl, ?_⟩
  rw [refCheck_due count ht hq]
  dsimp only
  by_cases h : out = s.dev.on F.CLK_STAT_REF_RANGE
  · rw [if_pos h, if_pos h]
    exact ⟨(on_finish (by decide)).trans h.symm, frame_clkStat hs (fun _ _ => rfl) rfl rfl rfl rfl⟩
  · rw [if_neg h, if_neg h]
    refine ⟨?_, frame_raised [⟨Blk.clk, if out then 0x06 else 0x07, 0⟩] hs (fun a ha => ?_) ?_ rfl rfl rfl rfl rfl⟩
    · simp (disch := decide) only [commit, on_finish, raise_on, on_setOn_self]
      rfl
    · rw [raise_reg, reg_setOn_ne _ _ _ (List.ne_of_not_mem_cons ha), modClk_reg]
    · simp only [raise_rest, setOn_rest]

/-- Settles O18: each command of the clocks by what it writes in `CLK.STAT` and in the clock's record. -/
theorem clocksFollow : Obligations.ClocksFollow := by
  intro s hs
  exact ⟨hostPllLock_locks hs, hostPllLockLoss_unlocks hs, tsrcLaneLoss_holds hs, tsrcLaneRecovery_moves hs,
    refRangeCheck_judges hs⟩

/-- Settles O1: `step` takes the front command off the queue and runs it. -/
theorem stepRunsFront : Obligations.StepRunsFront := fun _ _ => rfl

end Sys2Proof.Claims
end

section
/-! SUPPORT. The table row of a register address by comparisons of numbers alone (R696), cheap to evaluate over many addresses. -/

namespace Sys2Proof.Machine

/-- The row has a register at the address. -/
def RegRow.hits (r : RegRow) (a : Nat) : Bool :=
  Nat.ble r.base a && (Nat.blt ((a - r.base) / r.s1) r.n1 &&
    (Nat.blt ((a - r.base) % r.s1 / r.s2) r.n2 && Nat.beq ((a - r.base) % r.s1 % r.s2) 0))

/-- The first of the rows with a register at the address. -/
def rowIn (a : Nat) : List RegRow → Option RegRow
  | [] => none
  | r :: rs => bif r.hits a then some r else rowIn a rs

/-- The table row of a register address. -/
def rowAt (a : Nat) : Option RegRow := rowIn a (blockRows (a / 0x10000))

theorem RegRow.isSome_index (r : RegRow) (a : Nat) : (r.index a).isSome = r.hits a := by
  have hmod (m n : Nat) : m - m / n * n = m % n := by
    have := Nat.div_add_mod' m n
    omega
  have hrem (m n : Nat) : m = m / n * n ↔ m % n = 0 := by
    have := Nat.div_add_mod' m n
    omega
  rw [Bool.eq_iff_iff]
  simp only [RegRow.index, RegRow.hits, hmod, ← hrem, Option.isSome_ite, Bool.and_eq_true, Nat.ble_eq, Nat.blt_eq, Nat.beq_eq]

theorem rowIn_eq (a : Nat) (rows : List RegRow) : rowIn a rows = (findRow a rows).map (·.1) := by
  induction rows with
  | nil => rfl
  | cons r rs ih =>
    have h := r.isSome_index a
    cases hi : r.index a with
    | none => simp [rowIn, findRow, hi, ih, ← h]
    | some ij => simp [rowIn, findRow, hi, ← h]

theorem rowAt_eq (a : Nat) : rowAt a = (regRow a).map (·.1) := rowIn_eq a _

theorem regRow_none {a : Nat} (h : rowAt a = none) : regRow a = none := by
  rwa [rowAt_eq, Option.map_eq_none_iff] at h

theorem regRow_some {a : Nat} {r : RegRow} (h : rowAt a = some r) : ∃ i j, regRow a = some (r, i, j) := by
  rw [rowAt_eq, Option.map_eq_some_iff] at h
  obtain ⟨⟨_, i, j⟩, hr, rfl⟩ := h
  exact ⟨i, j, hr⟩

end Sys2Proof.Machine
end

section
/-! SUPPORT. What a word of register space is and how it reads, whatever the device holds (R28, R81, R338, R515, R536, R678, R697). -/

namespace Sys2Proof.Machine

/-- A register lies in the register region, at a word's address. -/
theorem place_bounds {a : Nat} {p : Place} (h : place a = some p) : 0x10000000 ≤ a ∧ a < 0x10200000 ∧ a % 4 = 0 := by
  by_contra hn
  have hout : a < 0x10000000 ∨ 0x10200000 ≤ a ∨ a % 4 ≠ 0 := by omega
  simp [place, hout] at h

theorem place_notAlias {a : Nat} {p : Place} (h : place a = some p) : isAlias a = false := by
  have := place_bounds h
  simp only [isAlias, decide_eq_false_iff_not]
  omega

theorem narrowRead_word {a : Nat} (v : Word) (h : a % 4 = 0) : narrowRead a .word v = v := by
  have := v.isLt
  apply BitVec.eq_of_toNat_eq
  simp only [narrowRead, h, widthBytes, BitVec.toNat_ofNat]
  omega

/-- The word lies where the registers of a block lie, below its event registers. -/
abbrev InRegs (a : Nat) : Prop := 0x10000000 ≤ a ∧ a < 0x10200000 ∧ a % 4 = 0 ∧ a % 0x10000 < 0x7F00

theorem place_live {a : Nat} {r : RegRow} (ha : InRegs a) (hr : rowAt a = some r) : place a = some (.live r) := by
  obtain ⟨h1, h2, h3, h4⟩ := ha
  obtain ⟨i, j, hr⟩ := regRow_some hr
  have hin : ¬ (a < 0x10000000 ∨ 0x10200000 ≤ a ∨ a % 4 ≠ 0) := by omega
  have he (n : Nat) (hn : 0x7F00 ≤ n) : (a % 0x10000 == n) = false := by
    rw [beq_eq_false_iff_ne]; omega
  simp only [place, if_neg hin, he 0x7F00 (by decide), he 0x7F04 (by decide), he 0x7F08 (by decide), he 0xFF08 (by decide),
    Bool.and_false, Bool.false_eq_true, if_false, hr]

theorem place_held {a : Nat} {r : RegRow} (ha : InRegs a) (hr : rowAt a = some r) (hc : r.cap ≠ .none)
    (hup : rowAt (a + 0x8000) = none) : place (a + 0x8000) = some (.hold r) := by
  obtain ⟨h1, h2, h3, h4⟩ := ha
  obtain ⟨i, j, hr⟩ := regRow_some hr
  have hin : ¬ (a + 0x8000 < 0x10000000 ∨ 0x10200000 ≤ a + 0x8000 ∨ (a + 0x8000) % 4 ≠ 0) := by omega
  have hoff : (a + 0x8000) % 0x10000 = a % 0x10000 + 0x8000 := by omega
  have he (n : Nat) (hn : n < 0x8000 ∨ 0xFF00 ≤ n) : (a % 0x10000 + 0x8000 == n) = false := by
    rw [beq_eq_false_iff_ne]; omega
  have hlow : ¬ a % 0x10000 + 0x8000 < 0x8000 := by omega
  simp only [place, if_neg hin, hoff, he 0x7F00 (by decide), he 0x7F04 (by decide), he 0x7F08 (by decide), he 0xFF08 (by decide),
    Bool.and_false, Bool.false_eq_true, if_false, regRow_none hup, Nat.add_sub_cancel, hr, hc, if_neg hlow]

/-- A live word that a rule of its own may derive from other state. -/
def derivedAt (a : Nat) : Bool :=
  [R.SYS_IRQ_PEND, R.SPR_ASSIGN, R.BST_STAT, R.SYS_ID, R.CLK_QNUM_LO, R.CLK_QNUM_HI, R.PWR_RTC_SUB, R.ECC_ULOG, R.CNT_SMP_STAT,
    R.CNT_SMP_ENT0, R.CNT_SMP_ENT1, R.CNT_SMP_ENT2, R.FLT_LVL, R.FLT_LSUM].contains a
  || decide (0x10130000 ≤ a ∧ a < 0x10130800 ∧ a % 0x100 = 0x10)
  || (Dev.ribbonPlace a).isSome || decide (0x101C0100 ≤ a ∧ a < 0x101C0200) || blockOf a == 21

/-- The row holds no low words, whatever is configured. -/
def RegRow.single (r : RegRow) : Bool := !latchBases.contains r.base && r.name != "SLCs.PMCk"

namespace Dev

variable {a b : Nat} {d : Dev}

theorem derivedWord_none (q : Vector EvQ 32) (d : Dev) (h : derivedAt a = false) : d.derivedWord q a = none := by
  simp only [derivedAt, Bool.or_eq_false_iff, List.contains_cons, List.contains_nil, beq_eq_false_iff_ne, decide_eq_false_iff_not,
    Option.isSome_eq_false_iff, Option.isNone_iff_eq_none] at h
  obtain ⟨⟨⟨⟨hlist, hcal⟩, hribbon⟩, hjnl⟩, hmesh⟩ := h
  simp [derivedWord, hlist, hcal, hribbon, jnlPlace, hjnl, hmesh]

theorem placeWord_live (q : Vector EvQ 32) (d : Dev) (r : RegRow) (h : derivedAt a = false) : d.placeWord q a (.live r) = d.reg a := by
  simp only [placeWord, derivedWord_none q d h, Option.getD_none]

theorem placeWord_held (q : Vector EvQ 32) (d : Dev) (r : RegRow) :
    d.placeWord q (a + 0x8000) (.hold r) = Cells.get zeroWord d.hold a := by
  simp only [placeWord, Nat.add_sub_cancel]

theorem liveAddr_live (h : a % 0x10000 < 0x8000) : liveAddr a = a := by
  have : ¬ 0x8000 ≤ a % 0x10000 := by omega
  simp [liveAddr, this]

theorem liveAddr_held (h : a % 0x10000 < 0x8000) (hup : rowAt (a + 0x8000) = none) : liveAddr (a + 0x8000) = a := by
  have hoff : 0x8000 ≤ (a + 0x8000) % 0x10000 := by omega
  simp [liveAddr, hoff, regRow_none hup]

theorem isLo_pair {r : RegRow} (hl : liveAddr b = a) (hr : rowAt a = some r) (hb : latchBases.contains r.base = true) :
    d.isLo b = true := by
  obtain ⟨i, j, hr⟩ := regRow_some hr
  simp only [isLo, hl, hr, hb, Bool.true_or]

theorem isLo_single (hl : liveAddr b = a) (h : (rowAt a).all RegRow.single = true) : d.isLo b = false := by
  unfold isLo
  rw [hl]
  cases hr : rowAt a with
  | none => rw [regRow_none hr]
  | some r =>
    obtain ⟨i, j, hi⟩ := regRow_some hr
    have hs : latchBases.contains r.base = false ∧ (r.name == "SLCs.PMCk") = false := by
      simpa [hr, RegRow.single] using h
    simp only [hi, hs, Bool.false_or, Bool.false_and]

/-- Above the block PWR, whose seconds are latched by a read of `PWR.RTC_SUB`, only a low word latches the word after it. -/
theorem isLatched_none (hb : 0x10020000 ≤ b) (h : d.isLo (b - 4) = false) : d.isLatched b = false := by
  have h1 : b ≠ R.PWR_RTC_SEC_LO := Nat.ne_of_gt (Nat.lt_of_lt_of_le (by decide) hb)
  have h2 : b ≠ R.PWR_RTC_SEC_HI := Nat.ne_of_gt (Nat.lt_of_lt_of_le (by decide) hb)
  simp [isLatched, h1, h2, h]

end Dev

end Sys2Proof.Machine
end

section
/-! SUPPORT. A read of a low word latches the word after it (R28); the latch of one master is not another's. -/

namespace Sys2Proof.Machine.Dev

variable {a : Nat} {p p' : Place} {d : Dev}

theorem masterIndex_injective : Function.Injective masterIndex := by
  intro m m' h
  cases m <;> cases m' <;> revert h <;> decide

theorem latchKey_inj {m m' : Master} {a b : Nat} (ha : a < 2 ^ 32) (hb : b < 2 ^ 32) (h : latchKey m a = latchKey m' b) :
    m = m' ∧ a = b := by
  unfold latchKey at h
  exact ⟨masterIndex_injective (by omega), by omega⟩

theorem getLatch_setLatch_self (m : Master) (a : Nat) (v : Word) (d : Dev) : (d.setLatch m a v).getLatch m a = v :=
  (Cells.get_put _ _ _ _ _).trans (if_pos rfl)

theorem getLatch_setLatch_ne {m m' : Master} {a b : Nat} (v : Word) (d : Dev) (ha : a < 2 ^ 32) (hb : b < 2 ^ 32)
    (h : m' ≠ m ∨ b ≠ a) : (d.setLatch m a v).getLatch m' b = d.getLatch m' b := by
  refine (Cells.get_put _ _ _ _ _).trans (if_neg fun he => ?_)
  obtain ⟨hm, hab⟩ := latchKey_inj hb ha he
  exact h.elim (· hm) (· hab)

theorem readEffect_lo (q : Vector EvQ 32) (m : Master) (hq : p.queue = false) (hlo : d.isLo a = true) (hp' : place (a + 4) = some p') :
    d.readEffect q m a p = d.setLatch m (a + 4) (d.placeWord q (a + 4) p') := by
  cases p with
  | evq b => cases hq
  | live | hold | evstat | evlost | evlostHold => simp only [readEffect, hlo, hp', if_true]

/-- The device after a read of word a that returns `low` and latches `high` for master m. -/
def latched (m : Master) (a : Nat) (low high : Word) (d : Dev) : Dev :=
  ((d.touch (domainOf a)).setLatch m (a + 4) high).returned .done low

theorem busRead_lo {q : Vector EvQ 32} {m : Master} {low high : Word} (hm : d.domOn .mgt = true)
    (hd : d.domOn (domainOf a) = true) (hg : p.guarded = true → d.trusted m = true) (hp : place a = some p)
    (hp' : place (a + 4) = some p') (hq : p.queue = false) (hlo : d.isLo a = true) (hl : d.isLatched a = false)
    (hlow : (d.touch (domainOf a)).placeWord q a p = low) (hhigh : (d.touch (domainOf a)).placeWord q (a + 4) p' = high) :
    d.busRead q m a .word = d.latched m a low high := by
  obtain ⟨-, -, h4⟩ := place_bounds hp
  have hlo' : (d.touch (domainOf a)).isLo a = true := hlo
  have hl' : (d.touch (domainOf a)).isLatched a = false := hl
  rw [busRead_done hm h4 (place_notAlias hp) hp hg (fun _ => hq) hd]
  simp only [hl', Bool.false_eq_true, if_false, readEffect_lo q m hq hlo' hp', hlow, hhigh, narrowRead_word _ h4]
  rfl

end Sys2Proof.Machine.Dev

namespace Sys2Proof.Claims

open Sys2Proof.Machine Sys2Proof.Machine.Dev

variable {s : State} {m : Master} {a : Nat} {p p' : Place} {low high : Word}

section
variable {o : List Raise → List Raise} {d : Dev}

/-- What does not depend on the registers and the event bookkeeping is as the command left it. -/
theorem finish_keeps {β : Type} (g : Dev → β) (h : ∀ e : Dev, g e.rest = g e) : g (finish o s d).dev = g d :=
  calc g (finish o s d).dev = g (finish o s d).dev.rest := (h _).symm
    _ = g d.rest := congrArg g (finish_rest o s d)
    _ = g d := h d

theorem finish_latch : (finish o s d).dev.latch = d.latch := finish_keeps Dev.latch fun _ => rfl
theorem finish_busRes : (finish o s d).dev.busRes = d.busRes := finish_keeps Dev.busRes fun _ => rfl
theorem finish_busWord : (finish o s d).dev.busWord = d.busWord := finish_keeps Dev.busWord fun _ => rfl

theorem getLatch_finish (m : Master) (a : Nat) : (finish o s d).dev.getLatch m a = d.getLatch m a :=
  finish_keeps (fun e => e.getLatch m a) fun _ => rfl

end

theorem exec_loWordRead (m : Master) (a : Nat) (s : State) : exec (.loWordRead m a) s = .next (commit s
    (if s.dev.isLo (busTarget a).1 || (debugWay m a).isSome then s.dev.busRead s.evq m a .word else s.dev)) := by
  rfl

/-- A pair whose two words are in the map: its low word's read returns it and latches the other (R28). -/
theorem loWordRead_latches (hs : s.dev.settled = true) (hp : place a = some p) (hp' : place (a + 4) = some p')
    (hq : p.queue = false) (hlo : s.dev.isLo a = true) (hl : s.dev.isLatched a = false)
    (hlow : (s.dev.touch (domainOf a)).placeWord s.evq a p = low)
    (hhigh : (s.dev.touch (domainOf a)).placeWord s.evq (a + 4) p' = high) : LatchesHigh s m a low high := by
  rintro ⟨hm, hd, hg⟩
  obtain ⟨-, hlt, h4⟩ := place_bounds hp
  have ht : (busTarget a).1 = a := by rw [busTarget_reg (place_notAlias hp) h4]
  refine ⟨commit s (s.dev.latched m a low high), ?_, finish_busRes, finish_busWord, (getLatch_finish _ _).trans ?self,
    fun m' b hb hne => (getLatch_finish _ _).trans ?other, ?frame⟩
  · rw [exec_loWordRead, ht, hlo, Bool.true_or, if_pos rfl, busRead_lo hm hd (hg p hp) hp hp' hq hlo hl hlow hhigh]
  case self => exact getLatch_setLatch_self m (a + 4) high (s.dev.touch (domainOf a))
  case other => exact getLatch_setLatch_ne high (s.dev.touch (domainOf a)) (by omega) hb hne
  case frame =>
    rw [commit, finish_latch]
    exact frame_quiet hs rfl (fun _ _ => rfl) rfl rfl rfl rfl

/-- The live low word of a 48-bit pair, as the register table has it: both words stand in the register file and are copied, the low one's
row is one that latches, and the word before it is no low word. -/
def liveLow (a : Nat) : Bool :=
  decide (InRegs a ∧ InRegs (a + 4) ∧ 4 ≤ a % 0x10000 ∧ 0x10020000 ≤ a)
  && !derivedAt a && !derivedAt (a + 4) && (rowAt a).any (fun r => latchBases.contains r.base && r.rq == 0 && r.cap != .none)
  && (rowAt (a + 4)).any (fun r => r.cap != .none) && (rowAt (a - 4)).all RegRow.single

/-- No register lies where the holding copies of the words around a do. -/
def heldFree (a : Nat) : Bool := [a + 0x8000, a + 4 + 0x8000, a - 4 + 0x8000].all fun b => (rowAt b).isNone

theorem lowWords_liveLow : ∀ a ∈ lowWords, liveLow a = true := by decide +kernel

theorem lowWords_heldFree : ∀ a ∈ lowWords, heldFree a = true := by decide +kernel

/-- What `liveLow` says, with the rows of the pair's words. -/
structure PairRows (a : Nat) (r r' : RegRow) : Prop where
  regs    : InRegs a
  next    : InRegs (a + 4)
  before  : 4 ≤ a % 0x10000
  above   : 0x10020000 ≤ a
  plain   : derivedAt a = false ∧ derivedAt (a + 4) = false
  low     : rowAt a = some r
  latches : latchBases.contains r.base = true
  noPop   : r.rq = 0
  copied  : r.cap ≠ .none
  high    : rowAt (a + 4) = some r'
  copied' : r'.cap ≠ .none
  single  : (rowAt (a - 4)).all RegRow.single = true

theorem pairRows_of_liveLow (h : liveLow a = true) : ∃ r r', PairRows a r r' := by
  simp only [liveLow, Bool.and_eq_true, decide_eq_true_eq, Bool.not_eq_true', Option.any_eq_true, beq_iff_eq,
    bne_iff_ne] at h
  obtain ⟨⟨⟨⟨⟨⟨hregs, hnext, hbefore, habove⟩, hplain⟩, hplain'⟩,
    r, hr, ⟨hlatch, hrq⟩, hcap⟩, r', hr', hcap'⟩, hsingle⟩ := h
  exact ⟨r, r', hregs, hnext, hbefore, habove, ⟨hplain, hplain'⟩, hr, hlatch, hrq, hcap, hr', hcap', hsingle⟩

theorem live_latches (hs : s.dev.settled = true) (h : liveLow a = true) :
    LatchesHigh s m a (s.dev.reg a) (s.dev.reg (a + 4)) := by
  obtain ⟨r, r', hp⟩ := pairRows_of_liveLow h
  have hbefore := hp.before
  obtain ⟨-, -, -, hoff⟩ := hp.regs
  exact loWordRead_latches hs (place_live hp.regs hp.low) (place_live hp.next hp.high) (by simp [Place.queue, hp.noPop])
    (isLo_pair (liveAddr_live (by omega)) hp.low hp.latches)
    (isLatched_none hp.above (isLo_single (liveAddr_live (by omega)) hp.single))
    (placeWord_live _ _ _ hp.plain.1) (placeWord_live _ _ _ hp.plain.2)

theorem held_latches (hs : s.dev.settled = true) (h : liveLow a = true) (hf : heldFree a = true) :
    LatchesHigh s m (a + 0x8000) (Cells.get zeroWord s.dev.hold a) (Cells.get zeroWord s.dev.hold (a + 4)) := by
  obtain ⟨r, r', hp⟩ := pairRows_of_liveLow h
  simp only [heldFree, List.all_cons, List.all_nil, Bool.and_eq_true, Bool.and_true, Option.isNone_iff_eq_none] at hf
  obtain ⟨hup, hup', hupb⟩ := hf
  have hbefore := hp.before
  have habove := hp.above
  obtain ⟨-, -, -, hoff⟩ := hp.regs
  have hnext : a + 0x8000 + 4 = a + 4 + 0x8000 := by omega
  have hb : a + 0x8000 - 4 = a - 4 + 0x8000 := by omega
  exact loWordRead_latches hs (place_held hp.regs hp.low hp.copied hup)
    (by rw [hnext]; exact place_held hp.next hp.high hp.copied' hup') rfl
    (isLo_pair (liveAddr_held (by omega) hup) hp.low hp.latches)
    (isLatched_none (by omega) (isLo_single (by rw [hb]; exact liveAddr_held (by omega) hupb) hp.single))
    (placeWord_held _ _ _) (by rw [hnext]; exact placeWord_held _ _ _)

end Sys2Proof.Claims
end

section
/-! SUPPORT. The chained counters of a slice (R685), the quire number (R28), and the debug port's way to an SRAM (R463, R472). -/

namespace Sys2Proof.Machine.Dev

theorem regRow_slicePmc (k : Slice) (j : Fin 4) : ∃ r : RegRow, regRow (R.SLC_PMC k j) = some (r, (k : Nat), (j : Nat)) ∧
    r.name = "SLCs.PMCk" ∧ r.rq = 0 ∧ latchBases.contains r.base = false := by
  have h : ∀ (k : Slice) (j : Fin 4), (regRow (R.SLC_PMC k j)).map (fun x => (x.2, x.1.name, x.1.rq, latchBases.contains x.1.base))
      = some (((k : Nat), (j : Nat)), "SLCs.PMCk", 0, false) := by decide +kernel
  obtain ⟨⟨r, i⟩, hr, he⟩ := Option.map_eq_some_iff.mp (h k j)
  simp only [Prod.mk.injEq] at he
  obtain ⟨hi, hrest⟩ := he
  exact ⟨r, hi ▸ hr, hrest⟩

theorem derivedAt_slicePmc : ∀ (k : Slice) (j : Fin 4), derivedAt (R.SLC_PMC k j) = false := by decide +kernel

theorem rowAt_beforeSlicePmc : ∀ k : Slice, rowAt (R.SLC_PMC k (0 : Fin 4) - 4) = none := by decide +kernel

theorem inRegs_slicePmc (k : Slice) (j : Fin 4) : InRegs (R.SLC_PMC k j) := by
  have := k.isLt
  have := j.isLt
  simp only [InRegs, R.SLC_PMC]
  omega

theorem slicePmc_next (k j : Nat) : R.SLC_PMC k j + 4 = R.SLC_PMC k (j + 1) := by
  simp only [R.SLC_PMC]
  omega

/-- Counters 0 and 2 are low words where their pair is chained. -/
theorem isLo_slicePmc (k : Slice) (j : Fin 4) (d : Dev) : d.isLo (R.SLC_PMC k j) =
    ((j.val == 0 && d.lvOn (F.SLC_PM_CFG_CH01 k)) || (j.val == 2 && d.lvOn (F.SLC_PM_CFG_CH23 k))) := by
  obtain ⟨r, hr, hn, -, hb⟩ := regRow_slicePmc k j
  obtain ⟨-, -, -, hoff⟩ := inRegs_slicePmc k j
  simp only [isLo, liveAddr_live (show R.SLC_PMC k j % 0x10000 < 0x8000 by omega), hr, hn, hb, Bool.false_or, beq_self_eq_true,
    Bool.true_and]

theorem place_slicePmc (k : Slice) (j : Fin 4) : ∃ r, place (R.SLC_PMC k j) = some (.live r) ∧ (Place.live r).queue = false := by
  obtain ⟨r, hr, -, hq, -⟩ := regRow_slicePmc k j
  exact ⟨r, place_live (inRegs_slicePmc k j) (by rw [rowAt_eq, hr]; rfl), by simp [Place.queue, hq]⟩

/-- The word before counter 0 or 2 is no low word. -/
theorem isLatched_slicePmc (k : Slice) {j : Fin 4} (hj : j = 0 ∨ j = 2) (d : Dev) : d.isLatched (R.SLC_PMC k j) = false := by
  have ha := inRegs_slicePmc k j
  have hb : 0x10020000 ≤ R.SLC_PMC k j := by simp only [R.SLC_PMC]; omega
  refine isLatched_none hb ?_
  rcases hj with rfl | rfl
  · refine isLo_single (liveAddr_live ?_) (by rw [rowAt_beforeSlicePmc]; rfl)
    simp only [R.SLC_PMC]; omega
  · have hprev : R.SLC_PMC k (2 : Fin 4) - 4 = R.SLC_PMC k (1 : Fin 4) := Nat.sub_eq_of_eq_add (slicePmc_next k 1).symm
    rw [hprev, isLo_slicePmc]
    rfl

end Sys2Proof.Machine.Dev

namespace Sys2Proof.Claims

open Sys2Proof.Machine Sys2Proof.Machine.Dev

variable {s : State} {m : Master} {a : Nat}

theorem chained_latches (hs : s.dev.settled = true) (k : Slice) {j : Fin 4} (hj : j = 0 ∨ j = 2)
    (hlo : s.dev.isLo (R.SLC_PMC k j) = true) :
    LatchesHigh s m (R.SLC_PMC k j) (s.dev.reg (R.SLC_PMC k j)) (s.dev.reg (R.SLC_PMC k (j + 1))) := by
  obtain ⟨j', hj'⟩ : ∃ j' : Fin 4, R.SLC_PMC k j + 4 = R.SLC_PMC k j' := by
    rcases hj with rfl | rfl
    · exact ⟨1, slicePmc_next k 0⟩
    · exact ⟨3, slicePmc_next k 2⟩
  obtain ⟨r, hp, hq⟩ := place_slicePmc k j
  obtain ⟨r', hp', -⟩ := place_slicePmc k j'
  rw [← slicePmc_next, hj']
  rw [← hj'] at hp'
  exact loWordRead_latches hs hp hp' hq hlo (isLatched_slicePmc k hj s.dev)
    (placeWord_live _ _ _ (derivedAt_slicePmc k j)) (by rw [hj']; exact placeWord_live _ _ _ (derivedAt_slicePmc k j'))

theorem loWordRead_lowWord (hs : s.dev.settled = true) (m : Master) (a : Nat) : LowWordRead s m a := by
  refine ⟨fun hlo hw => ?other, fun h => live_latches hs (lowWords_liveLow a h),
    fun h => held_latches hs (lowWords_liveLow a h) (lowWords_heldFree a h), fun k j hj => ?chained⟩
  case other =>
    have he : exec (.loWordRead m a) s = .next (commit s s.dev) := by
      rw [exec_loWordRead, hlo, hw, Option.isSome_none, Bool.or_false, if_neg Bool.false_ne_true]
    exact yields_quiet he hs (fun _ _ => rfl) (fun _ => rfl) rfl rfl rfl rfl
  case chained =>
    rcases hj with ⟨rfl, hon⟩ | ⟨rfl, hon⟩
    · exact chained_latches (j := 0) hs k (.inl rfl) (by rw [isLo_slicePmc]; simp [hon])
    · exact chained_latches (j := 2) hs k (.inr rfl) (by rw [isLo_slicePmc]; simp [hon])

/-! ### The quire number -/

theorem rowAt_quireNumber : ∃ r, rowAt R.CLK_QNUM_LO = some r ∧ r.rq = 0 ∧ r.guarded = false ∧
    latchBases.contains r.base = true := ⟨_, rfl, rfl, rfl, rfl⟩

theorem quireNumber_latches (hs : s.dev.settled = true) (m : Master) : LatchesHigh s m R.CLK_QNUM_LO
    (s.dev.clk.qnum.setWidth 32) (BitVec.ofNat 32 (s.dev.clk.qnum.toNat / 2 ^ 32)) := by
  obtain ⟨r, hr, hq, -, hb⟩ := rowAt_quireNumber
  obtain ⟨r', hr'⟩ : ∃ r, rowAt R.CLK_QNUM_HI = some r := ⟨_, rfl⟩
  exact loWordRead_latches hs (place_live (by decide) hr) (place_live (by decide) hr') (by simp [Place.queue, hq])
    (isLo_pair (liveAddr_live (by decide)) hr hb)
    (isLatched_none (by decide) (isLo_single (liveAddr_live (by decide)) (by decide))) rfl rfl

theorem loWordRead_quireNumber (hs : s.dev.settled = true) (m : Master) : QnumRead s m := by
  intro hm
  have hreach : Reaches s m R.CLK_QNUM_LO := by
    obtain ⟨r, hr, -, hopen, -⟩ := rowAt_quireNumber
    refine ⟨hm, hm, fun p hp hg => ?_⟩
    rw [place_live (by decide) hr] at hp
    cases hp
    rw [Place.guarded, hopen] at hg
    cases hg
  obtain ⟨t, he, hres, hword, hself, hother, hframe⟩ := quireNumber_latches hs m hreach
  have hclk : t.dev.rest.clk = s.dev.rest.clk := by
    rw [hframe.rest]
    rfl
  exact ⟨t, he, hres, hword, hself, fun m' hm' => hother m' _ (by decide) (.inl hm'), hframe.regs, hframe.events, hclk⟩

/-! ### The debug port and the SRAMs -/

theorem memBase_bound : ∀ k < 4, memBase k + memSize k ≤ 0x10000000 := by decide

theorem memOf_bound {a k : Nat} (h : memOf a = some k) : a < 0x10000000 := by
  have hk := memBase_bound k (List.mem_range.mp (List.mem_of_find?_eq_some h))
  have hin : memBase k ≤ a ∧ a < memBase k + memSize k :=
    of_decide_eq_true (List.find?_some (p := fun k => decide (memBase k ≤ a ∧ a < memBase k + memSize k)) h)
  omega

theorem debugSram_memOf {a k : Nat} (h : debugSram a = some k) : memOf a = some k := by
  unfold debugSram at h
  split at h
  · cases h
  · exact h

theorem place_sram {a k : Nat} (h : memOf a = some k) : place a = none := by
  simp [place, memOf_bound h]

theorem busTarget_sram {a k : Nat} (h : memOf a = some k) (h4 : a % 4 = 0) : busTarget a = (a, none) := by
  have := memOf_bound h
  have hal : isAlias a = false := by
    simp only [isAlias, decide_eq_false_iff_not]
    omega
  exact busTarget_reg hal h4

/-- An SRAM admits the debug port where it is trusted (log 10). -/
theorem admits_sram {a k : Nat} (d : Dev) (h : debugSram a = some k) (h4 : a % 4 = 0) : d.admits .debug a = d.trusted .debug := by
  have hm := debugSram_memOf h
  simp only [admits, busTarget_sram hm h4, place_sram hm, h, Option.isNone_some, Bool.or_false]

theorem busRead_sram {q : Vector EvQ 32} {a k : Nat} {d : Dev} (h : debugSram a = some k) (h4 : a % 4 = 0)
    (hm : d.domOn .mgt = true) : d.busRead q .debug a .word =
      if d.trusted .debug then d.debugRead k a .word else (d.denyAccess .debug a).returned .denied 0 := by
  have hw : debugWay .debug a = some k := h
  simp only [busRead, when_busUp_on hm, hm, hw, admits_sram d h h4, Bool.not_true, Bool.false_eq_true, if_false]

theorem debugRead_done {a k : Nat} {d e : Dev} {v : Word} (h4 : a % 4 = 0) (h : d.readMem k a srcDebug = (v, false, e)) :
    d.debugRead k a .word = e.returned .done v := by
  simp [debugRead, widthBytes, h4, h, narrowRead_word]

theorem debugRead_damaged {a k : Nat} {d e : Dev} {v : Word} (h4 : a % 4 = 0) (h : d.readMem k a srcDebug = (v, true, e)) :
    d.debugRead k a .word = e.returned .damaged v := by
  simp [debugRead, widthBytes, h4, h, narrowRead_word]

theorem exec_loWordRead_sram {a k : Nat} (h : debugSram a = some k) : exec (.loWordRead .debug a) s =
    .next (commit s (s.dev.busRead s.evq .debug a .word)) := by
  have hw : debugWay .debug a = some k := h
  rw [exec_loWordRead, hw, Option.isSome_some, Bool.or_true, if_pos rfl]

section
variable {d : Dev} {k src : Nat}

theorem readMem_clean (h : classifyWord (d.memWord a) (d.memCheck a) = .clean) : d.readMem k a src = (d.memWord a, false, d) := by
  simp only [readMem, h]

theorem readMem_correctable {b : Nat} (h : classifyWord (d.memWord a) (d.memCheck a) = .correctable b) :
    d.readMem k a src = (invertBit (d.memWord a) b, false, (d.countCorr k).wordEvent a false) := by
  simp only [readMem, h]

theorem readMem_bad (h : classifyWord (d.memWord a) (d.memCheck a) = .poisoned ∨
    classifyWord (d.memWord a) (d.memCheck a) = .uncorrectable) : ∃ e, d.readMem k a src = (d.memWord a, true, e) := by
  rcases h with h | h <;> simp [readMem, h]

end

theorem answers_returned {c : Instr} {e : Dev} {r : Access} {v : Word} (h : exec c s = .next (commit s (e.returned r v))) :
    Answers c s fun t => t.dev.busWord = v ∧ t.dev.busRes = r ∧ t.pending = s.pending :=
  ⟨_, h, finish_busWord, finish_busRes, rfl⟩

theorem loWordRead_debug (hs : s.dev.settled = true) (a : Nat) (m : Fin 4) : DebugRead s a m := by
  intro hw hm h4
  have hd : debugSram a = some m.val := hw
  refine ⟨fun ht => ?trusted, fun ht => answers_returned (e := s.dev.denyAccess .debug a) ?_⟩
  case trusted =>
    have hr {v : Word} {r : Access} {e : Dev} (h : s.dev.debugRead m a .word = e.returned r v) :
        exec (.loWordRead .debug a) s = .next (commit s (e.returned r v)) := by
      rw [exec_loWordRead_sram hd, busRead_sram hd h4 hm, if_pos ht, h]
    refine ⟨fun hc => ⟨_, hr (debugRead_done h4 (readMem_clean hc)), frame_quiet hs rfl (fun _ _ => rfl) rfl rfl rfl rfl⟩,
      fun b hc => answers_returned (hr (debugRead_done h4 (readMem_correctable hc))), fun hc => ?_⟩
    obtain ⟨e, he⟩ := readMem_bad hc
    exact answers_returned (hr (debugRead_damaged h4 he))
  rw [exec_loWordRead_sram hd, busRead_sram hd h4 hm, ht, if_neg Bool.false_ne_true]

/-- Settles O19: a low word's read is one lemma about any pair in the map; which words are pairs is read from the register table, for
the live words, the holding copies, the chained counters and the quire number; the debug port's read is by the class of its word. -/
theorem lowWordLatches : Obligations.LowWordLatches := by
  intro s hs
  exact ⟨loWordRead_quireNumber hs, loWordRead_lowWord hs, loWordRead_debug hs⟩

end Sys2Proof.Claims
end

section
/-! SUPPORT. What a reading of the device does not depend on: words, fault windows and events that it ignores stay out of its way
when a fault class is charged, a calibration run takes an input change, or a stream's status follows (R60, R329, R658, R659). -/

namespace Sys2Proof.Machine.Dev

/-- The reading g depends on no register word but those that p singles out, on no fault window and on no event raised. -/
structure Ignores {β : Type} (g : Dev → β) (p : Nat → Prop) : Prop where
  word  : ∀ a v d, ¬ p a → g (setReg a v d) = g d
  flt   : ∀ l (d : Dev), g { d with flt := l } = g d
  raise : ∀ b c l d, g (raise b c l d) = g d

namespace Ignores

variable {β : Type} {g : Dev → β} {p : Nat → Prop}

theorem setFld (hg : Ignores g p) {f : Fld} (x : Nat) (d : Dev) (h : ¬ p f.addr) : g (d.setFld f x) = g d := hg.word _ _ _ h

theorem setOn (hg : Ignores g p) {f : Fld} (b : Bool) (d : Dev) (h : ¬ p f.addr) : g (d.setOn f b) = g d := hg.word _ _ _ h

theorem bumpBy (hg : Ignores g p) {a : Nat} (n : Nat) (d : Dev) (h : ¬ p a) : g (d.bumpBy a n) = g d := hg.word _ _ _ h

theorem bump48By (hg : Ignores g p) {a : Nat} (n : Nat) (d : Dev) (h : ¬ p a) (h' : ¬ p (a + 4)) : g (d.bump48By a n) = g d :=
  (hg.word _ _ _ h').trans (hg.word _ _ _ h)

/-- What a reading of one register word ignores. -/
theorem on {f : Fld} : Ignores (fun d => d.on f) (· = f.addr) where
  word a v d h := by simp only [Dev.on, fld_setReg_ne v d (Ne.symm h)]
  flt _ _ := rfl
  raise _ _ _ _ := rfl

/-! ### Fault windows (R658, R659) -/

/-- The words that the window of class c and its member i may write: the class's count, the record of its last member, and the flag. -/
def faultWord (c i a : Nat) : Prop := a = R.FLT_LAST c ∨ a = R.FLT_LASTID ∨ ∃ f, lastingFlag c i = some f ∧ a = f.addr

theorem setBucket (hg : Ignores g p) (b : Bucket) (d : Dev) : g (d.setBucket b) = g d := hg.flt _ _

theorem endLasting (hg : Ignores g p) {c i : Nat} (d : Dev) (h : ∀ a, faultWord c i a → ¬ p a) : g (d.endLasting c i) = g d := by
  unfold Dev.endLasting
  cases hf : lastingFlag c i with
  | none => dsimp only; split_ifs <;> simp only [hg.raise]
  | some f =>
    have hp : ¬ p f.addr := h _ (.inr (.inr ⟨f, hf, rfl⟩))
    dsimp only
    split_ifs <;> simp only [hg.raise, hg.setOn _ _ hp]

theorem leak (hg : Ignores g p) {c i : Nat} (d : Dev) (h : ∀ a, faultWord c i a → ¬ p a) : g (d.leak c i) = g d := by
  unfold Dev.leak
  dsimp only
  split_ifs
  · rfl
  · rw [hg.endLasting _ h, hg.setBucket]
  · exact hg.setBucket _ _

theorem reportLasting (hg : Ignores g p) {c i : Nat} (d : Dev) (h : ∀ a, faultWord c i a → ¬ p a) :
    g (d.reportLasting c i) = g d := by
  have hlast : ¬ p (R.FLT_LAST c) := h _ (.inl rfl)
  have hid : ¬ p R.FLT_LASTID := h _ (.inr (.inl rfl))
  unfold Dev.reportLasting bump
  rw [hg.raise, hg.setFld _ _ hid, hg.setFld _ _ hid, hg.bumpBy _ _ hlast]

/-- A reading that ignores the class's words and its action does not see its charge. -/
theorem charge (hg : Ignores g p) {c i : Nat} {action : Dev → Dev} (d : Dev) (h : ∀ a, faultWord c i a → ¬ p a)
    (ha : ∀ e, g (action e) = g e) : g (d.charge c i action) = g d := by
  have hb (b : Bucket) : g ((d.leak c i).setBucket b) = g d := by rw [hg.setBucket, hg.leak _ h]
  unfold Dev.charge
  dsimp only
  split_ifs <;> simp only [ha, hg.reportLasting _ h, hb]

/-! ### Stream status (R60) -/

theorem updateStreams (hg : Ignores g p) (d : Dev) (h : ¬ p R.MAP_STAT) : g d.updateStreams = g d := by
  refine each_keeps _ _ g (fun s e => ?_) d
  dsimp only
  split_ifs
  · rfl
  · rw [hg.raise, hg.setOn _ _ h]
  · rw [hg.raise, hg.setOn _ _ h]

/-! ### Calibration (R326 to R330) -/

/-- The words of lane n that an input change of a calibration item may write: the item's status, its count of rejections, and those
of fault class 5. -/
def calWord (n : Lane) (i : Fin 4) (a : Nat) : Prop := a = R.CAL_STAT n ∨ a = R.CAL_REJ n i ∨ faultWord 5 n a

section
variable (hg : Ignores g p) {n : Lane} {i : Fin 4} (hc : ∀ f d, g (modCal n i f d) = g d) (h : ∀ a, calWord n i a → ¬ p a)
include hg hc h

theorem calEnd (d : Dev) : g (d.calEnd n i) = g d := by
  have hs : ¬ p (R.CAL_STAT n) := h _ (.inl rfl)
  unfold Dev.calEnd
  rw [hg.setOn _ _ hs, hg.setOn _ _ hs, hc]

theorem calFail (d : Dev) (reason event : Nat) : g (d.calFail n i reason event) = g d := by
  have hs : ¬ p (R.CAL_STAT n) := h _ (.inl rfl)
  unfold Dev.calFail bump
  dsimp only
  rw [hg.charge _ (fun a ha => h a (.inr (.inr ha))) fun e => by rw [hg.raise, hg.setOn _ _ hs], hg.calEnd hc h, hg.raise,
    hg.bumpBy _ _ (h _ (.inr (.inl rfl))), hg.setFld _ _ hs]

theorem calRetry (d : Dev) (reason : Nat) (again : CalItem → CalItem) : g (d.calRetry n i reason again) = g d := by
  have hs : ¬ p (R.CAL_STAT n) := h _ (.inl rfl)
  unfold Dev.calRetry calFgNext calReject
  dsimp only
  split_ifs
  · rw [hg.calFail hc h, hc, hg.setFld _ _ hs]
  · rw [hc, hc, hg.setFld _ _ hs]
  · rw [hc, hg.setFld _ _ hs]
  · exact hg.calFail hc h _ _ _

theorem calInputChange (d : Dev) (reason : Nat) : g (d.calInputChange n i reason) = g d := by
  unfold Dev.calInputChange
  dsimp only
  split_ifs
  · exact hg.calRetry hc h _ _ _
  · rfl

end

end Ignores

end Sys2Proof.Machine.Dev
end

section
/-! SUPPORT. A slice clock of a lane: what decides its slot, which a dying gasp, the block of host bits and the mesh leave alone
(R86, R97, R597). -/

namespace Sys2Proof.Machine.Dev

variable {n : Lane} {d : Dev}

theorem lane_modLane (k n : Lane) (f : LaneSt → LaneSt) (d : Dev) :
    (d.modLane k f).lane n = if k = n then f (d.lane n) else d.lane n := by
  by_cases h : k = n
  · subst h; simp [lane, modLane]
  · simp [lane, modLane, h, Fin.val_inj]

theorem lane_modTx (n : Lane) (f : TxSt → TxSt) (d : Dev) : ((d.modTx n f).lane n).tx = f (d.lane n).tx := by
  rw [modTx, lane_modLane, if_pos rfl]

theorem link_modLink (n : Lane) (f : LinkSt → LinkSt) (d : Dev) : (d.modLink n f).link n = f (d.link n) := by
  simp [link, modLink, modMsh]

/-! ### What decides the slot -/

/-- Whether lane n has a slice clock, of which mode, what its transmitter has come to, and the clock's number. -/
def slotView (n : Lane) (d : Dev) : Bool × Bool × Nat × Nat × Nat :=
  (d.slotOpen n, d.native, (d.lane n).tx.start, (d.lane n).tx.slot, (d.lane n).tx.beat)

/-- The words that decide it: the power state and the tick. -/
def slotWord (a : Nat) : Prop := a = R.PWR_STAT ∨ a = R.CLK_STAT

theorem slotView_ignores : Ignores (slotView n) slotWord where
  word a v d h := by
    obtain ⟨hp, hc⟩ := not_or.mp h
    have hp' := fld_setReg_ne (g := F.PWR_STAT_DSTATE) v d (Ne.symm hp)
    have hc' := fld_setReg_ne (g := F.CLK_STAT_TICK_RUN) v d (Ne.symm hc)
    simp only [slotView, slotOpen, active, dstate, on, hp', hc']
    rfl
  flt _ _ := rfl
  raise _ _ _ _ := rfl

theorem slotView_modLane (k : Lane) {f : LaneSt → LaneSt} (d : Dev)
    (h : ∀ l, (f l).tx.start = l.tx.start ∧ (f l).tx.slot = l.tx.slot ∧ (f l).tx.beat = l.tx.beat) :
    slotView n (d.modLane k f) = slotView n d := by
  have hq : (d.modLane k f).quireClocks = d.quireClocks := rfl
  have ha : (d.modLane k f).active = d.active := rfl
  have hn : (d.modLane k f).native = d.native := rfl
  have hl : ((d.modLane k f).lane n).tx.start = (d.lane n).tx.start ∧ ((d.modLane k f).lane n).tx.slot = (d.lane n).tx.slot ∧
      ((d.modLane k f).lane n).tx.beat = (d.lane n).tx.beat := by
    rw [lane_modLane]
    split
    · exact h _
    · exact ⟨rfl, rfl, rfl⟩
  simp only [slotView, slotOpen, hq, ha, hn, hl, modLane_on]

/-- An input change writes at or above the block CAL. -/
theorem calWord_above {i : Fin 4} {a : Nat} (h : Ignores.calWord n i a) : 0x10130000 ≤ a := by
  rcases h with rfl | rfl | rfl | rfl | ⟨f, hf, rfl⟩
  · simp only [R.CAL_STAT]; omega
  · simp only [R.CAL_REJ]; omega
  · decide
  · decide
  · obtain rfl : F.CAL_STAT_DEGRADED n = f := by simpa [lastingFlag] using hf
    simp only [R.CAL_STAT]; omega

theorem Ignores.calTxChange {β : Type} {g : Dev → β} {p : Nat → Prop} (hg : Ignores g p)
    (hc : ∀ i f d, g (modCal n i f d) = g d) (h : ∀ a, p a → a < 0x10130000) (d : Dev) : g (d.calTxChange n) = g d := by
  have hw (i : Fin 4) (a : Nat) (ha : calWord n i a) : ¬ p a := fun hp => Nat.not_le.mpr (h a hp) (calWord_above ha)
  rw [Dev.calTxChange, hg.calInputChange (hc 3) (hw 3), hg.calInputChange (hc 2) (hw 2)]

/-- What a squelch makes of the transmitter: its output and what is on the way to it fall silent (R181). -/
def quieted (t : TxSt) : TxSt :=
  { t with last := 128, lastLevel := 0, out := [], prev := t.prev.map fun x => { x with quiet := true },
           queue := t.queue.map fun x => { x with quiet := true } }

/-- A reading that ignores the lanes' words does not see a squelch, unless it sees what falls silent. -/
theorem Ignores.squelchNow {β : Type} {g : Dev → β} {p : Nat → Prop} (hg : Ignores g p) (h : ∀ a, p a → a < 0x10110000)
    (hc : ∀ i f d, g (modCal n i f d) = g d) (ht : ∀ d, g (modTx n quieted d) = g d) (d : Dev) : g (d.squelchNow n) = g d := by
  have hs : ¬ p (R.LANE_TX_STAT n) := fun hp => by
    have := h _ hp
    simp only [R.LANE_TX_STAT] at this
    omega
  unfold Dev.squelchNow
  dsimp only
  split_ifs
  · exact hg.setOn _ _ hs
  · rw [hg.calTxChange hc fun a ha => Nat.lt_trans (h a ha) (by decide)]
    exact (ht _).trans ((hg.setOn _ _ hs).trans (hg.setOn _ _ hs))

theorem slotWord_below {a : Nat} (h : slotWord a) : a < 0x10110000 := by
  rcases h with rfl | rfl <;> decide

theorem slotView_squelchPwr (b : Bool) (d : Dev) : slotView n (d.squelchPwr n b) = slotView n d := by
  have ht : slotView n (d.modTx n fun t => { t with sqPwr := b }) = slotView n d :=
    slotView_modLane n d fun _ => ⟨rfl, rfl, rfl⟩
  exact (slotView_ignores.squelchNow (fun _ => slotWord_below) (fun _ _ e => slotView_modLane n e fun _ => ⟨rfl, rfl, rfl⟩)
    (fun e => slotView_modLane n e fun _ => ⟨rfl, rfl, rfl⟩) _).trans ht

/-! ### The dying gasp (R597) -/

theorem gaspClock_idle (h : (d.link n).gaspLeft = 0 ∨ d.slotOpen n = false) : d.gaspClock n = d := by
  rw [gaspClock, if_pos (by simpa using h)]

theorem gaspClock_counts (hk : (d.link n).gaspLeft ≠ 0) (ho : d.slotOpen n = true) : d.gaspClock n =
    (d.modLink n fun l => { l with gaspLeft := (d.link n).gaspLeft - 1 }).when ((d.link n).gaspLeft == 1) (squelchPwr n true) := by
  rw [gaspClock, if_neg (by simp [hk, ho])]

theorem slotView_gaspClock (d : Dev) : slotView n (d.gaspClock n) = slotView n d := by
  by_cases h : (d.link n).gaspLeft = 0 ∨ d.slotOpen n = false
  · rw [gaspClock_idle h]
  · obtain ⟨hk, ho⟩ := not_or.mp h
    rw [gaspClock_counts hk (by simpa using ho), Dev.when]
    split
    · exact slotView_squelchPwr true _
    · rfl

/-! ### What squelches the lane after its gasp -/

theorem squelchNow_on (d : Dev) (h : d.anySquelch n = true) : (d.squelchNow n).on (F.LANE_TX_STAT_SQUELCHED n) = true := by
  unfold squelchNow
  dsimp only
  split_ifs with hc
  · have ha : (d.setOn (F.LANE_TX_STAT_SQ_HW n) (d.hwSquelch n)).anySquelch n = true := by
      have hw : (d.setOn (F.LANE_TX_STAT_SQ_HW n) (d.hwSquelch n)).on (F.LANE_TX_CFG_SQUELCH n) = d.on (F.LANE_TX_CFG_SQUELCH n) :=
        on_setOn_word _ d (by simp)
      rw [anySquelch, hw]
      exact h
    simpa [ha] using hc
  · rw [(Ignores.on (f := F.LANE_TX_STAT_SQUELCHED n)).calTxChange (fun _ _ _ => rfl) fun a ha => ?_]
    · exact on_setOn_self _ _ _ (by simp) rfl
    · simp only [ha, R.LANE_TX_STAT]; omega

theorem squelchPwr_on (d : Dev) : (d.squelchPwr n true).on (F.LANE_TX_STAT_SQUELCHED n) = true :=
  squelchNow_on _ (by simp [anySquelch, hwSquelch, lane_modTx])

theorem squelchPwr_cause (d : Dev) : ((d.squelchPwr n true).lane n).tx.sqPwr = true := by
  have hg : Ignores (fun e : Dev => (e.lane n).tx.sqPwr) fun _ => False :=
    ⟨fun _ _ _ _ => rfl, fun _ _ => rfl, fun _ _ _ _ => rfl⟩
  have hs := hg.squelchNow (n := n) (fun _ h => h.elim) (fun i f e => by simp [modCal, lane_modLane])
    (fun e => by simp [lane_modTx, quieted]) (d.modTx n fun t => { t with sqPwr := true })
  exact hs.trans (by rw [lane_modTx])

theorem squelchPwr_link (d : Dev) : (d.squelchPwr n true).link n = d.link n := by
  have hg : Ignores (fun e : Dev => e.link n) fun _ => False := ⟨fun _ _ _ _ => rfl, fun _ _ => rfl, fun _ _ _ _ => rfl⟩
  have hs (e : Dev) : (e.squelchNow n).link n = e.link n :=
    hg.squelchNow (fun _ h => h.elim) (fun _ _ _ => rfl) (fun _ => rfl) e
  rw [squelchPwr, hs]
  rfl

theorem squelchPwr_mem (d : Dev) : (d.squelchPwr n true).mem = d.mem := by
  have hg : Ignores Dev.mem fun _ => False := ⟨fun _ _ _ _ => rfl, fun _ _ => rfl, fun _ _ _ _ => rfl⟩
  have hs (e : Dev) : (e.squelchNow n).mem = e.mem := hg.squelchNow (fun _ h => h.elim) (fun _ _ _ => rfl) (fun _ => rfl) e
  rw [squelchPwr, hs, modTx, modLane_mem]

/-! ### The host bits of a block (R97) -/

section
variable (e : Nat) (odd : Bool) (bits : List Bool) (blk : BitVec 544) (d : Dev)

theorem checkReceived_lanes (h : HostLane) : (d.checkReceived h bits).lanes = d.lanes := by
  unfold checkReceived
  split <;> rfl

theorem txIn_lanes (s : Nat) : (d.txIn s).lanes = d.lanes := by
  simp only [txIn, bump48, bump48By, set48, setFld_lanes, setReg_lanes]

theorem hostBits_lanes : (d.hostBits n e odd bits).2.2.lanes = d.lanes := by
  unfold hostBits
  dsimp only
  split_ifs <;> simp only [txIn_lanes, checkReceived_lanes, modHost_lanes]

theorem hostBits_lane (k : Lane) : (d.hostBits n e odd bits).2.2.lane k = d.lane k := by
  rw [lane, hostBits_lanes, lane]

theorem takeEntry_start : ((d.takeEntry n e blk).lane n).tx.start = (d.lane n).tx.start := by
  unfold takeEntry
  dsimp only
  rw [lane_modTx, ← hostBits_lane (n := n) e false ((List.range 544).map blk.getLsbD) d n]
  split <;> rfl

end

theorem takeBlock_start (a b : BitVec 544) (d : Dev) : ((d.takeBlock n a b).lane n).tx.start = (d.lane n).tx.start := by
  rw [takeBlock, takeEntry_start, takeEntry_start]

/-! ### The slot (R86) -/

section
variable {a b : BitVec 544} {w : BitVec 272} {smp : Byte} {i : Nat}

theorem transmitLeaf_closed (h : d.slotOpen n = false) : d.transmitLeaf n a b w smp = d := by
  rw [transmitLeaf, if_pos (by simp [h])]

theorem transmitLeaf_native (ho : d.slotOpen n = true) (hn : d.native = true) :
    d.transmitLeaf n a b w smp = (((d.leafSlot n a b w).dacSample n smp).slotEnd n).mirrorTx n := by
  rw [transmitLeaf, if_neg (by simp [ho]), if_pos hn]

theorem transmitLeaf_compat (ho : d.slotOpen n = true) (hn : d.native = false) :
    d.transmitLeaf n a b w smp = (((d.compatSlot n a).dacSample n smp).slotEnd n).mirrorTx n := by
  rw [transmitLeaf, if_neg (by simp [ho]), if_neg (by simp [hn])]

theorem leafSlot_fixed {k : SlotKind} (hk : slotKind (d.lane n).tx.slot = k) (hf : (∃ j, k = .marker j) ∨ ∃ m, k = .pilot m)
    (hs : 2 ≤ (d.lane n).tx.start) : d.leafSlot n a b w = d.sendLeaf n k w := by
  rcases hf with ⟨j, rfl⟩ | ⟨m, rfl⟩ <;> simp only [leafSlot, hk, if_pos hs]

theorem leafSlot_stitch {j : Nat} (hk : slotKind (d.lane n).tx.slot = .stitch j) (hs : 2 ≤ (d.lane n).tx.start) :
    d.leafSlot n a b w = d.sendLeaf n (.stitch j) w := by
  simp only [leafSlot, hk, if_pos hs]

/-- The device with the block's bits taken in its first leaf (R97). -/
def blockTaken (n : Lane) (a b : BitVec 544) (i : Nat) (d : Dev) : Dev := if i % 4 = 0 then d.takeBlock n a b else d

theorem blockTaken_start (d : Dev) : ((d.blockTaken n a b i).lane n).tx.start = (d.lane n).tx.start := by
  unfold blockTaken
  split
  · exact takeBlock_start a b d
  · rfl

/-- A data slot: the leaf is counted as sent in each of its streams where the lane sends, and the units that end in it follow. -/
theorem leafSlot_block (hk : slotKind (d.lane n).tx.slot = .data i) :
    d.leafSlot n a b w =
      let e := d.blockTaken n a b i
      let f := if 2 ≤ (e.lane n).tx.start then e.sendLeaf n (.data i) w else e
      (if e.sends n then f.each (f.laneStreams n) fun k d => d.bump48 (R.MAP_TX_LEAF_OUT_LO k) else f).endUnits n (i % 4)
        (e.sends n) := by
  rw [leafSlot, hk]
  rfl

theorem sends_unstarted (h : (d.lane n).tx.start < 2) : d.sends n = false := by
  rw [sends, decide_eq_false (Nat.not_le.mpr h)]
  rfl

theorem leafSlot_unsent (hk : slotKind (d.lane n).tx.slot = .data i) (hs : (d.lane n).tx.start < 2) :
    d.leafSlot n a b w = (d.blockTaken n a b i).endUnits n (i % 4) false := by
  have hb : ((d.blockTaken n a b i).lane n).tx.start < 2 := by rwa [blockTaken_start]
  rw [leafSlot_block hk]
  simp only [sends_unstarted hb, if_neg (Nat.not_le.mpr hb), Bool.false_eq_true, if_false]

theorem leafSlot_data (hk : slotKind (d.lane n).tx.slot = .data i) (hs : 2 ≤ (d.lane n).tx.start) :
    d.leafSlot n a b w =
      let e := d.blockTaken n a b i
      let f := e.sendLeaf n (.data i) w
      (if e.sends n then f.each (f.laneStreams n) fun k d => d.bump48 (R.MAP_TX_LEAF_OUT_LO k) else f).endUnits n (i % 4)
        (e.sends n) := by
  have hb : 2 ≤ ((d.blockTaken n a b i).lane n).tx.start := by rwa [blockTaken_start]
  rw [leafSlot_block hk]
  simp only [if_pos hb]

end

end Sys2Proof.Machine.Dev

namespace Sys2Proof.Claims

open Sys2Proof.Machine Sys2Proof.Machine.Dev

variable {s : State} {n : Lane} {a b : BitVec 544} {smp : Byte}

theorem slotOpen_iff (s : State) (n : Lane) : SlotOpen s n ↔ s.dev.slotOpen n = true := by
  simp only [SlotOpen, slotOpen, Bool.and_eq_true, decide_eq_true_eq, and_assoc]

theorem exec_transmitLeaf (n : Lane) (ab : BitVec 544 × BitVec 544) (smp : Byte) (s : State) :
    exec (.transmitLeaf n ab smp) s = .next (commit s ((slotStitch (s.dev.gaspClock n) n).2.transmitLeaf n ab.1 ab.2
      (slotStitch (s.dev.gaspClock n) n).1 smp).stopProgress) := by
  rfl

/-- The lane's state as the slice clock begins decides the slot as the state before it does. -/
theorem gaspClock_view (s : State) (n : Lane) : (s.dev.gaspClock n).slotOpen n = s.dev.slotOpen n ∧
    (s.dev.gaspClock n).native = s.dev.native ∧ ((s.dev.gaspClock n).lane n).tx.start = (s.dev.lane n).tx.start ∧
    ((s.dev.gaspClock n).lane n).tx.slot = (s.dev.lane n).tx.slot ∧
    ((s.dev.gaspClock n).lane n).tx.beat = (s.dev.lane n).tx.beat := by
  simpa only [slotView, Prod.mk.injEq] using slotView_gaspClock (n := n) s.dev

/-! ### What the slot takes from the mesh -/

theorem slotStitch_idle {d : Dev} (h : sending d n = false) : slotStitch d n = (0, d) := by
  unfold slotStitch
  split
  · rw [h, if_neg Bool.false_ne_true]
  · rfl

theorem slotStitch_other {d : Dev} {k : SlotKind} (hk : slotKind (d.lane n).tx.slot = k) (h : ∀ w, k ≠ .stitch w) :
    slotStitch d n = (0, d) := by
  unfold slotStitch
  split
  · next w hw => exact absurd (hk.symm.trans hw) (h w)
  · rfl

theorem slotStitch_stitch {d : Dev} {w : Nat} (hk : slotKind (d.lane n).tx.slot = .stitch w) (hs : sending d n = true) :
    slotStitch d n = d.stitchOut n w := by
  simp only [slotStitch, hk, hs, if_true]

/-- A native lane's slot that takes no stitch leaf. -/
theorem ends_leaf {k : SlotKind} {e : Dev} (ho : SlotOpen s n) (hn : s.dev.native = true)
    (hk : slotKind (s.dev.lane n).tx.slot = k) (hw : ∀ w, k ≠ .stitch w) (he : (s.dev.gaspClock n).leafSlot n a b 0 = e) :
    Ends (.transmitLeaf n (a, b) smp) s (slotDone n smp e) := by
  obtain ⟨hopen, hnative, -, hslot, -⟩ := gaspClock_view s n
  refine ⟨_, exec_transmitLeaf _ _ _ _, ?_⟩
  rw [slotStitch_other (hslot ▸ hk) hw]
  dsimp only
  rw [transmitLeaf_native (hopen.trans ((slotOpen_iff s n).mp ho)) (hnative.trans hn), he]
  rfl

theorem transmitLeaf_slotClosed (s : State) (n : Lane) (a b : BitVec 544) (smp : Byte) : SlotClosed s n a b smp := by
  intro h
  have ho : s.dev.slotOpen n = false := by simpa using mt (slotOpen_iff s n).mpr h
  refine ⟨_, exec_transmitLeaf _ _ _ _, ?_⟩
  rw [gaspClock_idle (.inr ho), slotStitch_idle (by rw [sending, ho, Bool.and_false, Bool.false_and])]
  dsimp only
  rw [transmitLeaf_closed ho]

theorem transmitLeaf_unsent (s : State) (n : Lane) (a b : BitVec 544) (smp : Byte) (i : Nat) : SlotUnsent s n a b smp i := by
  intro ho hn hs hk
  obtain ⟨-, -, hstart, hslot, -⟩ := gaspClock_view s n
  exact ends_leaf ho hn hk (by simp) (leafSlot_unsent (hslot ▸ hk) (hstart ▸ hs))

theorem transmitLeaf_data (s : State) (n : Lane) (a b : BitVec 544) (smp : Byte) (i : Nat) : SlotData s n a b smp i := by
  intro ho hn hs hk
  obtain ⟨-, -, hstart, hslot, -⟩ := gaspClock_view s n
  exact ends_leaf ho hn hk (by simp) (leafSlot_data (hslot ▸ hk) (hstart ▸ hs))

theorem transmitLeaf_fixed (s : State) (n : Lane) (a b : BitVec 544) (smp : Byte) (k : SlotKind) : SlotFixed s n a b smp k := by
  intro ho hn hs hk hf
  obtain ⟨-, -, hstart, hslot, -⟩ := gaspClock_view s n
  refine ends_leaf ho hn hk (fun w hw => ?_) (leafSlot_fixed (hslot ▸ hk) hf (hstart ▸ hs))
  subst hw
  simp at hf

theorem transmitLeaf_stitch (s : State) (n : Lane) (a b : BitVec 544) (smp : Byte) (w : Nat) : SlotStitch s n a b smp w := by
  intro ho hn hs hk d r hnative hopen htx
  obtain ⟨hopen', hnative', hstart, hslot, -⟩ := gaspClock_view s n
  have hsend : sending d n = true := by
    simp only [sending, d, hopen', hnative', hstart, hn, (slotOpen_iff s n).mp ho, decide_eq_true hs, Bool.and_self]
  refine ⟨_, exec_transmitLeaf _ _ _ _, ?_⟩
  rw [slotStitch_stitch (hslot ▸ hk) hsend]
  change _ = commit s (slotDone n smp (r.2.sendLeaf n (.stitch w) r.1))
  have hkind : slotKind (r.2.lane n).tx.slot = .stitch w := by rw [htx, hslot, hk]
  rw [transmitLeaf_native ((slotOpen_iff _ n).mp hopen) hnative, leafSlot_stitch hkind (by rw [htx, hstart]; exact hs)]
  rfl

theorem transmitLeaf_compatSlot (s : State) (n : Lane) (a b : BitVec 544) (smp : Byte) : SlotCompat s n a b smp := by
  intro ho hn
  obtain ⟨hopen, hnative, hstart, hslot, hbeat⟩ := gaspClock_view s n
  refine ⟨_, exec_transmitLeaf _ _ _ _, ?_⟩
  rw [slotStitch_idle (by rw [sending, hnative, hn, Bool.false_and, Bool.false_and])]
  dsimp only
  rw [transmitLeaf_compat (hopen.trans ((slotOpen_iff s n).mp ho)) (hnative.trans hn)]
  simp only [compatSlot, hbeat, hostBits_lane, hstart, hslot, slotDone]

theorem gaspClock_begins (d : Dev) (n : Lane) : ClockBegins d n := by
  refine ⟨gaspClock_idle, fun hk ho => ?counts, fun hk ho => ?last⟩
  case counts => rw [gaspClock_counts (by omega) ho, Dev.when, if_neg (by simp; omega)]
  case last =>
    have he : d.gaspClock n = (d.modLink n fun l => { l with gaspLeft := 0 }).squelchPwr n true := by
      rw [gaspClock_counts (by omega) ho, hk]
      rfl
    rw [he]
    exact ⟨squelchPwr_on _, squelchPwr_cause _, by rw [squelchPwr_link, link_modLink], squelchPwr_mem _⟩

theorem leafBits_dataLeaf (d : Dev) (n : Lane) (i : Nat) (w : BitVec 272) : DataLeaf d n i w := by
  intro h
  simp only [leafBits, codeLeaf, inject, modTx, modLane_lvOn, h, Bool.not_false, if_true]

/-- Settles O22: a slice clock by the slot it meets, whose kind and whose lane a dying gasp leaves as they were. -/
theorem slotsSent : Obligations.SlotsSent := by
  intro s _
  exact ⟨fun n a b x i => ⟨transmitLeaf_unsent s n a b x i, transmitLeaf_data s n a b x i⟩, transmitLeaf_fixed s,
    transmitLeaf_stitch s, fun n a b x => ⟨transmitLeaf_compatSlot s n a b x, transmitLeaf_slotClosed s n a b x⟩,
    gaspClock_begins, leafBits_dataLeaf⟩

end Sys2Proof.Claims
end

section
/-! SUPPORT. The host side: loss and return of a host lane, the delineator of a stream, and the counters of its monitor
(R52, R60, R67, R72 to R74). -/

namespace Sys2Proof.Machine.Dev

variable {d : Dev}

/-- What a reading of one register word ignores. -/
theorem Ignores.reg {a : Nat} : Ignores (fun d => d.reg a) (· = a) where
  word _ v d h := reg_setReg_ne v d (Ne.symm h)
  flt _ _ := rfl
  raise _ _ _ _ := rfl

/-! ### 48-bit counters -/

section
variable {a b : Nat}

theorem count48_lt (a : Nat) (d : Dev) : d.count48 a < 2 ^ 48 := by
  have := (d.reg a).isLt
  unfold count48
  omega

theorem count48_set48_self (a n : Nat) (d : Dev) : (d.set48 a n).count48 a = n % 2 ^ 48 := by
  have hlow : (d.set48 a n).reg a = BitVec.ofNat 32 n := by
    rw [set48, reg_setReg_ne _ _ (by omega), reg_setReg_self]
  have hhigh : (d.set48 a n).reg (a + 4) = BitVec.ofNat 32 (n / 2 ^ 32 % 65536) := by rw [set48, reg_setReg_self]
  rw [count48, hlow, hhigh, BitVec.toNat_ofNat, BitVec.toNat_ofNat]
  omega

theorem reg_set48_ne (n : Nat) (d : Dev) (h : b ≠ a) (h' : b ≠ a + 4) : (d.set48 a n).reg b = d.reg b := by
  rw [set48, reg_setReg_ne _ _ h', reg_setReg_ne _ _ h]

theorem reg_bump48_ne (d : Dev) (h : b ≠ a) (h' : b ≠ a + 4) : (d.bump48 a).reg b = d.reg b := reg_set48_ne _ d h h'

theorem count48_bump48_self (a : Nat) (d : Dev) : (d.bump48 a).count48 a = (d.count48 a + 1) % 2 ^ 48 := count48_set48_self _ _ _

theorem count48_congr {e : Dev} (h : e.reg b = d.reg b) (h' : e.reg (b + 4) = d.reg (b + 4)) : e.count48 b = d.count48 b := by
  rw [count48, count48, h, h']

theorem count48_bump48_apart (d : Dev) (h : a + 4 < b ∨ b + 4 < a) : (d.bump48 a).count48 b = d.count48 b :=
  count48_congr (reg_bump48_ne d (by omega) (by omega)) (reg_bump48_ne d (by omega) (by omega))

theorem count48_bump_apart (d : Dev) (h : a ≠ b) (h' : a ≠ b + 4) : (d.bump a).count48 b = d.count48 b :=
  count48_congr (reg_bump_ne d (Ne.symm h)) (reg_bump_ne d (Ne.symm h'))

@[simp] theorem bump48_rest (a : Nat) (d : Dev) : (d.bump48 a).rest = d.rest := by
  simp only [bump48, bump48By, set48, setReg_rest]

@[simp] theorem bump_rest (a : Nat) (d : Dev) : (d.bump a).rest = d.rest := by
  simp only [bump, bumpBy, setReg_rest]

end

/-- What a command has raised, popped and emptied. -/
def eventBooks (d : Dev) : List Raise × List Nat × Bool := (d.raised, d.popped, d.emptied)

theorem bump48_eventBooks (a : Nat) (d : Dev) : (d.bump48 a).eventBooks = d.eventBooks := by
  simp only [eventBooks, bump48, bump48By, set48, setReg_raised, setReg_popped, setReg_emptied]

theorem bump_eventBooks (a : Nat) (d : Dev) : (d.bump a).eventBooks = d.eventBooks := by
  simp only [eventBooks, bump, bumpBy, setReg_raised, setReg_popped, setReg_emptied]

/-! ### Host lanes (R52, R53, R60, R70) -/

@[simp] theorem updateStreams_rest (d : Dev) : d.updateStreams.rest = d.rest := by
  refine each_keeps _ _ Dev.rest (fun s e => ?_) d
  dsimp only
  split_ifs
  · rfl
  · rw [raise_rest, setOn_rest]
  · rw [raise_rest, setOn_rest]

/-- The unit in progress on a lane that is lost is counted in and discarded (R70). -/
def lossCounted (h : HostLane) (d : Dev) : Dev :=
  match d.streamOfHost h with
  | some s => if (d.host[h]).rxBits = 0 then d else (d.txIn s).txDisc s rHOSTLOSS 1
  | none => d

/-- What a lasting fault of class 0 does to the lane (R54). -/
def lossDegraded (h : HostLane) (d : Dev) : Dev := (d.setOn (hostDegraded h) true).raise Blk.hst 0x03 h

section
variable {h : HostLane}

theorem hostLaneLost_idle (hi : (d.active && d.hostWanted h && !d.hostLost h) = false) : d.hostLaneLost h = d := by
  rw [hostLaneLost, if_pos]
  revert hi
  cases d.active <;> cases d.hostWanted h <;> cases d.hostLost h <;> simp

theorem hostLaneLost_acts (hw : (d.active && d.hostWanted h && !d.hostLost h) = true) :
    d.hostLaneLost h = (((((d.lossCounted h).modHost h fun x => { x with rxBits := 0, fill := 0x7FFFFFFF }).setOn (lostBit h) true).raise
      Blk.hst 0x01 h).charge 0 h (lossDegraded h)).updateStreams := by
  simp only [Bool.and_eq_true, Bool.not_eq_true'] at hw
  obtain ⟨⟨ha, hw⟩, hl⟩ := hw
  rw [hostLaneLost, if_neg (by simp [ha, hw, hl])]
  rfl

theorem hostLaneRestored_idle (hi : (d.active && d.hostLost h) = false) : d.hostLaneRestored h = d := by
  rw [hostLaneRestored, if_pos]
  revert hi
  cases d.active <;> cases d.hostLost h <;> simp

theorem hostLaneRestored_acts (hw : (d.active && d.hostLost h) = true) :
    d.hostLaneRestored h = ((d.setOn (lostBit h) false).raise Blk.hst 0x02 h).updateStreams := by
  obtain ⟨ha, hl⟩ := Bool.and_eq_true_iff.mp hw
  rw [hostLaneRestored, if_neg (by simp [ha, hl])]

section
variable {β : Type} {g : Dev → β} {p : Nat → Prop} (hg : Ignores g p) (hp : ∀ a, p a → a = R.HST_LSTAT)
include hg hp

/-- The ledgers of a stream stand in the block MAP. -/
theorem Ignores.lossCounted (d : Dev) : g (d.lossCounted h) = g d := by
  have hmap (a : Nat) (ha : 0x10050000 ≤ a) : ¬ p a := fun hpa => by
    have : a = 0x10040008 := hp a hpa
    omega
  unfold Dev.lossCounted
  split
  · split
    · rfl
    · unfold txDisc txIn bump48
      rw [hg.setFld _ _ (hmap _ ?_), hg.bumpBy _ _ (hmap _ ?_), hg.bump48By _ _ (hmap _ ?_) (hmap _ ?_),
        hg.setFld _ _ (hmap _ ?_), hg.bump48By _ _ (hmap _ ?_) (hmap _ ?_)]
      all_goals simp only [inflTx, R.MAP_INFL, R.MAP_TXDISC, R.MAP_TX_DISC_LO, R.MAP_TX_CW_IN_LO]; omega
  · rfl

/-- What follows the loss itself: class 0 is charged, and the streams' status follows. -/
theorem Ignores.lossCharged (hd : ∀ e, g (lossDegraded h e) = g e) (d : Dev) :
    g (((d.raise Blk.hst 0x01 h).charge 0 h (lossDegraded h)).updateStreams) = g d := by
  have hw (a : Nat) (ha : faultWord 0 h a) : ¬ p a := fun hpa => by
    cases hp a hpa
    rcases ha with ha | ha | ⟨f, hf, -⟩
    · exact absurd ha (by decide)
    · exact absurd ha (by decide)
    · simp [lastingFlag] at hf
  rw [hg.updateStreams _ fun hm => absurd (hp _ hm) (by decide), hg.charge _ hw hd, hg.raise]

end

theorem hostLost_ignores (k : HostLane) : Ignores (fun e => e.hostLost k) (· = R.HST_LSTAT) :=
  Ignores.on (f := ⟨R.HST_LSTAT, k, 1⟩)

/-- A change of lane h's LOST bit, seen at lane k. -/
theorem hostLost_setOn (b : Bool) (h k : HostLane) (d : Dev) :
    (d.setOn (lostBit h) b).hostLost k = if k = h then b else d.hostLost k := by
  have hh := h.isLt
  have hk := k.isLt
  split
  · next he => rw [he]; exact on_setOn_self _ _ _ (by simp only [lostBit]; omega) rfl
  · next hne =>
    have hv : (h : Nat) ≠ k := fun he => hne (Fin.ext he.symm)
    exact on_setOn_apart b d (by simp only [lostBit]; omega) (by simp only [Fld.apart, lostBit]; omega)

theorem hostLost_degraded (h k : HostLane) (d : Dev) : (d.lossDegraded h).hostLost k = d.hostLost k := by
  have hh := h.isLt
  have hk := k.isLt
  exact on_setOn_apart true d (by simp only [hostDegraded]; omega) (by simp only [Fld.apart, hostDegraded]; omega)

theorem hostLaneLost_hostLost (hw : (d.active && d.hostWanted h && !d.hostLost h) = true) (k : HostLane) :
    (d.hostLaneLost h).hostLost k = if k = h then true else d.hostLost k := by
  have hg := hostLost_ignores k
  have hc := hg.lossCounted (h := h) (fun _ ha => ha) d
  have hs := hg.lossCharged (h := h) (fun _ ha => ha) (hostLost_degraded h k)
  rw [hostLaneLost_acts hw, hs, hostLost_setOn, ← hc]
  rfl

theorem hostLaneLost_host (hw : (d.active && d.hostWanted h && !d.hostLost h) = true) :
    ((d.hostLaneLost h).host[h]).rxBits = 0 ∧ ((d.hostLaneLost h).host[h]).fill = 0x7FFFFFFF := by
  have hg : Ignores (fun e : Dev => e.host) fun _ => False := ⟨fun _ _ _ _ => rfl, fun _ _ => rfl, fun _ _ _ _ => rfl⟩
  have hs := hg.lossCharged (h := h) (fun _ hf => hf.elim) fun _ => rfl
  rw [hostLaneLost_acts hw, hs, setOn_host, modHost]
  simp

theorem hostLaneLost_mem (hw : (d.active && d.hostWanted h && !d.hostLost h) = true) : (d.hostLaneLost h).mem = d.mem := by
  have hg : Ignores (fun e : Dev => e.mem) fun _ => False := ⟨fun _ _ _ _ => rfl, fun _ _ => rfl, fun _ _ _ _ => rfl⟩
  have hc := hg.lossCounted (h := h) (fun _ hf => hf.elim) d
  have hs := hg.lossCharged (h := h) (fun _ hf => hf.elim) fun _ => rfl
  rw [hostLaneLost_acts hw, hs, setOn_mem, modHost_mem, hc]

theorem hostLaneRestored_hostLost (hw : (d.active && d.hostLost h) = true) (k : HostLane) :
    (d.hostLaneRestored h).hostLost k = if k = h then false else d.hostLost k := by
  have hg := hostLost_ignores k
  rw [hostLaneRestored_acts hw, hg.updateStreams _ (by decide), hg.raise, hostLost_setOn]

theorem hostLaneRestored_reg (hw : (d.active && d.hostLost h) = true) {a : Nat} (hl : a ≠ R.HST_LSTAT) (hm : a ≠ R.MAP_STAT) :
    (d.hostLaneRestored h).reg a = d.reg a := by
  have hg := Ignores.reg (a := a)
  rw [hostLaneRestored_acts hw, hg.updateStreams _ (Ne.symm hm), hg.raise, hg.setOn _ _ (Ne.symm hl)]

theorem hostLaneRestored_rest (hw : (d.active && d.hostLost h) = true) : (d.hostLaneRestored h).rest = d.rest := by
  rw [hostLaneRestored_acts hw, updateStreams_rest, raise_rest, setOn_rest]

end

/-! ### Delineation (R67, R69) -/

section
variable {t : Stream}

theorem markerSet_invalid (pos : List Nat) (ha : d.active = true) (ht : t.val < d.streamCount) :
    d.markerSet t false pos =
      let e : Dev := { d with streams := d.streams.set t ⟨0, min 4 (d.streams[t].invalid + 1)⟩ }
      if d.on (fecLock t) ∧ 3 ≤ d.streams[t].invalid then e.setOn (fecLock t) false else e := by
  have h4 (k : Nat) : 4 ≤ min 4 (k + 1) ↔ 3 ≤ k := by omega
  rw [markerSet, if_neg (by simp [ha]; omega)]
  simp [h4]

theorem markerSet_valid (pos : List Nat) (ha : d.active = true) (ht : t.val < d.streamCount) :
    d.markerSet t true pos =
      let e : Dev := { d with streams := d.streams.set t ⟨min 2 (d.streams[t].valid + 1), 0⟩ }
      if d.on (fecLock t) ∨ d.streams[t].valid = 0 then e
      else (e.setOn (fecLock t) true).each ((d.streamHosts t).zip pos) fun p d => d.realign p.1 p.2 := by
  have h2 (k : Nat) : min 2 (k + 1) < 2 ↔ k = 0 := by omega
  rw [markerSet, if_neg (by simp [ha]; omega)]
  simp [h2]
  rfl

/-- Taking a boundary changes the host lane alone (R69). -/
theorem each_realign_rest (l : List (HostLane × Nat)) {d e : Dev} (h : d.rest = e.rest) :
    (d.each l fun p d => d.realign p.1 p.2).rest = (e.each l fun p d => d.realign p.1 p.2).rest := by
  induction l generalizing d e with
  | nil => exact h
  | cons p l ih => exact ih (by simp only [realign, modHost_rest, h])

end

/-! ### The monitor decoder (R71 to R74) -/

section
variable {t : Stream} {word : List (BitVec 10 × HostLane)} {hs : List HostLane}

/-- The corrected symbols are counted for the host lanes that carried them. -/
def symbolsCounted (hs : List HostLane) (d : Dev) : Dev := d.each hs fun h d => d.bump48 (R.FEC_SYM_LO h)

theorem symbolsCounted_nil (d : Dev) : d.symbolsCounted [] = d := rfl

theorem symbolsCounted_cons (h : HostLane) (hs : List HostLane) (d : Dev) :
    d.symbolsCounted (h :: hs) = (d.bump48 (R.FEC_SYM_LO h)).symbolsCounted hs := by
  rw [symbolsCounted, each, List.foldl_cons, symbolsCounted, each]

theorem symbolsCounted_rest (hs : List HostLane) (d : Dev) : (d.symbolsCounted hs).rest = d.rest :=
  each_keeps _ _ Dev.rest (fun _ e => bump48_rest _ e) d

theorem symbolsCounted_eventBooks (hs : List HostLane) (d : Dev) : (d.symbolsCounted hs).eventBooks = d.eventBooks :=
  each_keeps _ _ eventBooks (fun _ e => bump48_eventBooks _ e) d

theorem symbolsCounted_reg {a : Nat} (h : ∀ k ∈ hs, a ≠ R.FEC_SYM_LO k ∧ a ≠ R.FEC_SYM_LO k + 4) (d : Dev) :
    (d.symbolsCounted hs).reg a = d.reg a := by
  induction hs generalizing d with
  | nil => rw [symbolsCounted_nil]
  | cons k hs ih =>
    obtain ⟨⟨hlow, hhigh⟩, hrest⟩ := List.forall_mem_cons.mp h
    rw [symbolsCounted_cons, ih hrest, reg_bump48_ne d hlow hhigh]

/-- The symbols' counters stand below the streams'. -/
theorem symbolsCounted_above {a : Nat} (h : 0x10061000 ≤ a) (hs : List HostLane) (d : Dev) :
    (d.symbolsCounted hs).reg a = d.reg a := by
  refine symbolsCounted_reg (fun k _ => ?_) d
  have := k.isLt
  simp only [R.FEC_SYM_LO]
  omega

theorem symbolsCounted_count (h : HostLane) (hs : List HostLane) (d : Dev) :
    (d.symbolsCounted hs).count48 (R.FEC_SYM_LO h) = (d.count48 (R.FEC_SYM_LO h) + hs.count h) % 2 ^ 48 := by
  induction hs generalizing d with
  | nil => rw [symbolsCounted_nil, List.count_nil, Nat.add_zero, Nat.mod_eq_of_lt (count48_lt _ d)]
  | cons k hs ih =>
    rw [symbolsCounted_cons, ih, List.count_cons]
    by_cases hk : k = h
    · rw [hk, count48_bump48_self, if_pos (beq_self_eq_true h)]
      omega
    · have hv : (k : Nat) ≠ h := fun he => hk (Fin.ext he)
      rw [count48_bump48_apart d (by simp only [R.FEC_SYM_LO]; omega), if_neg (by simpa using hk), Nat.add_zero]

/-- A codeword is decoded: in ACTIVE, with marker lock and the monitor enabled (R71). -/
def decodes (t : Stream) (d : Dev) : Bool := d.active && d.on (fecLock t) && d.lvOn ⟨R.FEC_CFG, t, 1⟩

theorem monitorDecode_idle (h : d.decodes t = false) : d.monitorDecode t word = d := by
  rw [monitorDecode, if_pos]
  revert h
  unfold decodes
  cases d.active <;> cases d.on (fecLock t) <;> cases d.lvOn ⟨R.FEC_CFG, t, 1⟩ <;> simp

theorem monitorDecode_corrected (h : d.decodes t = true) (hw : correctedHosts word = some hs) (hl : hs.length ≤ 15) :
    d.monitorDecode t word = ((d.bump48 (R.FEC_CW_LO t)).bump (R.FEC_BIN t hs.length)).symbolsCounted hs := by
  simp only [decodes, Bool.and_eq_true] at h
  obtain ⟨⟨ha, hl'⟩, hc⟩ := h
  rw [monitorDecode, if_neg (by simp [ha, hl', hc]), hw]
  exact if_pos hl

theorem monitorDecode_uncorrected (h : d.decodes t = true) (hw : ∀ hs, correctedHosts word = some hs → 15 < hs.length) :
    d.monitorDecode t word = (d.bump48 (R.FEC_CW_LO t)).bump48 (R.FEC_UNCORR_LO t) := by
  simp only [decodes, Bool.and_eq_true] at h
  obtain ⟨⟨ha, hl'⟩, hc⟩ := h
  rw [monitorDecode, if_neg (by simp [ha, hl', hc])]
  cases hk : correctedHosts word with
  | none => rfl
  | some hs => exact if_neg (Nat.not_le.mpr (hw hs hk))

end

end Sys2Proof.Machine.Dev

namespace Sys2Proof.Claims

open Sys2Proof.Machine Sys2Proof.Machine.Dev

variable {s : State} {d : Dev}

theorem hostLost_finish {o : List Raise → List Raise} (k : HostLane) : (finish o s d).dev.hostLost k = d.hostLost k :=
  on_finish (f := ⟨R.HST_LSTAT, k, 1⟩) (show R.HST_LSTAT ≠ R.MGT_STAT by decide)

/-- The block MGT, where `MGT.STAT` stands, is above the host side's. -/
theorem reg_commit {a : Nat} (h : a < 0x101B0000) : (commit s d).dev.reg a = d.reg a := finish_reg _ _ _ (Nat.ne_of_lt h)

theorem count48_commit {a : Nat} (h : a + 4 < 0x101B0000) : (commit s d).dev.count48 a = d.count48 a :=
  count48_congr (reg_commit (by omega)) (reg_commit h)

/-- The frame of a command that counts. -/
theorem frame_counted {as : List Nat} (hs : s.dev.settled = true) (hk : ∀ a, a ∉ as → d.reg a = s.dev.reg a)
    (hr : d.rest = s.dev.rest) (hb : d.eventBooks = s.dev.eventBooks) : Frame as s.dev [] s (commit s d) := by
  simp only [eventBooks, Prod.mk.injEq] at hb
  exact frame_quiet hs rfl hk hr hb.1 hb.2.1 hb.2.2

theorem hostLaneLost_loses (s : State) (h : HostLane) : HostLost s h := by
  intro ha hw hl
  have hact : (s.dev.active && s.dev.hostWanted h && !s.dev.hostLost h) = true := by rw [ha, hw, hl]; rfl
  obtain ⟨hbits, hfill⟩ := hostLaneLost_host hact
  have hhost : (commit s (s.dev.hostLaneLost h)).dev.host = (s.dev.hostLaneLost h).host := finish_keeps Dev.host fun _ => rfl
  refine ⟨_, rfl, ?lost, fun k hk => ?other, ?bits, ?fill, ?mem, rfl⟩
  case lost => exact (hostLost_finish h).trans ((hostLaneLost_hostLost hact h).trans (if_pos rfl))
  case other => exact (hostLost_finish k).trans ((hostLaneLost_hostLost hact k).trans (if_neg hk))
  case bits => exact (congrArg (fun v : Vector HostSt 16 => (v[h]).rxBits) hhost).trans hbits
  case fill => exact (congrArg (fun v : Vector HostSt 16 => (v[h]).fill) hhost).trans hfill
  case mem => exact (finish_keeps Dev.mem fun _ => rfl).trans (hostLaneLost_mem hact)

theorem hostLaneRestored_restores (s : State) (h : HostLane) : HostRestored s h := by
  intro ha hl
  have hact : (s.dev.active && s.dev.hostLost h) = true := by rw [ha, hl]; rfl
  refine ⟨_, rfl, ?found, fun k hk => ?other, kept_finish fun a hm => ?regs, ?rest, rfl⟩
  case found => exact (hostLost_finish h).trans ((hostLaneRestored_hostLost hact h).trans (if_pos rfl))
  case other => exact (hostLost_finish k).trans ((hostLaneRestored_hostLost hact k).trans (if_neg hk))
  case regs =>
    simp only [List.mem_cons, List.not_mem_nil, or_false, not_or] at hm
    exact hostLaneRestored_reg hact hm.1 hm.2
  case rest => exact (finish_rest _ _ _).trans (hostLaneRestored_rest hact)

/-! ### Marker sets -/

theorem exec_alignmentMarkerSet (t : Stream) (valid : Bool) (pos : List Nat) (s : State) :
    exec (.alignmentMarkerSet t valid pos) s = .next (commit s
      (if valid ∧ pos.length ≠ (s.dev.streamHosts t).length then s.dev else s.dev.markerSet t valid pos)) := by
  rfl

theorem exec_markerSet {t : Stream} {valid : Bool} {pos : List Nat} {d : Dev}
    (h : valid = true → pos.length = (s.dev.streamHosts t).length) (hd : s.dev.markerSet t valid pos = d) :
    exec (.alignmentMarkerSet t valid pos) s = .next (commit s d) := by
  rw [exec_alignmentMarkerSet, if_neg fun hv => hv.2 (h hv.1), hd]

/-- A command that changes the delineators' runs alone. -/
theorem frame_streams (hs : s.dev.settled = true) (as : List Nat) (x : Vector StreamSt 16) :
    Frame as { s.dev with streams := x } [] s (commit s { s.dev with streams := x }) :=
  frame_quiet hs rfl (fun _ _ => rfl) rfl rfl rfl rfl

theorem markerSet_invalidSet (hs : s.dev.settled = true) (t : Stream) (ha : s.dev.active = true) (ht : t.val < s.dev.streamCount) :
    Answers (.alignmentMarkerSet t false []) s fun u =>
      u.dev.on (fecLock t) = (s.dev.on (fecLock t) && decide (s.dev.streams[t].invalid < 3)) ∧
      Frame [R.FEC_STAT] { s.dev with streams := s.dev.streams.set t ⟨0, min 4 (s.dev.streams[t].invalid + 1)⟩ } [] s u := by
  have hst : (fecLock t).addr ≠ R.MGT_STAT := show R.FEC_STAT ≠ R.MGT_STAT by decide
  by_cases h : s.dev.on (fecLock t) = true ∧ 3 ≤ s.dev.streams[t].invalid
  · refine ⟨_, exec_markerSet (by simp) ((markerSet_invalid [] ha ht).trans (if_pos h)), ?_,
      frame_quiet hs rfl (fun a hm => ?_) (setOn_rest _ _ _) rfl rfl rfl⟩
    · rw [commit, on_finish hst, on_setOn_self _ _ _ (show t.val + 1 ≤ 32 by omega) rfl, h.1,
        decide_eq_false (Nat.not_lt.mpr h.2)]
      rfl
    · rw [reg_setOn_ne _ _ _ (List.ne_of_not_mem_cons hm)]
      rfl
  · refine ⟨_, exec_markerSet (by simp) ((markerSet_invalid [] ha ht).trans (if_neg h)), ?_, frame_streams hs _ _⟩
    rw [commit, on_finish hst]
    show s.dev.on (fecLock t) = _
    cases hl : s.dev.on (fecLock t) with
    | false => rfl
    | true => rw [decide_eq_true (Nat.lt_of_not_le fun h3 => h ⟨hl, h3⟩)]; rfl

theorem markerSet_judged (hs : s.dev.settled = true) (t : Stream) : MarkerSet s t := by
  intro ha ht
  refine ⟨markerSet_invalidSet hs t ha ht, fun hl pos hp => ?locked, fun hl hv pos hp => ?opens⟩
  case locked =>
    exact ⟨_, exec_markerSet (fun _ => hp) ((markerSet_valid pos ha ht).trans (if_pos (.inl hl))), frame_streams hs _ _⟩
  case opens =>
    have he := (markerSet_valid pos ha ht).trans (if_pos (.inr hv))
    rw [hv] at he
    exact ⟨_, exec_markerSet (fun _ => hp) he, frame_streams hs _ _⟩

theorem markerSet_locks (hs : s.dev.settled = true) (t : Stream) (pos : List Nat) : MarkerLocks s t pos := by
  intro ha ht hl hv hp
  have h2 : min 2 (s.dev.streams[t].valid + 1) = 2 := Nat.min_eq_left (Nat.succ_le_succ hv)
  have hn : ¬ (s.dev.on (fecLock t) = true ∨ s.dev.streams[t].valid = 0) := by
    rintro (h | h)
    · exact absurd (h.symm.trans hl) (by decide)
    · exact absurd (h ▸ hv) (by decide)
  have hk {β : Type} (g : Dev → β) (h : ∀ k f e, g (modHost k f e) = g e) (l : List (HostLane × Nat)) (e : Dev) :
      g (e.each l fun p d => d.realign p.1 p.2) = g e := each_keeps _ _ g (fun _ _ => h _ _ _) e
  have he := (markerSet_valid pos ha ht).trans (if_neg hn)
  rw [h2] at he
  refine ⟨_, exec_markerSet (fun _ => hp) he, ?lock,
    frame_quiet hs rfl (fun a hm => ?regs) (each_realign_rest _ (setOn_rest _ _ _)) ?_ ?_ ?_⟩
  case lock =>
    rw [commit, on_finish (show R.FEC_STAT ≠ R.MGT_STAT by decide), hk (fun e => e.on (fecLock t)) (fun _ _ _ => rfl)]
    exact on_setOn_self _ _ _ (show t.val + 1 ≤ 32 by omega) rfl
  case regs =>
    rw [hk (fun e => e.reg a) (fun _ _ _ => rfl), reg_setOn_ne _ _ _ (List.ne_of_not_mem_cons hm)]
    rfl
  · rw [hk Dev.raised (fun _ _ _ => rfl)]; rfl
  · rw [hk Dev.popped (fun _ _ _ => rfl)]; rfl
  · rw [hk Dev.emptied (fun _ _ _ => rfl)]; rfl

/-! ### The monitor -/

section
variable {t : Stream} {word : List (BitVec 10 × HostLane)}

theorem exec_hostCodewordDecode (t : Stream) (word : List (BitVec 10 × HostLane)) (s : State) :
    exec (.hostCodewordDecode t word) s = .next (commit s (s.dev.monitorDecode t word)) := by
  rfl

theorem monitorDecode_correctedWord (hs : s.dev.settled = true) (hd : s.dev.decodes t = true) {l : List HostLane}
    (hw : correctedHosts word = some l) (hl : l.length ≤ 15) : Answers (.hostCodewordDecode t word) s fun u =>
      u.dev.count48 (R.FEC_CW_LO t) = (s.dev.count48 (R.FEC_CW_LO t) + 1) % 2 ^ 48 ∧
      u.dev.reg (R.FEC_BIN t l.length) = s.dev.reg (R.FEC_BIN t l.length) + 1 ∧
      (∀ h : HostLane, u.dev.count48 (R.FEC_SYM_LO h) = (s.dev.count48 (R.FEC_SYM_LO h) + l.count h) % 2 ^ 48) ∧
      Frame ([R.FEC_CW_LO t, R.FEC_CW_LO t + 4, R.FEC_BIN t l.length] ++
        l.flatMap fun h => [R.FEC_SYM_LO h, R.FEC_SYM_LO h + 4]) s.dev [] s u := by
  have ht := t.isLt
  have hcw : 0x10061000 ≤ R.FEC_CW_LO t ∧ R.FEC_CW_LO t + 4 < R.FEC_BIN t l.length ∧ R.FEC_BIN t l.length < 0x10062000 := by
    simp only [R.FEC_CW_LO, R.FEC_BIN]; omega
  have he := exec_hostCodewordDecode t word s
  rw [monitorDecode_corrected hd hw hl] at he
  refine ⟨_, he, ?codewords, ?bin, fun h => ?symbols, frame_counted hs (fun a hm => ?regs) ?rest ?books⟩
  case codewords =>
    rw [count48_commit (by omega), count48_congr (symbolsCounted_above (by omega) _ _) (symbolsCounted_above (by omega) _ _),
      count48_bump_apart _ (by omega) (by omega), count48_bump48_self]
  case bin =>
    rw [reg_commit (by omega), symbolsCounted_above (by omega), reg_bump, if_pos rfl, reg_bump48_ne _ (by omega) (by omega)]
  case symbols =>
    have hsym : R.FEC_SYM_LO h < 0x10060180 := by have := h.isLt; simp only [R.FEC_SYM_LO]; omega
    rw [count48_commit (by omega), symbolsCounted_count, count48_bump_apart _ (by omega) (by omega),
      count48_bump48_apart _ (by omega)]
  case regs =>
    simp only [List.mem_append, List.mem_cons, List.not_mem_nil, or_false, not_or] at hm
    obtain ⟨⟨hlow, hhigh, hbin⟩, hsym⟩ := hm
    have happart : ∀ k ∈ l, a ≠ R.FEC_SYM_LO k ∧ a ≠ R.FEC_SYM_LO k + 4 := by simpa using hsym
    rw [symbolsCounted_reg happart, reg_bump_ne _ hbin, reg_bump48_ne _ hlow hhigh]
  case rest => rw [symbolsCounted_rest, bump_rest, bump48_rest]
  case books => rw [symbolsCounted_eventBooks, bump_eventBooks, bump48_eventBooks]

theorem monitorDecode_uncorrectedWord (hs : s.dev.settled = true) (hd : s.dev.decodes t = true)
    (hw : ∀ l, correctedHosts word = some l → 15 < l.length) : Answers (.hostCodewordDecode t word) s fun u =>
      u.dev.count48 (R.FEC_CW_LO t) = (s.dev.count48 (R.FEC_CW_LO t) + 1) % 2 ^ 48 ∧
      u.dev.count48 (R.FEC_UNCORR_LO t) = (s.dev.count48 (R.FEC_UNCORR_LO t) + 1) % 2 ^ 48 ∧
      Frame [R.FEC_CW_LO t, R.FEC_CW_LO t + 4, R.FEC_UNCORR_LO t, R.FEC_UNCORR_LO t + 4] s.dev [] s u := by
  have ht := t.isLt
  have hcw : R.FEC_CW_LO t + 4 < R.FEC_UNCORR_LO t ∧ R.FEC_UNCORR_LO t < 0x10062000 := by
    simp only [R.FEC_CW_LO, R.FEC_UNCORR_LO]; omega
  have he := exec_hostCodewordDecode t word s
  rw [monitorDecode_uncorrected hd hw] at he
  refine ⟨_, he, ?codewords, ?uncorrected, frame_counted hs (fun a hm => ?regs) ?rest ?books⟩
  case codewords => rw [count48_commit (by omega), count48_bump48_apart _ (by omega), count48_bump48_self]
  case uncorrected => rw [count48_commit (by omega), count48_bump48_self, count48_bump48_apart _ (by omega)]
  case regs =>
    simp only [List.mem_cons, List.not_mem_nil, or_false, not_or] at hm
    obtain ⟨hlow, hhigh, hlow', hhigh'⟩ := hm
    rw [reg_bump48_ne _ hlow' hhigh', reg_bump48_ne _ hlow hhigh]
  case rest => rw [bump48_rest, bump48_rest]
  case books => rw [bump48_eventBooks, bump48_eventBooks]

theorem monitorDecode_counts (hs : s.dev.settled = true) (t : Stream) (word : List (BitVec 10 × HostLane)) :
    MonitorCounts s t word := by
  intro ha hl hc
  have hd : s.dev.decodes t = true := by rw [decodes, ha, hl, hc]; rfl
  exact ⟨fun l hw hn => monitorDecode_correctedWord hs hd hw hn, fun hw => monitorDecode_uncorrectedWord hs hd hw⟩

/-! ### Where the commands act -/

theorem decode_counted (hs : s.dev.settled = true) (hd : s.dev.decodes t = true) : Answers (.hostCodewordDecode t word) s fun u =>
    u.dev.count48 (R.FEC_CW_LO t) = (s.dev.count48 (R.FEC_CW_LO t) + 1) % 2 ^ 48 ∧ u.dev.clk = s.dev.clk ∧
    u.dev.mem = s.dev.mem ∧ u.pending = s.pending := by
  have hk {as : List Nat} {u : State} (hf : Frame as s.dev [] s u) :
      u.dev.clk = s.dev.clk ∧ u.dev.mem = s.dev.mem ∧ u.pending = s.pending :=
    ⟨show u.dev.rest.clk = s.dev.rest.clk by rw [hf.rest], show u.dev.rest.mem = s.dev.rest.mem by rw [hf.rest], hf.pending⟩
  by_cases hw : ∃ l, correctedHosts word = some l ∧ l.length ≤ 15
  · obtain ⟨l, hw, hl⟩ := hw
    obtain ⟨u, he, hcw, -, -, hf⟩ := monitorDecode_correctedWord hs hd hw hl
    exact ⟨u, he, hcw, hk hf⟩
  · obtain ⟨u, he, hcw, -, hf⟩ := monitorDecode_uncorrectedWord hs hd fun l hl => Nat.lt_of_not_le fun h => hw ⟨l, hl, h⟩
    exact ⟨u, he, hcw, hk hf⟩

end

theorem hostCommands_end (hs : s.dev.settled = true) (h : HostLane) (t : Stream) (word : List (BitVec 10 × HostLane)) :
    HostCommandsEnd s h t word := by
  refine ⟨?_, ?_, ?_⟩
  · split
    · next hw =>
      obtain ⟨⟨ha, hwanted⟩, hl⟩ : (s.dev.active = true ∧ s.dev.hostWanted h = true) ∧ s.dev.hostLost h = false := by
        simpa using hw
      obtain ⟨u, he, hlost, -, hbits, -⟩ := hostLaneLost_loses s h ha hwanted hl
      exact ⟨u, he, hlost, hbits⟩
    · next hw => exact ⟨_, rfl, by rw [hostLaneLost_idle (by simpa using hw)]⟩
  · split
    · next hw =>
      obtain ⟨ha, hl⟩ := Bool.and_eq_true_iff.mp hw
      obtain ⟨u, he, hfound, -⟩ := hostLaneRestored_restores s h ha hl
      exact ⟨u, he, hfound⟩
    · next hw => exact ⟨_, rfl, by rw [hostLaneRestored_idle (by simpa using hw)]⟩
  · split
    · next hd => exact decode_counted hs hd
    · next hd => exact ⟨_, rfl, by rw [monitorDecode_idle (Bool.eq_false_of_not_eq_true hd)]⟩

/-- Settles O21: loss and return by what the LOST bits see of them; a marker set by whether it completes a run; a codeword by what
its decoder makes of it. -/
theorem hostLanesFollow : Obligations.HostLanesFollow := by
  intro s hs
  exact ⟨fun h => ⟨hostLaneLost_loses s h, hostLaneRestored_restores s h⟩,
    fun t => ⟨markerSet_judged hs t, markerSet_locks hs t⟩, monitorDecode_counts hs, hostCommands_end hs⟩

end Sys2Proof.Claims
end

section
/-! SUPPORT. A write that is performed, of any width and of an alias word (R510, R511, R515, R520, R522); and the words whose write has no
effect beyond the word itself, block by block. -/

namespace Sys2Proof.Machine

theorem rowAt_of_place {a : Nat} {r : RegRow} (h : place a = some (.live r)) : rowAt a = some r := by
  cases hr : rowAt a with
  | none =>
    simp only [place, regRow_none hr] at h
    generalize regRow (a - 0x8000) = p at h
    cases p with
    | none =>
      simp only [ite_self] at h
      split_ifs at h <;> simp at h
    | some q =>
      simp only at h
      split_ifs at h <;> simp at h
  | some q =>
    obtain ⟨i, j, hq⟩ := regRow_some hr
    simp only [place, hq] at h
    generalize blockOf a = b at h
    split_ifs at h <;> simp at h
    rw [h]

/-- An access to a register word, inside its alignment. -/
theorem busTarget_word {a : Nat} (h : a < 0x20000000) : busTarget a = (a - a % 4, none) := by
  unfold busTarget
  rw [if_neg (by simp only [isAlias, decide_eq_true_eq]; omega)]

/-- The alias word of bit b of a register (R520). -/
theorem busTarget_alias {reg b : Nat} (h : 0x10000000 ≤ reg) (h' : reg < 0x10200000) (h4 : reg % 4 = 0) (hb : b < 32) :
    busTarget (0x20000000 + (reg - 0x10000000) * 32 + b * 4) = (reg, some b) := by
  unfold busTarget
  rw [if_pos (by simp only [isAlias, decide_eq_true_eq]; omega)]
  congr 1
  · omega
  · congr 1
    omega

namespace Dev

variable {d : Dev} {m : Master} {a : Nat} {w : Width} {v : Word} {r : RegRow}

/-! ### The write as it reaches its word -/

/-- No SRAM lies above the register region's first address. -/
theorem debugWay_above (h : 0x10000000 ≤ a) : debugWay m a = none := by
  unfold debugWay
  split
  · cases hk : debugSram a with
    | none => rfl
    | some k =>
      have := Claims.memOf_bound (Claims.debugSram_memOf hk)
      omega
  · rfl

/-- The write of v by master m at address a, as its word takes it: an alias word's bit, or the bytes that the access covers. -/
def wrOf (m : Master) (a : Nat) (w : Width) (v : Word) : Option Nat → Wr
  | some b => ⟨m, BitVec.ofNat 32 (2 ^ b), BitVec.ofNat 32 ((v.getLsbD 0).toNat * 2 ^ b), v.getLsbD 0, none, none⟩
  | none => ⟨m, coverMask a w, v <<< (8 * (a % 4)), a % 4 == 0, none, none⟩

theorem judge_lands {reg : Nat} {bit : Option Nat} (hw : a % widthBytes w = 0) (hl : isAlias a = true → w = .word)
    (ht : busTarget a = (reg, bit)) (hp : place reg = some (.live r)) (hg : r.guarded = true → d.trusted m = true)
    (hd : d.domOn (domainOf reg) = true) : d.judge m a w false = (.done, d.touch (domainOf reg)) := by
  have hfit : ¬ (a % widthBytes w ≠ 0 ∨ (isAlias a ∧ w ≠ .word)) := by
    rintro (h | ⟨h, hn⟩)
    · exact h hw
    · exact hn (hl h)
  have hadmit : ((r.guarded && !d.trusted m) || (m == .mesh && false && (Place.live r).queue && !isAlias a)) = false := by
    cases hr : r.guarded with
    | false => simp
    | true => simp [hg hr]
  unfold judge
  rw [if_neg hfit, ht]
  simp only [hp, Place.guarded, hadmit, hd, Bool.false_eq_true, if_false, if_true]

theorem busWrite_lands {reg : Nat} {bit : Option Nat} (hm : d.domOn .mgt = true) (hw : a % widthBytes w = 0)
    (hl : isAlias a = true → w = .word) (ha : 0x10000000 ≤ a) (ht : busTarget a = (reg, bit)) (hp : place reg = some (.live r))
    (hg : r.guarded = true → d.trusted m = true) (hd : d.domOn (domainOf reg) = true) :
    d.busWrite m a w v = ((d.touch (domainOf reg)).busStore (wrOf m a w v bit) reg r).returned .done 0 := by
  unfold busWrite busWriteAt
  simp only [when_busUp_on hm, debugWay_above ha, hm, judge_lands hw hl ht hp hg hd, ht, hp, Bool.not_true, Bool.false_eq_true,
    if_false]
  cases bit <;> rfl

/-! ### Only one word changes -/

/-- From d to e the register word a takes v, and nothing else changes. -/
structure OnlyWord (a : Nat) (v : Word) (d e : Dev) : Prop where
  word  : e.reg a = v
  other : ∀ b, b ≠ a → e.reg b = d.reg b
  rest  : e.rest = d.rest
  books : e.eventBooks = d.eventBooks

theorem onlyWord_setReg (a : Nat) (v : Word) (d : Dev) : OnlyWord a v d (d.setReg a v) where
  word := reg_setReg_self a v d
  other _ h := reg_setReg_ne v d h
  rest := setReg_rest a v d
  books := by simp only [eventBooks, setReg_raised, setReg_popped, setReg_emptied]

theorem onlyWord_same (h : d.reg a = v) : OnlyWord a v d d := ⟨h, fun _ _ => rfl, rfl, rfl⟩

/-! ### Words that start nothing -/

open Claims (plainWord)

/-- A word whose write starts something is another word. -/
theorem ne_of_plain {c : Nat} (hp : plainWord a = true) (hc : plainWord c = false) : a ≠ c := by
  rintro rfl
  exact absurd (hp.symm.trans hc) (by decide)

/-- The registers of a lane where results of a calibration item stand. -/
def ResultOffset (l : Nat) : Prop := l = 0x340 ∨ (0x400 ≤ l ∧ l < 0x500) ∨ l = 0x61C ∨ (0x800 ≤ l ∧ l < 0xC00)

theorem adcTrim_offset (n : Lane) {c u : Nat} (hc : c < 2) (hu : u < 65) :
    ∃ l, R.LANE_ADC_TRIM n c u = 0x10110000 + n * 0x1000 + l ∧ ResultOffset l :=
  ⟨0x800 + c * 0x200 + u * 4, by simp only [R.LANE_ADC_TRIM]; omega, by unfold ResultOffset; omega⟩

theorem calFields_offset {n : Lane} {i : Fin 4} {f : Fld × (Nat × Nat) × Int} (hf : f ∈ calFields n i) :
    ∃ l, f.1.addr = 0x10110000 + n * 0x1000 + l ∧ ResultOffset l := by
  match i with
  | 0 =>
    simp only [calFields, List.mem_flatMap, List.mem_map, List.mem_range, List.mem_cons, List.not_mem_nil, or_false] at hf
    obtain ⟨_, ⟨c, hc, u, hu, rfl⟩, rfl | rfl⟩ := hf <;> exact adcTrim_offset n (by omega) hu
  | 1 =>
    simp only [calFields, List.mem_append, List.mem_flatMap, List.mem_map, List.mem_range, List.mem_cons, List.not_mem_nil, or_false] at hf
    obtain ⟨_, ⟨c, hc, u, hu, rfl⟩, rfl⟩ | rfl := hf
    · exact adcTrim_offset n (by omega) hu
    · exact ⟨0x61C, by simp only [R.LANE_ADC_CSKEW]; omega, by simp [ResultOffset]⟩
  | 2 =>
    simp only [calFields, List.mem_cons, List.not_mem_nil, or_false] at hf
    obtain rfl | rfl | rfl := hf <;> exact ⟨0x340, by simp only [R.LANE_DAC_TRIM]; omega, by simp [ResultOffset]⟩
  | 3 =>
    simp only [calFields, List.mem_flatMap, List.mem_map, List.mem_range] at hf
    obtain ⟨w, hw, k, hk, rfl⟩ := hf
    exact ⟨0x400 + w * 4, by simp only [R.LANE_NLT]; omega, by unfold ResultOffset; omega⟩

/-- A word of no ribbon and of no journal, and no high word of a counter, holds what it reads. -/
theorem heldWord_reg (hb : ribbonPlace a = none) (hj : ¬ (0x101C0100 ≤ a ∧ a < 0x101C0200))
    (hc : ¬ (0x101A0040 ≤ a ∧ a < 0x101A00C0 ∧ a % 16 = 8)) : d.heldWord m a = d.reg a := by
  have hn : d.jnlPlace a = none := if_neg hj
  simp only [heldWord, hb, hn]
  exact if_neg hc

section
variable (hp : plainWord a = true)
include hp

theorem plain_notJournal : ¬ (0x101C0100 ≤ a ∧ a < 0x101C0200) := by
  rintro ⟨h1, h2⟩
  have hb : blockOf a = 28 := by simp only [blockOf]; omega
  simp [plainWord, hb] at hp
  omega

theorem plain_notCounters : ¬ (0x101A0000 ≤ a ∧ a < 0x101B0000) := by
  rintro ⟨h1, h2⟩
  have hb : blockOf a = 26 := by simp only [blockOf]; omega
  simp [plainWord, hb] at hp

theorem plain_notRibbon : ribbonPlace a = none := by
  unfold ribbonPlace
  refine if_neg fun h => ?_
  have hb : blockOf a = 18 := by simp only [blockOf]; omega
  simp [plainWord, hb] at hp
  omega

theorem plain_jnlPlace : d.jnlPlace a = none := if_neg (plain_notJournal hp)

theorem plain_heldWord : d.heldWord m a = d.reg a :=
  heldWord_reg (plain_notRibbon hp) (plain_notJournal hp) fun h => plain_notCounters hp (by omega)

/-! ### Each block's store of such a word -/

section
variable {new t : Word} {x : Wr}

theorem writeSys_plain : d.writeSys a new t x = d.setReg a new := by
  simp only [writeSys, if_neg (ne_of_plain hp (c := R.SYS_RT) (by decide)), if_neg (ne_of_plain hp (c := R.SYS_WDT_KICK) (by decide))]

theorem writePwr_plain : d.writePwr a new t = d.setReg a new := by
  simp only [writePwr, if_neg (ne_of_plain hp (c := R.PWR_CTRL) (by decide)),
    if_neg (ne_of_plain hp (c := R.PWR_WAKE_TX) (by decide)), if_neg (ne_of_plain hp (c := R.PWR_RTC_CTRL) (by decide)),
    if_neg (ne_of_plain hp (c := R.PWR_AVS_VSET) (by decide))]

theorem writeClk_plain : d.writeClk a new t = d.setReg a new := if_neg (ne_of_plain hp (by decide))

theorem writeSlc_plain {s : Nat} (hb : 8 ≤ blockOf a ∧ blockOf a ≤ 16) : d.writeSlc s (a % 0x10000) a new = d.setReg a new := by
  obtain ⟨h1, h2⟩ := hb
  have ho : a % 0x10000 < 0x10 := by
    revert hp
    generalize hb : blockOf a = b at h1 h2
    interval_cases b <;> simp [plainWord, hb]
  exact if_neg (by omega)

theorem writeBrl_plain : d.writeBrl a new = d.setReg a new := by
  have hn : ∀ n : Lane, plainWord (R.BRL_NEXT n) = false := by decide
  simp only [writeBrl, plain_notRibbon hp, if_neg (ne_of_plain hp (hn _))]

theorem writeCal_plain : d.writeCal a new t = d.setReg a new := by
  have hn : ∀ n : Lane, plainWord (R.CAL_CMD n) = false := by decide
  simp only [writeCal, if_neg (ne_of_plain hp (c := R.CAL_CAP_CTRL) (by decide)), if_neg (ne_of_plain hp (hn _))]

theorem writeSpr_plain : d.writeSpr a new t = d.setReg a new := by
  simp only [writeSpr, if_neg (ne_of_plain hp (c := R.SPR_CTRL) (by decide)), if_neg (ne_of_plain hp (c := R.SPR_RET) (by decide))]

theorem writeMsh_plain (ht : t.getLsbD 31 = false) : d.writeMsh a new t x = d.setReg a new := by
  simp only [writeMsh, if_neg (ne_of_plain hp (c := R.MSH_TX_CTRL) (by decide)),
    if_neg (ne_of_plain hp (c := R.MSH_RX_CTRL) (by decide)), ht, Bool.false_eq_true, if_false]

theorem writeHkp_plain : d.writeHkp a new t = d.setReg a new := by
  have hu : ¬ (a = R.HKP_UREQ ∧ t.getLsbD 31 = true) := fun h => ne_of_plain hp (c := R.HKP_UREQ) (by decide) h.1
  simp only [writeHkp, if_neg (ne_of_plain hp (c := R.HKP_BCTRL) (by decide)),
    if_neg (ne_of_plain hp (c := R.HKP_SEQ_CFG) (by decide)), if_neg hu]

theorem writeEcc_plain : d.writeEcc a new t x = d.setReg a new := by
  simp only [writeEcc, if_neg (ne_of_plain hp (c := R.ECC_REMAP_REQ) (by decide)),
    if_neg (ne_of_plain hp (c := R.ECC_SCRUB_CTRL) (by decide))]

theorem writeBst_plain : d.writeBst a new t = d.setReg a new := by
  have hu : ¬ (a = R.BST_MCMD ∧ t.getLsbD 31 = true) := fun h => ne_of_plain hp (c := R.BST_MCMD) (by decide) h.1
  simp only [writeBst, if_neg (ne_of_plain hp (c := R.BST_FULL) (by decide)), if_neg hu]

theorem writeMgt_plain : d.writeMgt a new t = d.setReg a new := if_neg (ne_of_plain hp (by decide))

theorem writeSec_plain : d.writeSec a new t x = d.setReg a new := by
  simp only [writeSec, if_neg (ne_of_plain hp (c := R.SEC_CTRL) (by decide)), if_neg (ne_of_plain hp (c := R.SEC_ATT_CTRL) (by decide)),
    if_neg (ne_of_plain hp (c := R.SEC_JNL_CMD) (by decide)), plain_jnlPlace hp,
    if_neg (ne_of_plain hp (c := R.SEC_LC_REQ) (by decide)), if_neg (ne_of_plain hp (c := R.SEC_VCMD) (by decide)),
    if_neg (ne_of_plain hp (c := R.SEC_ENROL) (by decide)), ite_self]

theorem writeNvm_plain : d.writeNvm a new t = d.setReg a new := by
  simp only [writeNvm, if_neg (ne_of_plain hp (c := R.NVM_CMD) (by decide)), if_neg (ne_of_plain hp (c := R.NVM_WBUF 31) (by decide))]

theorem writeFlt_plain (hb : blockOf a = 30) : d.writeFlt a new = d.setReg a new := by
  have ha : ¬ a < 0x101E0034 := by
    simp [plainWord, hb] at hp
    simp only [blockOf] at hb
    omega
  exact if_neg ha

/-- The words of a lane below the presets that start nothing. -/
theorem plain_laneOffset {n : Lane} {l : Nat} (ha : a = 0x10110000 + n * 0x1000 + l) (hl : l < 0xC00) :
    l ∈ [0x100, 0x200, 0x208, 0x304, 0x308, 0x30C, 0x500, 0x504, 0x600, 0x608, 0x610, 0x700, 0x704, 0x708, 0x70C, 0x710] := by
  have hn := n.isLt
  have hb : blockOf a = 17 := by simp only [blockOf]; omega
  have ho : a % 0x1000 = l := by omega
  have hge : ¬ 0xC00 ≤ l := by omega
  simpa [plainWord, hb, ho, hge] using hp

theorem resultWritten_plain {n : Lane} (d : Dev) : d.resultWritten n a x = d := by
  refine each_keeps _ _ id (fun i e => if_neg fun h => ?_) d
  obtain ⟨f, hf, hc⟩ := List.any_eq_true.mp h
  have ha : f.1.addr = a := by simpa using (Bool.and_eq_true_iff.mp hc).1
  obtain ⟨l, hl, hr⟩ := calFields_offset hf
  unfold ResultOffset at hr
  have hw := plain_laneOffset hp (ha.symm.trans hl) (by omega)
  simp at hw
  omega

theorem trimAddr_plain (n : Lane) : trimAddr n a = false := by
  rw [← Bool.not_eq_true]
  intro h
  simp only [trimAddr, R.LANE_ADC_TRIM, R.LANE_ADC_CSKEW, Bool.or_eq_true, decide_eq_true_eq, beq_iff_eq] at h
  have hw := plain_laneOffset hp (n := n) (l := a - (0x10110000 + n * 0x1000)) (by omega) (by omega)
  simp at hw
  omega

theorem writeLane_plain {n : Lane} : d.writeLane n a new t x = d.setReg a new := by
  have hr : ∀ n : Lane, plainWord (R.LANE_ADC_RET n) = false := by decide
  have hc : ∀ n : Lane, plainWord (R.LANE_TX_CFG n) = false := by decide
  have he : ∀ n : Lane, plainWord (R.LANE_EQ_CTRL n) = false := by decide
  simp only [writeLane, if_neg (ne_of_plain hp (hr _)), if_neg (ne_of_plain hp (hc _)), if_neg (ne_of_plain hp (he _)),
    trimAddr_plain hp, Dev.when, Bool.false_eq_true, if_false, resultWritten_plain hp]

end

end

end Dev

end Sys2Proof.Machine
end

section
/-! SUPPORT. The store of a word that starts nothing, whatever its block. -/

namespace Sys2Proof.Machine

open Sys2Proof.Claims (plainWord)

/-- No word of MSH that starts nothing has a trigger at bit 31. -/
theorem plain_mesh_rows : ∀ k < 196, (!plainWord (0x10150000 + 4 * k)
    || (rowAt (0x10150000 + 4 * k)).all fun r => !r.wt.testBit 31) = true := by decide +kernel

namespace Dev

variable {d : Dev} {a : Nat} {r : RegRow} {x : Wr}

/-- What a write leaves in a word that starts nothing (R511, R515). -/
def stored (d : Dev) (a : Nat) (r : RegRow) (x : Wr) : Word :=
  (d.reg a &&& ~~~(x.mask &&& BitVec.ofNat 32 (r.rw ||| r.rb))) ||| (x.data &&& (x.mask &&& BitVec.ofNat 32 (r.rw ||| r.rb)))

@[simp] theorem touch_stored (p : Dom) : (d.touch p).stored a r x = d.stored a r x := by simp only [stored, touch_reg]

theorem plain_mesh_trigger (hp : plainWord a = true) (hr : place a = some (.live r)) (hb : blockOf a = 21) (w : Word) :
    (w &&& BitVec.ofNat 32 r.wt).getLsbD 31 = false := by
  obtain ⟨_, _, h4⟩ := place_bounds hr
  have ho : a % 0x10000 < 0x310 := by
    simp [plainWord, hb] at hp
    omega
  have hk : a = 0x10150000 + 4 * (a % 0x10000 / 4) := by
    simp only [blockOf] at hb
    omega
  have hrow := plain_mesh_rows (a % 0x10000 / 4) (by omega)
  rw [← hk, hp, rowAt_of_place hr] at hrow
  have hw : r.wt.testBit 31 = false := by simpa using hrow
  rw [BitVec.getLsbD_and, BitVec.getLsbD_ofNat, hw, Bool.and_false, Bool.and_false]

theorem busStore_plain (hp : plainWord a = true) (hr : place a = some (.live r))
    (hx : x.mask &&& BitVec.ofNat 32 (r.rw ||| r.rb ||| r.wt) ≠ 0) : d.busStore x a r = d.setReg a (d.stored a r x) := by
  rw [busStore, if_neg hx, plain_heldWord hp, BitVec.and_assoc x.data x.mask (BitVec.ofNat 32 (r.rw ||| r.rb)), ← stored]
  refine ite_eq_iff'.mpr ⟨fun _ => writeSys_plain hp, fun _ => ?_⟩
  refine ite_eq_iff'.mpr ⟨fun _ => writePwr_plain hp, fun _ => ?_⟩
  refine ite_eq_iff'.mpr ⟨fun _ => writeClk_plain hp, fun _ => ?_⟩
  refine ite_eq_iff'.mpr ⟨fun h => absurd hp (by simp [plainWord, h]), fun _ => ?_⟩
  refine ite_eq_iff'.mpr ⟨fun h => writeSlc_plain hp h, fun _ => ?_⟩
  refine ite_eq_iff'.mpr ⟨fun _ => writeLane_plain hp, fun _ => ?_⟩
  refine ite_eq_iff'.mpr ⟨fun _ => writeBrl_plain hp, fun _ => ?_⟩
  refine ite_eq_iff'.mpr ⟨fun _ => writeCal_plain hp, fun _ => ?_⟩
  refine ite_eq_iff'.mpr ⟨fun _ => writeSpr_plain hp, fun _ => ?_⟩
  refine ite_eq_iff'.mpr ⟨fun h => writeMsh_plain hp (plain_mesh_trigger hp hr h _), fun _ => ?_⟩
  refine ite_eq_iff'.mpr ⟨fun _ => writeHkp_plain hp, fun _ => ?_⟩
  refine ite_eq_iff'.mpr ⟨fun h => absurd hp (by simp [plainWord, h]), fun _ => ?_⟩
  refine ite_eq_iff'.mpr ⟨fun _ => writeEcc_plain hp, fun _ => ?_⟩
  refine ite_eq_iff'.mpr ⟨fun _ => writeBst_plain hp, fun _ => ?_⟩
  refine ite_eq_iff'.mpr ⟨fun h => absurd hp (by simp [plainWord, h]), fun _ => ?_⟩
  refine ite_eq_iff'.mpr ⟨fun _ => writeMgt_plain hp, fun _ => ?_⟩
  refine ite_eq_iff'.mpr ⟨fun _ => writeSec_plain hp, fun _ => ?_⟩
  refine ite_eq_iff'.mpr ⟨fun _ => writeNvm_plain hp, fun _ => ?_⟩
  refine ite_eq_iff'.mpr ⟨fun h => writeFlt_plain hp h, fun _ => ?_⟩
  rfl

/-- A write that covers no bit of a word leaves it. -/
theorem stored_uncovered (hx : x.mask &&& BitVec.ofNat 32 (r.rw ||| r.rb ||| r.wt) = 0) : d.stored a r x = d.reg a := by
  rw [BitVec.ofNat_or, BitVec.and_or_distrib_left] at hx
  obtain ⟨h, -⟩ := BitVec.or_eq_zero_iff.mp hx
  rw [stored, h, BitVec.not_zero, BitVec.and_allOnes, BitVec.and_zero, BitVec.or_zero]

theorem busStore_onlyWord (hp : plainWord a = true) (hr : place a = some (.live r)) :
    OnlyWord a (d.stored a r x) d (d.busStore x a r) := by
  by_cases hx : x.mask &&& BitVec.ofNat 32 (r.rw ||| r.rb ||| r.wt) = 0
  · have hb : d.busStore x a r = d := by unfold busStore; exact if_pos hx
    rw [hb]
    exact onlyWord_same (stored_uncovered hx).symm
  · rw [busStore_plain hp hr hx]
    exact onlyWord_setReg _ _ _

end Dev

end Sys2Proof.Machine
end

section
/-! SUPPORT. What writes of registers and of alias words leave, and the writes of words that something follows (R50, R55, R520, R522, R533,
R679, R682). -/

namespace Sys2Proof.Claims

open Sys2Proof.Machine Sys2Proof.Machine.Dev

variable {s : State} {m : Master} {a : Nat} {w : Width} {w' : Nat} {v : Word} {r : RegRow}

/-- A write on the bus that stores a word that starts nothing. -/
theorem answers_stored {c : Instr} {bit : Option Nat} {reg : Nat} (hs : s.dev.settled = true)
    (he : exec c s = .next (commit s (s.dev.busWrite m a w v))) (hw : a % widthBytes w = 0) (hl : isAlias a = true → w = .word)
    (ht : busTarget a = (reg, bit)) (ha : 0x10000000 ≤ a) (hr : place reg = some (.live r)) (hp : plainWord reg = true)
    (hb : Reaches s m reg) :
    Answers c s fun t =>
      t.dev.reg reg = s.dev.stored reg r (wrOf m a w v bit) ∧ Frame [reg] (served reg 0 s.dev) [] s t := by
  obtain ⟨hm, hd, hg⟩ := hb
  obtain ⟨hword, hother, hrest, hbooks⟩ := busStore_onlyWord (d := s.dev.touch (domainOf reg)) (x := wrOf m a w v bit) hp hr
  rw [busWrite_lands hm hw hl ha ht hr (hg _ hr) hd] at he
  simp only [eventBooks, Prod.mk.injEq] at hbooks
  obtain ⟨hraised, hpopped, hemptied⟩ := hbooks
  generalize busStore (wrOf m a w v bit) reg r (s.dev.touch (domainOf reg)) = e at *
  refine ⟨_, he, ?_, frame_quiet hs rfl (fun b hb => ?_) ?_ hraised hpopped hemptied⟩
  · exact (finish_reg _ _ _ (ne_of_plain hp (by decide))).trans (hword.trans (touch_stored _))
  · exact hother b (List.ne_of_not_mem_cons hb)
  · rw [returned_rest, hrest, served, returned_rest]

theorem registerStored (hs : s.dev.settled = true) : RegisterStored s m a w v r := by
  intro hw hr hp hb
  obtain ⟨h1, h2, -⟩ := place_bounds hr
  have hlow : a < 0x20000000 := by omega
  have hl (h : isAlias a = true) : w = .word := by
    simp only [isAlias, decide_eq_true_eq] at h
    omega
  have he : exec (.registerWrite m a w v) s = .next (commit s (s.dev.busWrite m a w v)) := rfl
  obtain ⟨t, ht, hk, hf⟩ := answers_stored hs he hw hl (busTarget_word hlow) (by omega) hr hp hb
  exact ⟨t, ht, hk, hf⟩

/-- What an alias word's write leaves in a register, bit by bit (R520, R522). -/
theorem stored_alias (d : Dev) {a b k : Nat} (hk : k < 32) :
    (d.stored a r (wrOf m w' w v (some b))).getLsbD k =
      if k = b ∧ (r.rw ||| r.rb).testBit b then v.getLsbD 0 else (d.reg a).getLsbD k := by
  have hm : (BitVec.ofNat 32 (2 ^ b)).getLsbD k = decide (b = k) := by
    rw [BitVec.getLsbD_ofNat, Nat.testBit_two_pow, decide_eq_true hk, Bool.true_and]
  have hv : (BitVec.ofNat 32 ((v.getLsbD 0).toNat * 2 ^ b)).getLsbD k = (decide (b = k) && v.getLsbD 0) := by
    cases v.getLsbD 0 with
    | false => simp
    | true => simpa using hm
  simp only [stored, wrOf, BitVec.getLsbD_or, BitVec.getLsbD_and, BitVec.getLsbD_not, hm, hv, BitVec.getLsbD_ofNat, hk]
  by_cases hb : b = k
  · subst hb
    cases (r.rw ||| r.rb).testBit b <;> simp
  · simp [hb, Ne.symm hb]

theorem aliasStored {reg b : Nat} (hs : s.dev.settled = true) : AliasStored s m reg b v r := by
  intro h4 hb hr hp hreach
  obtain ⟨h1, h2, -⟩ := place_bounds hr
  have hal : isAlias (0x20000000 + (reg - 0x10000000) * 32 + b * 4) = true := by
    simp only [isAlias, decide_eq_true_eq]
    omega
  have hword : (0x20000000 + (reg - 0x10000000) * 32 + b * 4) % widthBytes .word = 0 := by
    simp only [widthBytes]
    omega
  have he : exec (.aliasWrite m (0x20000000 + (reg - 0x10000000) * 32 + b * 4) v) s =
      .next (commit s (s.dev.busWrite m (0x20000000 + (reg - 0x10000000) * 32 + b * 4) .word v)) :=
    congrArg (fun d => Host.Outcome.next (commit s d)) (if_pos hal)
  obtain ⟨t, ht, hk, hf⟩ :=
    answers_stored hs he hword (fun _ => rfl) (busTarget_alias h1 h2 h4 hb) (by omega) hr hp hreach
  refine ⟨t, ht, fun k hk' => ?_, hf⟩
  rw [hk, stored_alias _ hk']

end Sys2Proof.Claims
end

section
/-! SUPPORT. The words whose write something follows at once (R50, R55, R533, R679, R682), and the obligation on register writes. -/

namespace Sys2Proof.Claims

open Sys2Proof.Machine Sys2Proof.Machine.Dev

variable {s : State} {m : Master} {v : Word}

/-- The register has the RW and RB bits `mask`, and a bit that takes a write. -/
def takesBits (a mask : Nat) : Bool :=
  (rowAt a).any fun r => (r.rw ||| r.rb) == mask && BitVec.ofNat 32 (r.rw ||| r.rb ||| r.wt) != 0

theorem row_of_takesBits {a mask : Nat} (ha : InRegs a) (h : takesBits a mask = true) :
    ∃ r, place a = some (.live r) ∧ r.rw ||| r.rb = mask ∧ BitVec.ofNat 32 (r.rw ||| r.rb ||| r.wt) ≠ 0 := by
  obtain ⟨r, hr, hb⟩ := (Option.any_eq_true _ _).mp h
  simp only [Bool.and_eq_true, beq_iff_eq, bne_iff_ne] at hb
  exact ⟨r, place_live ha hr, hb⟩

/-- A word write of such a register, as its block stores it. -/
theorem ends_followed {a mask : Nat} {f : Word → Dev → Dev} (ha : InRegs a) (ht : takesBits a mask = true)
    (hh : ∀ d : Dev, d.heldWord m a = d.reg a)
    (hf : ∀ r (d : Dev), BitVec.ofNat 32 (r.rw ||| r.rb ||| r.wt) ≠ 0 → d.on F.CNT_SMP_CFG_EN = s.dev.on F.CNT_SMP_CFG_EN →
      d.busStore (wordWr m v none none) a r = f (d.merged m a r v) d) (hr : Reaches s m a) :
    Ends (.registerWrite m a .word v) s (onBus a (f (wordWritten s.dev a mask v)) s.dev) := by
  obtain ⟨r, hp, hmask, hb⟩ := row_of_takesBits ha ht
  obtain ⟨hm, hd, hg⟩ := hr
  have hw : s.dev.busWrite m a .word v = onBus a (f (wordWritten s.dev a mask v)) s.dev := by
    have hnew : (s.dev.touch (domainOf a)).merged m a r v = wordWritten s.dev a mask v := by
      rw [merged, hh, hmask, touch_reg, wordWritten]
    rw [busWrite, busWriteAt_word hm ha.2.2.1 (place_notAlias hp) hp (hg _ hp) hd, hf r (s.dev.touch (domainOf a)) hb rfl, hnew, onBus]
  exact ⟨_, congrArg (fun d => Host.Outcome.next (commit s d)) hw, rfl⟩

theorem store_hst {a : Nat} {r : RegRow} (d : Dev) (h : blockOf a = 4) (hb : BitVec.ofNat 32 (r.rw ||| r.rb ||| r.wt) ≠ 0) :
    d.busStore (wordWr m v none none) a r = (d.setReg a (d.merged m a r v)).hostSignals := by
  rw [busStore_word d hb]
  simp [h]

theorem ends_host {a mask : Nat} (ha : InRegs a) (ht : takesBits a mask = true) (h4 : blockOf a = 4) (hr : Reaches s m a) :
    Ends (.registerWrite m a .word v) s (onBus a (fun d => (d.setReg a (wordWritten s.dev a mask v)).hostSignals) s.dev) := by
  have hbl : a / 0x10000 = 0x1004 := by
    obtain ⟨h1, -⟩ := ha
    simp only [blockOf] at h4
    omega
  refine ends_followed (f := fun new d => (d.setReg a new).hostSignals) ha ht (fun d => ?_) (fun r d hb _ => store_hst d h4 hb) hr
  exact heldWord_reg (by unfold ribbonPlace; exact if_neg (by omega)) (by omega) (by omega)

theorem pmcConfig_takesBits : ∀ i < 8, takesBits (R.CNT_PMC_CFG i) 0x8000031F = true := by decide +kernel

theorem ends_counter {a mask : Nat} (hlo : 0x101A0040 ≤ a) (hhi : a < 0x101A00C0) (h16 : a % 16 = 0) (ht : takesBits a mask = true)
    (hr : Reaches s m a) :
    Ends (.registerWrite m a .word v) s (onBus a (fun d => d.elapse.setReg a (wordWritten s.dev a mask v)) s.dev) := by
  have h26 : blockOf a = 26 := by simp only [blockOf]; omega
  refine ends_followed (f := fun new d => d.elapse.setReg a new) (by unfold InRegs; omega) ht (fun d => ?_) (fun r d hb _ => ?_) hr
  · exact heldWord_reg (by unfold ribbonPlace; exact if_neg (by omega)) (by omega) (by omega)
  · rw [store_cnt d h26 hb, writeCnt, if_neg (by simp only [R.CNT_SNAP]; omega), if_pos ⟨hlo, hhi⟩]
    simp only [h16]
    rfl

theorem ends_sampler (hr : Reaches s m R.CNT_SMP_CFG) :
    Ends (.registerWrite m R.CNT_SMP_CFG .word v) s
      (onBus R.CNT_SMP_CFG (fun d => (d.setReg R.CNT_SMP_CFG (wordWritten s.dev R.CNT_SMP_CFG 0x8FFFFFFF v)).samplerEnabled
        (s.dev.on F.CNT_SMP_CFG_EN)) s.dev) := by
  refine ends_followed (f := fun new d => (d.setReg R.CNT_SMP_CFG new).samplerEnabled (s.dev.on F.CNT_SMP_CFG_EN)) (by decide)
    (by decide +kernel) (fun d => heldWord_reg (by decide) (by decide) (by decide)) (fun r d hb he => ?_) hr
  rw [store_cnt d (by decide) hb, writeCnt, if_neg (by decide), if_neg (by decide), ← he]
  simp [Dev.when]

theorem followedStored : FollowedStored s m v :=
  ⟨ends_host (by decide) (by decide +kernel) (by decide), ends_host (by decide) (by decide +kernel) (by decide),
    fun i hi => ends_counter (by simp only [R.CNT_PMC_CFG]; omega) (by simp only [R.CNT_PMC_CFG]; omega)
      (by simp only [R.CNT_PMC_CFG]; omega) (pmcConfig_takesBits i hi), ends_sampler⟩

theorem busStore_press {r : RegRow} (d : Dev) (hw : r.wt = 0xFFFF) :
    d.busStore (wordWr m v none none) R.CLK_PRESS r = d.pressRequest (v.toNat % 2 ^ 16) := by
  have hb : BitVec.ofNat 32 (r.rw ||| r.rb ||| r.wt) ≠ 0 := by
    rw [hw, BitVec.ofNat_or]
    intro h
    exact absurd (BitVec.or_eq_zero_iff.mp h).2 (by decide)
  have hv : (v &&& BitVec.ofNat 32 0xFFFF).toNat = v.toNat % 2 ^ 16 := by
    rw [BitVec.toNat_and]
    exact Nat.and_two_pow_sub_one_eq_mod v.toNat 16
  rw [store_clk d (by decide) hb, writeClk, if_pos rfl, hw, hv]

theorem press_row : ∃ r, place R.CLK_PRESS = some (.live r) ∧ r.wt = 0xFFFF := by
  have h : ((rowAt R.CLK_PRESS).any fun r => r.wt == 0xFFFF) = true := by decide +kernel
  obtain ⟨r, hr, hw⟩ := (Option.any_eq_true _ _).mp h
  exact ⟨r, place_live (by decide) hr, beq_iff_eq.mp hw⟩

theorem pressRequest_pending (d : Dev) {g : Nat} (hg : g < 2 ^ 16) :
    (d.pressRequest g).fld F.CLK_PRESS_STAT_PEND = d.fld F.CLK_PRESS_STAT_PEND ||| g := by
  rw [pressRequest, fld_setFld_self _ _ _ (by decide)]
  exact Nat.mod_eq_of_lt (Nat.or_lt_two_pow (getBits_lt _ _) hg)

theorem pressRequested (hs : s.dev.settled = true) : PressRequested s m v := by
  rintro ⟨hm, hd, hg⟩
  obtain ⟨r, hp, hw⟩ := press_row
  have he : s.dev.busWrite m R.CLK_PRESS .word v =
      ((s.dev.touch (domainOf R.CLK_PRESS)).pressRequest (v.toNat % 2 ^ 16)).returned .done 0 := by
    rw [busWrite, busWriteAt_word hm (by decide) (by decide) hp (hg _ hp) hd, busStore_press _ hw]
  refine ⟨_, congrArg (fun d => Host.Outcome.next (commit s d)) he, ?pending, ?last, ?frame⟩
  case pending =>
    exact (fld_finish (by decide)).trans (pressRequest_pending _ (Nat.mod_lt _ (by decide)))
  case last =>
    exact (fld_finish (by decide)).trans (fld_setFld_apart _ _ (by decide) (by decide))
  case frame =>
    refine frame_quiet hs rfl (fun a ha => ?_) ?_ rfl rfl rfl
    · exact reg_setFld_ne _ _ _ (List.ne_of_not_mem_cons ha)
    · rw [returned_rest, pressRequest, setFld_rest, served, returned_rest]

/-- Settles O15: a write reaches the word it names, a word that starts nothing takes the bits it covers whatever its block
(`busStore_onlyWord`), and the host, counter and sampler configurations are stored before what follows them. -/
theorem registersWritten : Obligations.RegistersWritten := by
  intro s hs
  exact ⟨fun _ _ _ _ _ => registerStored hs, fun _ _ _ _ _ => aliasStored hs, fun _ _ => ⟨followedStored, pressRequested hs⟩⟩

end Sys2Proof.Claims
end

section
/-! SUPPORT. Bit lists and the CRC-16 of R107: what is written in bits is read back, and the checksum tells the indices of a marker
apart. -/

namespace Sys2Proof.Machine

@[simp] theorem bitsOf_length (w v : Nat) : (bitsOf w v).length = w := by simp [bitsOf]

theorem bitsOf_succ (w v : Nat) : bitsOf (w + 1) v = bitsOf w (v / 2) ++ [v.testBit 0] := by
  have shift (i : Nat) (h : i < w) : v.testBit (w + 1 - 1 - i) = (v / 2).testBit (w - 1 - i) := by
    rw [Nat.testBit_div_two]
    congr 1
    omega
  rw [bitsOf, bitsOf, List.range_succ, List.map_append]
  congr 1
  · exact List.map_congr_left fun i hi => shift i (List.mem_range.mp hi)
  · simp

/-- A number written in w bits is read back modulo 2^w. -/
theorem ofBits_bitsOf (w : Nat) : ∀ v, ofBits (bitsOf w v) = v % 2 ^ w := by
  induction w with
  | zero => intro v; simp [bitsOf, ofBits, Nat.mod_one]
  | succ w ih =>
    intro v
    rw [bitsOf_succ, ofBits, List.foldl_append]
    change 2 * ofBits (bitsOf w (v / 2)) + (v.testBit 0).toNat = _
    rw [ih, Nat.toNat_testBit, Nat.pow_succ', Nat.mod_mul]
    simp
    omega

/-! ### The CRC -/

theorem crc16Step_lt (s : Nat) (v : Bool) : crc16Step s v < 2 ^ 16 := by
  have hs : s * 2 % 65536 < 2 ^ 16 := Nat.mod_lt _ (by decide)
  unfold crc16Step
  dsimp only
  split
  · exact Nat.xor_lt_two_pow hs (by decide)
  · exact hs

theorem crc16_lt (l : List Bool) : crc16 l < 2 ^ 16 := by
  rcases List.eq_nil_or_concat l with rfl | ⟨l, v, rfl⟩
  · decide
  · rw [crc16, List.concat_eq_append, List.foldl_append]
    exact crc16Step_lt _ v

/-- The step is linear: a difference in register and bit goes through it as a register and a bit of its own. -/
theorem crc16Step_xor (s t : Nat) (v w : Bool) : crc16Step (s ^^^ t) (v ^^ w) = crc16Step s v ^^^ crc16Step t w := by
  have hmod : (s ^^^ t) * 2 % 65536 = (s * 2 % 65536) ^^^ (t * 2 % 65536) := by
    have h := Nat.xor_mod_two_pow (a := s <<< 1) (b := t <<< 1) (n := 16)
    rw [← Nat.shiftLeft_xor_distrib] at h
    simpa [Nat.shiftLeft_eq] using h
  simp only [crc16Step, hmod, Nat.testBit_xor]
  cases s.testBit 15 <;> cases t.testBit 15 <;> cases v <;> cases w <;>
    simp [Nat.xor_left_comm, Nat.xor_comm]

theorem foldl_crc16Step_xor (l : List (Bool × Bool)) : ∀ s t : Nat,
    (l.map fun p => p.1 ^^ p.2).foldl crc16Step (s ^^^ t) =
      (l.map Prod.fst).foldl crc16Step s ^^^ (l.map Prod.snd).foldl crc16Step t := by
  induction l with
  | nil => intro s t; rfl
  | cons p l ih => intro s t; simp only [List.map_cons, List.foldl_cons, crc16Step_xor, ih]

/-- Two indices differ in three bits, which a CRC register of 16 bits still holds apart. -/
theorem crc16_index_injective (head : List Bool) {i j : Nat} (hi : i < 8) (hj : j < 8)
    (h : crc16 (head ++ bitsOf 3 i) = crc16 (head ++ bitsOf 3 j)) : i = j := by
  have hdiff : ∀ a < 8, ∀ b < 8, (((bitsOf 3 a).zip (bitsOf 3 b)).map fun p => p.1 ^^ p.2).foldl crc16Step 0 = 0 → a = b := by
    decide
  have hlin := foldl_crc16Step_xor ((bitsOf 3 i).zip (bitsOf 3 j)) (head.foldl crc16Step 0xFFFF) (head.foldl crc16Step 0xFFFF)
  rw [List.map_fst_zip (by simp), List.map_snd_zip (by simp)] at hlin
  rw [crc16, crc16, List.foldl_append, List.foldl_append] at h
  refine hdiff i hi j hj ?_
  rwa [h, Nat.xor_self, Nat.xor_self] at hlin

end Sys2Proof.Machine
end

section
/-! SUPPORT. The line format (chapter 3) as a code: what is sent is read back, and each part has its place (R85 to R109). -/

namespace Sys2Proof.Machine

/-! ### Markers (R104 to R109) -/

section
variable (c : MarkerContent) (j : Nat)

theorem markerHead_length : (markerHead c).length = 64 := by simp [markerHead]

theorem markerBits_length : (markerBits c j).length = 80 := by simp [markerBits, markerHead_length]

theorem sync_length : (syncBits.flatMap fun b => [b, false]).length = 128 := by
  simp [List.length_flatMap, syncBits]

theorem markerLeaf_length : (markerLeaf c j).length = 288 := by
  simp only [markerLeaf, List.length_append, sync_length, markerBits_length]

/-- The leaf is its sync symbols and two copies of the content. -/
theorem markerLeaf_parts : (markerLeaf c j).take 128 = syncBits.flatMap (fun b => [b, false]) ∧
    ((markerLeaf c j).drop 128).take 80 = markerBits c j ∧ ((markerLeaf c j).drop 208).take 80 = markerBits c j := by
  have hm := markerBits_length c j
  refine ⟨?_, ?_, ?_⟩
  · rw [markerLeaf, List.append_assoc, List.take_left' sync_length]
  · rw [markerLeaf, List.append_assoc, List.drop_left' sync_length, List.take_left' hm]
  · rw [markerLeaf, List.drop_left' (by rw [List.length_append, sync_length, hm]), List.take_of_length_le hm.le]

theorem syncFound_markerLeaf : syncFound (markerLeaf c j) = true := by
  obtain ⟨hsync, -, -⟩ := markerLeaf_parts c j
  rw [syncFound, hsync]
  decide

theorem markerBits_take : (markerBits c j).take 64 = markerHead c := List.take_left' (markerHead_length c)

theorem markerBits_drop : (markerBits c j).drop 64 = bitsOf 16 (crc16 (markerHead c ++ bitsOf 3 j)) :=
  List.drop_left' (markerHead_length c)

/-- Only the marker's own index passes the check. -/
theorem contentIndex_markerBits (hj : j < 8) : contentIndex (markerBits c j) = some j := by
  have hcrc : ofBits ((markerBits c j).drop 64) = crc16 (markerHead c ++ bitsOf 3 j) := by
    rw [markerBits_drop, ofBits_bitsOf, Nat.mod_eq_of_lt (crc16_lt _)]
  rw [contentIndex, markerBits_take, hcrc, List.find?_range_eq_some]
  refine ⟨by simp, by simpa using hj, fun i hi => ?_⟩
  have hne : crc16 (markerHead c ++ bitsOf 3 i) ≠ crc16 (markerHead c ++ bitsOf 3 j) := fun h =>
    Nat.ne_of_lt hi (crc16_index_injective _ (Nat.lt_trans hi hj) hj h)
  simpa using hne

theorem ofNat_ofBits_bitsOf {w : Nat} (x : BitVec w) : BitVec.ofNat w (ofBits (bitsOf w x.toNat)) = x := by
  rw [ofBits_bitsOf, Nat.mod_eq_of_lt x.isLt, BitVec.ofNat_toNat, BitVec.setWidth_eq]

/-- The fields lie where `readContent` looks for them. -/
theorem readContent_markerBits : readContent (markerBits c j) = c := by
  simp only [readContent, markerBits, markerHead, List.append_assoc]
  simp [List.drop_append, List.drop_eq_nil_of_le, ofNat_ofBits_bitsOf]

theorem classifyMarker_markerLeaf (hj : j < 8) : classifyMarker (markerLeaf c j) = .strong j c := by
  obtain ⟨-, hfirst, hsecond⟩ := markerLeaf_parts c j
  simp only [classifyMarker, hfirst, hsecond, contentIndex_markerBits c j hj, readContent_markerBits, and_self, if_true]

end
/-! ### Gray mapping, precoding, scrambler (R85, R87, R99) -/

theorem symbolBits_symbolOf (a b : Bool) : symbolBits (symbolOf a b) = (a, b) := by cases a <;> cases b <;> decide

/-- The sum of two neighbours takes the precoding back (R87). -/
theorem zipWith_precode (xs : List Nat) : ∀ y, y < 4 → (∀ x ∈ xs, x < 4) →
    List.zipWith (fun u v => (u + v) % 4) (precode y xs) (y :: precode y xs) = xs := by
  induction xs with
  | nil => intro y _ _; rfl
  | cons x xs ih =>
    intro y hy hxs
    have hx : x < 4 := hxs x (by simp)
    have hsum : ((x + 4 - y % 4) % 4 + y) % 4 = x := by omega
    simp only [precode, List.zipWith_cons_cons, hsum]
    rw [ih _ (Nat.mod_lt _ (by decide)) fun z hz => hxs z (by simp [hz])]

/-- The generator runs on whatever the bits are. -/
theorem scramble_state (l : List Bool) : ∀ k, (scramble k l).2 = scramblerJump l.length k := by
  induction l with
  | nil => intro k; rfl
  | cons b l ih => intro k; exact ih (scramblerStep k)

theorem scramble_scramble (l : List Bool) : ∀ k, (scramble k (scramble k l).1).1 = l := by
  induction l with
  | nil => intro k; rfl
  | cons b l ih =>
    intro k
    simp only [scramble, ih, Bool.xor_assoc, Bool.xor_self, Bool.xor_false]

/-! ### The slots of a quire (R91) -/

section
variable {i : Nat}

theorem slotKind_data_iff {d : Nat} : slotKind i = .data d ↔ i % 257 ≤ 255 ∧ d = 256 * (i / 257) + i % 257 := by
  unfold slotKind
  dsimp only
  split_ifs <;> simp <;> omega

theorem slotKind_marker_iff {j : Nat} : slotKind i = .marker j ↔ i % 257 = 256 ∧ i / 257 = 8 * j := by
  unfold slotKind
  dsimp only
  split_ifs <;> simp <;> omega

theorem slotKind_stitch_iff {w : Nat} : slotKind i = .stitch w ↔ i % 257 = 256 ∧ i / 257 = 8 * w + 1 := by
  unfold slotKind
  dsimp only
  split_ifs <;> simp <;> omega

theorem slotKind_pilot_iff {m : Nat} :
    slotKind i = .pilot m ↔ i % 257 = 256 ∧ 2 ≤ i / 257 % 8 ∧ m + 2 = 6 * (i / 257 / 8) + i / 257 % 8 := by
  unfold slotKind
  dsimp only
  split_ifs <;> simp <;> omega

end

theorem slotKind_injective : Function.Injective slotKind := by
  intro i i' h
  cases hk : slotKind i with
  | data d =>
    have hi := slotKind_data_iff.mp hk
    have hi' := slotKind_data_iff.mp (h.symm.trans hk)
    omega
  | marker j =>
    have hi := slotKind_marker_iff.mp hk
    have hi' := slotKind_marker_iff.mp (h.symm.trans hk)
    omega
  | stitch w =>
    have hi := slotKind_stitch_iff.mp hk
    have hi' := slotKind_stitch_iff.mp (h.symm.trans hk)
    omega
  | pilot m =>
    have hi := slotKind_pilot_iff.mp hk
    have hi' := slotKind_pilot_iff.mp (h.symm.trans hk)
    omega

end Sys2Proof.Machine

namespace Sys2Proof.Claims

open Sys2Proof.Machine

theorem line_recovered (a b : Bool) (y : Nat) (xs : List Nat) (k : BitVec 58) (l : List Bool) : LineRecovered a b y xs k l :=
  ⟨symbolBits_symbolOf a b, zipWith_precode xs y, scramble_scramble l k, scramble_state l k⟩

/-- Bit q of an entry lies in payload bit 34·⌊q/136⌋ + q mod 34 of leaf ⌊q/34⌋ mod 4 (R97). -/
theorem entry_interleaved : EntryInterleaved := by
  refine ⟨fun l i hl hi => ?place, fun l i l' i' hl hi hl' hi' h => ?once, fun q hq => ?all⟩
  case place => constructor <;> simp only [interleaveSource, leafOfBit] <;> omega
  case once => simp only [interleaveSource] at h; omega
  case all =>
    have hq' : interleaveSource (leafOfBit q) (34 * (q / 136) + q % 34) = q := by simp only [interleaveSource, leafOfBit]; omega
    exact ⟨leafOfBit q, 34 * (q / 136) + q % 34, Nat.mod_lt _ (by decide), by omega, hq'⟩

theorem quire_laid : QuireLaid := by
  refine ⟨fun i i' _ _ h => slotKind_injective h, fun d hd => ⟨257 * (d / 256) + d % 256, ?_, slotKind_data_iff.mpr ?_⟩,
    fun j hj => ⟨2056 * j + 256, ?_, slotKind_marker_iff.mpr ?_⟩, fun w hw => ⟨2056 * w + 513, ?_, slotKind_stitch_iff.mpr ?_⟩,
    fun m hm => ⟨257 * (8 * (m / 6) + m % 6 + 2) + 256, ?_, slotKind_pilot_iff.mpr ?_⟩⟩ <;> omega

/-- Settles O10: a marker's own index is the only one that passes its CRC, so that both copies of the content read back. -/
theorem markersReadBack : Obligations.MarkersReadBack :=
  fun c j hj => ⟨markerLeaf_length c j, syncFound_markerLeaf c j, classifyMarker_markerLeaf c j hj⟩

/-- Settles O11: each code has its inverse, and each leaf of a quire its slot. -/
theorem lineFormatRecovers : Obligations.LineFormatRecovers := ⟨line_recovered, entry_interleaved, quire_laid⟩

end Sys2Proof.Claims
end

section
/-! SUPPORT. The transmitter's queue, swing and start (R172 to R184), and a compatibility lane's lock (R123). -/

namespace Sys2Proof.Machine

namespace Dev

variable {n : Lane} {d : Dev}

@[simp] theorem setReg_lane (a : Nat) (v : Word) (d : Dev) (n : Lane) : (d.setReg a v).lane n = d.lane n := (rfl)
@[simp] theorem setFld_lane (f : Fld) (x : Nat) (d : Dev) (n : Lane) : (d.setFld f x).lane n = d.lane n := (rfl)
@[simp] theorem setOn_lane (f : Fld) (b : Bool) (d : Dev) (n : Lane) : (d.setOn f b).lane n = d.lane n := (rfl)
@[simp] theorem raise_lane (b c l : Nat) (d : Dev) (n : Lane) : (d.raise b c l).lane n = d.lane n := (rfl)

/-- Each code gives one output sample. -/
theorem outputSamples_length (thresh hold vsw : Nat) (xs : List Nat) :
    ∀ (c : Nat) (held : Int), (outputSamples thresh hold vsw c held xs).length = xs.length := by
  induction xs with
  | nil => intro c held; rfl
  | cons x xs ih => intro c held; exact congrArg (· + 1) (ih x _)

/-! ### Queue faults (R173) -/

/-- The transmitter as a queue fault leaves it. -/
def faulted (c : QueueCause) (t : TxSt) : TxSt :=
  { t with sqQueue := true, qStage := 1, pllLost := t.pllLost || c == .pllLost,
           fill := match c with | .fill k => min 576 k | .pllLost => t.fill }

/-- The fault is shown, and the output squelched. -/
def faultShown (n : Lane) (c : QueueCause) (d : Dev) : Dev :=
  ((d.modTx n (faulted c)).setOn (F.LANE_TX_STAT_Q_FAULT n) true).squelchNow n

theorem queueFault_none (c : QueueCause) (h : isQueueFault c = false ∨ d.inRun n = false) : d.queueFault n c = d := by
  rw [queueFault, if_pos (by simpa using h)]

theorem queueFault_taken (c : QueueCause) (hf : isQueueFault c = true) (hr : d.inRun n = true) :
    d.queueFault n c = if queueFaultHeld (d.lane n).tx c then d.faultShown n c
      else ((d.faultShown n c).bump (R.LANE_TX_QFLT n)).raise Blk.lane 0x30 n := by
  rw [queueFault, if_neg (by simp [hf, hr])]
  rfl

theorem squelchNow_squelched (h : d.on (F.LANE_TX_STAT_SQUELCHED n) = true) :
    d.squelchNow n = d.setOn (F.LANE_TX_STAT_SQ_HW n) (d.hwSquelch n) := by
  have hs : (d.setOn (F.LANE_TX_STAT_SQ_HW n) (d.hwSquelch n)).on (F.LANE_TX_STAT_SQUELCHED n) = true := by
    rw [on_setOn_apart _ _ (by simp) (by simp [Fld.apart]), h]
  rw [squelchNow, if_pos (by simp [hs])]

/-- The cause that a queue fault sets squelches the lane, whatever other causes hold. -/
theorem hwSquelch_faulted (c : QueueCause) (d : Dev) :
    ((d.modTx n (faulted c)).setOn (F.LANE_TX_STAT_Q_FAULT n) true).hwSquelch n = true := by
  simp [hwSquelch, lane_modTx, faulted]

theorem faultShown_squelched (c : QueueCause) (h : d.on (F.LANE_TX_STAT_SQUELCHED n) = true) :
    d.faultShown n c = ((d.modTx n (faulted c)).setOn (F.LANE_TX_STAT_Q_FAULT n) true).setOn (F.LANE_TX_STAT_SQ_HW n) true := by
  have hs : ((d.modTx n (faulted c)).setOn (F.LANE_TX_STAT_Q_FAULT n) true).on (F.LANE_TX_STAT_SQUELCHED n) = true := by
    rw [on_setOn_apart _ _ (by simp) (by simp [Fld.apart])]
    exact h
  rw [faultShown, squelchNow_squelched hs, hwSquelch_faulted]

theorem squelchNow_sounds (hs : d.on (F.LANE_TX_STAT_SQUELCHED n) = false) (ha : d.hwSquelch n = true) :
    d.squelchNow n = ((((d.setOn (F.LANE_TX_STAT_SQ_HW n) true).setOn (F.LANE_TX_STAT_SQUELCHED n) true).modTx n quieted).calTxChange
      n) := by
  have hs' : (d.setOn (F.LANE_TX_STAT_SQ_HW n) true).on (F.LANE_TX_STAT_SQUELCHED n) = false := by
    rw [on_setOn_apart _ _ (by simp) (by simp [Fld.apart]), hs]
  have ha' : (d.setOn (F.LANE_TX_STAT_SQ_HW n) true).anySquelch n = true := by
    rw [anySquelch, show (d.setOn (F.LANE_TX_STAT_SQ_HW n) true).hwSquelch n = true from ha, Bool.true_or]
  rw [squelchNow, ha, if_neg (by simp [hs', ha'])]
  rfl

/-- The lane's words when its output has just fallen silent. -/
def faultQuieted (n : Lane) (c : QueueCause) (d : Dev) : Dev :=
  ((((d.modTx n (faulted c)).setOn (F.LANE_TX_STAT_Q_FAULT n) true).setOn (F.LANE_TX_STAT_SQ_HW n) true).setOn
    (F.LANE_TX_STAT_SQUELCHED n) true).modTx n quieted

theorem faultQuieted_tx (c : QueueCause) (d : Dev) : ((d.faultQuieted n c).lane n).tx = quieted (faulted c (d.lane n).tx) := by
  simp only [faultQuieted, lane_modTx, setOn_lane]

theorem faultQuieted_mem (c : QueueCause) (d : Dev) : (d.faultQuieted n c).mem = d.mem := by
  simp only [faultQuieted, modTx, modLane_mem, setOn_mem]

theorem faultQuieted_on (c : QueueCause) (d : Dev) : (d.faultQuieted n c).on (F.LANE_TX_STAT_Q_FAULT n) = true ∧
    (d.faultQuieted n c).on (F.LANE_TX_STAT_SQUELCHED n) = true := by
  simp only [faultQuieted, modTx, modLane_on]
  refine ⟨?_, on_setOn_self _ _ _ (by simp) rfl⟩
  rw [on_setOn_apart _ _ (by simp) (by simp [Fld.apart]), on_setOn_apart _ _ (by simp) (by simp [Fld.apart]),
    on_setOn_self _ _ _ (by simp) rfl]

theorem faultShown_unsquelched (c : QueueCause) (h : d.on (F.LANE_TX_STAT_SQUELCHED n) = false) :
    d.faultShown n c = (d.faultQuieted n c).calTxChange n := by
  have hs : ((d.modTx n (faulted c)).setOn (F.LANE_TX_STAT_Q_FAULT n) true).on (F.LANE_TX_STAT_SQUELCHED n) = false := by
    rw [on_setOn_apart _ _ (by simp) (by simp [Fld.apart])]
    exact h
  exact squelchNow_sounds hs (hwSquelch_faulted c d)

/-- What a fault of an output that was not squelched leaves in a reading that sees neither its count nor the calibration runs. -/
theorem Ignores.queueFault {β : Type} {g : Dev → β} {p : Nat → Prop} (hg : Ignores g p) {c : QueueCause}
    (hc : ∀ i f d, g (modCal n i f d) = g d) (hp : ∀ a, p a → a < R.LANE_TX_QFLT n) (hf : isQueueFault c = true)
    (hr : d.inRun n = true) (hs : d.on (F.LANE_TX_STAT_SQUELCHED n) = false) : g (d.queueFault n c) = g (d.faultQuieted n c) := by
  have hn := n.isLt
  have hcal (a : Nat) (ha : p a) : a < 0x10130000 := by
    have := hp a ha
    simp only [R.LANE_TX_QFLT] at this
    omega
  have hshown : g (d.faultShown n c) = g (d.faultQuieted n c) := by
    rw [faultShown_unsquelched c hs, hg.calTxChange hc hcal]
  rw [queueFault_taken c hf hr]
  split
  · exact hshown
  · rw [hg.raise]
    exact (hg.bumpBy _ _ fun h => Nat.lt_irrefl _ (hp _ h)).trans hshown

/-! ### The sample queue and the swing (R172, R178) -/

theorem queueCodes_filling (c : QSlot) (h : (d.lane n).tx.queue.length < 2) :
    d.queueCodes n c = d.modTx n fun t => { t with queue := (d.lane n).tx.queue ++ [c], fill := t.fill + 144 } := by
  unfold queueCodes
  split
  · next hq => simp [hq] at h
  · rfl

theorem queueCodes_full {a b c : QSlot} {r : List QSlot} (h : (d.lane n).tx.queue = a :: b :: r) :
    d.queueCodes n c = (d.modTx n fun t => { t with queue := b :: r ++ [c] }).driveOut n a := by
  rw [queueCodes, h]

theorem swingOf_eq (code : Nat) : swingOf code = 1000 * (if 61 ≤ code then 900 else 300 + 10 * code) := by
  unfold swingOf
  split_ifs <;> omega

/-! ### The start (R184) -/

theorem transmitterStart_waits (h : (d.lane n).tx.start ≠ 1 ∨ (d.lane n).tx.slot ≠ 0) : d.transmitterStart n = d := by
  rw [transmitterStart, if_pos (by tauto)]

/-! ### A compatibility lane's lock (R123) -/

theorem locked_compat (h : d.native = false) : d.locked n = (d.lane n).rx.pmdLock := by simp [locked, h]

theorem compatLock_idle {gained : Bool} (h : d.native = true ∨ d.locked n = gained) : d.compatLock n gained = d := by
  rw [compatLock, if_pos (by tauto)]

end Dev

end Sys2Proof.Machine

namespace Sys2Proof.Claims

open Sys2Proof.Machine Sys2Proof.Machine.Dev

variable {s : State} {n : Lane}

theorem queueFault_sound (s : State) (n : Lane) (c : QueueCause) : QueueSound s n c := fun h =>
  ⟨_, rfl, by rw [queueFault_none c h]⟩

theorem queueFault_counted (hs : s.dev.settled = true) (n : Lane) (c : QueueCause) : QueueFaulted s n c := by
  intro hf hr hh hsq
  have hd : exec (.queueFault n c) s =
      .next (commit s (((s.dev.faultShown n c).bump (R.LANE_TX_QFLT n)).raise Blk.lane 0x30 n)) := by
    show Host.Outcome.next (commit s (s.dev.queueFault n c)) = _
    rw [queueFault_taken c hf hr, hh, if_neg Bool.false_ne_true]
  rw [faultShown_squelched c hsq] at hd
  change Yields _ s (((((s.dev.modTx n (faulted c)).setOn (F.LANE_TX_STAT_Q_FAULT n) true).setOn (F.LANE_TX_STAT_SQ_HW n) true)).bump
    (R.LANE_TX_QFLT n)) _ _
  refine yields_raised [⟨Blk.lane, 0x30, n⟩] hd hs (fun a ha => ?_) (fun _ => raise_reg ..) (raise_rest ..) ?_ ?_ ?_ rfl rfl
  · simp only [List.mem_cons, List.not_mem_nil, or_false, not_or] at ha
    obtain ⟨hstat, hqflt⟩ := ha
    rw [raise_reg, reg_bump_ne _ hqflt, reg_setOn_ne _ _ _ hstat, reg_setOn_ne _ _ _ hstat, modTx, modLane_reg]
  all_goals simp only [raise, bump, bumpBy, setReg_raised, setReg_popped, setReg_emptied, setOn_raised, setOn_popped, setOn_emptied,
    modTx, modLane_raised, modLane_popped, modLane_emptied]

theorem queueFault_squelches (s : State) (n : Lane) (c : QueueCause) : QueueSquelched s n c := by
  intro hf hr hsq
  have hn := n.isLt
  have hstat : R.LANE_TX_STAT n ≠ R.MGT_STAT := by simp only [R.LANE_TX_STAT, R.MGT_STAT]; omega
  have hbelow (a : Nat) (ha : a = R.LANE_TX_STAT n) : a < R.LANE_TX_QFLT n := by
    simp only [ha, R.LANE_TX_STAT, R.LANE_TX_QFLT]; omega
  have hon (f : Fld) (hfa : f.addr = R.LANE_TX_STAT n) : (commit s (s.dev.queueFault n c)).dev.on f = (s.dev.faultQuieted n c).on f := by
    rw [commit, on_finish (hfa ▸ hstat)]
    exact (Ignores.on (f := f)).queueFault (fun _ _ _ => rfl) (fun a ha => hbelow a (ha.trans hfa)) hf hr hsq
  have htx : ((commit s (s.dev.queueFault n c)).dev.lane n).tx = quieted (faulted c (s.dev.lane n).tx) := by
    have hg : Ignores (fun e : Dev => (e.lane n).tx) fun _ => False := ⟨fun _ _ _ _ => rfl, fun _ _ => rfl, fun _ _ _ _ => rfl⟩
    have hq := hg.queueFault (fun i f e => by simp [modCal, lane_modLane]) (fun _ h => h.elim) hf hr hsq
    exact (finish_keeps (fun e => (e.lane n).tx) fun _ => rfl).trans (hq.trans (faultQuieted_tx c s.dev))
  have hmem : (commit s (s.dev.queueFault n c)).dev.mem = s.dev.mem := by
    have hg : Ignores Dev.mem fun _ => False := ⟨fun _ _ _ _ => rfl, fun _ _ => rfl, fun _ _ _ _ => rfl⟩
    have hq := hg.queueFault (fun _ _ _ => rfl) (fun _ h => h.elim) hf hr hsq
    exact (finish_keeps Dev.mem fun _ => rfl).trans (hq.trans (faultQuieted_mem c s.dev))
  obtain ⟨hfault, hsquelch⟩ := faultQuieted_on (n := n) c s.dev
  exact ⟨_, rfl, (hon _ rfl).trans hfault, (hon _ rfl).trans hsquelch, by rw [htx]; rfl, by rw [htx]; rfl, hmem, rfl⟩

theorem swingMove_done (hs : s.dev.settled = true) (n : Lane) : SwingDone s n := by
  refine yields_quiet rfl hs (fun a ha => ?_) (fun _ => rfl) rfl rfl rfl rfl
  rw [endSwing, reg_setOn_ne _ _ _ (by simpa using ha), modTx, modLane_reg]

theorem transmitter_starts (s : State) (n : Lane) : TransmitterStarts s n := by
  intro hstart hslot hrun hlfe htick
  refine ⟨_, rfl, ?_⟩
  rw [transmitterStart, if_neg (by simp [hstart, hslot, hrun, hlfe, htick])]
  rfl

theorem transmitter_waits (s : State) (n : Lane) : TransmitterWaits s n := fun h =>
  ⟨_, rfl, by rw [transmitterStart_waits h]⟩

theorem compat_locks (s : State) (n : Lane) : CompatLocked s n := by
  intro hn hr
  have hl := locked_compat (n := n) hn
  refine ⟨fun hf => ?gained, fun ht => ?lost, ⟨_, rfl, by rw [compatLock_idle (.inr hl)]⟩⟩
  case gained =>
    refine ⟨_, rfl, ?_⟩
    rw [compatLock, if_neg (show ¬ (s.dev.native = true ∨ _ ∨ s.dev.locked n = true) by simp [hn, hr, hl, hf]), if_pos rfl]
  case lost =>
    refine ⟨_, rfl, ?_⟩
    rw [compatLock, if_neg (show ¬ (s.dev.native = true ∨ _ ∨ s.dev.locked n = false) by simp [hn, hr, hl, ht])]
    rfl

theorem compat_none (s : State) (n : Lane) (gained : Bool) : CompatNone s n gained := fun h =>
  ⟨_, rfl, by rw [compatLock_idle (.inl h)]⟩

theorem queue_fills (d : Dev) (n : Lane) (a b c : QSlot) (r : List QSlot) : QueueFills d n a b c r :=
  ⟨fun h => by rw [queueCodes_filling c (by simp [h]), h, List.nil_append],
    fun h => by rw [queueCodes_filling c (by simp [h]), h, List.singleton_append], queueCodes_full⟩

theorem levels_formed (thresh hold vsw c : Nat) (held : Int) (x : Nat) (xs : List Nat) : LevelsFormed thresh hold vsw c held x xs :=
  ⟨_, _, rfl, rfl, rfl, rfl, rfl, by simp, rfl, outputSamples_length _ _ _ _ _ _⟩

/-- Settles O24: a queue fault by whether the output was squelched before it; each other command by the test that its device makes. -/
theorem transmitterFollows : Obligations.TransmitterFollows := by
  intro s hs
  exact ⟨fun n c => ⟨queueFault_counted hs n c, queueFault_squelches s n c, queueFault_sound s n c⟩,
    fun n => ⟨swingMove_done hs n, transmitter_starts s n, transmitter_waits s n, compat_locks s n⟩, compat_none s, queue_fills,
    levels_formed, fun code _ => swingOf_eq code⟩

end Sys2Proof.Claims
end

section
/-! SUPPORT. What a loss or a lock of a lane brings beside its own words: whatever follows it in other blocks and in the rest of the
lane leaves the words chosen, the frame and the events raised before as they were. -/

namespace Sys2Proof.Machine.Dev

variable {p : Nat → Prop} {n : Lane} {d₀ d : Dev}

/-- From d₀ on, the words of block LANE that p singles out have not changed, nor has the frame of lane n; what was raised stands. -/
structure Spares (p : Nat → Prop) (n : Lane) (d₀ d : Dev) : Prop where
  block  : ∀ a, p a → 0x10110000 ≤ a ∧ a < 0x10120000
  reg    : ∀ a, p a → d.reg a = d₀.reg a
  frame  : (d.lane n).fr = (d₀.lane n).fr
  raised : d₀.raised ⊆ d.raised

theorem Spares.refl (h : ∀ a, p a → 0x10110000 ≤ a ∧ a < 0x10120000) : Spares p n d d :=
  ⟨h, fun _ _ => rfl, rfl, fun _ => id⟩

namespace Spares

variable (h : Spares p n d₀ d)
include h

theorem fld {f : Fld} (hf : p f.addr) : d.fld f = d₀.fld f := by rw [Dev.fld, Dev.fld, h.reg _ hf]

theorem on {f : Fld} (hf : p f.addr) : d.on f = d₀.on f := by rw [Dev.on, Dev.on, h.fld hf]

/-- A word of another block is none of those. -/
theorem other {a : Nat} (ha : a < 0x10110000 ∨ 0x10120000 ≤ a) : ¬ p a := fun hp => by
  have := h.block a hp
  omega

/-! ### Updates -/

/-- An update that leaves the words, the events and the frame alone. -/
theorem same {e : Dev} (hregs : e.regs = d.regs) (hraised : e.raised = d.raised) (hframe : (e.lane n).fr = (d.lane n).fr) :
    Spares p n d₀ e :=
  ⟨h.block, fun a ha => by rw [Dev.reg, hregs]; exact h.reg a ha, hframe.trans h.frame, by rw [hraised]; exact h.raised⟩

theorem word {a : Nat} (v : Word) (ha : ¬ p a) : Spares p n d₀ (d.setReg a v) :=
  ⟨h.block, fun b hb => (reg_setReg_ne v d fun hab => ha (by rwa [← hab])).trans (h.reg b hb), h.frame, h.raised⟩

theorem field {f : Fld} (x : Nat) (ha : ¬ p f.addr) : Spares p n d₀ (d.setFld f x) := h.word _ ha

theorem bit {f : Fld} (b : Bool) (ha : ¬ p f.addr) : Spares p n d₀ (d.setOn f b) := h.word _ ha

theorem count {a : Nat} (k : Nat) (ha : ¬ p a) : Spares p n d₀ (d.bumpBy a k) := h.word _ ha

theorem bump {a : Nat} (ha : ¬ p a) : Spares p n d₀ (d.bump a) := h.word _ ha

theorem set48 {a : Nat} (k : Nat) (ha : ¬ p a) (ha' : ¬ p (a + 4)) : Spares p n d₀ (d.set48 a k) := (h.word _ ha).word _ ha'

theorem bump48By {a : Nat} (k : Nat) (ha : ¬ p a) (ha' : ¬ p (a + 4)) : Spares p n d₀ (d.bump48By a k) := h.set48 _ ha ha'

theorem raise (b c l : Nat) : Spares p n d₀ (d.raise b c l) :=
  ⟨h.block, h.reg, h.frame, fun _ hx => List.mem_append_left _ (h.raised hx)⟩

theorem modLane (k : Lane) {f : LaneSt → LaneSt} (hf : ∀ l, (f l).fr = l.fr) : Spares p n d₀ (d.modLane k f) := by
  refine h.same rfl rfl ?_
  rw [lane_modLane]
  split
  · exact hf _
  · rfl

theorem modRx (k : Lane) (f : RxSt → RxSt) : Spares p n d₀ (d.modRx k f) := h.modLane k fun _ => rfl

theorem modMs (k : Lane) (f : Meas → Meas) : Spares p n d₀ (d.modMs k f) := h.modLane k fun _ => rfl

theorem modAd (k : Lane) (f : Adapt → Adapt) : Spares p n d₀ (d.modAd k f) := h.modLane k fun _ => rfl

theorem modBrl (k : Lane) (f : BrlSt → BrlSt) : Spares p n d₀ (d.modBrl k f) := h.modLane k fun _ => rfl

theorem modCal (k : Lane) (i : Fin 4) (f : CalItem → CalItem) : Spares p n d₀ (d.modCal k i f) := h.modLane k fun _ => rfl

theorem modSpr (f : SprSt → SprSt) : Spares p n d₀ (d.modSpr f) := h.same rfl rfl rfl

theorem modMsh (f : MshSt → MshSt) : Spares p n d₀ (d.modMsh f) := h.same rfl rfl rfl

theorem modHost (k : HostLane) (f : HostSt → HostSt) : Spares p n d₀ (d.modHost k f) := h.same rfl rfl rfl

theorem modCap (f : CapSt → CapSt) : Spares p n d₀ (d.modCap f) := h.same rfl rfl rfl

theorem modPwr (f : PwrSt → PwrSt) : Spares p n d₀ (d.modPwr f) := h.same rfl rfl rfl

theorem modLink (k : Lane) (f : LinkSt → LinkSt) : Spares p n d₀ (d.modLink k f) := h.modMsh _

omit h in
theorem each {α : Type} (l : List α) {f : α → Dev → Dev} (hf : ∀ x ∈ l, ∀ d, Spares p n d₀ d → Spares p n d₀ (f x d)) :
    ∀ {d}, Spares p n d₀ d → Spares p n d₀ (d.each l f) := by
  induction l with
  | nil => exact id
  | cons x l ih =>
    intro d h
    exact ih (fun y hy => hf y (List.mem_cons_of_mem _ hy)) (hf x (List.mem_cons_self ..) _ h)

theorem when {f : Dev → Dev} (c : Bool) (hf : ∀ {d}, Spares p n d₀ d → Spares p n d₀ (f d)) : Spares p n d₀ (d.when c f) := by
  unfold Dev.when
  split
  · exact hf h
  · exact h

/-! ### The counters of chapter 21 -/

theorem sliceAdd {s : Nat} (hs : s < 9) (k m : Nat) (hk : k < 4) : Spares p n d₀ (d.sliceAdd s k m).2 :=
  h.word _ (h.other (.inl (by simp only [R.SLC_PMC]; omega)))

theorem sliceOverflow {s : Nat} (hs : s < 9) (k : Nat) : Spares p n d₀ (d.setOn ⟨R.SLC_PM_OVF s, k, 1⟩ true) :=
  h.bit _ (h.other (.inl (by simp only [R.SLC_PM_OVF]; omega)))

theorem slicePairLow {s k : Nat} (hs : s < 9) (hk : k < 3) (m : Nat) (chained : Bool) :
    Spares p n d₀ (d.slicePairLow s k m chained) := by
  have hlow := h.sliceAdd hs k m (by omega)
  have hhigh := hlow.sliceAdd hs (k + 1) 1 (by omega)
  unfold Dev.slicePairLow
  dsimp only
  split_ifs
  · exact hlow
  · exact hhigh.sliceOverflow hs _
  · exact hhigh
  · exact hlow.sliceOverflow hs _

theorem sliceEvent (s e m : Nat) : Spares p n d₀ (d.sliceEvent s e m) := by
  unfold Dev.sliceEvent
  split
  · exact h
  · next hc =>
    have hs : s < 9 := by
      by_contra hge
      exact hc (by rw [decide_eq_true (show 9 ≤ s by omega), Bool.or_true])
    refine each _ (fun k hk d h => ?_) h
    have hk4 : k < 4 := by revert hk; revert k; decide
    have hadd := h.sliceAdd hs k m hk4
    dsimp only
    generalize (if k < 2 then d.lvOn (F.SLC_PM_CFG_CH01 s) else d.lvOn (F.SLC_PM_CFG_CH23 s)) = chained
    split_ifs
    · exact h
    · exact h.slicePairLow hs (by omega) m _
    · exact h
    · exact hadd.sliceOverflow hs _
    · exact hadd

theorem pmcAdd {i : Nat} (k : Nat) : Spares p n d₀ (d.pmcAdd i k) := by
  have hset := h.set48 (a := R.CNT_PMC_LO i) ((d.count48 (R.CNT_PMC_LO i) + k) % 2 ^ 48)
    (h.other (.inr (by simp only [R.CNT_PMC_LO]; omega))) (h.other (.inr (by simp only [R.CNT_PMC_LO]; omega)))
  have hwrap := hset.bit (f := ⟨R.CNT_OVF, i, 1⟩) true (h.other (.inr (by simp [R.CNT_OVF])))
  unfold Dev.pmcAdd Dev.pmcWrap
  dsimp only
  split_ifs
  · exact hwrap.raise _ _ _
  · exact hwrap
  · exact hset

theorem cpuEvent (e k : Nat) : Spares p n d₀ (d.cpuEvent e k) := by
  unfold Dev.cpuEvent
  split
  · exact h
  · refine each _ (fun i _ d h => ?_) h
    dsimp only
    generalize (if d.cpu.user then _ else _ : Bool) = counts
    split
    · exact h.pmcAdd k
    · exact h

theorem cycles (k : Nat) : Spares p n d₀ (d.cycles k) := by
  unfold Dev.cycles
  split
  · exact h
  · exact (h.word _ (h.other (.inr (by decide)))).word _ (h.other (.inr (by decide)))

theorem sliceClocks (k : Nat) : Spares p n d₀ (d.sliceClocks k) := by
  have hs := each (d₀ := d₀) ((List.finRange 9).filter fun s => d.domOn (.slc s) && !d.gated s)
    (f := fun s d => d.sliceEvent s 1 k) (fun s _ d h => h.sliceEvent s 1 k) h
  unfold Dev.sliceClocks
  dsimp only
  split
  · exact hs
  · exact hs.sliceEvent _ _ _

theorem elapse : Spares p n d₀ d.elapse := by
  unfold Dev.elapse
  split
  · exact h
  · have hfree : Spares p n d₀ d.takeFree.2 := h.same rfl rfl rfl
    exact (((hfree.sliceClocks _).cycles _).cpuEvent _ _).same rfl rfl rfl

/-! ### Domains and slices (chapters 10 and 17) -/

theorem hostSignals : Spares p n d₀ d.hostSignals := each _ (fun k _ _ h => h.modHost k _) h

/-- The registers of a slice's domain lie in its own block. -/
theorem sliceWord {a : Nat} {s : Slice} (ha : domainOf a = .slc s) : ¬ p a := by
  refine h.other ?_
  by_contra hc
  have hb : (a - 0x10000000) / 0x10000 = 17 := by omega
  unfold domainOf at ha
  simp only [hb] at ha
  split_ifs at ha
  omega

theorem poke {a : Nat} (v : Word) (ha : ¬ p a) : Spares p n d₀ (d.poke a v) := by
  unfold Dev.poke
  split
  · dsimp only
    split
    · exact h.word _ ha
    · exact (h.word _ ha).same rfl rfl rfl
  · exact h

theorem resetWords {q : Nat → Bool} (hq : ∀ a, q a = true → ¬ p a) : Spares p n d₀ (d.resetWords q) := by
  refine ⟨h.block, fun a ha => ?_, h.frame, h.raised⟩
  have hqa : q a = false := by
    by_contra hc
    exact hq a (by simpa using hc) ha
  have hget := Cells.get_filter regReset d.regs (fun a => !q a) a
  rw [hqa] at hget
  exact hget.trans (h.reg a ha)

theorem domBit (x : Dom) (b : Bool) : Spares p n d₀ (d.setOn (domBit x) b) :=
  h.bit _ (h.other (.inl (by rw [domBit_addr]; decide)))

theorem sliceUp (s : Slice) : Spares p n d₀ (d.domainUp (.slc s)) := by
  have hreset := ((h.elapse).resetWords (q := resetBy (.slc s)) fun a ha => h.sliceWord (s := s) (by
    simp only [resetBy, Bool.and_eq_true, beq_iff_eq] at ha
    exact ha.1.1.1)).domBit (.slc s) true
  refine each _ (fun x hx d h => h.poke _ (h.sliceWord (s := s) ?_)) hreset
  simpa using (List.mem_filter.mp hx).2

theorem sliceDown (s : Slice) : Spares p n d₀ (d.domainDown (.slc s)) :=
  ((h.elapse.same (e := { d.elapse with pwr := { d.elapse.pwr with woken := d.elapse.pwr.woken.filter fun p => p.1 != .slc s } })
    rfl rfl rfl).domBit (.slc s) false)

theorem updateFly : Spares p n d₀ d.updateFly := by
  have hstat : ¬ p F.SPR_STAT_FLY.addr := h.other (.inr (by decide))
  unfold Dev.updateFly
  generalize hd : ((if d.fld F.SPR_STAT_FLY = d.flyleaf then d else d.elapse).setFld F.SPR_STAT_FLY d.flyleaf) = d'
  have h' : Spares p n d₀ d' := by
    rw [← hd]
    split
    · exact h.field _ hstat
    · exact h.elapse.field _ hstat
  dsimp only
  split
  · exact h'
  · refine each _ (fun s _ d h => ?_) h'
    split_ifs
    · exact h.sliceUp s
    · exact h.sliceDown s
    · exact h

/-! ### The end of a shadow (R359 to R368) -/

theorem spareWord {f : Fld} (x : Nat) (hf : 0x10140000 ≤ f.addr) : Spares p n d₀ (d.setFld f x) := h.field _ (h.other (.inr (by omega)))

theorem shadowOver : Spares p n d₀ d.shadowOver := by
  unfold Dev.shadowOver
  refine Spares.modSpr (spareWord ?_ _ (by decide)) _
  split
  · exact h
  · exact h.elapse

theorem rotationFailed : Spares p n d₀ d.rotationFailed := (h.spareWord _ (by decide)).modSpr _

theorem endShadow (r : Nat) : Spares p n d₀ (d.endShadow r) := by
  unfold Dev.endShadow
  split
  · exact h
  · have hover := ((h.shadowOver.spareWord (f := F.SPR_STAT_ABORT) r (by decide)).bump (a := R.SPR_ABORTS)
      (h.other (.inr (by decide)))).raise Blk.spr 0x82 d.target
    exact (((hover.when _ rotationFailed).when _ fun h => (h.modSpr _).modSpr _).when _ fun h => h.modSpr _).updateFly

theorem endShadowOf (l : Lane) (r : Nat) : Spares p n d₀ (d.endShadowOf l r) := by
  unfold Dev.endShadowOf
  split
  · exact h.endShadow r
  · exact h

/-! ### Fault windows (R658, R659) -/

theorem setBucket (b : Bucket) : Spares p n d₀ (d.setBucket b) := h.same rfl rfl rfl

/-- The flag of a lasting fault may stand in the lane. -/
abbrev FlagApart (p : Nat → Prop) (c i : Nat) : Prop := ∀ f, lastingFlag c i = some f → ¬ p f.addr

section
variable {c i : Nat} (hf : FlagApart p c i)
include hf

theorem endLasting : Spares p n d₀ (d.endLasting c i) := by
  have hraise := h.raise Blk.flt 0x39 c
  have hev : Spares p n d₀ (if c = 1 then (d.raise Blk.flt 0x39 c).raise Blk.lane 0x21 i
      else if c = 5 then (d.raise Blk.flt 0x39 c).raise Blk.cal 0x55 i else d.raise Blk.flt 0x39 c) := by
    split_ifs
    · exact hraise.raise _ _ _
    · exact hraise.raise _ _ _
    · exact hraise
  unfold Dev.endLasting
  dsimp only
  generalize (if c = 1 then _ else _ : Dev) = e at hev ⊢
  split
  · next f hfl =>
    split
    · exact hev
    · exact hev.bit _ (hf f hfl)
  · exact hev

theorem leak : Spares p n d₀ (d.leak c i) := by
  unfold Dev.leak
  dsimp only
  split_ifs
  · exact h
  · exact (h.setBucket _).endLasting hf
  · exact h.setBucket _

omit hf in
theorem reportLasting : Spares p n d₀ (d.reportLasting c i) := by
  have hlast := h.bump (a := R.FLT_LAST c) (h.other (.inr (by simp only [R.FLT_LAST]; omega)))
  exact ((hlast.field _ (h.other (.inr (by decide)))).field _ (h.other (.inr (by decide)))).raise _ _ _

theorem charge {action : Dev → Dev} (ha : ∀ {d}, Spares p n d₀ d → Spares p n d₀ (action d)) :
    Spares p n d₀ (d.charge c i action) := by
  unfold Dev.charge
  dsimp only
  split
  · exact ha ((h.leak hf).setBucket _).reportLasting
  · exact (h.leak hf).setBucket _

end

/-! ### Calibration (R328 to R335) -/

theorem calWord {a : Nat} (ha : 0x10130000 ≤ a) : ¬ p a := h.other (.inr (by omega))

section
variable (k : Lane) (i : Fin 4)

theorem calStat {lo w : Nat} (x : Nat) : Spares p n d₀ (d.setFld ⟨R.CAL_STAT k, lo, w⟩ x) :=
  h.field _ (h.calWord (by simp only [R.CAL_STAT]; omega))

theorem calEnd : Spares p n d₀ (d.calEnd k i) := ((h.modCal k i _).calStat k _).calStat k _

theorem calFail (reason event : Nat) : Spares p n d₀ (d.calFail k i reason event) := by
  have hrej := (h.calStat k (lo := 16 + 4 * i) (w := 4) reason).bump (a := R.CAL_REJ k i)
    (h.calWord (by simp only [R.CAL_REJ]; omega))
  unfold Dev.calFail
  dsimp only
  refine Spares.charge ((hrej.raise Blk.cal event k).calEnd k i) (fun f hfl => h.calWord ?_) fun h => (h.calStat k _).raise _ _ _
  obtain rfl : F.CAL_STAT_DEGRADED k = f := by simpa [lastingFlag] using hfl
  simp only [R.CAL_STAT]
  omega

theorem calFgNext (reason : Nat) : Spares p n d₀ (d.calFgNext k i reason) := by
  unfold Dev.calFgNext
  split
  · exact h.calFail k i _ _
  · exact h.modCal k i _

theorem calRetry (reason : Nat) (again : CalItem → CalItem) : Spares p n d₀ (d.calRetry k i reason again) := by
  unfold Dev.calRetry
  dsimp only
  split_ifs
  · exact ((h.calStat k _).modCal k i _).calFgNext k i _
  · exact (h.calStat k _).modCal k i _
  · exact h.calFail k i _ _

theorem calInputChange (reason : Nat) : Spares p n d₀ (d.calInputChange k i reason) := by
  unfold Dev.calInputChange
  dsimp only
  split
  · exact h.calRetry k i _ _
  · exact h

omit i in
theorem calRxChange : Spares p n d₀ (d.calRxChange k) := (h.calInputChange k 0 3).calInputChange k 1 3

end

/-! ### Streams and the mesh (R60, R387, R399 to R408) -/

theorem updateStreams : Spares p n d₀ d.updateStreams := by
  refine each _ (fun s _ d h => ?_) h
  dsimp only
  split
  · exact h
  · exact (h.bit _ (h.other (.inl (by simp [upBit, R.MAP_STAT])))).raise _ _ _

theorem meshWord {a : Nat} (ha : 0x10150000 ≤ a) : ¬ p a := h.other (.inr (by omega))

theorem freeBuffer (s : Stitch) : Spares p n d₀ (d.freeBuffer s) := by
  unfold Dev.freeBuffer
  split
  · exact h.modLink _ _
  · exact h

theorem stitchDone (s : Stitch) : Spares p n d₀ (d.stitchDone s) := by
  have hbuf := (h.freeBuffer s).bump (a := R.MSH_FWD) (h.meshWord (by decide))
  unfold Dev.stitchDone
  dsimp only
  split_ifs
  · exact hbuf.modMsh _
  · exact h.modMsh _
  · exact hbuf
  · exact h

theorem dropStitch {counter : Nat} (hc : 0x10150000 ≤ counter) (s : Stitch) : Spares p n d₀ (d.dropStitch counter s) := by
  have hdrop := (h.freeBuffer s).bump (h.meshWord hc)
  unfold Dev.dropStitch
  dsimp only
  split
  · exact hdrop.field _ (h.meshWord (by decide))
  · exact hdrop

theorem enqueue (s : Stitch) : Spares p n d₀ (d.enqueue s) := by
  unfold Dev.enqueue
  split
  · exact h.modLink _ _
  · exact h.dropStitch (by decide) s

theorem leaveUp (k : Lane) : Spares p n d₀ (d.leaveUp k) := by
  have hroutes (l : List Route) : Spares p n d₀
      (d.each l fun r d => (d.putRoute { r with dist := 63, gone := 0 }).changed r.addr) :=
    each l (fun _ _ _ h => (h.modMsh _).modMsh _) h
  unfold Dev.leaveUp
  dsimp only
  refine each _ (fun s _ _ h => h.enqueue s) ?_
  split
  · exact ((hroutes _).modLink _ _).stitchDone _
  · exact (hroutes _).modLink _ _

section
variable (k : Lane)

theorem linkWord {lo w : Nat} (x : Nat) : Spares p n d₀ (d.setFld ⟨R.MSH_NBR_STAT k, lo, w⟩ x) :=
  h.field _ (h.meshWord (by simp only [R.MSH_NBR_STAT]; omega))

theorem toLinkState (st : Nat) (ev : Option Nat) : Spares p n d₀ (d.toLinkState k st ev) := by
  have hleave : Spares p n d₀ (if d.linkState k = 2 then d.leaveUp k else d) := by
    split
    · exact h.leaveUp k
    · exact h
  unfold Dev.toLinkState
  dsimp only
  split
  · exact ((hleave.linkWord k _).modLink _ _).raise _ _ _
  · exact (hleave.linkWord k _).modLink _ _

theorem clearNeighbour : Spares p n d₀ (d.clearNeighbour k) :=
  ((h.word _ (h.meshWord (by simp only [R.MSH_NBR_STAT]; omega))).word _ (h.meshWord (by simp only [R.MSH_NBR_DEVID_LO]; omega))).word
    _ (h.meshWord (by simp only [R.MSH_NBR_DEVID_HI]; omega))

theorem linkUpdate : Spares p n d₀ (d.linkUpdate k) := by
  unfold Dev.linkUpdate
  dsimp only
  split_ifs
  · exact h
  · exact h
  · exact (((h.toLinkState k 3 none).clearNeighbour k).modLink _ _).raise _ _ _
  · exact h.toLinkState k 1 none
  · exact h
  · exact h
  · exact (h.toLinkState k 0 _).linkWord k _
  · exact (h.toLinkState k 0 _).linkWord k _

theorem lockShown : Spares p n d₀ (d.lockShown k) := (h.updateStreams.hostSignals).linkUpdate k

theorem capLockLost : Spares p n d₀ (d.capLockLost k) := by
  unfold Dev.capLockLost
  split
  · dsimp only
    exact (((h.word _ (h.calWord (by decide))).field _ (h.calWord (by decide))).bit _ (h.calWord (by decide))).modCap _
  · exact h

end

end Spares

end Sys2Proof.Machine.Dev
end

section
/-! SUPPORT. The end of a lane's lock and the entry to an acquisition state, as the words of the lane's frame see them (R113, R266). -/

namespace Sys2Proof.Machine.Dev

variable {n : Lane} {d₀ d : Dev}

/-- The words of chapter 3 that show what lane n receives: lock, identity, line quire number and the counts of its markers. -/
def frameWord (n : Lane) (a : Nat) : Prop := R.LANE_FMT_STAT n ≤ a ∧ a ≤ R.LANE_LOCK_LOSS n

theorem frameWord_block (n : Lane) : ∀ a, frameWord n a → 0x10110000 ≤ a ∧ a < 0x10120000 := by
  rintro a ⟨hlo, hhi⟩
  have hn := n.isLt
  simp only [R.LANE_FMT_STAT, R.LANE_LOCK_LOSS] at hlo hhi
  omega

theorem not_frameWord {a : Nat} (ha : R.LANE_LOCK_LOSS n < a) : ¬ frameWord n a := fun h => Nat.not_le.mpr ha h.2

/-- The lane's words of the chapters after it. -/
theorem laneWord_not_frameWord {k : Nat} (hk : 0x10110130 < k) : ¬ frameWord n (k + n * 0x1000) :=
  not_frameWord (Nat.add_lt_add_right hk _)

/-- The frame's words and lane n's frame stand as they were. -/
abbrev FrameSpared (n : Lane) (d₀ d : Dev) : Prop := Spares (frameWord n) n d₀ d

theorem streamOf_lt (d : Dev) (n : Lane) {e : Nat} (he : e < 2) : d.streamOf n e < 16 := by
  have hn := n.isLt
  have hw : (n : Nat) / d.compatWidth ≤ n := Nat.div_le_self _ _
  unfold streamOf
  split_ifs <;> omega

theorem entries_lt {d : Dev} {e : Nat} (he : e ∈ d.entries) : e < 2 := by
  unfold entries at he
  split at he <;> simp at he <;> omega

theorem laneStreams_lt {d : Dev} {n : Lane} {s : Nat} (hs : s ∈ d.laneStreams n) : s < 16 := by
  simp only [laneStreams, List.mem_dedup, List.mem_map] at hs
  obtain ⟨e, he, rfl⟩ := hs
  exact streamOf_lt d n (entries_lt he)

namespace Spares

/-! ### The ledgers (R76 to R79) -/

section
variable {p : Nat → Prop} {k : Lane} (h : Spares p k d₀ d) {s : Nat} (hs : s < 16)
include h hs

theorem rxIn : Spares p k d₀ (d.rxIn s) :=
  (h.bump48By 1 (h.other (.inl (by simp only [R.MAP_RX_LEAF_IN_LO]; omega)))
    (h.other (.inl (by simp only [R.MAP_RX_LEAF_IN_LO]; omega)))).field _ (h.other (.inl (by simp only [inflRx, R.MAP_INFL]; omega)))

theorem rxDlv (m : Nat) : Spares p k d₀ (d.rxDlv s m) :=
  (h.bump48By m (h.other (.inl (by simp only [R.MAP_RX_LEAF_DLV_LO]; omega)))
    (h.other (.inl (by simp only [R.MAP_RX_LEAF_DLV_LO]; omega)))).field _ (h.other (.inl (by simp only [inflRx, R.MAP_INFL]; omega)))

theorem rxDisc {c : Nat} (hc : c < 8) (m : Nat) : Spares p k d₀ (d.rxDisc s c m) :=
  ((h.bump48By m (h.other (.inl (by simp only [R.MAP_RX_DISC_LO]; omega)))
    (h.other (.inl (by simp only [R.MAP_RX_DISC_LO]; omega)))).count m (h.other (.inl (by simp only [R.MAP_RXDISC]; omega)))).field _
    (h.other (.inl (by simp only [inflRx, R.MAP_INFL]; omega)))

omit hs in
theorem hostBitsOut (l : Lane) {e : Nat} (he : e < 2) (bits : List Bool) : Spares p k d₀ (d.hostBitsOut l e bits) := by
  have hout (x : Dev) : R.MAP_RX_CW_OUT_LO (x.streamOf l e) + 4 < 0x10110000 := by
    have := streamOf_lt x l he
    simp only [R.MAP_RX_CW_OUT_LO]
    omega
  exact (h.modHost _ _).bump48By _ (h.other (.inl (Nat.lt_of_le_of_lt (Nat.le_add_right _ 4) (hout _)))) (h.other (.inl (hout _)))

end

/-! ### Leaves on their way (R97, R143, R150) -/

section
variable (h : FrameSpared n d₀ d)
include h

theorem discardInFlight {c : Nat} (hc : c < 8) : FrameSpared n d₀ (d.discardInFlight n c) := by
  unfold Dev.discardInFlight
  exact Spares.modRx (each _ (fun _ hs _ h => h.rxDisc (laneStreams_lt (List.mem_filter.mp hs).1) hc _) h) n _

theorem deliverBlock : FrameSpared n d₀ (d.deliverBlock n) := by
  unfold Dev.deliverBlock
  refine Spares.modRx (each _ (fun s hs d h => ?_) h) n _
  have hs := laneStreams_lt (List.mem_filter.mp hs).1
  dsimp only
  split
  · exact h.rxDisc hs (by decide) _
  · exact (each _ (fun e he _ h => h.hostBitsOut n (entries_lt (List.mem_filter.mp he).1) _) h).rxDlv hs _

theorem dataLeaf (i : Nat) (payload : List Bool) : FrameSpared n d₀ (d.dataLeaf n i payload) := by
  have hin : FrameSpared n d₀ (d.each (d.laneStreams n) Dev.rxIn) := each _ (fun _ hs _ h => h.rxIn (laneStreams_lt hs)) h
  unfold Dev.dataLeaf
  dsimp only
  generalize d.each (d.laneStreams n) Dev.rxIn = e at hin ⊢
  have hflush := each (f := fun s d => d.rxDisc s rFLUSH 1)
    ((e.laneStreams n).filter fun s => (e.lane n).rx.flushed.contains s)
    (fun s hs _ h => h.rxDisc (laneStreams_lt (List.mem_filter.mp hs).1) (by decide) 1) hin
  split_ifs
  · exact each _ (fun s hs _ h => h.rxDisc (laneStreams_lt hs) (by decide) 1) hin
  · exact (hflush.modRx n _).deliverBlock
  · exact hflush.modRx n _

theorem chargeDecode (x : Decoded) : FrameSpared n d₀ (d.chargeDecode n x) := by
  have hstat : ¬ frameWord n (R.LANE_DEC_STAT n) := laneWord_not_frameWord (by decide)
  unfold Dev.chargeDecode
  split
  · refine h.charge (fun f hf => ?_) fun h => (h.bit _ hstat).raise _ _ _
    obtain rfl : F.LANE_DEC_STAT_DEGRADED n = f := by simpa [lastingFlag] using hf
    exact hstat
  · exact h

theorem laneCount {a : Nat} (ha : R.LANE_LOCK_LOSS n < a) (k : Nat) : FrameSpared n d₀ (d.bump48By a k) :=
  h.bump48By k (not_frameWord ha) (not_frameWord (Nat.lt_add_right 4 ha))

theorem countDecode (x : Decoded) (stitch : Bool) : FrameSpared n d₀ (d.countDecode n x stitch) := by
  have hleaf : FrameSpared n d₀ ((d.bump48 (R.LANE_DEC_LEAVES_LO n)).bump48By (R.LANE_DEC_CRCREJ_LO n) x.rej) :=
    (h.laneCount (a := R.LANE_DEC_LEAVES_LO n) (Nat.add_lt_add_right (by decide) _) 1).laneCount
      (a := R.LANE_DEC_CRCREJ_LO n) (Nat.add_lt_add_right (by decide) _) x.rej
  unfold Dev.countDecode
  dsimp only
  generalize (d.bump48 (R.LANE_DEC_LEAVES_LO n)).bump48By (R.LANE_DEC_CRCREJ_LO n) x.rej = e at hleaf ⊢
  have huncorr : FrameSpared n d₀ (e.bump48 (R.LANE_DEC_UNCORR_LO n)) :=
    hleaf.laneCount (a := R.LANE_DEC_UNCORR_LO n) (Nat.add_lt_add_right (by decide) _) 1
  have hright : FrameSpared n d₀ (if x.change = 0 then e.bump48 (R.LANE_DEC_CLEAN_LO n)
      else e.bump48 (R.LANE_COR_BIN_LO n (min 5 x.change))) := by
    split
    · exact hleaf.laneCount (a := R.LANE_DEC_CLEAN_LO n) (Nat.add_lt_add_right (by decide) _) 1
    · exact hleaf.laneCount (by simp only [R.LANE_COR_BIN_LO, R.LANE_LOCK_LOSS]; omega) 1
  split
  · split
    · exact huncorr.bump (a := R.LANE_STITCH_UNCORR n) (not_frameWord (Nat.add_lt_add_right (by decide) _))
    · exact huncorr
  · generalize (if x.change = 0 then _ else _ : Dev) = f at hright ⊢
    split
    · exact hright
    · exact hright.laneCount (a := R.LANE_DEC_CHASE_LO n) (Nat.add_lt_add_right (by decide) _) 1

theorem leafDone (slot : Nat) (p : List Bool) (x : Decoded) : FrameSpared n d₀ (d.leafDone n slot p x) := by
  have hcount (stitch : Bool) : FrameSpared n d₀ (if d.deliverLock n then d.countDecode n x stitch else d) := by
    split
    · exact h.countDecode x stitch
    · exact h
  unfold Dev.leafDone
  split
  · exact ((hcount false).chargeDecode x).dataLeaf _ p
  · have hdone := (hcount true).chargeDecode x
    generalize Dev.chargeDecode n x _ = e at hdone ⊢
    dsimp only
    split
    · exact hdone.modLink n _
    · exact hdone
  · exact h

theorem releaseHeld : FrameSpared n d₀ (d.releaseHeld n) := by
  unfold Dev.releaseHeld
  exact each _ (fun _ _ _ h => h.leafDone _ _ _) (h.modBrl n _)

theorem judgeLost : FrameSpared n d₀ (d.judgeLost n) := by
  unfold Dev.judgeLost
  split
  · split
    · exact (h.bump (h.other (.inr (by simp only [R.BRL_SRC_MIS]; omega)))).raise _ _ _
    · exact h
  · exact h

theorem dropFlight {c : Nat} (hc : c < 8) : FrameSpared n d₀ (d.dropFlight n c) := h.judgeLost.releaseHeld.discardInFlight hc

/-! ### The end of a lock (R113, R200) -/

theorem setGain (g : Nat) : FrameSpared n d₀ (d.setGain n g) := by
  unfold Dev.setGain
  split
  · exact h
  · exact (h.field _ (laneWord_not_frameWord (by decide))).modMs n _

theorem scaleTaps (up : Bool) : FrameSpared n d₀ (d.scaleTaps n up) := by
  unfold Dev.scaleTaps
  exact h.modAd n _

theorem agcApply (g : Nat) : FrameSpared n d₀ (d.agcApply n g) := by
  have hstep := (h.setGain g).bump (a := R.LANE_AGC_STEP n) (laneWord_not_frameWord (by decide))
  unfold Dev.agcApply
  dsimp only
  split
  · exact hstep
  · exact hstep.scaleTaps _

theorem gainDue : FrameSpared n d₀ (d.gainDue n) := by
  unfold Dev.gainDue
  split
  · exact ((h.agcApply _).modRx n _).bit _ (laneWord_not_frameWord (by decide))
  · exact h

theorem lockGone {c : Nat} (hc : c < 8) : FrameSpared n d₀ (d.lockGone n c) :=
  ((((h.dropFlight hc).gainDue).calRxChange n).capLockLost n).lockShown n

theorem relockLost : FrameSpared n d₀ (d.relockLost n) := by
  have hcur : ¬ frameWord n (R.BRL_CUR n) := h.other (.inr (by simp only [R.BRL_CUR]; omega))
  have hstat : ¬ frameWord n (R.BRL_STAT n) := h.other (.inr (by simp only [R.BRL_STAT]; omega))
  unfold Dev.relockLost
  split_ifs
  · exact h
  · exact (((h.bit _ hcur).bit _ hcur).field _ hstat).endShadowOf n 4
  · exact h.field _ hstat
  · exact h

end

end Spares

/-! ### Acquisition states (R266, R269) -/

/-- An acquisition state is shown, its counts afresh. -/
def acqBegun (n : Lane) (st : Nat) (d : Dev) : Dev :=
  let d := (d.setFld (F.LANE_EQ_STAT_ACQ n) st).setOn (F.LANE_EQ_STAT_SIG n) (decide (2 ≤ st))
  let d := d.modPwr fun p => { p with dozeQ := p.dozeQ.set n 0 }
  d.modRx n fun r => { r with tState := 0, inBand := 0, satRun := 0, timRun := 0, timLast := none, hit := false,
                              opp := [], oppNone := 0, cand := [], fgDue := r.fgDue && decide (3 ≤ st) }

/-- An acquisition state is entered, before what DATA begins or ends. -/
def acqShown (n : Lane) (st : Nat) (d : Dev) : Dev :=
  let d := if st < 7 then (d.acqBegun n st).mlseOff n else d.acqBegun n st
  if st ≤ 3 then d.setOn (F.LANE_EQ_STAT_TIM_LOCK n) false else d.setOn (F.LANE_EQ_STAT_TIM_LOCK n) true

theorem setAcq_stages {st : Nat} (hst : st ≠ 10) (d : Dev) :
    d.setAcq n st =
      ((if d.acq n = 10 then (d.acqShown n st).leaveData n else d.acqShown n st).clearWindow n).showFrozen n := by
  unfold setAcq acqShown acqBegun modPwr
  by_cases hd : d.acq n = 10
  · simp only [hd, hst, not_false_eq_true, and_self, if_true, ne_eq]
  · simp only [hd, hst, false_and, and_false, if_false, ne_eq]

/-- A flag of EQ_STAT other than the state itself. -/
theorem fld_acq_setOn {f : Fld} (b : Bool) (d : Dev) (hf : f.lo + f.w ≤ 28) : (d.setOn f b).acq n = d.acq n := by
  unfold acq setOn
  exact fld_setFld_apart _ _ (by omega) (.inl hf)

theorem leaveData_acq (d : Dev) : (d.leaveData n).acq n = d.acq n := by
  have hblock : ∀ a, a = R.LANE_EQ_STAT n → 0x10110000 ≤ a ∧ a < 0x10120000 := by
    rintro a rfl
    have hn := n.isLt
    simp only [R.LANE_EQ_STAT]
    omega
  have hshadow (d : Dev) : (d.endShadowOf n 4).acq n = d.acq n := ((Spares.refl (n := n) hblock).endShadowOf n 4).fld rfl
  rw [leaveData, hshadow, fld_acq_setOn _ _ (by simp), fld_acq_setOn _ _ (by simp)]

theorem mlseOff_acq (d : Dev) : (d.mlseOff n).acq n = d.acq n := fld_acq_setOn (f := F.LANE_EQ_STAT_MLSE_ON n) _ d (by simp)

theorem acqBegun_acq (st : Nat) (d : Dev) : (d.acqBegun n st).acq n = st % 16 := by
  have hshow : ((d.setFld (F.LANE_EQ_STAT_ACQ n) st).setOn (F.LANE_EQ_STAT_SIG n) (decide (2 ≤ st))).acq n = st % 16 := by
    rw [fld_acq_setOn _ _ (by simp)]
    exact fld_setFld_self _ _ _ (by simp)
  rwa [acqBegun, acq, modRx, modLane_fld, modPwr_fld]

theorem acqShown_acq (st : Nat) (d : Dev) : (d.acqShown n st).acq n = st % 16 := by
  have hmlse : (if st < 7 then (d.acqBegun n st).mlseOff n else d.acqBegun n st).acq n = st % 16 := by
    split
    · rw [mlseOff_acq, acqBegun_acq]
    · exact acqBegun_acq st d
  unfold acqShown
  dsimp only
  split <;> rw [fld_acq_setOn _ _ (by simp), hmlse]

theorem setAcq_acq {st : Nat} (hst : st ≠ 10) (d : Dev) : (d.setAcq n st).acq n = st % 16 := by
  have hleft : (if d.acq n = 10 then (d.acqShown n st).leaveData n else d.acqShown n st).acq n = st % 16 := by
    split
    · rw [leaveData_acq, acqShown_acq]
    · exact acqShown_acq st d
  rw [setAcq_stages hst, showFrozen, fld_acq_setOn _ _ (by simp)]
  exact hleft

namespace Spares

variable (h : FrameSpared n d₀ d)
include h

/-- A field of EQ_STAT. -/
theorem eqStat {lo w : Nat} (x : Nat) : FrameSpared n d₀ (d.setFld ⟨R.LANE_EQ_STAT n, lo, w⟩ x) :=
  h.field x (not_frameWord (Nat.add_lt_add_right (by decide) _))

theorem mlseOff : FrameSpared n d₀ (d.mlseOff n) := (h.eqStat _).modRx n _

theorem leaveData : FrameSpared n d₀ (d.leaveData n) := ((h.eqStat _).eqStat _).endShadowOf n 4

theorem acqBegun (st : Nat) : FrameSpared n d₀ (d.acqBegun n st) := by
  unfold Dev.acqBegun
  exact (((h.eqStat st).bit _ (not_frameWord (Nat.add_lt_add_right (by decide) _))).modPwr _).modRx n _

theorem acqShown (st : Nat) : FrameSpared n d₀ (d.acqShown n st) := by
  have hmlse : FrameSpared n d₀ (if st < 7 then (d.acqBegun n st).mlseOff n else d.acqBegun n st) := by
    split
    · exact (h.acqBegun st).mlseOff
    · exact h.acqBegun st
  unfold Dev.acqShown
  dsimp only
  split
  · exact hmlse.eqStat _
  · exact hmlse.eqStat _

/-- The entry to a state other than DATA. -/
theorem setAcq {st : Nat} (hst : st ≠ 10) : FrameSpared n d₀ (d.setAcq n st) := by
  rw [setAcq_stages hst]
  have hleft : FrameSpared n d₀ (if d.acq n = 10 then (d.acqShown n st).leaveData n else d.acqShown n st) := by
    split
    · exact (h.acqShown st).leaveData
    · exact h.acqShown st
  exact (hleft.modMs n _).eqStat _

end Spares

end Sys2Proof.Machine.Dev
end

section
/-! SUPPORT. What becomes of a decoded leaf: the decoder's counters (R147, R148), and the leaf passed on or discarded (R77, R146, R302). -/

namespace Sys2Proof.Machine.Dev

@[simp] theorem bump48By_rest (a k : Nat) (d : Dev) : (d.bump48By a k).rest = d.rest := by
  simp only [bump48By, set48, setReg_rest]

@[simp] theorem bump48By_raised (a k : Nat) (d : Dev) : (d.bump48By a k).raised = d.raised := by
  simp only [bump48By, set48, setReg_raised]

@[simp] theorem bump_raised (a : Nat) (d : Dev) : (d.bump a).raised = d.raised := by
  simp only [bump, bumpBy, setReg_raised]

/-! ### The decoder's counters (R147, R148) -/

/-- The decoder's ten 48-bit counters: leaves, clean ones, the five bins, CHASE, UNCORR, CRCREJ. -/
def decodeCounter (n : Lane) (i : Nat) : Nat := R.LANE_DEC_LEAVES_LO n + 8 * i

theorem leaves_counter (n : Lane) : R.LANE_DEC_LEAVES_LO n = decodeCounter n 0 := rfl

theorem clean_counter (n : Lane) : R.LANE_DEC_CLEAN_LO n = decodeCounter n 1 := by
  simp only [R.LANE_DEC_CLEAN_LO, decodeCounter, R.LANE_DEC_LEAVES_LO]; omega

theorem bin_counter (n : Lane) {k : Nat} (hk : 1 ≤ k) : R.LANE_COR_BIN_LO n k = decodeCounter n (1 + k) := by
  simp only [R.LANE_COR_BIN_LO, decodeCounter, R.LANE_DEC_LEAVES_LO]; omega

theorem chase_counter (n : Lane) : R.LANE_DEC_CHASE_LO n = decodeCounter n 7 := by
  simp only [R.LANE_DEC_CHASE_LO, decodeCounter, R.LANE_DEC_LEAVES_LO]; omega

theorem uncorr_counter (n : Lane) : R.LANE_DEC_UNCORR_LO n = decodeCounter n 8 := by
  simp only [R.LANE_DEC_UNCORR_LO, decodeCounter, R.LANE_DEC_LEAVES_LO]; omega

theorem crcrej_counter (n : Lane) : R.LANE_DEC_CRCREJ_LO n = decodeCounter n 9 := by
  simp only [R.LANE_DEC_CRCREJ_LO, decodeCounter, R.LANE_DEC_LEAVES_LO]; omega

/-- The decoder's counters have risen by f, and nothing else has changed. -/
structure Counted (n : Lane) (f : Nat → Nat) (d e : Dev) : Prop where
  count  : ∀ i < 10, e.count48 (decodeCounter n i) = (d.count48 (decodeCounter n i) + f i) % 2 ^ 48
  stitch : e.reg (R.LANE_STITCH_UNCORR n) = d.reg (R.LANE_STITCH_UNCORR n)
  raised : e.raised = d.raised
  rest   : e.rest = d.rest

namespace Counted

variable {n : Lane} {f : Nat → Nat} {d e : Dev}

theorem refl (n : Lane) (d : Dev) : Counted n 0 d d :=
  ⟨fun i _ => by rw [Pi.zero_apply, Nat.add_zero, Nat.mod_eq_of_lt (count48_lt _ d)], rfl, rfl, rfl⟩

theorem rise (h : Counted n f d e) {i : Nat} (hi : i < 10) (k : Nat) :
    Counted n (f + Pi.single i k) d (e.bump48By (decodeCounter n i) k) where
  count j hj := by
    rw [Pi.add_apply]
    by_cases hij : j = i
    · subst hij
      rw [bump48By, count48_set48_self, h.count j hj, Pi.single_eq_same, Nat.mod_add_mod, Nat.add_assoc]
    · have hreg : ∀ a, a = decodeCounter n j ∨ a = decodeCounter n j + 4 →
          (e.bump48By (decodeCounter n i) k).reg a = e.reg a := fun a ha =>
        reg_set48_ne _ e (by simp only [decodeCounter] at *; omega) (by simp only [decodeCounter] at *; omega)
      rw [count48_congr (hreg _ (.inl rfl)) (hreg _ (.inr rfl)), h.count j hj, Pi.single_eq_of_ne hij, Nat.add_zero]
  stitch := by
    rw [bump48By, reg_set48_ne, h.stitch] <;> simp only [decodeCounter, R.LANE_STITCH_UNCORR, R.LANE_DEC_LEAVES_LO] <;> omega
  raised := by rw [bump48By_raised, h.raised]
  rest := by rw [bump48By_rest, h.rest]

end Counted

/-- The counter of a leaf with a candidate: clean, or the bin of the bits changed. -/
def rightClass (x : Decoded) : Nat := if x.change = 0 then 1 else 1 + min 5 x.change

theorem rightClass_bounds (x : Decoded) : 1 ≤ rightClass x ∧ rightClass x ≤ 6 := by
  unfold rightClass
  split <;> omega

/-- What a leaf adds to each counter. -/
def decodeRise (x : Decoded) : Nat → Nat :=
  0 + Pi.single 0 1 + Pi.single 9 x.rej +
    if x.bad then Pi.single 8 1 else Pi.single (rightClass x) 1 + if x.pat = 0 then 0 else Pi.single 7 1

theorem decodeRise_bad {x : Decoded} (hx : x.bad = true) (i : Nat) :
    decodeRise x i = (if i = 0 then 1 else 0) + (if i = 9 then x.rej else 0) + if i = 8 then 1 else 0 := by
  rw [decodeRise, if_pos hx]
  simp only [Pi.add_apply, Pi.zero_apply, Pi.single_apply, Nat.zero_add]

theorem decodeRise_right {x : Decoded} (hx : x.bad = false) (i : Nat) :
    decodeRise x i = (if i = 0 then 1 else 0) + (if i = 9 then x.rej else 0) +
      ((if i = rightClass x then 1 else 0) + if i = 7 then (x.pat != 0).toNat else 0) := by
  rw [decodeRise, if_neg (by simp [hx])]
  by_cases hp : x.pat = 0
  · simp [hp, Pi.single_apply]
  · simp [hp, Pi.single_apply, bne_iff_ne.mpr hp]

theorem decodeRise_leaf (x : Decoded) : decodeRise x 0 = 1 := by
  have hc := rightClass_bounds x
  cases hx : x.bad
  · rw [decodeRise_right hx, if_neg (show ¬ 0 = rightClass x by omega)]
    simp
  · rw [decodeRise_bad hx]
    simp

theorem decodeRise_bin (x : Decoded) {k : Nat} (hk : 1 ≤ k) (hk' : k ≤ 5) :
    decodeRise x (1 + k) = (!x.bad && x.change != 0 && min 5 x.change == k).toNat := by
  cases hx : x.bad
  · rw [decodeRise_right hx, if_neg (by omega), if_neg (by omega), if_neg (show ¬ 1 + k = 7 by omega), Bool.not_false, Bool.true_and]
    have hclass : 1 + k = rightClass x ↔ (x.change != 0 && min 5 x.change == k) = true := by
      rw [Bool.and_eq_true, bne_iff_ne, beq_iff_eq, rightClass]
      split <;> omega
    simp only [hclass]
    cases (x.change != 0 && min 5 x.change == k) <;> rfl
  · rw [decodeRise_bad hx, if_neg (by omega), if_neg (by omega), if_neg (by omega)]
    rfl

theorem decodeRise_clean (x : Decoded) : decodeRise x 1 = (!x.bad && x.change == 0).toNat := by
  cases hx : x.bad
  · have hclass : 1 = rightClass x ↔ (x.change == 0) = true := by
      rw [beq_iff_eq, rightClass]
      split <;> omega
    rw [decodeRise_right hx]
    simp only [hclass]
    cases (x.change == 0) <;> rfl
  · rw [decodeRise_bad hx]
    rfl

theorem decodeRise_chase (x : Decoded) : decodeRise x 7 = (!x.bad && x.pat != 0).toNat := by
  have hc := rightClass_bounds x
  cases hx : x.bad
  · rw [decodeRise_right hx, if_neg (show ¬ 7 = rightClass x by omega)]
    simp
  · rw [decodeRise_bad hx]
    rfl

theorem decodeRise_uncorr (x : Decoded) : decodeRise x 8 = x.bad.toNat := by
  have hc := rightClass_bounds x
  cases hx : x.bad
  · rw [decodeRise_right hx, if_neg (show ¬ 8 = rightClass x by omega)]
    simp
  · rw [decodeRise_bad hx]
    simp

theorem decodeRise_rej (x : Decoded) : decodeRise x 9 = x.rej := by
  have hc := rightClass_bounds x
  cases hx : x.bad
  · rw [decodeRise_right hx, if_neg (show ¬ 9 = rightClass x by omega)]
    simp
  · rw [decodeRise_bad hx]
    simp

/-- A leaf with a candidate: clean, or in the bin of the bits changed. -/
def rightCounted (n : Lane) (x : Decoded) (d : Dev) : Dev :=
  if x.change = 0 then d.bump48 (R.LANE_DEC_CLEAN_LO n) else d.bump48 (R.LANE_COR_BIN_LO n (min 5 x.change))

/-- The decoder's counters for one leaf, whatever its slot. -/
def decodeCounted (n : Lane) (x : Decoded) (d : Dev) : Dev :=
  let d := (d.bump48 (R.LANE_DEC_LEAVES_LO n)).bump48By (R.LANE_DEC_CRCREJ_LO n) x.rej
  if x.bad then d.bump48 (R.LANE_DEC_UNCORR_LO n)
  else if x.pat = 0 then d.rightCounted n x else (d.rightCounted n x).bump48 (R.LANE_DEC_CHASE_LO n)

theorem countDecode_eq (n : Lane) (x : Decoded) (stitch : Bool) (d : Dev) : d.countDecode n x stitch =
    if x.bad && stitch then (d.decodeCounted n x).bump (R.LANE_STITCH_UNCORR n) else d.decodeCounted n x := by
  unfold countDecode decodeCounted rightCounted
  dsimp only
  generalize (d.bump48 (R.LANE_DEC_LEAVES_LO n)).bump48By (R.LANE_DEC_CRCREJ_LO n) x.rej = e
  cases x.bad
  · simp only [Bool.false_and, Bool.false_eq_true, if_false]
  · simp only [Bool.true_and, if_true]

theorem Counted.rightCounted {n : Lane} {f : Nat → Nat} {d e : Dev} (h : Counted n f d e) (x : Decoded) :
    Counted n (f + Pi.single (rightClass x) 1) d (e.rightCounted n x) := by
  unfold Dev.rightCounted rightClass
  split
  · rw [clean_counter]
    exact h.rise (by decide) 1
  · next hx =>
    rw [bin_counter n (by omega)]
    exact h.rise (by omega) 1

theorem decodeCounted_counted (n : Lane) (x : Decoded) (d : Dev) : Counted n (decodeRise x) d (d.decodeCounted n x) := by
  have hleaf := ((Counted.refl n d).rise (i := 0) (by decide) 1).rise (i := 9) (by decide) x.rej
  rw [← leaves_counter, ← crcrej_counter] at hleaf
  unfold decodeCounted decodeRise
  dsimp only
  split
  · rw [uncorr_counter]
    exact hleaf.rise (by decide) 1
  · rw [← add_assoc]
    split
    · exact hleaf.rightCounted x
    · rw [chase_counter]
      exact (hleaf.rightCounted x).rise (by decide) 1

/-! ### A decoded leaf of a lane that does not deliver (R77, R302) -/

/-- The words that say whether lane n delivers: its state, its relock state and its marker lock. -/
def deliverWord (n : Lane) (a : Nat) : Prop := a = R.PWR_LANE_STAT ∨ a = R.BRL_STAT n ∨ a = R.LANE_FMT_STAT n

theorem Ignores.deliverLock (n : Lane) : Ignores (fun d => d.deliverLock n) (deliverWord n) where
  word a v d h := by
    simp only [deliverWord, not_or] at h
    obtain ⟨hpwr, hbrl, hfmt⟩ := h
    have hrun : (d.setReg a v).inRun n = d.inRun n := congrArg (· == 2) (fld_setReg_ne v d (Ne.symm hpwr))
    have hstate : (d.setReg a v).brlState n = d.brlState n := fld_setReg_ne v d (Ne.symm hbrl)
    have hlock : (d.setReg a v).on (F.LANE_FMT_STAT_MK_LOCK n) = d.on (F.LANE_FMT_STAT_MK_LOCK n) :=
      congrArg (· == 1) (fld_setReg_ne v d (Ne.symm hfmt))
    have hnative : (d.setReg a v).native = d.native := rfl
    show (d.setReg a v).deliverLock n = d.deliverLock n
    rw [Dev.deliverLock, spLive, locked, hrun, hstate, hlock, hnative, setReg_lvOn, setReg_lane]
    rfl
  flt _ _ := rfl
  raise _ _ _ _ := rfl

theorem Ignores.laneStreams (n : Lane) : Ignores (fun d => d.laneStreams n) (fun _ => False) where
  word _ _ _ _ := rfl
  flt _ _ := rfl
  raise _ _ _ _ := rfl

/-- A reading that ignores the fault windows' words and DEGRADED ignores an uncorrectable leaf's charge. -/
theorem Ignores.chargeDecode {β : Type} {g : Dev → β} {p : Nat → Prop} (hg : Ignores g p) {n : Lane} (x : Decoded) (d : Dev)
    (hf : ∀ a, Ignores.faultWord 1 n a → ¬ p a) : g (d.chargeDecode n x) = g d := by
  have hstat : ¬ p (R.LANE_DEC_STAT n) := hf _ (.inr (.inr ⟨F.LANE_DEC_STAT_DEGRADED n, rfl, rfl⟩))
  unfold Dev.chargeDecode
  split
  · exact hg.charge d hf fun e => by rw [hg.raise, hg.setOn _ _ hstat]
  · rfl

theorem faultWord_not_deliverWord (n : Lane) : ∀ a, Ignores.faultWord 1 n a → ¬ deliverWord n a := by
  have hn := n.isLt
  rintro a (rfl | rfl | ⟨f, hf, rfl⟩)
  · simp only [deliverWord, R.FLT_LAST, R.PWR_LANE_STAT, R.BRL_STAT, R.LANE_FMT_STAT]
    omega
  · simp only [deliverWord, R.FLT_LASTID, R.PWR_LANE_STAT, R.BRL_STAT, R.LANE_FMT_STAT]
    omega
  · obtain rfl : F.LANE_DEC_STAT_DEGRADED n = f := by simpa [lastingFlag] using hf
    simp only [deliverWord, R.LANE_DEC_STAT, R.PWR_LANE_STAT, R.BRL_STAT, R.LANE_FMT_STAT]
    omega

theorem rxIn_deliverLock {s : Nat} (hs : s < 16) (n : Lane) (d : Dev) : (d.rxIn s).deliverLock n = d.deliverLock n := by
  have hmap (a : Nat) (ha : 0x10050000 ≤ a) (ha' : a < 0x10060000) : ¬ deliverWord n a := by
    have hn := n.isLt
    simp only [deliverWord, R.PWR_LANE_STAT, R.BRL_STAT, R.LANE_FMT_STAT]
    omega
  have hin : (d.bump48 (R.MAP_RX_LEAF_IN_LO s)).deliverLock n = d.deliverLock n :=
    (Ignores.deliverLock n).bump48By 1 d (hmap _ (by simp only [R.MAP_RX_LEAF_IN_LO]; omega) (by simp only [R.MAP_RX_LEAF_IN_LO]; omega))
      (hmap _ (by simp only [R.MAP_RX_LEAF_IN_LO]; omega) (by simp only [R.MAP_RX_LEAF_IN_LO]; omega))
  have hinfl : ¬ deliverWord n (R.MAP_INFL s) :=
    hmap _ (by simp only [R.MAP_INFL]; omega) (by simp only [R.MAP_INFL]; omega)
  rw [← hin, rxIn]
  exact (Ignores.deliverLock n).setFld _ _ hinfl

theorem each_rxIn_deliverLock (n : Lane) (l : List Nat) (hl : ∀ s ∈ l, s < 16) (d : Dev) :
    (d.each l rxIn).deliverLock n = d.deliverLock n := by
  unfold each
  induction l generalizing d with
  | nil => rfl
  | cons s l ih => rw [List.foldl_cons, ih fun t ht => hl t (.tail _ ht), rxIn_deliverLock (hl s (.head _))]

theorem each_rxIn_laneStreams (n : Lane) (l : List Nat) (d : Dev) : (d.each l rxIn).laneStreams n = d.laneStreams n :=
  each_keeps l rxIn (fun d => d.laneStreams n) (fun _ d => ((Ignores.laneStreams n).setFld _ _ id).trans
    ((Ignores.laneStreams n).bump48By 1 d id id)) d

/-- A leaf of a lane that does not deliver is counted in and discarded under PREQUAL. -/
theorem dataLeaf_undelivered {n : Lane} {d : Dev} (i : Nat) (p : List Bool) (hd : d.deliverLock n = false) :
    d.dataLeaf n i p = (d.each (d.laneStreams n) rxIn).each (d.laneStreams n) fun s d => d.rxDisc s rPREQUAL 1 := by
  have hlock := each_rxIn_deliverLock n (d.laneStreams n) (fun _ hs => laneStreams_lt hs) d
  unfold dataLeaf
  dsimp only
  rw [if_pos (by rw [hlock, hd]; rfl), each_rxIn_laneStreams]

theorem leafOut_data {n : Lane} {slot i : Nat} {d : Dev} (p : List Bool) (x : Decoded) (hslot : slotKind slot = .data i)
    (hd : d.awaitsJudge n = false) :
    d.leafOut n slot p x = ((if d.deliverLock n then d.countDecode n x false else d).chargeDecode n x).dataLeaf n i p := by
  rw [leafOut, if_neg (by simp [hd]), leafDone, hslot]

end Sys2Proof.Machine.Dev

namespace Sys2Proof.Claims

open Sys2Proof.Machine Sys2Proof.Machine.Dev

variable {n : Lane} {x : Decoded} {d : Dev}

theorem leafCounted (d : Dev) (n : Lane) (x : Decoded) (stitch : Bool) : LeafCounted d n x stitch := by
  obtain ⟨hcount, hstitch, hraised, hrest⟩ := decodeCounted_counted n x d
  have hrose (i : Nat) (hi : i < 10) : (d.countDecode n x stitch).count48 (decodeCounter n i) =
      (d.count48 (decodeCounter n i) + decodeRise x i) % 2 ^ 48 := by
    rw [← hcount i hi, countDecode_eq]
    split
    · exact count48_bump_apart _ (by simp only [decodeCounter, R.LANE_STITCH_UNCORR, R.LANE_DEC_LEAVES_LO]; omega)
        (by simp only [decodeCounter, R.LANE_STITCH_UNCORR, R.LANE_DEC_LEAVES_LO]; omega)
    · rfl
  have hstay : (d.countDecode n x stitch).raised = d.raised ∧ (d.countDecode n x stitch).rest = d.rest := by
    rw [countDecode_eq]
    split
    · exact ⟨(bump_raised _ _).trans hraised, (bump_rest _ _).trans hrest⟩
    · exact ⟨hraised, hrest⟩
  have hreg : (d.countDecode n x stitch).reg (R.LANE_STITCH_UNCORR n) =
      d.reg (R.LANE_STITCH_UNCORR n) + if x.bad && stitch then 1 else 0 := by
    rw [countDecode_eq]
    split
    · rw [reg_bump, if_pos rfl, hstitch]
    · rw [hstitch]; exact (BitVec.add_zero _).symm
  unfold LeafCounted
  dsimp only
  rw [leaves_counter, clean_counter, chase_counter, uncorr_counter, crcrej_counter, hrose 0 (by decide), hrose 1 (by decide),
    hrose 8 (by decide), hrose 7 (by decide), hrose 9 (by decide), decodeRise_leaf, decodeRise_clean, decodeRise_uncorr,
    decodeRise_chase, decodeRise_rej]
  refine ⟨rfl, rfl, fun k hk hk' => ?_, rfl, rfl, rfl, hreg, hstay⟩
  rw [bin_counter n hk, hrose (1 + k) (by omega), decodeRise_bin x hk hk']

theorem leafPassed (d : Dev) (n : Lane) (slot i : Nat) (p : List Bool) (x : Decoded) : LeafPassed d n slot i p x := by
  intro hslot hd
  rw [leafOut_data p x hslot hd]
  refine ⟨fun hlock => by rw [if_pos hlock]; rfl, fun hlock => ?_⟩
  have hkept : (d.chargeDecode n x).deliverLock n = false :=
    ((Ignores.deliverLock n).chargeDecode x d (faultWord_not_deliverWord n)).trans hlock
  have hstreams : (d.chargeDecode n x).laneStreams n = d.laneStreams n :=
    (Ignores.laneStreams n).chargeDecode x d fun _ _ => id
  rw [if_neg (by simp [hlock]), dataLeaf_undelivered i p hkept, hstreams]
  rfl

end Sys2Proof.Claims
end

section
/-! SUPPORT. Markers: what an in-sequence marker shows (R112, R115, R121), what the loss of lock by markers leaves (R113), and what the
lock by a marker takes from it (R110, R111). -/

namespace Sys2Proof.Machine.Dev

variable {n : Lane} {d : Dev}

theorem fr_modFr (n : Lane) (f : Frame → Frame) (d : Dev) : ((d.modFr n f).lane n).fr = f (d.lane n).fr := by
  rw [modFr, lane_modLane, if_pos rfl]

/-! ### A marker in sequence (R112, R115, R121) -/

/-- What an in-sequence marker shows: its count, identity and version. -/
def markerShown (n : Lane) (strong : Bool) (c : MarkerContent) (d : Dev) : Dev :=
  let d := d.bump (if strong then R.LANE_MK_STRONG n else R.LANE_MK_WEAK n)
  let d := (d.setFld (F.LANE_FMT_RXID_RX_MESH n) c.mesh.toNat).setFld (F.LANE_FMT_RXID_RX_SRC n) c.src.toNat
  let d := (d.setFld (F.LANE_FMT_RXQ_RX_LQN n) c.lqn.toNat).setFld (F.LANE_FMT_STAT_RX_VER n) c.ver.toNat
  d.setOn (F.LANE_FMT_STAT_VER_MISMATCH n) (c.ver != 1)

/-- A marker's count is none of the words that show its content. -/
theorem count_apart (n : Lane) (strong : Bool) :
    (if strong then R.LANE_MK_STRONG n else R.LANE_MK_WEAK n) ≠ R.LANE_FMT_STAT n ∧
    (if strong then R.LANE_MK_STRONG n else R.LANE_MK_WEAK n) ≠ R.LANE_FMT_RXID n ∧
    (if strong then R.LANE_MK_STRONG n else R.LANE_MK_WEAK n) ≠ R.LANE_FMT_RXQ n := by
  simp only [R.LANE_MK_STRONG, R.LANE_MK_WEAK, R.LANE_FMT_STAT, R.LANE_FMT_RXID, R.LANE_FMT_RXQ]
  split <;> omega

theorem markerShown_count (strong : Bool) (c : MarkerContent) (d : Dev) :
    (d.markerShown n strong c).reg (if strong then R.LANE_MK_STRONG n else R.LANE_MK_WEAK n) =
      d.reg (if strong then R.LANE_MK_STRONG n else R.LANE_MK_WEAK n) + 1 := by
  obtain ⟨hstat, hid, hq⟩ := count_apart n strong
  unfold markerShown
  rw [reg_setOn_ne _ _ _ hstat, reg_setFld_ne _ _ _ hstat, reg_setFld_ne _ _ _ hq, reg_setFld_ne _ _ _ hid, reg_setFld_ne _ _ _ hid,
    reg_bump, if_pos rfl]

/-- The words before those of the received marker and after its counts stand. -/
theorem markerShown_reg {a : Nat} (ha : a < R.LANE_FMT_STAT n ∨ R.LANE_MK_WEAK n < a) (strong : Bool) (c : MarkerContent) (d : Dev) :
    (d.markerShown n strong c).reg a = d.reg a := by
  have hne : a ≠ R.LANE_FMT_STAT n ∧ a ≠ R.LANE_FMT_RXID n ∧ a ≠ R.LANE_FMT_RXQ n ∧
      a ≠ if strong then R.LANE_MK_STRONG n else R.LANE_MK_WEAK n := by
    simp only [R.LANE_MK_STRONG, R.LANE_MK_WEAK, R.LANE_FMT_STAT, R.LANE_FMT_RXID, R.LANE_FMT_RXQ] at *
    split <;> omega
  obtain ⟨hstat, hid, hq, hcount⟩ := hne
  unfold markerShown
  rw [reg_setOn_ne _ _ _ hstat, reg_setFld_ne _ _ _ hstat, reg_setFld_ne _ _ _ hq, reg_setFld_ne _ _ _ hid, reg_setFld_ne _ _ _ hid,
    reg_bump_ne _ hcount]

/-- A field of FMT_STAT apart from the version stands. -/
theorem markerShown_stat {lo w : Nat} (hver : 8 + 4 ≤ lo ∨ lo + w ≤ 8) (hmis : 3 ≤ lo ∨ lo + w ≤ 2) (strong : Bool)
    (c : MarkerContent) (d : Dev) :
    (d.markerShown n strong c).fld ⟨R.LANE_FMT_STAT n, lo, w⟩ = d.fld ⟨R.LANE_FMT_STAT n, lo, w⟩ := by
  obtain ⟨hstat, -, -⟩ := count_apart n strong
  unfold markerShown setOn bump bumpBy
  rw [fld_setFld_apart _ _ (by simp) (by simpa [Fld.apart] using hmis), fld_setFld_apart _ _ (by simp) (by simpa [Fld.apart] using hver),
    fld_setFld_word _ _ (by simp), fld_setFld_word _ _ (by simp), fld_setFld_word _ _ (by simp), fld_setReg_ne _ _ (Ne.symm hstat)]

theorem markerShown_content (strong : Bool) (c : MarkerContent) (d : Dev) :
    (d.markerShown n strong c).fld (F.LANE_FMT_RXQ_RX_LQN n) = c.lqn.toNat ∧
      (d.markerShown n strong c).fld (F.LANE_FMT_RXID_RX_SRC n) = c.src.toNat := by
  unfold markerShown setOn
  refine ⟨?_, ?_⟩
  · rw [fld_setFld_word _ _ (by simp), fld_setFld_word _ _ (by simp), fld_setFld_self _ _ _ (by simp)]
    exact Nat.mod_eq_of_lt c.lqn.isLt
  · rw [fld_setFld_word _ _ (by simp), fld_setFld_word _ _ (by simp), fld_setFld_word _ _ (by simp), fld_setFld_self _ _ _ (by simp)]
    exact Nat.mod_eq_of_lt c.src.isLt

theorem markerShown_raised (strong : Bool) (c : MarkerContent) (d : Dev) : (d.markerShown n strong c).raised = d.raised := by
  simp only [markerShown, setOn_raised, setFld_raised, bump_raised]

/-- The events of an in-sequence marker: 0x12 when the version ceases to match. -/
def versionEvents (n : Lane) (c : MarkerContent) (d : Dev) : List Raise :=
  if c.ver != 1 && !d.on (F.LANE_FMT_STAT_VER_MISMATCH n) then [⟨Blk.lane, 0x12, n⟩] else []

theorem inSequence_eq (strong : Bool) (c : MarkerContent) (d : Dev) : d.inSequence n strong c =
    (if c.ver != 1 && !d.on (F.LANE_FMT_STAT_VER_MISMATCH n) then (d.markerShown n strong c).raise Blk.lane 0x12 n
      else d.markerShown n strong c).modFr n fun f => { f with miss := 0 } := by
  obtain ⟨hstat, -, -⟩ := count_apart n strong
  have hwas : ((((((d.bump (if strong then R.LANE_MK_STRONG n else R.LANE_MK_WEAK n)).setFld (F.LANE_FMT_RXID_RX_MESH n)
      c.mesh.toNat).setFld (F.LANE_FMT_RXID_RX_SRC n) c.src.toNat).setFld (F.LANE_FMT_RXQ_RX_LQN n) c.lqn.toNat).setFld
      (F.LANE_FMT_STAT_RX_VER n) c.ver.toNat).fld (F.LANE_FMT_STAT_VER_MISMATCH n)) = d.fld (F.LANE_FMT_STAT_VER_MISMATCH n) := by
    unfold bump bumpBy
    rw [fld_setFld_apart _ _ (by simp) (by simp [Fld.apart]), fld_setFld_word _ _ (by simp), fld_setFld_word _ _ (by simp),
      fld_setFld_word _ _ (by simp), fld_setReg_ne _ _ (Ne.symm hstat)]
  unfold inSequence markerShown
  dsimp only
  rw [on, hwas, ← on]

theorem inSequence_reg (strong : Bool) (c : MarkerContent) (a : Nat) (d : Dev) :
    (d.inSequence n strong c).reg a = (d.markerShown n strong c).reg a := by
  rw [inSequence_eq, modFr, modLane_reg]
  split
  · rw [raise_reg]
  · rfl

theorem inSequence_fld (strong : Bool) (c : MarkerContent) (f : Fld) (d : Dev) :
    (d.inSequence n strong c).fld f = (d.markerShown n strong c).fld f := by
  rw [fld, fld, inSequence_reg]

theorem inSequence_raised (strong : Bool) (c : MarkerContent) (d : Dev) :
    (d.inSequence n strong c).raised = d.raised ++ d.versionEvents n c := by
  rw [inSequence_eq, modFr, modLane_raised, versionEvents]
  split
  · rw [raise, markerShown_raised]
  · rw [markerShown_raised, List.append_nil]

theorem inSequence_fr (strong : Bool) (c : MarkerContent) (d : Dev) :
    ((d.inSequence n strong c).lane n).fr = { (d.lane n).fr with miss := 0 } := by
  have hlane : (d.markerShown n strong c).lane n = d.lane n := by
    simp only [markerShown, setOn_lane, setFld_lane, bump, bumpBy, setReg_lane]
  rw [inSequence_eq, fr_modFr]
  split
  · rw [raise_lane, hlane]
  · rw [hlane]

/-! ### Switched-path mode (R281, R306) -/

theorem spLive_congr {e : Dev} (hlive : e.live = d.live) (hreg : e.reg R.PWR_LANE_STAT = d.reg R.PWR_LANE_STAT) :
    e.spLive n = d.spLive n := by
  have hword (a : Nat) : e.liveWord a = d.liveWord a := by rw [liveWord, hlive, liveWord]
  have hlv (f : Fld) : e.lv f = d.lv f := by rw [lv, hword, lv]
  have hrun : e.inRun n = d.inRun n := congrArg (fun w => getBits w (laneStat n) == 2) hreg
  rw [spLive, native, mapMode, lvOn, hlv, hlv, hrun]
  rfl

theorem sourceSeen_none (hs : d.spLive n = false) (src : Nat) (seq : Bool) : d.sourceSeen n src seq = d := by
  rw [sourceSeen, if_pos (by simp [hs])]

theorem inSequence_spLive (strong : Bool) (c : MarkerContent) (d : Dev) : (d.inSequence n strong c).spLive n = d.spLive n := by
  refine spLive_congr ?_ ?_
  · rw [inSequence_eq, modFr, modLane_live]
    split
    · simp only [raise_live, markerShown, setOn_live, setFld_live, bump, bumpBy, setReg_live]
    · simp only [markerShown, setOn_live, setFld_live, bump, bumpBy, setReg_live]
  · rw [inSequence_reg, markerShown_reg (.inl (by simp only [R.PWR_LANE_STAT, R.LANE_FMT_STAT]; omega))]

theorem frameWord_stat (n : Lane) : frameWord n (R.LANE_FMT_STAT n) :=
  ⟨le_rfl, by simp only [R.LANE_LOCK_LOSS, R.LANE_FMT_STAT]; omega⟩

/-! ### A marker missed (R112, R113) -/

/-- A miss is counted, and adds to those in a row. -/
def missCounted (n : Lane) (d : Dev) : Dev := (d.bump (R.LANE_MK_MISS n)).modFr n fun f => { f with miss := f.miss + 1 }

theorem missCounted_reg (a : Nat) (d : Dev) :
    (d.missCounted n).reg a = if a = R.LANE_MK_MISS n then d.reg (R.LANE_MK_MISS n) + 1 else d.reg a := by
  rw [missCounted, modFr, modLane_reg, reg_bump]

theorem missCounted_on {f : Fld} (hf : f.addr ≠ R.LANE_MK_MISS n) (d : Dev) : (d.missCounted n).on f = d.on f := by
  rw [on, fld, missCounted_reg, if_neg hf, on, fld]

theorem missCounted_fr (d : Dev) : ((d.missCounted n).lane n).fr = { (d.lane n).fr with miss := (d.lane n).fr.miss + 1 } := by
  rw [missCounted, fr_modFr, bump, bumpBy, setReg_lane]

theorem missCounted_raised (d : Dev) : (d.missCounted n).raised = d.raised := by
  rw [missCounted, modFr, modLane_raised, bump_raised]

theorem missCounted_live (d : Dev) : (d.missCounted n).live = d.live := by
  rw [missCounted, modFr, modLane_live, bump, bumpBy, setReg_live]

theorem missCounted_spLive (d : Dev) : (d.missCounted n).spLive n = d.spLive n :=
  spLive_congr (missCounted_live d) (by rw [missCounted_reg, if_neg (by simp only [R.PWR_LANE_STAT, R.LANE_MK_MISS]; omega)])

theorem bumpOos_spLive (d : Dev) : (d.bump (R.LANE_MK_OOS n)).spLive n = d.spLive n := by
  refine spLive_congr (by rw [bump, bumpBy, setReg_live]) (reg_bump_ne _ ?_)
  simp only [R.PWR_LANE_STAT, R.LANE_MK_OOS]
  omega

/-! ### The loss of lock (R113, R266) -/

/-- The lane's words and events when its lock has just been lost. -/
def lockDropped (n : Lane) (d : Dev) : Dev :=
  ((d.setOn (F.LANE_FMT_STAT_MK_LOCK n) false).bump (R.LANE_LOCK_LOSS n)).raise Blk.lane 0x11 n

theorem lockLost_plain (hs : d.spLive n = false) :
    d.lockLost n = (((d.dropLock n rNOLOCK).relockLost n).lockShown n).setAcq n 5 := by
  simp only [lockLost, hs, Bool.false_and, Bool.false_eq_true, if_false]

theorem lockLost_acq (hs : d.spLive n = false) : (d.lockLost n).acq n = 5 := by
  rw [lockLost_plain hs, setAcq_acq (by decide)]

/-- What follows a loss of lock leaves its words and its event. -/
theorem lockLost_spared (hs : d.spLive n = false) (hl : d.on (F.LANE_FMT_STAT_MK_LOCK n) = true) :
    FrameSpared n (d.lockDropped n) (d.lockLost n) := by
  rw [lockLost_plain hs, dropLock, if_neg (by simp [hl])]
  exact ((((Spares.refl (frameWord_block n)).lockGone (by decide)).relockLost).lockShown n).setAcq (by decide)

theorem lockDropped_reg {a : Nat} (hstat : a ≠ R.LANE_FMT_STAT n) (d : Dev) :
    (d.lockDropped n).reg a = if a = R.LANE_LOCK_LOSS n then d.reg (R.LANE_LOCK_LOSS n) + 1 else d.reg a := by
  have hne : R.LANE_LOCK_LOSS n ≠ R.LANE_FMT_STAT n := by simp only [R.LANE_LOCK_LOSS, R.LANE_FMT_STAT]; omega
  rw [lockDropped, raise_reg, reg_bump, reg_setOn_ne _ _ _ hne, reg_setOn_ne _ _ _ hstat]

theorem lockDropped_lock (d : Dev) : (d.lockDropped n).on (F.LANE_FMT_STAT_MK_LOCK n) = false := by
  rw [lockDropped, raise_on, bump, bumpBy, on, fld_setReg_ne _ _ (by simp), ← on, on_setOn_self _ _ _ (by simp) rfl]

theorem lockDropped_raised (d : Dev) : (⟨Blk.lane, 0x11, n⟩ : Raise) ∈ (d.lockDropped n).raised :=
  List.mem_append_right _ (.head _)

/-! ### A marker position in lock (R112, R113) -/

/-- The fourth miss in a row ends the lock. -/
def missJudged (n : Lane) (d : Dev) : Dev := if d.ownBoundary n ∧ 4 ≤ (d.lane n).fr.miss then d.lockLost n else d

section
variable {j : Nat} {bits : List Bool} (hs : d.spLive n = false)
include hs

theorem markerInLock_inSequence {strong : Bool} {c : MarkerContent} (hv : validMarker bits = some (strong, j, c))
    (hq : c.lqn = (d.lane n).fr.lqn) : d.markerInLock n j bits = d.inSequence n strong c := by
  have hseen : (d.inSequence n strong c).sourceSeen n c.src.toNat true = d.inSequence n strong c :=
    sourceSeen_none (by rw [inSequence_spLive, hs]) _ _
  have hmiss : ((d.inSequence n strong c).lane n).fr.miss = 0 := by rw [inSequence_fr]
  unfold markerInLock
  simp only [hv, hq, and_self, if_true, hseen]
  rw [if_neg (by simp [hmiss])]

omit hs in
theorem markerInLock_none (hv : validMarker bits = none) : d.markerInLock n j bits = (d.missCounted n).missJudged n := by
  simp only [markerInLock, hv]
  rfl

theorem markerInLock_outOfSequence {strong : Bool} {i : Nat} {c : MarkerContent} (hv : validMarker bits = some (strong, i, c))
    (hq : i ≠ j ∨ c.lqn ≠ (d.lane n).fr.lqn) :
    d.markerInLock n j bits = ((d.bump (R.LANE_MK_OOS n)).missCounted n).missJudged n := by
  have hseen : ((d.bump (R.LANE_MK_OOS n)).missCounted n).sourceSeen n c.src.toNat false = (d.bump (R.LANE_MK_OOS n)).missCounted n :=
    sourceSeen_none (by rw [missCounted_spLive, bumpOos_spLive, hs]) _ _
  have hne : ¬ (i = j ∧ c.lqn = (d.lane n).fr.lqn) := by tauto
  simp only [markerInLock, hv]
  rw [if_neg hne]
  rw [← missCounted, hseen]
  rfl

end

end Sys2Proof.Machine.Dev

namespace Sys2Proof.Claims

open Sys2Proof.Machine Sys2Proof.Machine.Dev

variable {n : Lane} {d e : Dev}

/-- What a missed marker position leaves (R112, R113). -/
structure Missed (n : Lane) (d e : Dev) : Prop where
  counted : e.reg (R.LANE_MK_MISS n) = d.reg (R.LANE_MK_MISS n) + 1
  kept : (d.lane n).fr.miss < 3 → (e.lane n).fr.miss = (d.lane n).fr.miss + 1 ∧
    e.on (F.LANE_FMT_STAT_MK_LOCK n) = d.on (F.LANE_FMT_STAT_MK_LOCK n) ∧ e.raised = d.raised
  lost : 3 ≤ (d.lane n).fr.miss → d.on (F.LANE_FMT_STAT_MK_LOCK n) = true →
    e.on (F.LANE_FMT_STAT_MK_LOCK n) = false ∧ e.reg (R.LANE_LOCK_LOSS n) = d.reg (R.LANE_LOCK_LOSS n) + 1 ∧
    ⟨Blk.lane, 0x11, n⟩ ∈ e.raised ∧ e.acq n = 5

theorem missed_judged (hs : d.spLive n = false) (ho : d.ownBoundary n = true) :
    Missed n d ((d.missCounted n).missJudged n) ∧
      ((d.missCounted n).missJudged n).reg (R.LANE_MK_OOS n) = d.reg (R.LANE_MK_OOS n) := by
  have hlock : d.on (F.LANE_FMT_STAT_MK_LOCK n) = true := by
    rw [ownBoundary, Bool.and_eq_true] at ho
    exact ho.2
  have hlock' : (d.missCounted n).on (F.LANE_FMT_STAT_MK_LOCK n) = true := by rw [missCounted_on (by simp), hlock]
  have hown : (d.missCounted n).ownBoundary n = true := by
    rw [ownBoundary, Bool.and_eq_true] at ho ⊢
    exact ⟨ho.1, hlock'⟩
  have hmiss : ((d.missCounted n).lane n).fr.miss = (d.lane n).fr.miss + 1 := by rw [missCounted_fr]
  have hspared := lockLost_spared (by rw [missCounted_spLive, hs]) hlock'
  have hoos : R.LANE_MK_OOS n ≠ R.LANE_MK_MISS n := by simp only [R.LANE_MK_OOS, R.LANE_MK_MISS]; omega
  have hloss : R.LANE_LOCK_LOSS n ≠ R.LANE_MK_MISS n := by simp only [R.LANE_LOCK_LOSS, R.LANE_MK_MISS]; omega
  unfold missJudged
  split
  case isTrue h =>
    have hfour : 3 ≤ (d.lane n).fr.miss := by rw [hmiss] at h; omega
    have hspared := lockLost_spared (by rw [missCounted_spLive, hs]) hlock'
    have hword {a : Nat} (ha : R.LANE_MK_STRONG n ≤ a) (ha' : a ≤ R.LANE_LOCK_LOSS n) : ((d.missCounted n).lockLost n).reg a =
        if a = R.LANE_LOCK_LOSS n then (d.missCounted n).reg (R.LANE_LOCK_LOSS n) + 1 else (d.missCounted n).reg a := by
      rw [hspared.reg a ⟨by simp only [R.LANE_FMT_STAT, R.LANE_MK_STRONG] at *; omega, ha'⟩]
      exact lockDropped_reg (by simp only [R.LANE_FMT_STAT, R.LANE_MK_STRONG] at *; omega) _
    refine ⟨⟨?_, fun hlt => absurd hfour (by omega), fun _ _ => ⟨?_, ?_, hspared.raised (lockDropped_raised _), ?_⟩⟩, ?_⟩
    · rw [hword (by simp only [R.LANE_MK_STRONG, R.LANE_MK_MISS]; omega) (by simp only [R.LANE_LOCK_LOSS, R.LANE_MK_MISS]; omega),
        if_neg (Ne.symm hloss), missCounted_reg, if_pos rfl]
    · rw [hspared.on (frameWord_stat n), lockDropped_lock]
    · rw [hword (by simp only [R.LANE_MK_STRONG, R.LANE_LOCK_LOSS]; omega) le_rfl, if_pos rfl, missCounted_reg, if_neg hloss]
    · exact lockLost_acq (by rw [missCounted_spLive, hs])
    · rw [hword (by simp only [R.LANE_MK_STRONG, R.LANE_MK_OOS]; omega) (by simp only [R.LANE_LOCK_LOSS, R.LANE_MK_OOS]; omega),
        if_neg (by simp only [R.LANE_LOCK_LOSS, R.LANE_MK_OOS]; omega), missCounted_reg, if_neg hoos]
  case isFalse h =>
    have hfew : (d.lane n).fr.miss < 3 := by
      have h4 : ¬ 4 ≤ ((d.missCounted n).lane n).fr.miss := fun h4 => h ⟨hown, h4⟩
      rw [hmiss] at h4
      omega
    exact ⟨⟨by rw [missCounted_reg, if_pos rfl], fun _ => ⟨hmiss, by rw [hlock', hlock], missCounted_raised d⟩,
      fun hge => absurd hfew (by omega)⟩, by rw [missCounted_reg, if_neg hoos]⟩

/-- The count of a marker out of sequence is none of what a miss changes. -/
theorem Missed.ofOutOfSequence (h : Missed n (d.bump (R.LANE_MK_OOS n)) e) : Missed n d e := by
  have hreg {a : Nat} (ha : a ≠ R.LANE_MK_OOS n) : (d.bump (R.LANE_MK_OOS n)).reg a = d.reg a := reg_bump_ne _ ha
  have hon : (d.bump (R.LANE_MK_OOS n)).on (F.LANE_FMT_STAT_MK_LOCK n) = d.on (F.LANE_FMT_STAT_MK_LOCK n) := by
    rw [on, fld, hreg (by simp), on, fld]
  have hlane : (d.bump (R.LANE_MK_OOS n)).lane n = d.lane n := by rw [bump, bumpBy, setReg_lane]
  have hraised : (d.bump (R.LANE_MK_OOS n)).raised = d.raised := bump_raised _ d
  obtain ⟨hcount, hkept, hlost⟩ := h
  rw [hreg (by simp)] at hcount
  rw [hlane, hon, hraised] at hkept
  rw [hlane, hon, hreg (by simp)] at hlost
  exact ⟨hcount, hkept, hlost⟩

theorem markerJudged (d : Dev) (n : Lane) (j : Nat) (bits : List Bool) : MarkerJudged d n j bits := by
  intro hs ho
  refine ⟨fun strong c hv hq => ?seen, fun hv => ?none, fun strong i c hv hq => ?outOfSequence⟩
  case seen =>
    obtain ⟨hlqn, hsrc⟩ := markerShown_content (n := n) strong c d
    rw [markerInLock_inSequence hs hv hq]
    refine ⟨?_, by rw [inSequence_fr], ?_, ?_, ?_, inSequence_raised strong c d⟩
    · rw [inSequence_reg, markerShown_count]
    · rw [inSequence_fld, hlqn]
    · rw [inSequence_fld, hsrc]
    · rw [inSequence_reg, markerShown_reg (.inr (by simp only [R.LANE_MK_MISS, R.LANE_MK_WEAK]; omega))]
  case none =>
    rw [markerInLock_none hv]
    obtain ⟨⟨hcount, hkept, hlost⟩, hoos⟩ := missed_judged hs ho
    exact ⟨⟨hcount, hkept, hlost⟩, hoos⟩
  case outOfSequence =>
    rw [markerInLock_outOfSequence hs hv hq]
    have hs' : (d.bump (R.LANE_MK_OOS n)).spLive n = false := by rw [bumpOos_spLive, hs]
    have ho' : (d.bump (R.LANE_MK_OOS n)).ownBoundary n = true := by
      rw [← ho, ownBoundary, on, fld, reg_bump_ne _ (by simp)]
      rfl
    obtain ⟨hmissed, hoos⟩ := missed_judged hs' ho'
    obtain ⟨hcount, hkept, hlost⟩ := hmissed.ofOutOfSequence
    exact ⟨⟨hcount, hkept, hlost⟩, by rw [hoos, reg_bump, if_pos rfl]⟩

end Sys2Proof.Claims
end

section
/-! SUPPORT. A lock by a marker (R110, R111), and the search that leads to it. -/

namespace Sys2Proof.Machine.Dev

variable {n : Lane} {d₀ d : Dev}

/-! ### The steps of a lock (R103, R111) -/

/-- Marker lock is shown, with the lane identity and event 0x10, and the frame stands at the marker's slot. -/
def lockPlaced (n : Lane) (j : Nat) (c : MarkerContent) (d : Dev) : Dev :=
  let d := (d.setOn (F.LANE_FMT_STAT_MK_LOCK n) true).setFld (F.LANE_FMT_STAT_RX_LANE n) c.lane.toNat
  let d := (d.setOn (F.LANE_FMT_STAT_PRE_MISMATCH n) false).raise Blk.lane 0x10 n
  d.modFr n fun f =>
    { f with slot := 256 + 2056 * j, lqn := c.lqn,
             scr := scramblerJump (272 * scrambledBefore (256 + 2056 * j)) (scramblerSeed c.lane.toNat c.lqn) }

/-- The instant of lock is kept, and what was measured and searched before it is dropped. -/
def lockStarted (n : Lane) (j : Nat) (d : Dev) : Dev :=
  let (w, d) := d.takeFree
  let now := w.toNat % 16384
  let back := (256 + 2056 * j) * 65536 / quireSlots
  let t := if back ≤ 4 * now then d.meshTimeAt now - back else d.clk.was.toNat + 65536 + 4 * now - back
  let d := d.modRx n fun r => { r with cand := [], opp := [], oppNone := 0, block := 0, pay := [], arrive := BitVec.ofNat 64 t }
  ((d.modMs n fun m => { m with whole := false }).dropWindow n).clearGradients n

/-- What follows a lock in the lane's states, its streams and its link. -/
def lockFollowed (n : Lane) (d : Dev) : Dev := (((d.markerExit n).updateStreams).hostSignals).linkUpdate n

/-- The decoding mode in force at a lock. -/
def lockMode (n : Lane) (d : Dev) : Dev := d.modFr n fun f => { f with mode := max 2 (d.lv (F.LANE_DEC_CFG_LIMIT n)) }

theorem declareLock_eq (strong : Bool) (j : Nat) (c : MarkerContent) (d : Dev) : d.declareLock n strong j c =
    let e := ((((d.lockPlaced n j c).lockStarted n j).inSequence n strong c).lockFollowed n).lockMode n
    ((e.setFld (F.LANE_DEC_STAT_MODE n) (max 2 (e.lv (F.LANE_DEC_CFG_LIMIT n)))).sourceSeen n c.src.toNat true).nextSlot n := rfl

namespace Spares

theorem modDsp {p : Nat → Prop} (h : Spares p n d₀ d) (k : Lane) (f : Dsp → Dsp) : Spares p n d₀ (d.modDsp k f) :=
  h.modLane k fun _ => rfl

variable (h : FrameSpared n d₀ d)
include h

theorem lockStarted (j : Nat) : FrameSpared n d₀ (d.lockStarted n j) := by
  have hfree : FrameSpared n d₀ d.takeFree.2 := h.same rfl rfl rfl
  unfold Dev.lockStarted
  exact (((hfree.modRx n _).modMs n _).modMs n _).modDsp n _

theorem markerExit : FrameSpared n d₀ (d.markerExit n) := by
  unfold Dev.markerExit
  split
  · exact h.setAcq (by split <;> decide)
  · exact h

theorem lockFollowed : FrameSpared n d₀ (d.lockFollowed n) := ((h.markerExit.updateStreams).hostSignals).linkUpdate n

theorem sourceSeen (src : Nat) (seq : Bool) : FrameSpared n d₀ (d.sourceSeen n src seq) := by
  unfold Dev.sourceSeen
  split
  · exact h
  · generalize (if d.brlState n = 6 then d.fld (F.BRL_CUR_SRC n) == src else !seq) = foreign
    split
    · exact h
    · exact h.modBrl n _

end Spares

/-! ### What a lock takes from its marker (R103, R110, R111) -/

theorem lockPlaced_stat (j : Nat) (c : MarkerContent) (d : Dev) :
    (d.lockPlaced n j c).on (F.LANE_FMT_STAT_MK_LOCK n) = true ∧
      (d.lockPlaced n j c).fld (F.LANE_FMT_STAT_RX_LANE n) = c.lane.toNat := by
  unfold lockPlaced
  dsimp only
  rw [modFr, modLane_on, modLane_fld, raise_on, raise_fld]
  refine ⟨?_, ?_⟩
  · rw [on_setOn_apart _ _ (by simp) (by simp [Fld.apart]), on, fld_setFld_apart _ _ (by simp) (by simp [Fld.apart]), ← on,
      on_setOn_self _ _ _ (by simp) rfl]
  · rw [setOn, fld_setFld_apart _ _ (by simp) (by simp [Fld.apart]), fld_setFld_self _ _ _ (by simp)]
    exact Nat.mod_eq_of_lt c.lane.isLt

theorem lockPlaced_reg {a : Nat} (ha : a ≠ R.LANE_FMT_STAT n) (j : Nat) (c : MarkerContent) (d : Dev) :
    (d.lockPlaced n j c).reg a = d.reg a := by
  unfold lockPlaced
  dsimp only
  rw [modFr, modLane_reg, raise_reg, reg_setOn_ne _ _ _ ha, reg_setFld_ne _ _ _ ha, reg_setOn_ne _ _ _ ha]

theorem lockPlaced_fr (j : Nat) (c : MarkerContent) (d : Dev) : ((d.lockPlaced n j c).lane n).fr =
    { (d.lane n).fr with slot := 256 + 2056 * j, lqn := c.lqn,
                         scr := scramblerJump (272 * scrambledBefore (256 + 2056 * j)) (scramblerSeed c.lane.toNat c.lqn) } := by
  unfold lockPlaced
  dsimp only
  rw [fr_modFr, raise_lane, setOn_lane, setFld_lane, setOn_lane]

theorem lockPlaced_raised (j : Nat) (c : MarkerContent) (d : Dev) : (⟨Blk.lane, 0x10, n⟩ : Raise) ∈ (d.lockPlaced n j c).raised := by
  unfold lockPlaced
  dsimp only
  rw [modFr, modLane_raised]
  exact List.mem_append_right _ (.head _)

/-- The words, events and frame of a lock are those that its marker, in sequence, leaves; the next slot and the decoding mode
follow. -/
theorem declareLock_stages (strong : Bool) (j : Nat) (c : MarkerContent) (d : Dev) :
    ∃ e : Dev, ∃ m, FrameSpared n (d.lockPlaced n j c) e ∧
    (∀ a, frameWord n a → (d.declareLock n strong j c).reg a = (e.inSequence n strong c).reg a) ∧
    (e.inSequence n strong c).raised ⊆ (d.declareLock n strong j c).raised ∧
    ((d.declareLock n strong j c).lane n).fr =
      { (e.lane n).fr with miss := 0, mode := m, slot := (e.lane n).fr.slot + 1 } := by
  have hstart := (Spares.refl (d := d.lockPlaced n j c) (frameWord_block n)).lockStarted j
  rw [declareLock_eq]
  generalize (d.lockPlaced n j c).lockStarted n j = e₁ at hstart ⊢
  have hfollow := (Spares.refl (d := e₁.inSequence n strong c) (frameWord_block n)).lockFollowed
  generalize (e₁.inSequence n strong c).lockFollowed n = e₂ at hfollow ⊢
  have hmode : ¬ frameWord n (R.LANE_DEC_STAT n) := laneWord_not_frameWord (by decide)
  have hseen := ((Spares.refl (d := e₂.lockMode n) (frameWord_block n)).field (f := F.LANE_DEC_STAT_MODE n)
    (max 2 ((e₂.lockMode n).lv (F.LANE_DEC_CFG_LIMIT n))) hmode).sourceSeen c.src.toNat true
  refine ⟨e₁, max 2 (e₂.lv (F.LANE_DEC_CFG_LIMIT n)), hstart, fun a ha => ?_, ?_, ?_⟩
  · dsimp only
    rw [nextSlot, modFr, modLane_reg, hseen.reg a ha, lockMode, modFr, modLane_reg, hfollow.reg a ha]
  · dsimp only
    rw [nextSlot, modFr, modLane_raised]
    rw [lockMode, modFr] at hseen
    exact fun x hx => hseen.raised (by rw [modLane_raised]; exact hfollow.raised hx)
  · dsimp only
    rw [nextSlot, fr_modFr, hseen.frame, lockMode, fr_modFr, hfollow.frame, inSequence_fr]

/-! ### The search (R110, R116) -/

/-- The pattern under the opposite precoding setting is shown in PRE_MISMATCH alone. -/
theorem oppSearch_keeps (found live : Bool) (d : Dev) :
    (∀ a, a ≠ R.LANE_FMT_STAT n → (d.oppSearch n found live).reg a = d.reg a) ∧
    (d.oppSearch n found live).on (F.LANE_FMT_STAT_MK_LOCK n) = d.on (F.LANE_FMT_STAT_MK_LOCK n) ∧
    ((d.oppSearch n found live).lane n).fr = (d.lane n).fr ∧
    ((d.oppSearch n found live).lane n).rx.cand = (d.lane n).rx.cand := by
  have hshown (b : Bool) (d : Dev) : (d.setOn (F.LANE_FMT_STAT_PRE_MISMATCH n) b).on (F.LANE_FMT_STAT_MK_LOCK n) =
      d.on (F.LANE_FMT_STAT_MK_LOCK n) := on_setOn_apart _ _ (by simp) (by simp [Fld.apart])
  unfold oppSearch
  dsimp only
  split_ifs
  · refine ⟨fun a ha => ?_, ?_, ?_, ?_⟩
    · rw [modRx, modLane_reg, reg_setOn_ne _ _ _ ha]
    · rw [modRx, modLane_on, hshown]
    · rw [modRx, lane_modLane, if_pos rfl, setOn_lane]
    · rw [modRx, lane_modLane, if_pos rfl, setOn_lane]
  · exact ⟨fun _ _ => rfl, rfl, rfl, rfl⟩
  · refine ⟨fun a ha => ?_, ?_, ?_, ?_⟩
    · rw [raise_reg, reg_setOn_ne _ _ _ ha, modRx, modLane_reg]
    · rw [raise_on, hshown, modRx, modLane_on]
    · rw [raise_lane, setOn_lane, modRx, lane_modLane, if_pos rfl]
    · rw [raise_lane, setOn_lane, modRx, lane_modLane, if_pos rfl]
  · refine ⟨fun a _ => ?_, ?_, ?_, ?_⟩
    · rw [modRx, modLane_reg]
    · rw [modRx, modLane_on]
    · rw [modRx, lane_modLane, if_pos rfl]
    · rw [modRx, lane_modLane, if_pos rfl]

/-- The candidates that a valid marker follows on. -/
def candidateBefore (n : Lane) (j : Nat) (c : MarkerContent) (d : Dev) : Bool :=
  (d.lane n).rx.cand.any fun p => p.2.2 == 2056 && followsOn p.1 p.2.1 j c

theorem markerSearch_valid {o : SlotOut} {strong : Bool} {j : Nat} {c : MarkerContent} (hv : validMarker o.bits = some (strong, j, c))
    (d : Dev) : d.markerSearch n o =
      let e := d.oppSearch n (syncFound o.opp) (syncFound o.bits)
      if strong || d.candidateBefore n j c then e.declareLock n strong j c
      else e.modRx n fun r => { r with cand := (j, c.lqn, 0) :: r.cand } := by
  obtain ⟨-, -, -, hcand⟩ := oppSearch_keeps (n := n) (syncFound o.opp) (syncFound o.bits) d
  rw [candidateBefore, ← hcand, markerSearch, hv]

end Sys2Proof.Machine.Dev

namespace Sys2Proof.Claims

open Sys2Proof.Machine Sys2Proof.Machine.Dev

variable {n : Lane}

/-- What a lock leaves of its marker. -/
theorem declareLock_leaves (strong : Bool) (j : Nat) (c : MarkerContent) (d : Dev) :
    let e := d.declareLock n strong j c
    e.on (F.LANE_FMT_STAT_MK_LOCK n) = true ∧ (e.lane n).fr.slot = 256 + 2056 * j + 1 ∧ (e.lane n).fr.lqn = c.lqn ∧
      e.fld (F.LANE_FMT_STAT_RX_LANE n) = c.lane.toNat ∧ (e.lane n).fr.miss = 0 ∧
      (e.lane n).fr.scr = scramblerJump (272 * scrambledBefore (256 + 2056 * j)) (scramblerSeed c.lane.toNat c.lqn) ∧
      e.reg (if strong then R.LANE_MK_STRONG n else R.LANE_MK_WEAK n)
        = d.reg (if strong then R.LANE_MK_STRONG n else R.LANE_MK_WEAK n) + 1 ∧ ⟨Blk.lane, 0x10, n⟩ ∈ e.raised := by
  obtain ⟨e, m, hstart, hreg, hraised, hfr⟩ := declareLock_stages (n := n) strong j c d
  obtain ⟨hlock, hlane⟩ := lockPlaced_stat (n := n) j c d
  have hcount : frameWord n (if strong then R.LANE_MK_STRONG n else R.LANE_MK_WEAK n) := by
    simp only [frameWord, R.LANE_FMT_STAT, R.LANE_LOCK_LOSS, R.LANE_MK_STRONG, R.LANE_MK_WEAK]
    split <;> omega
  have hfld (f : Fld) (hf : f.addr = R.LANE_FMT_STAT n) : (d.declareLock n strong j c).fld f = (e.markerShown n strong c).fld f := by
    rw [fld, fld, hf, hreg _ (frameWord_stat n), inSequence_reg]
  obtain ⟨hstat, -, -⟩ := count_apart n strong
  rw [hstart.frame, lockPlaced_fr] at hfr
  dsimp only
  refine ⟨?_, by rw [hfr], by rw [hfr], ?_, by rw [hfr], by rw [hfr], ?_, ?_⟩
  · rw [on, hfld _ rfl, markerShown_stat (by simp) (by simp), ← on, hstart.on (frameWord_stat n), hlock]
  · rw [hfld _ rfl, markerShown_stat (by simp) (by simp), hstart.fld (frameWord_stat n), hlane]
  · rw [hreg _ hcount, inSequence_reg, markerShown_count, hstart.reg _ hcount, lockPlaced_reg hstat]
  · refine hraised ?_
    rw [inSequence_raised]
    exact List.mem_append_left _ (hstart.raised (lockPlaced_raised j c d))

theorem markerFound (d : Dev) (n : Lane) (o : SlotOut) (strong : Bool) (j : Nat) (c : MarkerContent) : MarkerFound d n o strong j c := by
  intro hv hlock
  obtain ⟨hreg, hon, hfr, hcand⟩ := oppSearch_keeps (n := n) (syncFound o.opp) (syncFound o.bits) d
  obtain ⟨hstat, -, -⟩ := count_apart n strong
  rw [markerSearch_valid hv]
  refine ⟨fun h => ?_, fun hw ha => ?_⟩
  · dsimp only
    rw [if_pos (by rwa [Bool.or_eq_true]), ← hreg _ hstat]
    exact declareLock_leaves strong j c _
  · dsimp only
    rw [if_neg (by rw [hw, candidateBefore, ha]; decide)]
    refine ⟨?_, ?_, ?_⟩
    · rw [modRx, modLane_on, hon, hlock]
    · rw [modRx, lane_modLane, if_pos rfl, hcand]
    · rw [modRx, lane_modLane, if_pos rfl, hfr]

/-! ### The slots that arrive (R112, R118, R142) -/

section
variable (s : State) (n : Lane) (rx : RxLeaf)

theorem markerAt (j : Nat) : MarkerAt s n rx j := by
  rintro ⟨hr, ho, hq, hk⟩
  have hnative : s.dev.native = true := (Bool.and_eq_true_iff.mp ho).1
  refine ⟨_, rfl, ?_⟩
  rw [markerReceived, if_neg (by simp [hnative]), if_neg (by simp [hr]), if_pos ho, if_pos hq, hk]

theorem markerSought : MarkerSought s n rx := by
  intro hr hnative ho
  refine ⟨_, rfl, ?_⟩
  change commit s (s.dev.markerReceived n rx) = _
  rw [markerReceived, if_neg (show ¬ (!s.dev.native) = true by simp [hnative]), if_neg (show ¬ (!s.dev.receives n) = true by simp [hr]),
    if_neg (show ¬ s.dev.ownBoundary n = true by simp [ho])]

theorem pilotAt (m : Nat) : PilotAt s n rx m := by
  rintro ⟨hr, ho, hq, hk⟩
  refine ⟨_, rfl, ?_⟩
  rw [pilotReceived, if_neg (by simp [hr]), if_neg (by simp [ho, hq]), hk]

theorem leafAt (i : Nat) : LeafAt s n rx i := by
  rintro ⟨hr, ho, hq, hk⟩
  refine ⟨_, rfl, ?_⟩
  rw [leafDecode, if_neg (by simp [ho]), if_neg (by simp [hr]), if_neg (by simp [slotIs, ho, hq, hk])]

end

/-- Settles O23: each slot by the tests of its command; a miss and a lock by what follows them, which leaves the lane's frame and the
words of its markers; the counters of a leaf by the outcome of its decoding. -/
theorem leavesReceived : Obligations.LeavesReceived := fun s _ =>
  ⟨markerAt s, pilotAt s, leafAt s, leafPassed, markerJudged, markerSought s, markerFound, leafCounted⟩

end Sys2Proof.Claims
end

section
/-! SUPPORT. The inner code (chapter 4): every codeword has syndrome 0, even parity and a matching CRC-6; an inverted bit adds its
column to the syndrome and turns the parity, so that one is put right and two are found (R126 to R134, R142). -/

namespace Sys2Proof.Machine

/-! ### Parity and inverted bits -/

theorem oddParity_append (v w : List Bool) : oddParity (v ++ w) = (oddParity v ^^ oddParity w) := by
  rw [oddParity, List.foldl_append, ← Bool.xor_false (v.foldl xor false), List.foldl_assoc, oddParity, oddParity]

theorem oddParity_cons (b : Bool) (w : List Bool) : oddParity (b :: w) = (b ^^ oddParity w) := by
  rw [← List.singleton_append, oddParity_append]
  simp [oddParity]

/-- The parity is odd just where the number of ones is. -/
theorem count_ones_mod_two (w : List Bool) : (w.filter id).length % 2 = (oddParity w).toNat := by
  induction w with
  | nil => rfl
  | cons b w ih =>
    rw [oddParity_cons]
    cases b
    · simpa using ih
    · rw [List.filter_cons_of_pos rfl, List.length_cons, Nat.add_mod, ih]
      cases oddParity w <;> rfl

@[simp] theorem flipBit_length (w : List Bool) (t : Nat) : (flipBit w t).length = w.length := List.length_modify ..

@[simp] theorem flipBit_cons_zero (b : Bool) (w : List Bool) : flipBit (b :: w) 0 = (!b) :: w := rfl

@[simp] theorem flipBit_cons_succ (b : Bool) (w : List Bool) (t : Nat) : flipBit (b :: w) (t + 1) = b :: flipBit w t := rfl

@[simp] theorem flipBit_flipBit (w : List Bool) (t : Nat) : flipBit (flipBit w t) t = w := by
  rw [flipBit, flipBit, List.modify_modify_eq, show not ∘ not = id from funext Bool.not_not, List.modify_id]

theorem oddParity_flipBit (w : List Bool) : ∀ t, t < w.length → oddParity (flipBit w t) = !oddParity w := by
  induction w with
  | nil => intro t ht; simp at ht
  | cons b w ih =>
    intro t ht
    cases t with
    | zero => simp [oddParity_cons]
    | succ t => simp [oddParity_cons, ih t (Nat.lt_of_succ_lt_succ ht)]

theorem distance_cons (a b : Bool) (v w : List Bool) : distance (a :: v) (b :: w) = (a != b).toNat + distance v w := by
  cases a <;> cases b <;> simp [distance, Nat.add_comm]

theorem distance_self (w : List Bool) : distance w w = 0 := by
  induction w with
  | nil => rfl
  | cons b w ih => simp [distance_cons, ih]

theorem distance_flipBit (w : List Bool) : ∀ t, t < w.length → distance (flipBit w t) w = 1 := by
  induction w with
  | nil => intro t ht; simp at ht
  | cons b w ih =>
    intro t ht
    cases t with
    | zero => simp [distance_cons, distance_self]
    | succ t => simp [distance_cons, ih t (Nat.lt_of_succ_lt_succ ht)]

/-! ### The syndrome (R128, R129) -/

theorem messageColumns_length : messageColumns.length = 278 := by decide +kernel

theorem columns_length : columns.length = 287 := by simp [columns, messageColumns_length]

/-- Leaf bit t has a column of 1 to 287, from which `position` finds t again: no two bits share a column. -/
theorem position_columns : ∀ t < 287, columns.getD t 0 ≠ 0 ∧ columns.getD t 0 ≤ 287 ∧ position (columns.getD t 0) = t := by
  decide +kernel

/-- The overall parity bit has no column. -/
theorem columns_last : columns.getD 287 0 = 0 := List.getD_eq_default _ _ columns_length.le

theorem columns_ne {t u : Nat} (ht : t < 288) (hu : u < 288) (h : t ≠ u) : columns.getD t 0 ≠ columns.getD u 0 := by
  intro he
  rcases Nat.lt_succ_iff_lt_or_eq.mp ht with ht | rfl <;> rcases Nat.lt_succ_iff_lt_or_eq.mp hu with hu | rfl
  · obtain ⟨-, -, hpt⟩ := position_columns t ht
    obtain ⟨-, -, hpu⟩ := position_columns u hu
    exact h (by rw [← hpt, he, hpu])
  · exact (position_columns t ht).1 (he.trans columns_last)
  · exact (position_columns u hu).1 (he.symm.trans columns_last)
  · exact h rfl

theorem syndromeOver_take (cs : List Nat) : ∀ w, syndromeOver cs (w.take cs.length) = syndromeOver cs w := by
  induction cs with
  | nil => intro w; rfl
  | cons c cs ih =>
    intro w
    cases w with
    | nil => rfl
    | cons b w => simp [syndromeOver, ih w]

theorem syndrome_take (w : List Bool) : syndrome (w.take 287) = syndrome w := by
  rw [syndrome, ← columns_length, syndromeOver_take, syndrome]

theorem syndromeOver_append (cs ds : List Nat) : ∀ v w, v.length = cs.length →
    syndromeOver (cs ++ ds) (v ++ w) = syndromeOver cs v ^^^ syndromeOver ds w := by
  induction cs with
  | nil => intro v w h; obtain rfl := List.length_eq_zero_iff.mp h; simp [syndromeOver]
  | cons c cs ih =>
    intro v w h
    cases v with
    | nil => simp at h
    | cons b v =>
      simp only [List.cons_append, syndromeOver, ih v w (Nat.succ.inj h), Nat.xor_assoc]

theorem syndromeOver_nil_right (cs : List Nat) : syndromeOver cs [] = 0 := by cases cs <;> rfl

theorem syndromeOver_lt {n : Nat} (cs : List Nat) (hcs : ∀ c ∈ cs, c < 2 ^ n) : ∀ w, syndromeOver cs w < 2 ^ n := by
  induction cs with
  | nil => intro w; exact Nat.two_pow_pos n
  | cons c cs ih =>
    intro w
    cases w with
    | nil => exact Nat.two_pow_pos n
    | cons b w =>
      refine Nat.xor_lt_two_pow ?_ (ih (fun d hd => hcs d (List.mem_cons_of_mem _ hd)) w)
      split
      · exact hcs c List.mem_cons_self
      · exact Nat.two_pow_pos n

/-- An inverted bit adds its column. -/
theorem syndromeOver_flipBit (cs : List Nat) : ∀ w t, t < w.length →
    syndromeOver cs (flipBit w t) = cs.getD t 0 ^^^ syndromeOver cs w := by
  induction cs with
  | nil => intro w t _; simp [syndromeOver]
  | cons c cs ih =>
    intro w t ht
    match w, t with
    | b :: w, 0 => cases b <;> simp [syndromeOver]
    | b :: w, t + 1 => simp [syndromeOver, ih w t (Nat.lt_of_succ_lt_succ ht), Nat.xor_left_comm]

theorem syndrome_flipBit {w : List Bool} {t : Nat} (h : t < w.length) :
    syndrome (flipBit w t) = columns.getD t 0 ^^^ syndrome w := syndromeOver_flipBit _ _ _ h

/-- The parity bits' columns spell the number whose bits they hold. -/
theorem syndromeOver_testBit (s n : Nat) :
    syndromeOver ((List.range n).map fun k => 2 ^ k) ((List.range n).map fun k => s.testBit k) = s % 2 ^ n := by
  induction n with
  | zero => simp [syndromeOver, Nat.mod_one]
  | succ n ih =>
    rw [List.range_succ, List.map_append, List.map_append, syndromeOver_append _ _ _ _ (by simp), ih]
    apply Nat.eq_of_testBit_eq
    intro i
    have hlast : (syndromeOver [2 ^ n] [s.testBit n]).testBit i = (decide (n = i) && s.testBit n) := by
      cases h : s.testBit n <;> simp [syndromeOver, Nat.testBit_two_pow]
    rw [List.map_singleton, List.map_singleton, Nat.testBit_xor, hlast, Nat.testBit_mod_two_pow, Nat.testBit_mod_two_pow]
    rcases Nat.lt_trichotomy i n with h | rfl | h
    · simp [h, Nat.ne_of_gt h, Nat.lt_succ_of_lt h]
    · simp
    · simp [Nat.not_lt.mpr h.le, Nat.ne_of_lt h, Nat.not_lt.mpr (Nat.succ_le_of_lt h)]

/-! ### Codewords (R126 to R132) -/

/-- What the encoder gives a leaf: 288 bits of syndrome 0 and even parity, whose CRC-6 matches. -/
structure InnerCodeword (w : List Bool) : Prop where
  length : w.length = 288
  syndrome : syndrome w = 0
  parity : oddParity w = false
  crc : crcOk w = true

theorem messageColumns_lt : ∀ c ∈ messageColumns, c < 2 ^ 9 := by
  intro c hc
  have hc : c < 288 := List.mem_range.mp (List.mem_of_mem_filter hc)
  omega

/-- A message followed by the bits of its own syndrome has syndrome 0 (R129). -/
theorem syndrome_message_parity {msg : List Bool} (h : msg.length = 278) (tail : List Bool) :
    syndrome (msg ++ ((List.range 9).map fun k => (syndrome msg).testBit k) ++ tail) = 0 := by
  have hmsg : syndrome msg = syndromeOver messageColumns msg := by
    have := syndromeOver_append messageColumns ((List.range 9).map fun k => 2 ^ k) msg [] (by rw [h, messageColumns_length])
    rwa [List.append_nil, syndromeOver_nil_right, Nat.xor_zero] at this
  have hlt : syndrome msg < 2 ^ 9 := hmsg ▸ syndromeOver_lt _ messageColumns_lt msg
  have hword : (msg ++ (List.range 9).map fun k => (syndrome msg).testBit k).length = 287 := by simp [h]
  rw [← syndrome_take, List.take_left' hword, syndrome, columns, syndromeOver_append _ _ _ _ (by rw [h, messageColumns_length]),
    ← hmsg, syndromeOver_testBit, Nat.mod_eq_of_lt hlt, Nat.xor_self]

theorem oddParity_innerEncode (p : List Bool) : oddParity (innerEncode p) = false := by
  rw [innerEncode, oddParity_append, oddParity_cons]
  simp [oddParity]

section
variable {p : List Bool} (hp : p.length = 272)
include hp

theorem innerEncode_take : (innerEncode p).take 272 = p := by
  rw [innerEncode, List.append_assoc, List.append_assoc, List.take_left' hp]

theorem innerEncode_codeword : InnerCodeword (innerEncode p) where
  length := by simp [innerEncode, hp]
  syndrome := syndrome_message_parity (by simp [hp]) _
  parity := oddParity_innerEncode p
  crc := by
    rw [crcOk, innerEncode_take hp, innerEncode, List.append_assoc, List.append_assoc, List.drop_left' hp,
      List.take_left' (bitsOf_length ..), beq_self_eq_true]

end

/-! ### The Hamming step (R131) -/

section
variable {w : List Bool}

theorem hammingStep_zero (hs : syndrome w = 0) :
    hammingStep w = some (if oddParity w then flipBit w 287 else w) := by
  rw [hammingStep, syndrome_take, if_pos hs]

theorem hammingStep_odd (hs : syndrome w ≠ 0) (hle : syndrome w ≤ 287) (ho : oddParity w = true) :
    hammingStep w = some (flipBit w (position (syndrome w))) := by
  rw [hammingStep, syndrome_take, if_neg hs, if_pos hle, if_pos ho]

theorem hammingStep_even (hs : syndrome w ≠ 0) (ho : oddParity w = false) : hammingStep w = none := by
  rw [hammingStep, syndrome_take, if_neg hs, ho]
  exact ite_self _

variable (hw : InnerCodeword w) {t u : Nat}
include hw

theorem hammingStep_codeword : hammingStep w = some w := by
  rw [hammingStep_zero hw.syndrome, hw.parity, if_neg Bool.false_ne_true]

theorem hammingStep_flipBit (ht : t < 288) : hammingStep (flipBit w t) = some w := by
  have hin : t < w.length := hw.length ▸ ht
  have hodd : oddParity (flipBit w t) = true := by rw [oddParity_flipBit w t hin, hw.parity, Bool.not_false]
  have hsyn : syndrome (flipBit w t) = columns.getD t 0 := by rw [syndrome_flipBit hin, hw.syndrome, Nat.xor_zero]
  rcases Nat.lt_succ_iff_lt_or_eq.mp ht with h | rfl
  · obtain ⟨hne, hle, hpos⟩ := position_columns t h
    rw [hammingStep_odd (hsyn ▸ hne) (hsyn ▸ hle) hodd, hsyn, hpos, flipBit_flipBit]
  · rw [hammingStep_zero (hsyn.trans columns_last), if_pos hodd, flipBit_flipBit]

theorem hammingStep_flipBit_flipBit (ht : t < 288) (hu : u < 288) (h : t ≠ u) :
    hammingStep (flipBit (flipBit w t) u) = none := by
  have hin : t < w.length := hw.length ▸ ht
  have hin' : u < (flipBit w t).length := by rw [flipBit_length, hw.length]; exact hu
  refine hammingStep_even ?_ ?_
  · rw [syndrome_flipBit hin', syndrome_flipBit hin, hw.syndrome, Nat.xor_zero]
    exact fun he => columns_ne ht hu h (Nat.xor_eq_zero_iff.mp he).symm
  · rw [oddParity_flipBit _ _ hin', oddParity_flipBit _ _ hin, hw.parity]
    rfl

end

/-! ### The decoder in modes 2 and 3 (R133, R141, R142) -/

section
variable {hard : List Bool} (rel : List Nat)

/-- Mode 2 flips no bit, so that pattern 0 gives the one candidate, or none. -/
theorem innerDecode_two : innerDecode 2 hard rel = (hammingStep hard).elim ⟨hard.take 272, true, 0, 0, 0⟩ fun c =>
    if crcOk c then ⟨c.take 272, false, distance hard c, 0, 0⟩ else ⟨hard.take 272, true, 0, 0, 1⟩ := by
  have hpattern : testPattern hard [] 0 = hard := rfl
  cases h : hammingStep hard with
  | none => simp [innerDecode, chaseBits, leastReliable, searchStep, hpattern, h]
  | some c => cases hc : crcOk c <;> simp [innerDecode, chaseBits, leastReliable, searchStep, hpattern, h, hc]

theorem innerDecode_two_none (h : hammingStep hard = none) : innerDecode 2 hard rel = ⟨hard.take 272, true, 0, 0, 0⟩ := by
  rw [innerDecode_two, h, Option.elim_none]

theorem innerDecode_two_some {c : List Bool} (h : hammingStep hard = some c) (hc : crcOk c = true) :
    innerDecode 2 hard rel = ⟨c.take 272, false, distance hard c, 0, 0⟩ := by
  rw [innerDecode_two, h, Option.elim_some, if_pos hc]

theorem innerDecode_three {w : List Bool} (hw : InnerCodeword w) : innerDecode 3 w rel = ⟨w.take 272, false, 0, 0, 0⟩ := by
  simp [innerDecode, syndrome_take, hw.syndrome, hw.parity, hw.crc]

end

end Sys2Proof.Machine

namespace Sys2Proof.Claims

open Sys2Proof.Machine

theorem inner_corrects (p : List Bool) : InnerCorrects p := fun hp =>
  have hw := innerEncode_codeword hp
  ⟨hw.length, innerEncode_take hp, hw.crc, hammingStep_codeword hw, fun _ => hammingStep_flipBit hw,
    fun _ _ => hammingStep_flipBit_flipBit hw⟩

theorem leaf_decoded (p : List Bool) (rel : List Nat) : LeafDecoded p rel := by
  intro hp
  have hw := innerEncode_codeword hp
  have htake := innerEncode_take hp
  refine ⟨?clean, ?checked, fun t ht => ?one, fun t u ht hu h => ?two⟩
  case clean => rw [innerDecode_two_some rel (hammingStep_codeword hw) hw.crc, htake, distance_self]
  case checked => rw [innerDecode_three rel hw, htake]
  case one => rw [innerDecode_two_some rel (hammingStep_flipBit hw ht) hw.crc, htake, distance_flipBit _ t (hw.length ▸ ht)]
  case two => exact innerDecode_two_none rel (hammingStep_flipBit_flipBit hw ht hu h)

/-- Settles O7: a codeword has syndrome 0 and even parity; an inverted bit adds a column of its own and turns the parity, so that one
is told by its column and two by an even parity with a syndrome that is not 0. -/
theorem innerCodeCorrects : Obligations.InnerCodeCorrects := fun p rel => ⟨inner_corrects p, leaf_decoded p rel⟩

/-- Settles O8: the last bit is the parity of those before it. -/
theorem codewordParityEven : Obligations.CodewordParityEven := by
  intro p _
  rw [count_ones_mod_two, oddParity_innerEncode]
  rfl

end Sys2Proof.Claims
end

section
/-! SUPPORT. The AGC outside its own state (R200, R251, R253), and the windows of acquisition (R266). -/

namespace Sys2Proof.Machine.Dev

variable {n : Lane} {d : Dev}

/-! ### Lanes -/

theorem modLane_congr {f g : LaneSt → LaneSt} (h : f (d.lane n) = g (d.lane n)) : d.modLane n f = d.modLane n g := by
  unfold lane at h
  rw [modLane, modLane, h]

theorem modLane_modLane (n : Lane) (f g : LaneSt → LaneSt) (d : Dev) :
    (d.modLane n f).modLane n g = d.modLane n fun l => g (f l) := by
  simp [modLane]

theorem ad_modAd (n : Lane) (f : Adapt → Adapt) (d : Dev) : ((d.modAd n f).lane n).ad = f (d.lane n).ad := by
  rw [modAd, lane_modLane, if_pos rfl]

theorem ad_modMs (n : Lane) (f : Meas → Meas) (d : Dev) : ((d.modMs n f).lane n).ad = (d.lane n).ad := by
  rw [modMs, lane_modLane, if_pos rfl]

theorem rx_modRx (n : Lane) (f : RxSt → RxSt) (d : Dev) : ((d.modRx n f).lane n).rx = f (d.lane n).rx := by
  rw [modRx, lane_modLane, if_pos rfl]

/-! ### Slice events (R684) -/

section
variable {β : Type} {g : Dev → β} (hg : ∀ a v d, g (setReg a v d) = g d)
include hg

/-- A reading that depends on no register word does not see a slice's event. -/
theorem sliceEvent_keeps (s e k : Nat) (d : Dev) : g (d.sliceEvent s e k) = g d := by
  have hadd (s j m : Nat) (d : Dev) : g (d.sliceAdd s j m).2 = g d := hg _ _ _
  have hon (f : Fld) (b : Bool) (d : Dev) : g (d.setOn f b) = g d := hg _ _ _
  have hpair (j : Nat) (ch : Bool) (d : Dev) : g (d.slicePairLow s j k ch) = g d := by
    unfold slicePairLow
    dsimp only
    split_ifs <;> simp only [hon, hadd]
  unfold sliceEvent
  split
  · rfl
  · refine each_keeps _ _ g (fun j d => ?_) d
    dsimp only
    split_ifs <;> simp only [hpair, hon, hadd]

theorem laneEvent_keeps (n : Lane) (e k : Nat) (d : Dev) : g (d.laneEvent n e k) = g d := by
  unfold laneEvent
  dsimp only
  split <;> simp only [sliceEvent_keeps hg]

end

theorem laneEvent_lane (k : Lane) (e m : Nat) (d : Dev) (n : Lane) : (d.laneEvent k e m).lane n = d.lane n :=
  laneEvent_keeps (g := fun d => d.lane n) (fun _ _ _ => rfl) k e m d

theorem laneEvent_lv (k : Lane) (e m : Nat) (d : Dev) (f : Fld) : (d.laneEvent k e m).lv f = d.lv f :=
  laneEvent_keeps (g := fun d => d.lv f) (fun _ _ _ => rfl) k e m d

/-! ### A step of the AGC (R200, R253) -/

theorem agcStuck_modAd (f : Adapt → Adapt) (ask : Int) (d : Dev) : (d.modAd n f).agcStuck n ask = d.agcStuck n ask := rfl

theorem agcStep_none (d : Dev) : d.agcStep n 0 = d.modAd n fun a => { a with agcUp := 0, agcDn := 0 } := by
  rw [agcStep, if_pos rfl]

theorem agcStep_stuck {ask : Int} (h0 : ask ≠ 0) (h : d.agcStuck n ask = true) :
    d.agcStep n ask = (d.modAd n fun a => { a with agcUp := 0, agcDn := 0 }).setOn (F.LANE_EQ_STAT_AGC_SAT n) true := by
  rw [agcStep, if_neg h0, agcStuck_modAd, if_pos h]

/-- With marker lock the step waits for a pilot slot. -/
theorem agcStep_waits {ask : Int} (h0 : ask ≠ 0) (h : d.agcStuck n ask = false) (ho : d.ownBoundary n = true) :
    d.agcStep n ask = ((d.modAd n fun a => { a with agcUp := 0, agcDn := 0 }).modRx n fun r =>
      { r with gainNext := some ((d.gain n : Int) + ask).toNat }).setOn (F.LANE_RX_AFE_STAT_STEP_PEND n) true := by
  rw [agcStep, if_neg h0, agcStuck_modAd, if_neg (by simp [h])]
  exact if_pos ho

theorem agcStep_applied {ask : Int} (h0 : ask ≠ 0) (h : d.agcStuck n ask = false) (ho : d.ownBoundary n = false) :
    d.agcStep n ask = (d.modAd n fun a => { a with agcUp := 0, agcDn := 0 }).agcApply n ((d.gain n : Int) + ask).toNat := by
  rw [agcStep, if_neg h0, agcStuck_modAd, if_neg (by simp [h])]
  exact if_neg (Bool.not_eq_true _ ▸ ho)

/-- A reading of neither registers nor lanes does not see the step applied. -/
theorem agcApply_keeps {β : Type} {r : Dev → β} (hw : ∀ a v d, r (setReg a v d) = r d) (hl : ∀ f d, r (modLane n f d) = r d)
    (g : Nat) (d : Dev) : r (d.agcApply n g) = r d := by
  have hgain : r (d.setGain n g) = r d := by
    unfold setGain
    split
    · rfl
    · exact (hl _ _).trans (hw _ _ _)
  unfold agcApply
  dsimp only
  split
  · exact (hw _ _ _).trans hgain
  · rw [scaleTaps]
    exact (hl _ _).trans ((hw _ _ _).trans hgain)

theorem agcStep_keeps {β : Type} {r : Dev → β} (hw : ∀ a v d, r (setReg a v d) = r d) (hl : ∀ f d, r (modLane n f d) = r d)
    (ask : Int) (d : Dev) : r (d.agcStep n ask) = r d := by
  by_cases h0 : ask = 0
  · subst h0
    rw [agcStep_none]
    exact hl _ _
  · cases hs : d.agcStuck n ask with
    | true =>
      rw [agcStep_stuck h0 hs]
      exact (hw _ _ _).trans (hl _ _)
    | false =>
      cases ho : d.ownBoundary n with
      | true =>
        rw [agcStep_waits h0 hs ho]
        exact (hw _ _ _).trans ((hl _ _).trans (hl _ _))
      | false =>
        rw [agcStep_applied h0 hs ho, agcApply_keeps hw hl]
        exact hl _ _

/-! ### The windows of acquisition (R266) -/

/-- What an acquisition window that is over passes to in state st. -/
theorem acqWindow_over (hs : d.hasSignal n = true) (hw : d.windowLen n ≤ (d.lane n).ms.winSlots) :
    d.acqWindow n =
      let m := (d.lane n).ms
      let e := d.setFld (F.LANE_EQ_MSE_MSE n) (mseField m)
      clearWindow n (if d.acq n = 2 then e.agcStateWindow n
        else if d.acq n = 3 then e.timingWindow n m.winSteps
        else if d.acq n = 4 ∧ mseBelow m (d.lv (F.LANE_ACQ_CFG_MSE_DD n)) = true then e.setAcq n 5
        else if d.acq n = 5 ∧ mseBelow m (d.lv (F.LANE_ACQ_CFG_MSE_LK n)) = true then (e.setAcq n 6).sublayerExit n
        else e) := by
  have hst : (d.setFld (F.LANE_EQ_MSE_MSE n) (mseField (d.lane n).ms)).acq n = d.acq n :=
    fld_setFld_word _ _ (by simp)
  rw [acqWindow, if_neg (by simp [hs, Nat.not_lt.mpr hw])]
  simp only [hst, setFld_lv]

end Sys2Proof.Machine.Dev

namespace Sys2Proof.Claims

open Sys2Proof.Machine Sys2Proof.Machine.Dev

variable {s : State} {n : Lane}

/-! ### The judgement of a window (R251, R253) -/

theorem agcJudged_ad (n : Lane) (d : Dev) : ((agcJudged n d).lane n).ad = (d.lane n).ad := by
  rw [agcJudged, ad_modMs, Dev.when]
  split
  · rw [setOn_lane, laneEvent_lane]
  · rw [laneEvent_lane]

theorem agcJudged_lv (n : Lane) (d : Dev) (f : Fld) : (agcJudged n d).lv f = d.lv f := by
  rw [agcJudged, modMs, modLane_lv, Dev.when]
  split
  · rw [setOn_lv, laneEvent_lv]
  · rw [laneEvent_lv]

theorem not_idle_of_ready {moved : Bool} (h : AgcReady s n moved) :
    ¬ (!(s.dev.lane n).ms.agcEnd ∨ s.dev.acq n < 3 ∨ !s.dev.lvOn (F.LANE_RX_AFE_AGC_EN n)) := by
  obtain ⟨hend, -, hacq, hen⟩ := h
  simp [hend, hen, Nat.not_lt.mpr hacq]

theorem agcWindow_moved (h : AgcReady s n true) : s.dev.agcWindow n = agcJudged n s.dev := by
  obtain ⟨-, hmoved, -, -⟩ := id h
  rw [agcWindow, if_neg (not_idle_of_ready h), hmoved]
  rfl

/-- The window counted in both runs, with the counts that it leaves. -/
def runsCounted (n : Lane) (up dn : Nat) (d : Dev) : Dev := (agcJudged n d).modAd n fun a => { a with agcUp := up, agcDn := dn }

/-- The runs judged: one that is complete asks for a step, and two ask for none. -/
def runsJudged (n : Lane) (d : Dev) : Dev :=
  let up := decide (max 1 (d.lv (F.LANE_AGC_CFG_UP_Q n)) ≤ (d.lane n).ad.agcUp)
  let dn := decide (max 1 (d.lv (F.LANE_AGC_CFG_DN_Q n)) ≤ (d.lane n).ad.agcDn)
  if up || dn then d.agcStep n (agcAsk up dn) else d

theorem runsJudged_counted (n : Lane) (up dn : Nat) (d : Dev) :
    runsJudged n (runsCounted n up dn d) =
      let upDue := decide (max 1 (d.lv (F.LANE_AGC_CFG_UP_Q n)) ≤ up)
      let dnDue := decide (max 1 (d.lv (F.LANE_AGC_CFG_DN_Q n)) ≤ dn)
      if upDue || dnDue then (runsCounted n up dn d).agcStep n (agcAsk upDue dnDue) else runsCounted n up dn d := by
  have hlv (f : Fld) : (runsCounted n up dn d).lv f = d.lv f := agcJudged_lv n d f
  have had : ((runsCounted n up dn d).lane n).ad.agcUp = up ∧ ((runsCounted n up dn d).lane n).ad.agcDn = dn := by
    rw [runsCounted, ad_modAd]
    exact ⟨rfl, rfl⟩
  simp only [runsJudged, hlv, had]

/-- A window with no gain step in it counts in both runs, and they are judged. -/
theorem agcWindow_counts (h : AgcReady s n false) :
    s.dev.agcWindow n = runsJudged n (runsCounted n (if agcLow s.dev n then (s.dev.lane n).ad.agcUp + 1 else 0)
      (if agcHigh s.dev n then (s.dev.lane n).ad.agcDn + 1 else 0) s.dev) := by
  obtain ⟨-, hmoved, -, -⟩ := id h
  have hopen : s.dev.agcWindow n = runsJudged n ((agcJudged n s.dev).modAd n fun a =>
      { a with agcUp := if agcLow s.dev n then a.agcUp + 1 else 0, agcDn := if agcHigh s.dev n then a.agcDn + 1 else 0 }) := by
    rw [agcWindow, if_neg (not_idle_of_ready h), hmoved]
    rfl
  rw [hopen, runsCounted, modAd, modAd]
  congr 1
  exact modLane_congr (by rw [agcJudged_ad])

theorem agcMoved (s : State) (n : Lane) : AgcMoved s n := fun h => ⟨_, rfl, by rw [agcWindow_moved h]⟩

theorem agcCounted (s : State) (n : Lane) : AgcCounted s n := by
  intro h low high up dn upDue dnDue d
  have he : exec (.agcWindowEnd n) s = .next (commit s (if upDue || dnDue then d.agcStep n (agcAsk upDue dnDue) else d)) := by
    show Host.Outcome.next (commit s (s.dev.agcWindow n)) = _
    rw [agcWindow_counts h, runsJudged_counted]
    rfl
  refine ⟨fun hu hd => ⟨_, he, by simp [hu, hd]⟩, fun hu hd => ⟨_, he, by simp [hu, hd, agcAsk]⟩,
    fun hu hd => ⟨_, he, by simp [hu, hd, agcAsk]⟩, fun hu hd => ⟨_, he, ?_⟩⟩
  have hboth : d.agcStep n 0 = (agcJudged n s.dev).modAd n fun a => { a with agcUp := 0, agcDn := 0 } := by
    rw [agcStep_none]
    exact modLane_modLane ..
  simp [hu, hd, agcAsk, hboth]

theorem agcHolds (s : State) (n : Lane) : AgcHolds s n := by
  intro h hlow hhigh
  have hband : s.dev.agcBand n (s.dev.lane n).ms.agcSS (144 * (s.dev.lane n).ms.agcN) = true := by
    have habove := (Bool.or_eq_false_iff.mp hhigh).1
    rw [agcBand, show s.dev.agcBelow n _ _ = false from hlow, habove]
    rfl
  obtain ⟨hkept, -⟩ := agcCounted s n h
  simp only [hlow, hhigh, Bool.false_eq_true, if_false] at hkept
  have hruns := hkept (by simp) (by simp)
  simpa only [agcJudged, hband, Dev.when, if_true] using hruns

theorem agcStepped (d : Dev) (n : Lane) (up : Bool) : AgcStepped d n up := by
  unfold AgcStepped
  intro ask e
  have h0 : ask ≠ 0 := by cases up <;> simp [ask]
  refine ⟨fun hs => ?_, fun hs ho => ?_, agcStep_keeps (r := Dev.mem) (fun _ _ _ => rfl) (fun _ _ => rfl) ask d,
    agcStep_keeps (r := Dev.raised) (fun _ _ _ => rfl) (fun _ _ => rfl) ask d⟩
  · have he : e = (d.modAd n fun a => { a with agcUp := 0, agcDn := 0 }).setOn (F.LANE_EQ_STAT_AGC_SAT n) true :=
      agcStep_stuck h0 hs
    rw [he]
    exact ⟨on_setOn_self _ _ _ (by simp) rfl, fld_setFld_word _ _ (by simp)⟩
  · have he := agcStep_waits h0 hs ho
    change e = _ at he
    rw [he]
    refine ⟨?_, on_setOn_self _ _ _ (by simp) rfl, ?_⟩
    · rw [setOn_lane, rx_modRx]
    · exact fld_setFld_apart (f := F.LANE_RX_AFE_STAT_STEP_PEND n) _ _ (by simp) (.inl (by simp))

theorem acqWindowed (s : State) (n : Lane) : AcqWindowed s n := by
  unfold AcqWindowed
  intro m hs hw d
  have he : exec (.acqWindowEnd n) s = .next (commit s (s.dev.acqWindow n)) := rfl
  rw [acqWindow_over hs hw] at he
  refine ⟨fun h => ⟨_, he, ?_⟩, fun h => ⟨_, he, ?_⟩, fun h hb => ⟨_, he, ?_⟩, fun h hb => ⟨_, he, ?_⟩, fun h hb => ⟨_, he, ?_⟩,
    fun h hb => ⟨_, he, ?_⟩, fun h => ⟨_, he, ?_⟩⟩
  case refine_7 =>
    have h2 : s.dev.acq n ≠ 2 ∧ s.dev.acq n ≠ 3 ∧ s.dev.acq n ≠ 4 ∧ s.dev.acq n ≠ 5 := by omega
    simp only [h2, false_and, if_false]
    rfl
  all_goals simp [d, m, *]

/-- Settles O25: a window of the AGC by what it adds to the two runs and what step they then ask for; an acquisition window by the
state it ends in. -/
theorem gainFollows : Obligations.GainFollows := fun s _ =>
  ⟨fun n => ⟨agcHolds s n, agcMoved s n, agcCounted s n, acqWindowed s n⟩, agcStepped⟩

end Sys2Proof.Claims
end

section
/-! SUPPORT. The slot that a lane without lock receives (R258), and the search under the opposite precoding that may end in it
(R116). -/

namespace Sys2Proof.Machine.Dev

variable {n : Lane} {d : Dev}

/-- A lane without its own boundary receives the slot, and a search under the opposite precoding that has run out ends there. -/
theorem updateIntervalEnd_free (rx : RxLeaf) (hr : d.receives n = true) (ho : d.ownBoundary n = false) :
    d.updateIntervalEnd n rx = ((d.freeSlot n rx).2.oppTimeout n).mirror n := by
  rw [updateIntervalEnd, if_neg (by simp [hr]), if_neg (by simp [ho])]

theorem mirror_lane (n k : Lane) (d : Dev) : (d.mirror n).lane k = d.lane k := by
  unfold mirror
  split <;> rfl

/-- A search that has run out begins its count again. -/
theorem oppTimeout_due (ha : d.acq n = 6) (hq : 4112 ≤ (d.lane n).rx.oppNone) :
    ((d.oppTimeout n).lane n).rx.oppNone = 0 := by
  rw [oppTimeout, if_pos ⟨ha, hq⟩, rx_modRx]

end Sys2Proof.Machine.Dev

namespace Sys2Proof.Claims

open Sys2Proof.Machine Sys2Proof.Machine.Dev

theorem commit_oppNone (s : State) (d : Dev) (n : Lane) : ((commit s d).dev.lane n).rx.oppNone = (d.lane n).rx.oppNone :=
  finish_keeps (fun e => (e.lane n).rx.oppNone) fun _ => rfl

/-- Lane 0 receives in MARKER without lock, and in one slot more its search under the opposite precoding has run two marker periods
without a find. -/
def searching : State :=
  { State.reset with
    dev := (((State.reset.dev.setFld F.PWR_STAT_DSTATE stACTIVE).setFld (laneStat 0) 2).setFld (F.LANE_EQ_STAT_ACQ 0) 6).modRx 0
      fun r => { r with oppNone := 4111 } }

/-- A leaf of mid-scale codes. -/
def midScale : RxLeaf := ⟨List.replicate 144 128, List.replicate 79 128⟩

theorem searching_receives : searching.dev.settled = true ∧ searching.dev.receives 0 = true ∧ searching.dev.ownBoundary 0 = false := by
  decide +kernel

theorem searching_runsOut : (searching.dev.freeSlot 0 midScale).2.acq 0 = 6 ∧
    ((searching.dev.freeSlot 0 midScale).2.lane 0).rx.oppNone = 4112 := by
  decide +kernel

/-- The end of an interval without lock is more than the slot received: it may end the search of R116 too. -/
theorem not_intervalEnded : ¬ IntervalEnded searching 0 midScale 0 := by
  rintro ⟨-, hfree⟩
  obtain ⟨-, hreceives, hown⟩ := searching_receives
  obtain ⟨hacq, hnone⟩ := searching_runsOut
  obtain ⟨t, ht, rfl⟩ := hfree hreceives hown
  have hends : exec (.updateIntervalEnd 0 midScale) searching =
      .next (commit searching (searching.dev.updateIntervalEnd 0 midScale)) := rfl
  rw [hends, updateIntervalEnd_free _ hreceives hown] at ht
  have hcount := congrArg (fun t => (t.dev.lane 0).rx.oppNone) (Host.Outcome.next.inj ht)
  simp only [commit_oppNone, mirror_lane, oppTimeout_due hacq (Nat.le_of_eq hnone.symm), hnone] at hcount
  exact absurd hcount (by decide)

/-- Refutes O26: in a lane without lock the last slot of an interval may also end the search under the opposite precoding (R116),
whose count the statement leaves as the slot made it. -/
theorem not_acquisitionActs : ¬ Obligations.AcquisitionActs := by
  intro h
  obtain ⟨-, -, hinterval, -⟩ := h searching searching_receives.1
  exact not_intervalEnded (hinterval 0 midScale 0)

end Sys2Proof.Claims
end

section
/-! SUPPORT. A word write that is performed, with the block that takes it (R511, R515); and LANE.EQ_CTRL, LANE.RX_PHCFG and BRL.NEXT. -/

namespace Sys2Proof.Claims

open Sys2Proof.Machine Sys2Proof.Machine.Dev

variable {s : State} {n : Lane} {m : Master} {a mask trig : Nat} {v : Word}

/-- The register has the RW and RB bits `mask` and the triggers `trig`. -/
def rowBits (a mask trig : Nat) : Bool := (rowAt a).any fun r => (r.rw ||| r.rb) == mask && r.wt == trig

/-- The word lies where a block's registers and their holding copies lie, apart from its event registers. -/
abbrev RegWord (a : Nat) : Prop :=
  0x10000000 ≤ a ∧ a < 0x10200000 ∧ a % 4 = 0 ∧ (a % 0x10000 < 0x7F00 ∨ (0x8000 ≤ a % 0x10000 ∧ a % 0x10000 ≠ 0xFF08))

theorem place_row {r : RegRow} (ha : RegWord a) (hr : rowAt a = some r) : place a = some (.live r) := by
  obtain ⟨h1, h2, h3, h4⟩ := ha
  obtain ⟨i, j, hr⟩ := regRow_some hr
  have hin : ¬ (a < 0x10000000 ∨ 0x10200000 ≤ a ∨ a % 4 ≠ 0) := by omega
  have he (n : Nat) (hn : n = 0xFF08 ∨ (0x7F00 ≤ n ∧ n < 0x8000)) : (a % 0x10000 == n) = false := by
    rw [beq_eq_false_iff_ne]; omega
  simp only [place, if_neg hin, he 0x7F00 (by decide), he 0x7F04 (by decide), he 0x7F08 (by decide), he 0xFF08 (by decide),
    Bool.and_false, Bool.false_eq_true, if_false, hr]

theorem row_of_bits (ha : RegWord a) (h : rowBits a mask trig = true) :
    ∃ r, place a = some (.live r) ∧ r.rw ||| r.rb = mask ∧ r.wt = trig := by
  obtain ⟨r, hr, hb⟩ := (Option.any_eq_true _ _).mp h
  simp only [Bool.and_eq_true, beq_iff_eq] at hb
  exact ⟨r, place_row ha hr, hb⟩

/-- A word write that is performed, as the register's block stores it: `f` takes the word that the write leaves and the triggers it sets. -/
theorem busWrite_stored {f : Word → Word → Dev → Dev} (ha : RegWord a) (hrow : rowBits a mask trig = true)
    (hb : BitVec.ofNat 32 (mask ||| trig) ≠ 0) (hh : ∀ d : Dev, d.heldWord m a = d.reg a)
    (hf : ∀ r (d : Dev), BitVec.ofNat 32 (r.rw ||| r.rb ||| r.wt) ≠ 0 →
      d.busStore (wordWr m v none none) a r = f (d.merged m a r v) (v &&& BitVec.ofNat 32 r.wt) d)
    (hr : Reaches s m a) :
    s.dev.busWrite m a .word v = onBus a (fun d => f (wordWritten d a mask v) (v &&& BitVec.ofNat 32 trig) d) s.dev := by
  obtain ⟨r, hp, rfl, rfl⟩ := row_of_bits ha hrow
  obtain ⟨hm, hd, hg⟩ := hr
  have hnew (d : Dev) : d.merged m a r v = wordWritten d a (r.rw ||| r.rb) v := by rw [merged, hh, wordWritten]
  rw [busWrite, busWriteAt_word hm ha.2.2.1 (place_notAlias hp) hp (hg _ hp) hd, hf r _ hb, hnew, onBus]

/-- A trigger that the register has is set by its bit of the word written. -/
theorem getLsbD_trigger {k : Nat} (v : Word) (h : (BitVec.ofNat 32 trig).getLsbD k = true) :
    (v &&& BitVec.ofNat 32 trig).getLsbD k = v.getLsbD k := by
  rw [BitVec.getLsbD_and, h, Bool.and_true]

/-! ### The block LANE -/

theorem heldWord_lane {l : Nat} (ha : a = l + n * 0x1000) (hl : 0x10110000 ≤ l) (hl' : l < 0x10110F00) (d : Dev) :
    d.heldWord m a = d.reg a := by
  have hn := n.isLt
  exact heldWord_reg (by unfold ribbonPlace; exact if_neg (by omega)) (by omega) (by omega)

/-- A word write of a register of lane n. -/
theorem busWrite_lane {l : Nat} (ha : a = l + n * 0x1000) (hl : 0x10110000 ≤ l) (hl' : l < 0x10110F00) (h4 : l % 4 = 0)
    (hrow : rowBits a mask trig = true) (hb : BitVec.ofNat 32 (mask ||| trig) ≠ 0) (hr : Reaches s m a) :
    s.dev.busWrite m a .word v = onBus a (fun d => d.writeLane n a (wordWritten d a mask v) (v &&& BitVec.ofNat 32 trig)
      (wordWr m v none none)) s.dev := by
  have hn := n.isLt
  refine busWrite_stored (f := fun new t d => d.writeLane n a new t (wordWr m v none none)) (by unfold RegWord; omega) hrow hb
    (heldWord_lane ha hl hl') (fun r d hb => ?_) hr
  have hlane : Fin.ofNat 8 (a % 0x10000 / 0x1000) = n := Fin.ext (by simp only [Fin.ofNat]; omega)
  rw [store_lane d (by simp only [blockOf]; omega) hb, hlane]

theorem eqCtrl_bits : ∀ n : Lane, rowBits (R.LANE_EQ_CTRL n) 0x102 0x11 = true := by decide +kernel

theorem phcfg_bits : ∀ n : Lane, rowBits (R.LANE_RX_PHCFG n) 0x13F 0 = true := by decide +kernel

theorem trimAddr_eqCtrl (n : Lane) : trimAddr n (R.LANE_EQ_CTRL n) = false := by
  simp only [trimAddr, R.LANE_ADC_TRIM, R.LANE_ADC_CSKEW, R.LANE_EQ_CTRL, Bool.or_eq_false_iff, decide_eq_false_iff_not,
    beq_eq_false_iff_ne]
  omega

theorem writeLane_eqCtrl (n : Lane) (new t : Word) (x : Wr) (d : Dev) :
    d.writeLane n (R.LANE_EQ_CTRL n) new t x =
      let e := (d.setReg (R.LANE_EQ_CTRL n) new).showFrozen n
      let e := if t.getLsbD 4 then e.saveRequest n else e
      if t.getLsbD 0 then e.reacquire n else e := by
  have hret : R.LANE_EQ_CTRL n ≠ R.LANE_ADC_RET n := by simp only [R.LANE_EQ_CTRL, R.LANE_ADC_RET]; omega
  have hcfg : R.LANE_EQ_CTRL n ≠ R.LANE_TX_CFG n := by simp only [R.LANE_EQ_CTRL, R.LANE_TX_CFG]; omega
  rw [writeLane, if_neg hret, trimAddr_eqCtrl]
  dsimp only
  rw [if_neg hcfg, if_pos rfl]
  rfl

/-! ### LANE.EQ_CTRL (R261, R274, R276) -/

/-- A write's bits are stored, and its SAVE is taken. -/
def eqCtrlSaved (n : Lane) (v : Word) (d : Dev) : Dev :=
  if v.getLsbD 4 then (eqCtrlStored n v d).saveRequest n else eqCtrlStored n v d

/-- What a write of `LANE.EQ_CTRLn` does to the device: SAVE, then REACQ. -/
def eqCtrlActed (n : Lane) (v : Word) (d : Dev) : Dev :=
  if v.getLsbD 0 then (eqCtrlSaved n v d).reacquire n else eqCtrlSaved n v d

theorem exec_eqCtrl {c : Instr} (hr : Reaches s m (R.LANE_EQ_CTRL n)) (hc : c ∈ eqCtrlWrites m n v) :
    exec c s = .next (commit s (onBus (R.LANE_EQ_CTRL n) (eqCtrlActed n v) s.dev)) := by
  have hw : s.dev.busWrite m (R.LANE_EQ_CTRL n) .word v = onBus (R.LANE_EQ_CTRL n) (eqCtrlActed n v) s.dev := by
    rw [busWrite_lane (n := n) rfl (by decide) (by decide) (by decide) (eqCtrl_bits n) (by decide) hr]
    simp only [writeLane_eqCtrl, getLsbD_trigger v (show (BitVec.ofNat 32 0x11).getLsbD 4 = true by decide),
      getLsbD_trigger v (show (BitVec.ofNat 32 0x11).getLsbD 0 = true by decide)]
    rfl
  simp only [eqCtrlWrites, List.mem_cons, List.not_mem_nil, or_false] at hc
  rcases hc with rfl | rfl | rfl <;> exact congrArg (fun d => Host.Outcome.next (commit s d)) hw

/-- From d to e what REACQ looks at stands: the state of acquisition, RUN, and the swap of the lane. -/
structure SameCourse (n : Lane) (d e : Dev) : Prop where
  acq  : e.acq n = d.acq n
  run  : e.inRun n = d.inRun n
  swap : e.swapping n = d.swapping n

theorem sameCourse_of_reg {d e : Dev} (ha : e.acq n = d.acq n) (hp : e.reg R.PWR_LANE_STAT = d.reg R.PWR_LANE_STAT)
    (hs : e.reg R.SPR_STAT = d.reg R.SPR_STAT) : SameCourse n d e where
  acq := ha
  run := congrArg (fun w => getBits w (laneStat n) == 2) hp
  swap := congrArg (fun w => decide (3 ≤ getBits w F.SPR_STAT_PHASE) && Fin.ofNat 8 (getBits w F.SPR_STAT_TLANE) == n) hs

theorem sameCourse_setOn {f : Fld} (b : Bool) (hf : f.addr = R.LANE_EQ_STAT n) (hw : f.lo + f.w ≤ 28) (d : Dev) :
    SameCourse n d (d.setOn f b) := by
  refine sameCourse_of_reg (fld_acq_setOn b d hw) (reg_setOn_ne _ _ _ ?_) (reg_setOn_ne _ _ _ ?_) <;>
    simp only [hf, R.PWR_LANE_STAT, R.SPR_STAT, R.LANE_EQ_STAT] <;> omega

theorem sameCourse_stored (n : Lane) (v : Word) (d : Dev) : SameCourse n d (eqCtrlStored n v d) := by
  obtain ⟨ha, hr, hs⟩ := sameCourse_setOn (f := F.LANE_EQ_STAT_FROZEN n)
    ((d.setReg (R.LANE_EQ_CTRL n) (wordWritten d (R.LANE_EQ_CTRL n) 0x102 v)).adaptHeld n ||
      ((d.setReg (R.LANE_EQ_CTRL n) (wordWritten d (R.LANE_EQ_CTRL n) 0x102 v)).lane n).fr.prof == 0) rfl (by simp)
    (d.setReg (R.LANE_EQ_CTRL n) (wordWritten d (R.LANE_EQ_CTRL n) 0x102 v))
  obtain ⟨ha', hr', hs'⟩ : SameCourse n d (d.setReg (R.LANE_EQ_CTRL n) (wordWritten d (R.LANE_EQ_CTRL n) 0x102 v)) := by
    refine sameCourse_of_reg (fld_setReg_ne _ _ (by simp)) (reg_setReg_ne _ _ ?_) (reg_setReg_ne _ _ ?_) <;>
      simp only [R.PWR_LANE_STAT, R.SPR_STAT, R.LANE_EQ_CTRL] <;> omega
  exact ⟨ha.trans ha', hr.trans hr', hs.trans hs'⟩

section
variable {d : Dev}

/-- SAVE in DATA. -/
theorem eqCtrlSaved_data (h4 : v.getLsbD 4 = true) (hd : d.inData n = true) :
    eqCtrlSaved n v d = (eqCtrlStored n v d).setOn (F.LANE_EQ_STAT_SAVE_BUSY n) true := by
  have hd' : (eqCtrlStored n v d).inData n = true := by rwa [inData, (sameCourse_stored n v d).acq]
  rw [eqCtrlSaved, if_pos h4, saveRequest, if_pos hd']

/-- No SAVE, or one outside DATA. -/
theorem eqCtrlSaved_none (h : v.getLsbD 4 = true → d.inData n = false) : eqCtrlSaved n v d = eqCtrlStored n v d := by
  unfold eqCtrlSaved
  split
  case isTrue h4 =>
    have hd' : (eqCtrlStored n v d).inData n = false := by rw [inData, (sameCourse_stored n v d).acq]; exact h h4
    rw [saveRequest, if_neg (by simp [hd'])]
  case isFalse => rfl

theorem sameCourse_saved (n : Lane) (v : Word) (d : Dev) : SameCourse n d (eqCtrlSaved n v d) := by
  obtain ⟨ha, hr, hs⟩ := sameCourse_stored n v d
  by_cases h : v.getLsbD 4 = true ∧ d.inData n = true
  · obtain ⟨ha', hr', hs'⟩ := sameCourse_setOn (f := F.LANE_EQ_STAT_SAVE_BUSY n) true rfl (by simp) (eqCtrlStored n v d)
    rw [eqCtrlSaved_data h.1 h.2]
    exact ⟨ha'.trans ha, hr'.trans hr, hs'.trans hs⟩
  · rw [eqCtrlSaved_none fun h4 => by simpa [h4] using h]
    exact ⟨ha, hr, hs⟩

section
variable {e : Dev} (he : eqCtrlSaved n v d = e)
include he

theorem eqCtrlActed_quiet (h0 : v.getLsbD 0 = false) : eqCtrlActed n v d = e := by
  rw [eqCtrlActed, h0, he, if_neg Bool.false_ne_true]

theorem eqCtrlActed_idle (h : d.inRun n = false ∨ d.acq n = 0) : eqCtrlActed n v d = e := by
  obtain ⟨ha, hr, -⟩ := sameCourse_saved n v d
  rw [he] at ha hr
  have hidle : e.reacquire n = e := by rw [reacquire, if_pos (by simpa only [ha, hr, Bool.not_eq_true'] using h)]
  rw [eqCtrlActed, he, hidle, ite_self]

section
variable (h0 : v.getLsbD 0 = true) (hrun : d.inRun n = true) (hacq : d.acq n ≠ 0)
include h0 hrun hacq

theorem eqCtrlActed_waits (hsw : d.swapping n = true) : eqCtrlActed n v d = e.afterSwap .reacq := by
  obtain ⟨ha, hr, hs⟩ := sameCourse_saved n v d
  rw [he] at ha hr hs
  rw [eqCtrlActed, if_pos h0, he, reacquire, if_neg (by simp [ha, hr, hrun, hacq]), if_pos (hs.trans hsw)]

theorem eqCtrlActed_goes (hsw : d.swapping n = false) :
    eqCtrlActed n v d = ((e.endShadowOf n 4).calRxChange n).toSigDet n := by
  obtain ⟨ha, hr, hs⟩ := sameCourse_saved n v d
  rw [he] at ha hr hs
  rw [eqCtrlActed, if_pos h0, he, reacquire, if_neg (by simp [ha, hr, hrun, hacq]), if_neg (by simp [hs, hsw])]

end

end

end

theorem eqCtrlWritten (s : State) (m : Master) (n : Lane) (v : Word) : EqCtrlWritten s m n v := by
  intro hreach c hc
  have hend {f : Dev → Dev}
      (h : eqCtrlActed n v (s.dev.touch (domainOf (R.LANE_EQ_CTRL n))) = f (s.dev.touch (domainOf (R.LANE_EQ_CTRL n)))) :
      Ends c s (onBus (R.LANE_EQ_CTRL n) f s.dev) := ⟨_, exec_eqCtrl hreach hc, by rw [onBus, onBus, h]⟩
  have hnone (h4 : v.getLsbD 4 = false) : v.getLsbD 4 = true → s.dev.inData n = false :=
    fun h => absurd (h4.symm.trans h) Bool.false_ne_true
  have hdata (hd : s.dev.inData n = true) : s.dev.acq n ≠ 0 := fun h => by simp [inData, h] at hd
  exact ⟨fun h4 h0 => hend (eqCtrlActed_quiet (eqCtrlSaved_none (hnone h4)) h0),
    fun h4 h0 hd => hend (eqCtrlActed_quiet (eqCtrlSaved_data h4 hd) h0),
    fun h4 h0 hd => hend (eqCtrlActed_quiet (eqCtrlSaved_none fun _ => hd) h0),
    fun h4 h0 hd hr hs => hend (eqCtrlActed_goes (eqCtrlSaved_data h4 hd) h0 hr (hdata hd) hs),
    fun h4 h0 hd hr hs => hend (eqCtrlActed_waits (eqCtrlSaved_data h4 hd) h0 hr (hdata hd) hs),
    fun h0 h4 hi => hend (eqCtrlActed_idle (eqCtrlSaved_none h4) hi),
    fun h4 h0 hr ha hs => hend (eqCtrlActed_goes (eqCtrlSaved_none h4) h0 hr ha hs),
    fun h4 h0 hr ha hs => hend (eqCtrlActed_waits (eqCtrlSaved_none h4) h0 hr ha hs)⟩

/-! ### LANE.RX_PHCFG (R206) -/

theorem plain_phcfg : ∀ n : Lane, plainWord (R.LANE_RX_PHCFG n) = true := by decide

theorem phcfgWritten (hs : s.dev.settled = true) (m : Master) (n : Lane) (v : Word) : PhcfgWritten s m n v := by
  intro hr
  have hw := busWrite_lane (v := v) (n := n) rfl (by decide) (by decide) (by decide) (phcfg_bits n) (by decide) hr
  simp only [writeLane_plain (plain_phcfg n)] at hw
  have he : exec (.interpFreezeWrite m n v) s = .next (commit s (s.dev.busWrite m (R.LANE_RX_PHCFG n) .word v)) := rfl
  rw [hw] at he
  refine yields_quiet he hs (fun b hb => ?_) (fun _ => rfl) rfl rfl rfl rfl
  rw [onBus, returned_reg, reg_setReg_ne _ _ (List.ne_of_not_mem_cons hb), touch_reg]

/-! ### BRL.NEXT (R289, R290) -/

theorem next_bits : ∀ n : Lane, rowBits (R.BRL_NEXT n) 0x3FFFF 0 = true := by decide +kernel

theorem setOn_modLane (f : Fld) (b : Bool) (k : Lane) (g : LaneSt → LaneSt) (d : Dev) :
    (d.modLane k g).setOn f b = (d.setOn f b).modLane k g := rfl

/-- The lookup and the judgement that waits, as a write of `BRL.NEXTn` leaves them. -/
def nextSet (n : Lane) (look : Option (BitVec 16)) (d : Dev) : Dev :=
  d.modBrl n fun b => { b with judge := nextSeen b, lookup := look }

theorem nextWritten_valid {d : Dev} (h : d.on (F.BRL_NEXT_VALID n) = true) :
    d.nextWritten n = nextSet n (some (BitVec.ofNat 16 (d.fld (F.BRL_NEXT_SRC n)))) d := by
  rw [Dev.nextWritten, modBrl, modLane_on, if_pos h]
  exact modLane_modLane ..

theorem nextWritten_none {d : Dev} (h : d.on (F.BRL_NEXT_VALID n) = false) :
    d.nextWritten n = nextSet n none (d.setOn (F.BRL_STAT_STAGED n) false) := by
  rw [Dev.nextWritten, modBrl, modLane_on, if_neg (by simp [h]), setOn_modLane]
  exact modLane_modLane ..

theorem busWrite_next (hr : Reaches s m (R.BRL_NEXT n)) :
    s.dev.busWrite m (R.BRL_NEXT n) .word v = onBus (R.BRL_NEXT n) (fun d =>
      (d.setReg (R.BRL_NEXT n) (wordWritten d (R.BRL_NEXT n) 0x3FFFF v)).nextWritten n) s.dev := by
  have hn := n.isLt
  have hribbon : ribbonPlace (R.BRL_NEXT n) = none := by unfold ribbonPlace; exact if_neg (by simp only [R.BRL_NEXT]; omega)
  have hlane : Fin.ofNat 8 (R.BRL_NEXT n % 0x10000 / 0x100) = n := Fin.ext (by simp only [Fin.ofNat, R.BRL_NEXT]; omega)
  refine busWrite_stored (f := fun new _ d => (d.setReg (R.BRL_NEXT n) new).nextWritten n)
    (by unfold RegWord; simp only [R.BRL_NEXT]; omega) (next_bits n) (by decide)
    (fun d => heldWord_reg hribbon (by simp only [R.BRL_NEXT]; omega) (by simp only [R.BRL_NEXT]; omega)) (fun r d hb => ?_) hr
  rw [store_brl d (by simp only [blockOf, R.BRL_NEXT]; omega) hb, writeBrl, hribbon]
  dsimp only
  rw [hlane, if_pos rfl]

/-- A field of RW bits alone reads as written. -/
theorem getBits_wordWritten {d : Dev} {f : Fld} (hf : ∀ k < f.w, (BitVec.ofNat 32 mask).getLsbD (f.lo + k) = true) :
    getBits (wordWritten d a mask v) f = getBits v f := by
  apply Nat.eq_of_testBit_eq
  intro k
  rw [testBit_getBits, testBit_getBits]
  by_cases hk : k < f.w
  · have hm := hf k hk
    simp only [BitVec.testBit_toNat, wordWritten, BitVec.getLsbD_or, BitVec.getLsbD_and, BitVec.getLsbD_not, hm, Bool.not_true,
      Bool.and_false, Bool.false_or, Bool.and_true]
  · simp [hk]

theorem getBits_bit (v : Word) {f : Fld} (hw : f.w = 1) : getBits v f = (v.getLsbD f.lo).toNat := by
  rw [getBits, hw, pow_one, BitVec.getLsbD, Nat.toNat_testBit]

/-- VALID and SRC of the word that a write of `BRL.NEXTn` leaves are those written. -/
theorem next_written (n : Lane) (v : Word) (d : Dev) :
    (d.setReg (R.BRL_NEXT n) (wordWritten d (R.BRL_NEXT n) 0x3FFFF v)).on (F.BRL_NEXT_VALID n) = v.getLsbD 16 ∧
    BitVec.ofNat 16 ((d.setReg (R.BRL_NEXT n) (wordWritten d (R.BRL_NEXT n) 0x3FFFF v)).fld (F.BRL_NEXT_SRC n)) = v.setWidth 16 := by
  have hvalid : ∀ k < 1, (BitVec.ofNat 32 0x3FFFF).getLsbD (16 + k) = true := by decide
  have hsrc : ∀ k < 16, (BitVec.ofNat 32 0x3FFFF).getLsbD (0 + k) = true := by decide
  rw [on, fld, fld, reg_setReg_self, getBits_wordWritten hvalid, getBits_wordWritten hsrc, getBits_bit v rfl]
  refine ⟨by cases v.getLsbD 16 <;> rfl, ?_⟩
  apply BitVec.eq_of_toNat_eq
  simp [getBits]

/-- A write of `BRL.NEXTn` that announces a source. -/
theorem exec_nextValid (hr : Reaches s m (R.BRL_NEXT n)) (hv : v.getLsbD 16 = true) :
    exec (.brlNextWrite m n v) s = .next (commit s (onBus (R.BRL_NEXT n) (fun d =>
      nextSet n (some (v.setWidth 16)) (d.setReg (R.BRL_NEXT n) (wordWritten d (R.BRL_NEXT n) 0x3FFFF v))) s.dev)) := by
  obtain ⟨hvalid, hsrc⟩ := next_written n v (s.dev.touch (domainOf (R.BRL_NEXT n)))
  have he : exec (.brlNextWrite m n v) s = .next (commit s (s.dev.busWrite m (R.BRL_NEXT n) .word v)) := rfl
  rw [he, busWrite_next hr, onBus, nextWritten_valid (hvalid.trans hv), hsrc, onBus]

/-- One that announces none. -/
theorem exec_nextNone (hr : Reaches s m (R.BRL_NEXT n)) (hv : v.getLsbD 16 = false) :
    exec (.brlNextWrite m n v) s = .next (commit s (onBus (R.BRL_NEXT n) (fun d =>
      nextSet n none ((d.setReg (R.BRL_NEXT n) (wordWritten d (R.BRL_NEXT n) 0x3FFFF v)).setOn (F.BRL_STAT_STAGED n) false)) s.dev)) := by
  obtain ⟨hvalid, -⟩ := next_written n v (s.dev.touch (domainOf (R.BRL_NEXT n)))
  have he : exec (.brlNextWrite m n v) s = .next (commit s (s.dev.busWrite m (R.BRL_NEXT n) .word v)) := rfl
  rw [he, busWrite_next hr, onBus, nextWritten_none (hvalid.trans hv), onBus]

theorem brlNextWritten (hs : s.dev.settled = true) (m : Master) (n : Lane) (v : Word) : NextWritten s m n v := by
  intro hr
  refine ⟨fun hv => ?_, fun hv => ?_⟩
  · refine yields_quiet (exec_nextValid hr hv) hs (fun b hb => ?_) (fun _ => rfl) rfl rfl rfl rfl
    rw [onBus, nextSet, returned_reg, modBrl, modLane_reg, reg_setReg_ne _ _ (List.ne_of_not_mem_cons hb), touch_reg]
  · refine yields_quiet (exec_nextNone hr hv) hs (fun b hb => ?_) (fun _ => rfl) rfl ?_ ?_ ?_
    · simp only [List.mem_cons, List.not_mem_nil, or_false, not_or] at hb
      obtain ⟨hnext, hstat⟩ := hb
      rw [onBus, nextSet, returned_reg, modBrl, modLane_reg, reg_setOn_ne _ _ _ hstat, reg_setReg_ne _ _ hnext, touch_reg]
    · simp only [onBus, nextSet, modBrl, returned_raised, modLane_raised, setOn_raised, setReg_raised, touch_raised]
    · simp only [onBus, nextSet, modBrl, returned_popped, modLane_popped, setOn_popped, setReg_popped, touch_popped]
    · simp only [onBus, nextSet, modBrl, returned_emptied, modLane_emptied, setOn_emptied, setReg_emptied, touch_emptied]

/-- Settles O27: a write of `LANE.EQ_CTRLn` by what its SAVE leaves and whether its REACQ goes or waits; the other two by the word that
each leaves. -/
theorem equaliserCommanded : Obligations.EqualiserCommanded := fun s hs m n v =>
  ⟨eqCtrlWritten s m n v, phcfgWritten hs m n v, brlNextWritten hs m n v⟩

end Sys2Proof.Claims
end

section
/-! SUPPORT. The rotating calibration unit (R212 to R220): the state of a core after an update, the offline check, and retirement. -/

namespace Sys2Proof.Machine.Dev

variable {n : Lane} {c : Fin 2} {d : Dev}

/-! ### A core of the sampling path -/

theorem core_setCore (n : Lane) (c : Fin 2) (x : Core) (d : Dev) : (d.setCore n c x).core n c = x := by
  have hc : c = 0 ∨ c = 1 := by omega
  rcases hc with rfl | rfl <;> simp [core, setCore, rx_modRx]

/-! ### The switch (R216, R219) -/

theorem switchCore_checked (hok : (d.core n c).ok = true)
    (hrep : (d.core n c).rep.head? ≠ some ((d.core n c).pos.getD (d.core n c).tgt 0)) :
    d.switchCore n c =
      ((d.setFld (cuField n c) ((d.core n c).pos.getD (d.core n c).tgt 0)).setCore n c
        { d.core n c with pos := (d.core n c).pos.set (d.core n c).tgt (d.calUnit n c), ok := false,
                          tgt := ((d.core n c).tgt + 1) % 64, chk := true }).bump (R.LANE_ADC_ROT n) := by
  rw [switchCore, if_neg (by simp [hok])]
  exact if_neg hrep

theorem switchCore_replaced (hok : (d.core n c).ok = true)
    (hrep : (d.core n c).rep.head? = some ((d.core n c).pos.getD (d.core n c).tgt 0)) :
    d.switchCore n c =
      ((d.setFld (cuField n c) ((d.core n c).pos.getD (d.core n c).tgt 0)).setCore n c
        { d.core n c with pos := (d.core n c).pos.set (d.core n c).tgt (d.calUnit n c), ok := false,
                          tgt := ((d.core n c).tgt + 1) % 64, chk := false }).retireUnit n c ((d.core n c).pos.getD (d.core n c).tgt 0) := by
  rw [switchCore, if_neg (by simp [hok])]
  exact if_pos hrep

theorem rotationCore_matched (m : MatchSums) (hstop : d.on (rstop n c) = false) (hok : (d.core n c).ok = false)
    (hchk : (d.core n c).chk = false) (hrep : (d.core n c).rep = []) (hbad : (d.core n c).bad = false) (hm : matches_ m = true) :
    d.rotationCore n c m = d.setCore n c { d.core n c with ok := true } := by
  rw [rotationCore, if_neg (by simp [hstop, hok, hchk])]
  simp only [hrep, hbad, hm, Bool.false_eq_true, if_false, if_true]

theorem rotationSwitch_now (h : d.ownBoundary n = false ∨ ∃ m, slotKind (d.lane n).fr.slot = .pilot m) :
    d.rotationSwitch n = ((d.switchCore n 0).switchCore n 1).rotBusy n := by
  rcases h with h | ⟨m, h⟩
  · rw [rotationSwitch, if_neg (by simp [h])]
  · rw [rotationSwitch, if_neg (by simp [h])]

theorem rotationSwitch_waits (ho : d.ownBoundary n = true) (h : ∀ m, slotKind (d.lane n).fr.slot ≠ .pilot m) :
    d.rotationSwitch n = d := by
  rw [rotationSwitch, ho]
  cases hk : slotKind (d.lane n).fr.slot with
  | pilot m => exact absurd hk (h m)
  | _ => rfl

/-! ### The offline check (R216 to R218) -/

theorem offlineCheck_idle (m : OfflineMeas) (h : (d.core n c).chk = false) : d.offlineCheck n c m = d := by
  rw [offlineCheck, if_pos (by simp [h])]

/-- The check is over, with its outcome. -/
def checkEnded (n : Lane) (c : Fin 2) (bad : Bool) (d : Dev) : Dev :=
  (d.setCore n c { d.core n c with chk := false, bad := bad }).rotBusy n

/-- The calibration unit's OFS and GAIN as the check writes them. -/
def checkWritten (n : Lane) (c : Fin 2) (m : OfflineMeas) (u : Nat) (d : Dev) : Dev :=
  let a := R.LANE_ADC_TRIM n c u
  let mean := roundAway (((d.core n c).pos.map fun v => d.sfld ⟨R.LANE_ADC_TRIM n c v, 8, 10⟩).sum) 64
  ((d.setFld ⟨a, 0, 8⟩ (toField 8 (clampI (-128) 127 m.ofs))).setFld ⟨a, 8, 10⟩
    (toField 10 (clampI (-512) 511 (mean + m.gainDiff)))).trimBy n true [0, 1] a

theorem offlineCheck_bad (m : OfflineMeas) (h : (d.core n c).chk = true) (hm : 128 < m.ofsErr.natAbs ∨ 512 < m.gainErr.natAbs) :
    d.offlineCheck n c m = (d.checkEnded n c true).sarEvent n c (d.calUnit n c) := by
  have hp : (decide (m.ofsErr.natAbs ≤ 128) && decide (m.gainErr.natAbs ≤ 512)) = false := by
    rw [← Bool.not_eq_true, Bool.and_eq_true, decide_eq_true_eq, decide_eq_true_eq]
    omega
  rw [offlineCheck, if_neg (by simp [h])]
  simp only [hp, Bool.not_false, if_true]
  rfl

theorem offlineCheck_passed (m : OfflineMeas) (h : (d.core n c).chk = true) (ho : m.ofsErr.natAbs ≤ 128) (hg : m.gainErr.natAbs ≤ 512) :
    d.offlineCheck n c m = if d.on (F.LANE_ADC_CFG_TRIM_HOLD n) || !d.lvOn (F.LANE_ADC_CFG_CAL_EN n) then d.checkEnded n c false
      else (d.checkEnded n c false).checkWritten n c m (d.calUnit n c) := by
  have hhold : (d.checkEnded n c false).on (F.LANE_ADC_CFG_TRIM_HOLD n) = d.on (F.LANE_ADC_CFG_TRIM_HOLD n) := by
    rw [checkEnded, rotBusy, on_setOn_word _ _ (by simp)]
    rfl
  rw [offlineCheck, if_neg (by simp [h]), ← hhold]
  simp only [ho, hg, decide_true, Bool.and_self, Bool.not_true, Bool.false_eq_true, if_false]
  rfl

theorem checkEnded_core (bad : Bool) (d : Dev) : (d.checkEnded n c bad).core n c = { d.core n c with chk := false, bad := bad } := by
  rw [checkEnded, rotBusy]
  exact core_setCore ..

theorem checkEnded_trim (bad : Bool) (u lo w : Nat) (d : Dev) :
    (d.checkEnded n c bad).sfld ⟨R.LANE_ADC_TRIM n c u, lo, w⟩ = d.sfld ⟨R.LANE_ADC_TRIM n c u, lo, w⟩ := by
  rw [sfld, checkEnded, rotBusy, setOn, fld_setFld_word _ _ (by simp only [R.LANE_ADC_TRIM, R.LANE_ADC_STAT]; omega)]
  rfl

/-! ### Retirement (R219, R220) -/

theorem retField_addr (n : Lane) (c : Fin 2) : (retField n c).addr = R.LANE_ADC_RET n := by unfold retField; split <;> rfl

theorem rstop_addr (n : Lane) (c : Fin 2) : (rstop n c).addr = R.LANE_ADC_STAT n := by unfold rstop; split <;> rfl

/-- A status bit of the converters is none of the fields of retired units. -/
theorem retField_setOn {f : Fld} (b : Bool) (hf : f.addr = R.LANE_ADC_STAT n) (d : Dev) :
    (d.setOn f b).fld (retField n c) = d.fld (retField n c) :=
  fld_setFld_word _ _ (by rw [retField_addr, hf]; simp only [R.LANE_ADC_RET, R.LANE_ADC_STAT]; omega)

/-- The retirement of a unit of core 0 leaves the field of core 1. -/
theorem retireUnit_other (u : Nat) (d : Dev) : (d.retireUnit n 0 u).fld (retField n 1) = d.fld (retField n 1) := by
  unfold retireUnit
  dsimp only
  rw [each_keeps _ _ (fun e : Dev => e.fld (retField n 1)) fun _ e => ?degraded]
  case degraded => rw [unitDegraded, raise_fld, retField_setOn _ rfl]
  rw [raise_fld, retField_setOn _ (rstop_addr n 0), fld_setFld_apart (f := retField n 0) _ _ (by simp [retField])
    (by simp [retField, Fld.apart])]
  rfl

theorem sarLasting_other (u : Nat) (d : Dev) : (d.sarLasting n 0 u).fld (retField n 1) = d.fld (retField n 1) := by
  unfold sarLasting
  dsimp only
  split_ifs
  · rw [rotBusy, retField_setOn _ rfl, retireUnit_other]
    rfl
  · rfl
  · rfl
  · rfl
  · rw [unitDegraded, raise_fld, retField_setOn _ rfl]

/-- What a write of `LANE.ADC_RETn` makes of the field of one core. -/
def retireField (n : Lane) (w : Word) (c : Fin 2) (d : Dev) : Dev :=
  if d.fld (retField n c) = 0x7F ∧ getBits w (retField n c) ≤ 64 then d.sarLasting n c (getBits w (retField n c)) else d

theorem adcRetWrite_fields (w : Word) (d : Dev) : d.adcRetWrite n w = retireField n w 1 (retireField n w 0 d) := rfl

theorem retireField_kept {w : Word} (h : d.fld (retField n c) ≠ 0x7F ∨ 64 < getBits w (retField n c)) : retireField n w c d = d :=
  if_neg (by omega)

theorem retireField_taken {w : Word} (h : d.fld (retField n c) = 0x7F) (hu : getBits w (retField n c) ≤ 64) :
    retireField n w c d = d.sarLasting n c (getBits w (retField n c)) := if_pos ⟨h, hu⟩

/-- The one field that reads none takes its unit. -/
theorem adcRetWrite_one {w : Word} (h : d.fld (retField n c) = 0x7F) (hu : getBits w (retField n c) ≤ 64)
    (ho : d.fld (retField n (1 - c)) ≠ 0x7F) : d.adcRetWrite n w = d.sarLasting n c (getBits w (retField n c)) := by
  have hc : c = 0 ∨ c = 1 := by omega
  rw [adcRetWrite_fields]
  rcases hc with rfl | rfl
  · rw [retireField_taken h hu, retireField_kept (.inl (by rwa [sarLasting_other]))]
  · rw [retireField_kept (c := 0) (.inl ho), retireField_taken h hu]

/-! ### A unit at lasting fault (R219) -/

section
variable {u : Nat}

theorem sarLasting_waits (hu : u ≠ d.calUnit n c) (hs : d.on (rstop n c) = false) (hr : u ∉ (d.core n c).rep) :
    d.sarLasting n c u = (d.setCore n c { d.core n c with rep := (d.core n c).rep ++ [u] }).raise Blk.lane 0x40 n := by
  rw [sarLasting, if_neg hu, hs]
  simp only [Bool.not_false, if_true]
  rw [if_neg (by simpa using hr)]

theorem sarLasting_waiting (hu : u ≠ d.calUnit n c) (hs : d.on (rstop n c) = false) (hr : u ∈ (d.core n c).rep) :
    d.sarLasting n c u = d := by
  rw [sarLasting, if_neg hu, hs]
  simp only [Bool.not_false, if_true]
  rw [if_pos (by simpa using hr)]

theorem sarLasting_degrades (hu : u ≠ d.calUnit n c) (hs : d.on (rstop n c) = true) : d.sarLasting n c u = d.unitDegraded n := by
  rw [sarLasting, if_neg hu, hs]
  rfl

theorem sarLasting_retires (hu : u = d.calUnit n c) (hs : d.on (rstop n c) = false) :
    d.sarLasting n c u = ((d.setCore n c { d.core n c with ok := false, chk := false }).retireUnit n c u).rotBusy n := by
  rw [sarLasting, if_pos hu, hs]
  rfl

theorem sarLasting_retired (hu : u = d.calUnit n c) (hs : d.on (rstop n c) = true) : d.sarLasting n c u = d := by
  rw [sarLasting, if_pos hu, hs]
  rfl

end

end Sys2Proof.Machine.Dev

namespace Sys2Proof.Claims

open Sys2Proof.Machine Sys2Proof.Machine.Dev

variable {s : State} {n : Lane} {m : Master} {c : Fin 2} {v : Word}

theorem yields_same {c : Instr} (hs : s.dev.settled = true) (h : exec c s = .next (commit s s.dev)) : Yields c s s.dev [] [] :=
  yields_quiet h hs (fun _ _ => rfl) (fun _ => rfl) rfl rfl rfl rfl

theorem rotationStepped (s : State) (n : Lane) (m0 m1 : MatchSums) : RotationStepped s n m0 m1 := by
  intro h0 hq
  have hd : exec (.rotationStepDue n m0 m1) s = .next (commit s (s.dev.rotationStep n m0 m1)) := rfl
  rw [rotationStep, if_neg (by rintro (h | h) <;> omega)] at hd
  exact ⟨_, hd, rfl⟩

theorem rotationSwitched (hs : s.dev.settled = true) (n : Lane) : RotationSwitched s n := by
  have he : exec (.rotationSwitch n) s = .next (commit s (s.dev.rotationSwitch n)) := rfl
  refine ⟨fun ho => ⟨_, he, by rw [rotationSwitch_now (.inl ho)]⟩,
    fun m hk => ⟨_, he, by rw [rotationSwitch_now (.inr ⟨m, hk⟩)]⟩,
    fun ho hk => yields_same hs ?_⟩
  rw [he, rotationSwitch_waits ho hk]

theorem coreSwitched (d : Dev) (n : Lane) (c : Fin 2) : CoreSwitched d n c := fun hok hrep =>
  switchCore_checked hok (by rw [hrep]; exact nofun)

theorem coreReplaced (d : Dev) (n : Lane) (c : Fin 2) : CoreReplaced d n c := fun hok hrep => switchCore_replaced hok hrep

theorem coreMatched (d : Dev) (n : Lane) (c : Fin 2) (m : MatchSums) : CoreMatched d n c m := rotationCore_matched m

theorem offlineChecked (hs : s.dev.settled = true) (n : Lane) (c : Fin 2) (m : OfflineMeas) : OfflineChecked s n c m := by
  have he : exec (.offlineCheckDone n c m) s = .next (commit s (s.dev.offlineCheck n c m)) := rfl
  refine ⟨fun h => yields_same hs ?_, fun h ho hg hw => ⟨_, he, ?_⟩, fun h ho hg hh hen => ⟨_, he, ?_⟩,
    fun h hm => ⟨_, he, ?_⟩⟩
  · rw [he, offlineCheck_idle m h]
  · rw [offlineCheck_passed m h ho hg, if_pos (by simpa using hw)]
    rfl
  · rw [offlineCheck_passed m h ho hg, if_neg (by simp [hh, hen])]
    simp only [checkWritten, checkEnded_core, checkEnded_trim]
    rfl
  · rw [offlineCheck_bad m h hm]
    rfl

/-! ### LANE.ADC_RET (R220) -/

theorem adcRet_bits : ∀ n : Lane, rowBits (R.LANE_ADC_RET n) 0x7F7F 0 = true := by decide +kernel

/-- The unit that a written word names for a core. -/
theorem getBits_retField (d : Dev) (n : Lane) (c : Fin 2) (v : Word) :
    getBits (wordWritten d (R.LANE_ADC_RET n) 0x7F7F v) (retField n c) = v.toNat / 2 ^ (8 * c.val) % 2 ^ 7 := by
  have hmask : ∀ c : Fin 2, ∀ k < 7, (BitVec.ofNat 32 0x7F7F).getLsbD (8 * c.val + k) = true := by decide
  have hf : retField n c = ⟨R.LANE_ADC_RET n, 8 * c.val, 7⟩ := by
    have hc : c = 0 ∨ c = 1 := by omega
    rcases hc with rfl | rfl <;> rfl
  rw [hf, getBits_wordWritten (hmask c), getBits]

theorem exec_adcRet (hr : Reaches s m (R.LANE_ADC_RET n)) :
    exec (.adcRetWrite m n v) s = .next (commit s (onBus (R.LANE_ADC_RET n) (fun d =>
      d.adcRetWrite n (wordWritten d (R.LANE_ADC_RET n) 0x7F7F v)) s.dev)) := by
  have he : exec (.adcRetWrite m n v) s = .next (commit s (s.dev.busWrite m (R.LANE_ADC_RET n) .word v)) := rfl
  rw [he, busWrite_lane (n := n) rfl (by decide) (by decide) (by decide) (adcRet_bits n) (by decide) hr]
  simp only [writeLane, if_true]

/-- A command that only had its access performed. -/
theorem yields_onBus {c : Instr} {a : Nat} (hs : s.dev.settled = true) (h : exec c s = .next (commit s (onBus a id s.dev))) :
    Yields c s (onBus a id s.dev) [] [] :=
  yields_quiet h hs (fun _ _ => rfl) (fun _ => rfl) rfl rfl rfl rfl

theorem retireKept (hs : s.dev.settled = true) (m : Master) (n : Lane) (v : Word) : RetireKept s m n v := by
  intro hr h
  have hkept (d : Dev) (hd : ∀ c, d.fld (retField n c) = s.dev.fld (retField n c)) :
      d.adcRetWrite n (wordWritten d (R.LANE_ADC_RET n) 0x7F7F v) = d := by
    have hfield (c : Fin 2) : d.fld (retField n c) ≠ 0x7F ∨
        64 < getBits (wordWritten d (R.LANE_ADC_RET n) 0x7F7F v) (retField n c) := by
      rw [getBits_retField, hd]
      exact (h c).imp_right And.left
    rw [adcRetWrite_fields, retireField_kept (hfield 0), retireField_kept (hfield 1)]
  refine yields_onBus hs ?_
  rw [exec_adcRet hr, onBus, hkept (s.dev.touch (domainOf (R.LANE_ADC_RET n))) fun _ => rfl, onBus, id]

/-- A write whose one taken unit is that of core c. -/
theorem exec_retireOne {f : Dev → Dev} (hr : Reaches s m (R.LANE_ADC_RET n)) (hf : s.dev.fld (retField n c) = 0x7F)
    (hu : v.toNat / 2 ^ (8 * c.val) % 2 ^ 7 ≤ 64) (ho : s.dev.fld (retField n (1 - c)) ≠ 0x7F)
    (h : ∀ d : Dev, d = s.dev.touch (domainOf (R.LANE_ADC_RET n)) → d.sarLasting n c (v.toNat / 2 ^ (8 * c.val) % 2 ^ 7) = f d) :
    exec (.adcRetWrite m n v) s = .next (commit s (onBus (R.LANE_ADC_RET n) f s.dev)) := by
  have hunit := getBits_retField (s.dev.touch (domainOf (R.LANE_ADC_RET n))) n c v
  rw [exec_adcRet hr, onBus, adcRetWrite_one (d := s.dev.touch (domainOf (R.LANE_ADC_RET n))) hf (hunit.trans_le hu) ho, hunit,
    h _ rfl, onBus]

/-- A unit is queued for its core's next switch. -/
theorem yields_queued {x : Core} (hs : s.dev.settled = true)
    (h : exec (.adcRetWrite m n v) s =
      .next (commit s (onBus (R.LANE_ADC_RET n) (fun d => (d.setCore n c x).raise Blk.lane 0x40 n) s.dev))) :
    Yields (.adcRetWrite m n v) s (onBus (R.LANE_ADC_RET n) (fun d => d.setCore n c x) s.dev) [] [(Blk.lane, 0x40, n)] := by
  refine yields_raised [⟨Blk.lane, 0x40, n⟩] h hs (fun _ _ => ?_) (fun _ => ?_) rfl ?_ ?_ ?_ rfl rfl
  all_goals simp only [onBus, setCore, modRx, returned_reg, raise_reg, modLane_reg, touch_reg, returned_raised, raise_raised,
    modLane_raised, touch_raised, returned_popped, raise_popped, modLane_popped, touch_popped, returned_emptied, raise_emptied,
    modLane_emptied, touch_emptied]

theorem unitRetired (hs : s.dev.settled = true) (m : Master) (n : Lane) (c : Fin 2) (v : Word) : UnitRetired s m n c v := by
  intro hr hf hu ho
  refine ⟨fun hc hstop hrep => ?waits, fun hc hstop hrep => ?waiting, fun hc hstop => ?degrades, fun hc hstop => ?retires,
    fun hc hstop => ?retired⟩
  case waits => exact yields_queued hs (exec_retireOne hr hf hu ho fun d hd => by subst hd; exact sarLasting_waits hc hstop hrep)
  case waiting => exact yields_onBus hs (exec_retireOne hr hf hu ho fun d hd => by subst hd; exact sarLasting_waiting hc hstop hrep)
  case degrades => exact ⟨_, exec_retireOne hr hf hu ho fun d hd => by subst hd; exact sarLasting_degrades hc hstop, rfl⟩
  case retires => exact ⟨_, exec_retireOne hr hf hu ho fun d hd => by subst hd; exact sarLasting_retires hc hstop, rfl⟩
  case retired => exact yields_onBus hs (exec_retireOne hr hf hu ho fun d hd => by subst hd; exact sarLasting_retired hc hstop)

/-- Settles O29: a rotation step, a switch and an offline check by the tests of their commands; a write of `LANE.ADC_RETn` by the unit
that it names for each core. -/
theorem convertersCalibrated : Obligations.ConvertersCalibrated := fun s hs =>
  ⟨rotationStepped s, rotationSwitched hs, fun d n c => ⟨coreSwitched d n c, coreReplaced d n c, coreMatched d n c⟩,
    offlineChecked hs, fun m n v => ⟨retireKept hs m n v, fun c => unitRetired hs m n c v⟩⟩

end Sys2Proof.Claims
end

section
/-! SUPPORT. The capture engine (R226 to R232): START with its checks, ABORT, the trigger and the end. -/

namespace Sys2Proof.Machine.Dev

variable {d : Dev}

theorem capOpen_iff : d.capOpen = true ↔ d.capState = 1 ∨ d.capState = 2 := by simp [capOpen]

/-- A capture that is complete is recorded. -/
theorem capDone_full (h : d.capState = 2) (hf : d.capFull = true) :
    d.capDone = (d.setFld F.CAL_CAP_STAT_STATE 3).raise Blk.cal 0x50 d.capLane := if_pos ⟨h, hf⟩

theorem capDone_other (h : d.capState = 2 ∧ d.capFull = true → False) : d.capDone = d := if_neg h

theorem capState_capDone (h : d.capState = 2) (hf : d.capFull = true) : d.capDone.capState = 3 := by
  rw [capDone_full h hf, capState, raise_fld, fld_setFld_self _ _ _ (by decide)]
  rfl

theorem capDone_capDone (d : Dev) : d.capDone.capDone = d.capDone := by
  by_cases h : d.capState = 2 ∧ d.capFull = true
  · exact capDone_other fun ⟨h2, _⟩ => by rw [capState_capDone h.1 h.2] at h2; omega
  · rw [capDone_other h, capDone_other h]

/-- START records first the completion that it meets. -/
theorem capStart_capDone (d : Dev) : d.capDone.capStart = d.capStart := by
  rw [capStart, capDone_capDone]
  rfl

theorem capStart_open (ho : d.capOpen = true) (h : d.capState = 2 ∧ d.capFull = true → False) : d.capStart = d := by
  rw [capStart, capDone_other h, if_pos ho]

/-! ### START's checks (R227) -/

/-- The settings that a START takes up. -/
def capTaken (d : Dev) : Dev :=
  d.modCap fun _ => { CapSt.init with cfg := d.reg R.CAL_CAP_CFG, qnum := d.reg R.CAL_CAP_QNUM, post := d.fld F.CAL_CAP_POST_POST }

/-- What the status registers showed of the capture before is cleared. -/
def capCleared (d : Dev) : Dev := ((d.setReg R.CAL_CAP_STAT 0).setReg R.CAL_CAP_TQ 0).setReg R.CAL_CAP_TPOS 0

/-- The settings taken up are refused. -/
def capBad (d : Dev) : Bool :=
  decide (1024 < d.capCfg 0 10 + d.capCfg 10 10 + 1) || d.capTrig == 3 || d.capSrc == 3 ||
    (d.capTrig == 2 && decide (d.capCfg 10 10 < d.cap.post))

/-- The lane that they name cannot be captured. -/
def capOff (d : Dev) : Bool := !d.inRun d.capLane || (d.capSrc == 2 && !d.carried d.capLane)

theorem capBad_iff : d.capBad = true ↔
    1024 < d.capCfg 0 10 + d.capCfg 10 10 + 1 ∨ d.capTrig = 3 ∨ d.capSrc = 3 ∨ (d.capTrig = 2 ∧ d.capCfg 10 10 < d.cap.post) := by
  simp [capBad, or_assoc]

theorem capOff_iff : d.capOff = true ↔ (!d.inRun d.capLane) = true ∨ (d.capSrc = 2 ∧ (!d.carried d.capLane) = true) := by
  simp [capOff]

theorem capOff_cleared (d : Dev) : d.capCleared.capOff = d.capOff := by
  have hreg {a : Nat} (h : a ≠ R.CAL_CAP_STAT ∧ a ≠ R.CAL_CAP_TQ ∧ a ≠ R.CAL_CAP_TPOS) : d.capCleared.reg a = d.reg a := by
    obtain ⟨h1, h2, h3⟩ := h
    rw [capCleared, reg_setReg_ne _ _ h3, reg_setReg_ne _ _ h2, reg_setReg_ne _ _ h1]
  have hrun (n : Lane) : d.capCleared.inRun n = d.inRun n :=
    congrArg (fun w => getBits w (laneStat n) == 2) (hreg (a := R.PWR_LANE_STAT) (by decide))
  have hcarried (n : Lane) : d.capCleared.carried n = d.carried n :=
    congrArg (fun w => getBits w (assignOf n) != 15) (hreg (a := R.SPR_ASSIGN) (by decide))
  unfold capOff
  rw [hrun, hcarried]
  rfl

/-- START of a closed capture. -/
theorem capStart_closed (h : d.capOpen = false) :
    d.capStart = if d.capTaken.capBad then d.capTaken.capCleared.capError 1 else if d.capTaken.capOff then d.capTaken.capCleared.capError 2
      else d.capTaken.capCleared.setFld F.CAL_CAP_STAT_STATE 1 := by
  have hdone : d.capDone = d := capDone_other fun ⟨h2, _⟩ => by simp [capOpen, h2] at h
  have hbad : d.capTaken.capCleared.capBad = d.capTaken.capBad := rfl
  rw [capStart, hdone, if_neg (by simp [h]), ← hbad, ← capOff_cleared]
  simp only [capBad_iff, capOff_iff]
  rfl

/-- A stop with an error shows STATE 4 and the error, and leaves the settings and the other registers. -/
theorem capError_shows {err : Nat} (he : err < 8) (d : Dev) :
    (d.capError err).cap = d.cap ∧ (∀ a, a ≠ R.CAL_CAP_STAT → (d.capError err).reg a = d.reg a) ∧ (d.capError err).capState = 4 ∧
      (d.capError err).fld F.CAL_CAP_STAT_ERR = err := by
  refine ⟨by rw [capError, raise_cap, setFld_cap, setFld_cap], fun a ha => ?_, ?_, ?_⟩
  · rw [capError, raise_reg, reg_setFld_ne _ _ _ ha, reg_setFld_ne _ _ _ ha]
  · rw [capError, capState, raise_fld, fld_setFld_apart _ _ (by decide) (by decide), fld_setFld_self _ _ _ (by decide)]
    rfl
  · rw [capError, raise_fld, fld_setFld_self _ _ _ (by decide)]
    exact Nat.mod_eq_of_lt he

end Sys2Proof.Machine.Dev

namespace Sys2Proof.Claims

open Sys2Proof.Machine Sys2Proof.Machine.Dev

variable {s : State} {m : Master} {v : Word} {d : Dev}

theorem captureChecked (d : Dev) : CaptureChecked d := by
  intro h
  change let t := d.capStart
    t.cap = d.capTaken.cap ∧ t.reg R.CAL_CAP_TQ = 0 ∧ t.reg R.CAL_CAP_TPOS = 0 ∧
      t.capState = (if d.capTaken.capBad || d.capTaken.capOff then 4 else 1) ∧
      t.fld F.CAL_CAP_STAT_ERR = (if d.capTaken.capBad then 1 else if d.capTaken.capOff then 2 else 0)
  have htq : d.capTaken.capCleared.reg R.CAL_CAP_TQ = 0 := by
    rw [capCleared, reg_setReg_ne _ _ (by decide), reg_setReg_self]
  have htpos : d.capTaken.capCleared.reg R.CAL_CAP_TPOS = 0 := by rw [capCleared, reg_setReg_self]
  have hstat : d.capTaken.capCleared.reg R.CAL_CAP_STAT = 0 := by
    rw [capCleared, reg_setReg_ne _ _ (by decide), reg_setReg_ne _ _ (by decide), reg_setReg_self]
  have herror {err : Nat} (he : err < 8) :
    let t := d.capTaken.capCleared.capError err
    t.cap = d.capTaken.cap ∧ t.reg R.CAL_CAP_TQ = 0 ∧ t.reg R.CAL_CAP_TPOS = 0 ∧ t.capState = 4 ∧ t.fld F.CAL_CAP_STAT_ERR = err := by
    obtain ⟨hcap, hreg, hstate, herr⟩ := capError_shows he d.capTaken.capCleared
    exact ⟨hcap.trans rfl, (hreg _ (by decide)).trans htq, (hreg _ (by decide)).trans htpos, hstate, herr⟩
  rw [capStart_closed h]
  cases d.capTaken.capBad
  case true => simpa using herror (err := 1) (by decide)
  case false =>
    cases d.capTaken.capOff
    case true => simpa using herror (err := 2) (by decide)
    case false =>
      have herr : (d.capTaken.capCleared.setFld F.CAL_CAP_STAT_STATE 1).fld F.CAL_CAP_STAT_ERR = 0 := by
        rw [fld_setFld_apart _ _ (by decide) (by decide), fld, hstat]
        rfl
      exact ⟨setFld_cap .., (reg_setFld_ne _ _ _ (by decide)).trans htq, (reg_setFld_ne _ _ _ (by decide)).trans htpos,
        fld_setFld_self _ _ _ (by decide), herr⟩

/-! ### CAL.CAP_CTRL (R226, R231) -/

theorem capCtrl_bits : rowBits R.CAL_CAP_CTRL 0 3 = true := by decide +kernel

/-- What a write of `CAL.CAP_CTRL` does to the device: ABORT, or START without it. -/
def capActed (v : Word) (d : Dev) : Dev := if v.getLsbD 1 then d.capAbort else if v.getLsbD 0 then d.capStart else d

theorem exec_capCtrl {c : Instr} (hr : Reaches s m R.CAL_CAP_CTRL) (hc : c ∈ [Instr.captureStart m v, .captureAbort m v]) :
    exec c s = .next (commit s (onBus R.CAL_CAP_CTRL (capActed v) s.dev)) := by
  have hw : s.dev.busWrite m R.CAL_CAP_CTRL .word v = onBus R.CAL_CAP_CTRL (capActed v) s.dev := by
    rw [busWrite_stored (f := fun _ t d => d.writeCal R.CAL_CAP_CTRL 0 t) (by decide) capCtrl_bits (by decide)
      (fun d => heldWord_reg (by decide) (by decide) (by decide)) (fun r d hb => ?_) hr]
    · simp only [writeCal, if_true, getLsbD_trigger v (show (BitVec.ofNat 32 3).getLsbD 1 = true by decide),
        getLsbD_trigger v (show (BitVec.ofNat 32 3).getLsbD 0 = true by decide)]
      rfl
    · rw [store_cal d (by decide) hb]
      simp only [writeCal, if_true]
  simp only [List.mem_cons, List.not_mem_nil, or_false] at hc
  rcases hc with rfl | rfl <;> exact congrArg (fun d => Host.Outcome.next (commit s d)) hw

/-- A capture ended by a command of the host. -/
theorem yields_aborted {c : Instr} (hs : s.dev.settled = true)
    (h : exec c s = .next (commit s (onBus R.CAL_CAP_CTRL (capError 4) s.dev))) :
    Yields c s (onBus R.CAL_CAP_CTRL (fun d => (d.setFld F.CAL_CAP_STAT_STATE 4).setFld F.CAL_CAP_STAT_ERR 4) s.dev)
      [R.CAL_CAP_STAT] [(Blk.cal, 0x51, (s.dev.capLane : Nat))] := by
  refine yields_raised [⟨Blk.cal, 0x51, s.dev.capLane⟩] h hs (fun a ha => ?_) (fun a => ?_) ?_ ?_ ?_ ?_ rfl rfl
  · have ha : a ≠ R.CAL_CAP_STAT := by simpa using ha
    rw [onBus, capError, returned_reg, raise_reg, reg_setFld_ne _ _ _ ha, reg_setFld_ne _ _ _ ha, touch_reg]
  · simp only [onBus, capError, returned_reg, raise_reg]
  · simp only [onBus, capError, returned_rest, raise_rest]
  · simp only [onBus, capError, returned_raised, raise_raised, setFld_raised, touch_raised, capLane, capCfg, setFld_cap]
    rfl
  · simp only [onBus, capError, returned_popped, raise_popped, setFld_popped, touch_popped]
  · simp only [onBus, capError, returned_emptied, raise_emptied, setFld_emptied, touch_emptied]

theorem captureControlled (hs : s.dev.settled = true) (m : Master) (v : Word) : CaptureControlled s m v := by
  intro hr c hc
  have he := exec_capCtrl hr hc
  have hacted {f : Dev → Dev} (h : capActed v (s.dev.touch (domainOf R.CAL_CAP_CTRL)) = f (s.dev.touch (domainOf R.CAL_CAP_CTRL))) :
      exec c s = .next (commit s (onBus R.CAL_CAP_CTRL f s.dev)) := by rw [he, onBus, onBus, h]
  have hstart (h1 : v.getLsbD 1 = false) (h0 : v.getLsbD 0 = true) (d : Dev) : capActed v d = d.capStart := by
    rw [capActed, h1, h0, if_neg Bool.false_ne_true, if_pos rfl]
  refine ⟨fun h1 h0 ho hf => ?_, fun h1 h0 h2 hf => ?_, fun h1 h0 _ => ?_, fun h1 ho => ?_⟩
  · exact yields_onBus hs (hacted (f := id) ((hstart h1 h0 _).trans (capStart_open ho hf)))
  · refine ⟨_, hacted ?_, rfl⟩
    have hd := capDone_full (d := s.dev.touch (domainOf R.CAL_CAP_CTRL)) h2 hf
    rw [hstart h1 h0, ← capStart_capDone, hd]
  · exact ⟨_, hacted (hstart h1 h0 _), rfl⟩
  · have hopen : (s.dev.touch (domainOf R.CAL_CAP_CTRL)).capOpen = true := ho
    exact yields_aborted hs (hacted (by rw [capActed, h1, if_pos rfl, capAbort, if_pos hopen]))

theorem captureTriggered (hs : s.dev.settled = true) : CaptureTriggered s := by
  intro h hdue
  have he : exec .captureTrigger s = .next (commit s s.dev.capTrigger) := rfl
  rw [capTrigger, if_neg (by simp [h, hdue])] at he
  refine yields_quiet he hs (fun a ha => ?_) (fun _ => rfl) (Eq.refl (Dev.rest _)) ?_ ?_ ?_
  · simp only [List.mem_cons, List.not_mem_nil, or_false, not_or] at ha
    obtain ⟨hstat, htq⟩ := ha
    rw [reg_setReg_ne _ _ htq, reg_setFld_ne _ _ _ hstat]
  · rw [setReg_raised, setFld_raised]
  · rw [setReg_popped, setFld_popped]
  · rw [setReg_emptied, setFld_emptied]

theorem captureDone (hs : s.dev.settled = true) : CaptureDone s := by
  intro h hf
  have he : exec .captureDone s = .next (commit s s.dev.capDone) := rfl
  rw [capDone_full h hf] at he
  refine yields_raised [⟨Blk.cal, 0x50, s.dev.capLane⟩] he hs (fun a ha => ?_) (fun _ => ?_) (raise_rest ..) ?_ ?_ ?_ rfl rfl
  · rw [raise_reg, reg_setFld_ne _ _ _ (by simpa using ha)]
  · rw [raise_reg]
  · rw [raise_raised, setFld_raised]
  · rw [raise_popped, setFld_popped]
  · rw [raise_emptied, setFld_emptied]

/-- Settles O30: START, ABORT, the trigger and the end by the tests of each on the state of the capture and on its settings. -/
theorem captureActs : Obligations.CaptureActs := fun _ hs =>
  ⟨captureControlled hs, captureTriggered hs, captureDone hs, captureChecked⟩

end Sys2Proof.Claims
end

section
/-! SUPPORT. The runs of a calibration item (R323 to R334): triggers and abort, the ends of its windows, and the taking up of its result. -/

namespace Sys2Proof.Machine.Dev

variable {d : Dev} {n : Lane} {i : Fin 4}

/-! ### The item's record -/

theorem calItem_modCal (f : CalItem → CalItem) (d : Dev) : (d.modCal n i f).calItem n i = f (d.calItem n i) := by
  rw [calItem, modCal, lane_modLane, if_pos rfl]
  exact Vector.getElem_set_self _

theorem calItem_setOn (f : Fld) (b : Bool) (d : Dev) : (d.setOn f b).calItem n i = d.calItem n i := rfl

theorem calItem_setFld (f : Fld) (x : Nat) (d : Dev) : (d.setFld f x).calItem n i = d.calItem n i := rfl

theorem calItem_modRx (f : RxSt → RxSt) (d : Dev) : (d.modRx n f).calItem n i = d.calItem n i := by
  rw [calItem, modRx, lane_modLane, if_pos rfl]
  rfl

/-- What is done to an item depends on the record that it has. -/
theorem modCal_congr {f g : CalItem → CalItem} (h : f (d.calItem n i) = g (d.calItem n i)) : d.modCal n i f = d.modCal n i g :=
  modLane_congr (congrArg (fun c => { d.lane n with cal := (d.lane n).cal.set i c }) h)

/-- The item's estimate draws free values, and changes nothing else. -/
theorem calEstimate_keeps {β : Type} (g : Dev → β) (hg : ∀ (d : Dev) k, g { d with freeCtr := k } = g d) (i : Fin 4) (st : List Tally)
    (d : Dev) : g (d.calEstimate n i st).2 = g d :=
  match i with
  | 0 | 1 | 2 => rfl
  | 3 => hg d _

/-! ### Triggers (R323, R325, R326) -/

theorem calTrigger_ignored (h : d.lvOn ⟨R.CAL_CFG n, i, 1⟩ = false ∨ d.calBusy n i = true) : d.calTrigger n i = d := by
  rw [calTrigger]
  rcases h with h | h
  · rw [if_pos (by rw [h]; rfl)]
  · rw [if_pos h, ite_self]

section
variable (hon : d.lvOn ⟨R.CAL_CFG n, i, 1⟩ = true) (hidle : d.calBusy n i = false)
include hon hidle

theorem calTrigger_waits (hh : d.calHeld n i = true) : d.calTrigger n i = d.setOn (calPend n i) true := by
  rw [calTrigger, if_neg (by simp [hon]), if_neg (by simp [hidle]), if_pos hh]

theorem calTrigger_starts (hh : d.calHeld n i = false) : d.calTrigger n i = d.calStart n i false := by
  rw [calTrigger, if_neg (by simp [hon]), if_neg (by simp [hidle]), if_neg (by simp [hh])]

end

/-- The record of an item whose run starts. -/
theorem calItem_calStart (fg : Bool) (d : Dev) : (d.calStart n i fg).calItem n i =
    { CalItem.init with phase := 1, retries := (d.liveWord (R.CAL_CFG n)).toNat / 2 ^ 16 % 8, cfg := d.liveWord (R.CAL_CFG n),
                        tol := d.liveWord (R.CAL_TOL n), fgOk := (d.calItem n i).fgOk && !fg } := by
  rw [calStart, calItem_setOn, calItem_setOn, calItem_modCal]

/-- BUSY and FG as the start of a run leaves them. -/
theorem calStart_shows (fg : Bool) (d : Dev) :
    (d.calStart n i fg).on (calBusyBit n i) = true ∧ (d.calStart n i fg).on (calFgBit n i) = fg := by
  have hi := i.isLt
  constructor
  · rw [calStart, on_setOn_apart (f := calFgBit n i) _ _ (by simp only [calFgBit]; omega)
        (by simp only [calFgBit, calBusyBit, Fld.apart]; omega),
      on_setOn_self _ _ _ (by simp only [calBusyBit]; omega) rfl]
  · rw [calStart, on_setOn_self _ _ _ (by simp only [calFgBit]; omega) rfl]

/-! ### The end of a window (R326, R327, R334) -/

/-- The end of a window that is not in progress. -/
theorem calWindowEnd_other {w : Nat} (h : d.calWindowOver n i = false ∨ w ≠ d.calWindow n i) : d.calWindowEnd n i w = d := by
  rw [calWindowEnd, if_pos (by rcases h with h | h <;> simp [h])]

/-- The item has an estimate of the window: its output may be judged, and it has the samples. -/
def calSound (d : Dev) (n : Lane) (i : Fin 4) : Prop :=
  (2 ≤ i.val → d.transmitEst n = true) ∧ (i = 3 → fewSamples (d.calItem n i).ended = false)

/-- What the end of a window does with its estimate `e`. -/
def calEstimated (n : Lane) (i : Fin 4) (e : List (Option Int)) (past : Nat) (c : CalItem) (d : Dev) : Dev :=
  if d.calFg n i then
    d.modCal n i fun x => { x with phase := 3, begun := false, windows := x.windows + 1, est1 := e, result := e,
                                   accepted := decide (0 < x.windows) && !x.est1.isEmpty && calAgree n i c c.est1 e }
  else if c.phase = 1 then d.modCal n i fun x => { x with phase := 2, quires := past, est1 := e, windows := 1 }
  else if calAgree n i c c.est1 e then
    d.modCal n i fun x => { x with phase := 3, begun := false, result := calMean x.est1 e, accepted := true }
  else d.calRetry n i 1 fun x => { x with phase := 2, begun := true, quires := past, est1 := e }

section
variable (hover : d.calWindowOver n i = true)
include hover

theorem calWindowEnd_sound (hs : d.calSound n i) :
    d.calWindowEnd n i (d.calWindow n i) =
      calEstimated n i (d.calEstimate n i (d.calItem n i).ended).1 ((d.calItem n i).quires - d.calLength n i) (d.calItem n i)
        (d.calEstimate n i (d.calItem n i).ended).2 := by
  obtain ⟨htx, hfew⟩ := hs
  have h3 : ¬ (2 ≤ i.val ∧ (!d.transmitEst n) = true) := fun ⟨h, ht⟩ => by simp [htx h] at ht
  have h4 : ¬ (i = 3 ∧ fewSamples (d.calItem n i).ended = true) := fun ⟨h, hf⟩ => by simp [hfew h] at hf
  rw [calWindowEnd, if_neg (by simp [hover])]
  dsimp only
  rw [if_neg h3, if_neg h4]
  rfl

theorem calWindowEnd_noOutput (h : 2 ≤ i.val) (ht : d.transmitEst n = false) :
    d.calWindowEnd n i (d.calWindow n i) = d.calRetry n i 3 calAgain := by
  rw [calWindowEnd, if_neg (by simp [hover])]
  dsimp only
  rw [if_pos ⟨h, by simp [ht]⟩]

theorem calWindowEnd_fewSamples (h : i = 3) (ht : d.transmitEst n = true) (hf : fewSamples (d.calItem n i).ended = true) :
    d.calWindowEnd n i (d.calWindow n i) = d.calRetry n i 4 calAgain := by
  rw [calWindowEnd, if_neg (by simp [hover])]
  dsimp only
  rw [if_neg (by simp [ht]), if_pos ⟨h, hf⟩]

end

/-- A background run that has retries left. -/
theorem calRetry_background (hfg : d.calFg n i = false) (hr : 0 < (d.calItem n i).retries) (reason : Nat) (f : CalItem → CalItem) :
    d.calRetry n i reason f = (d.setFld (calReason n i) reason).modCal n i fun c => f { c with retries := c.retries - 1 } := by
  rw [calRetry, if_neg (by simp [hfg]), if_pos hr]

/-! ### Take-up (R331, R212) -/

theorem calTakeUp_taken (h : (d.calItem n i).phase = 4) (ht : (d.calItem n i).taken = true) (hfg : d.calFg n i = false) :
    d.calTakeUp n i = d.calEnd n i := by
  rw [calTakeUp, if_neg (by simp [h, ht]), if_pos (by simp [hfg])]

theorem calTakeUp_early (ht : (d.calItem n i).taken = false) : d.calTakeUp n i = d := by
  rw [calTakeUp, if_pos (by simp [ht])]

/-- An item with no result that waits keeps none of its words back, and has none due. -/
theorem calDue_idle (here : Bool) (h : (d.calItem n i).phase ≠ 4) : d.calDue here n i = false := by simp [calDue, h]

theorem calKept_idle (here : Bool) {is : List (Fin 4)} (h : ∀ i ∈ is, (d.calItem n i).phase ≠ 4) : d.calKept here n is = [] := by
  rw [calKept, List.flatMap_eq_nil_iff]
  intro i hi
  simp [h i hi]

theorem calTaken_idle (here : Bool) {is : List (Fin 4)} (h : ∀ i ∈ is, (d.calItem n i).phase ≠ 4) : d.calTaken here n is = d := by
  rw [calTaken, each]
  induction is with
  | nil => rfl
  | cons i is ih =>
    rw [List.foldl_cons, calDue_idle here (h i (by simp)), if_neg Bool.false_ne_true]
    exact ih fun j hj => h j (List.mem_cons_of_mem _ hj)

end Sys2Proof.Machine.Dev

namespace Sys2Proof.Claims

open Sys2Proof.Machine Sys2Proof.Machine.Dev

variable {s : State} {n : Lane} {i : Fin 4} {m : Master} {v : Word}

/-! ### CAL.CMD (R323, R330) -/

theorem calCmd_bits : ∀ n : Lane, rowBits (R.CAL_CMD n) 0 0x1F = true := by decide +kernel

/-- What a write of `CAL.CMDn` does to the device. -/
def calCmdActed (n : Lane) (t : Word) (d : Dev) : Dev :=
  if t.getLsbD 4 then d.calAbortAll n
  else d.each ((List.finRange 4).filter fun (i : Fin 4) => t.getLsbD i) fun i d => d.calTrigger n i

theorem exec_calCmd {c : Instr} (hr : Reaches s m (R.CAL_CMD n)) (hc : c ∈ [Instr.calRun m n v, .calAbort m n v]) :
    exec c s = .next (commit s (onBus (R.CAL_CMD n) (calCmdActed n v) s.dev)) := by
  have hn := n.isLt
  have hlane : Fin.ofNat 8 (R.CAL_CMD n % 0x10000 / 0x100) = n := Fin.ext (by simp only [Fin.ofNat, R.CAL_CMD]; omega)
  have hribbon : ribbonPlace (R.CAL_CMD n) = none := by unfold ribbonPlace; exact if_neg (by simp only [R.CAL_CMD]; omega)
  have hbit : ∀ k ≤ 4, (v &&& BitVec.ofNat 32 0x1F).getLsbD k = v.getLsbD k := fun k hk =>
    getLsbD_trigger v ((by decide : ∀ k ≤ 4, (BitVec.ofNat 32 0x1F).getLsbD k = true) k hk)
  have hacted (d : Dev) : calCmdActed n (v &&& BitVec.ofNat 32 0x1F) d = calCmdActed n v d := by
    have hitems : (fun i : Fin 4 => (v &&& BitVec.ofNat 32 0x1F).getLsbD i) = fun i : Fin 4 => v.getLsbD i :=
      funext fun i => hbit i i.isLt.le
    rw [calCmdActed, hbit 4 le_rfl, hitems, calCmdActed]
  have hw : s.dev.busWrite m (R.CAL_CMD n) .word v = onBus (R.CAL_CMD n) (calCmdActed n v) s.dev := by
    rw [busWrite_stored (f := fun _ t d => calCmdActed n t d) (by unfold RegWord; simp only [R.CAL_CMD]; omega) (calCmd_bits n)
      (by decide) (fun d => heldWord_reg hribbon (by simp only [R.CAL_CMD]; omega) (by simp only [R.CAL_CMD]; omega))
      (fun r d hb => ?_) hr]
    · simp only [hacted]
    · rw [store_cal d (by simp only [blockOf, R.CAL_CMD]; omega) hb, writeCal, hlane,
        if_neg (by simp only [R.CAL_CMD, R.CAL_CAP_CTRL]; omega), if_pos rfl]
      rfl
  simp only [List.mem_cons, List.not_mem_nil, or_false] at hc
  rcases hc with rfl | rfl <;> exact congrArg (fun d => Host.Outcome.next (commit s d)) hw

theorem calCommanded (s : State) (m : Master) (n : Lane) (v : Word) : CalCommanded s m n v := by
  intro hr c hc
  refine ⟨fun h => ⟨_, exec_calCmd hr hc, ?_⟩, fun h => ⟨_, exec_calCmd hr hc, ?_⟩⟩
  · rw [onBus, onBus, calCmdActed, if_pos h]
  · rw [onBus, onBus, calCmdActed, if_neg (by rw [h]; exact Bool.false_ne_true)]

theorem calTriggered (d : Dev) (n : Lane) (i : Fin 4) : CalTriggered d n i := by
  refine ⟨calTrigger_ignored, calTrigger_waits, fun hon hidle hh => ?_⟩
  obtain ⟨hbusy, hfg⟩ := calStart_shows (n := n) (i := i) false d
  rw [calTrigger_starts hon hidle hh, calItem_calStart]
  exact ⟨rfl, rfl, hbusy, hfg, by rw [calStart, setOn_raised, setOn_raised, modCal, modLane_raised],
    by rw [calStart, setOn_mem, setOn_mem, modCal, modLane_mem]⟩

/-! ### The windows -/

/-- The end of the window in progress. -/
theorem ends_window {w : Nat} {d : Dev} (hw : w = s.dev.calWindow n i) (h : s.dev.calWindowEnd n i (s.dev.calWindow n i) = d) :
    Ends (.calWindowEnd n i w) s d := by
  have he : exec (.calWindowEnd n i w) s = .next (commit s (s.dev.calWindowEnd n i w)) := rfl
  exact ⟨_, he, by rw [hw, h]⟩

theorem calItem_estimate (d : Dev) (st : List Tally) : (d.calEstimate n i st).2.calItem n i = d.calItem n i :=
  calEstimate_keeps (fun d => d.calItem n i) (fun _ _ => rfl) i st d

theorem calFg_estimate (d : Dev) (st : List Tally) : (d.calEstimate n i st).2.calFg n i = d.calFg n i :=
  calEstimate_keeps (fun d => d.calFg n i) (fun _ _ => rfl) i st d

theorem calFirstWindow (s : State) (n : Lane) (i : Fin 4) : CalFirstWindow s n i := by
  rintro ⟨hover, hfg, hsound⟩ hphase
  refine ends_window (by rw [calWindow, if_neg (by simp [hfg]), hphase]) ?_
  rw [calWindowEnd_sound hover hsound, calEstimated, calFg_estimate, if_neg (by simp [hfg]), if_pos hphase]
  exact modCal_congr (by rw [calItem_estimate])

theorem calSecondWindow (s : State) (n : Lane) (i : Fin 4) : CalSecondWindow s n i := by
  rintro ⟨hover, hfg, hsound⟩ hphase
  have hw : 2 = s.dev.calWindow n i := by rw [calWindow, if_neg (by simp [hfg]), hphase]
  have hend := calWindowEnd_sound hover hsound
  rw [calEstimated, calFg_estimate, if_neg (by simp [hfg]), if_neg (by omega)] at hend
  refine ⟨fun hagree => ends_window hw ?_, fun hagree hr => ends_window hw ?_⟩
  · rw [hend, if_pos hagree]
  · rw [hend, if_neg (by rw [hagree]; exact Bool.false_ne_true),
      calRetry_background ((calFg_estimate _ _).trans hfg) (by rwa [calItem_estimate])]
    exact modCal_congr (by rw [calItem_setFld, calItem_estimate])

theorem calDiscarded (hs : s.dev.settled = true) (n : Lane) (i : Fin 4) : CalDiscarded s n i := by
  intro hover hfg hr
  have hyields {reason : Nat} (h : s.dev.calWindowEnd n i (s.dev.calWindow n i) = s.dev.calRetry n i reason calAgain) :
      Yields (.calWindowEnd n i (s.dev.calWindow n i)) s
        ((s.dev.setFld (calReason n i) reason).modCal n i fun c => calAgain { c with retries := c.retries - 1 }) [R.CAL_STAT n] [] := by
    have he : exec (.calWindowEnd n i (s.dev.calWindow n i)) s = .next (commit s (s.dev.calWindowEnd n i (s.dev.calWindow n i))) := rfl
    rw [h, calRetry_background hfg hr] at he
    refine yields_quiet he hs (fun a ha => ?_) (fun _ => rfl) (Eq.refl (Dev.rest _)) ?_ ?_ ?_
    · have ha : a ≠ R.CAL_STAT n := by simpa using ha
      rw [modCal, modLane_reg, reg_setFld_ne _ _ _ ha]
    · rw [modCal, modLane_raised, setFld_raised]
    · rw [modCal, modLane_popped, setFld_popped]
    · rw [modCal, modLane_emptied, setFld_emptied]
  exact ⟨fun h ht => hyields (calWindowEnd_noOutput hover h ht), fun h ht hf => hyields (calWindowEnd_fewSamples hover h ht hf)⟩

theorem calForegroundWindow (s : State) (n : Lane) (i : Fin 4) : CalForegroundWindow s n i := by
  intro hover hfg htx hfew
  refine ends_window (by rw [calWindow, if_pos hfg]) ?_
  rw [calWindowEnd_sound hover ⟨htx, hfew⟩, calEstimated, calFg_estimate, if_pos hfg]
  exact modCal_congr (by rw [calItem_estimate])

theorem calOtherWindow (s : State) (n : Lane) (i : Fin 4) (w : Nat) : CalOtherWindow s n i w := by
  intro h
  have he : exec (.calWindowEnd n i w) s = .next (commit s (s.dev.calWindowEnd n i w)) := rfl
  exact ⟨_, he, by rw [calWindowEnd_other h]⟩

/-! ### Take-up -/

theorem calTakenUp (hs : s.dev.settled = true) (n : Lane) (i : Fin 4) : CalTakenUp s n i := by
  have he : exec (.calTakeUp n i) s = .next (commit s (s.dev.calTakeUp n i)) := rfl
  refine ⟨fun h ht hfg => ?_, fun ht => ⟨_, he, by rw [calTakeUp_early ht]⟩⟩
  rw [calTakeUp_taken h ht hfg] at he
  refine yields_quiet he hs (fun a ha => ?_) (fun _ => rfl) (Eq.refl (Dev.rest _)) ?_ ?_ ?_
  · have ha : a ≠ R.CAL_STAT n := by simpa using ha
    rw [calEnd, reg_setOn_ne _ _ _ ha, reg_setOn_ne _ _ _ ha, modCal, modLane_reg]
  · rw [calEnd, setOn_raised, setOn_raised, modCal, modLane_raised]
  · rw [calEnd, setOn_popped, setOn_popped, modCal, modLane_popped]
  · rw [calEnd, setOn_emptied, setOn_emptied, modCal, modLane_emptied]

theorem trimsTakenUp (d : Dev) (n : Lane) : TrimsTakenUp d n := by
  refine ⟨fun h => by rw [takeUpTrims, if_pos h], fun h h0 h1 => ?_⟩
  have hkept (here : Bool) : d.calKept here n [0, 1] = [] := calKept_idle here (by simp [h0, h1])
  have htaken (here : Bool) (f : RxSt → RxSt) : (d.modRx n f).calTaken here n [0, 1] = d.modRx n f :=
    calTaken_idle here (by simp [calItem_modRx, h0, h1])
  rw [takeUpTrims, if_neg (by simp [h])]
  dsimp only
  rw [hkept, htaken]
  rfl

/-- Settles O31: the triggers by what the item is at; the windows by the estimate, which draws free values and changes nothing else;
the take-up by whether a result waits. -/
theorem calibrationRuns : Obligations.CalibrationRuns := fun s hs =>
  ⟨calCommanded s, fun n i => ⟨calFirstWindow s n i, calSecondWindow s n i, calDiscarded hs n i, calTakenUp hs n i⟩,
    fun n i => ⟨calForegroundWindow s n i, calOtherWindow s n i⟩, trimsTakenUp, calTriggered⟩

end Sys2Proof.Claims
end

section
/-! SUPPORT. The commands of the flyleaf (R358, R359, R373, R375): SWAP and ABORT of SPR.CTRL, and SPR.RET. -/

namespace Sys2Proof.Machine.Dev

variable {d : Dev} {n : Lane}

theorem endShadow_none (h : d.phase = 0) (r : Nat) : d.endShadow r = d := by rw [endShadow, if_pos (by omega)]

/-- The swap asked for may be queued: no shadow runs, the lane is in RUN, and no request of the lane waits already. -/
def swapTakes (d : Dev) (n : Lane) : Prop := d.phase = 0 ∧ d.inRun n = true ∧ n ∉ d.spr.cmd

theorem swapRequest_taken (hn : Fin.ofNat 8 (d.fld F.SPR_CTRL_LANE) = n) (h : d.swapTakes n) :
    d.swapRequest = d.modSpr fun p => { p with cmd := p.cmd ++ [n] } := by
  obtain ⟨hphase, hrun, hcmd⟩ := h
  rw [swapRequest, hn]
  exact if_neg (by simp [hphase, hrun, hcmd])

theorem swapRequest_ignored (hn : Fin.ofNat 8 (d.fld F.SPR_CTRL_LANE) = n) (h : ¬ d.swapTakes n) : d.swapRequest = d := by
  rw [swapRequest, hn]
  refine if_pos ?_
  by_contra hc
  exact h (by simpa [swapTakes, not_or] using hc)

end Sys2Proof.Machine.Dev

namespace Sys2Proof.Claims

open Sys2Proof.Machine Sys2Proof.Machine.Dev

variable {s : State} {m : Master} {v : Word} {d : Dev}

/-! ### SPR.CTRL (R358, R359) -/

theorem sprCtrl_bits : rowBits R.SPR_CTRL 7 0x30 = true := by decide +kernel

/-- A write's bits are stored in `SPR.CTRL`. -/
def sprStored (v : Word) (d : Dev) : Dev := d.setReg R.SPR_CTRL (wordWritten d R.SPR_CTRL 7 v)

/-- The lane that a write of `SPR.CTRL` names. -/
def sprLane (v : Word) : Lane := Fin.ofNat 8 (v.toNat % 8)

/-- A write's bits are stored, and its SWAP is judged. -/
def sprAsked (v : Word) (d : Dev) : Dev := if v.getLsbD 4 then (sprStored v d).swapRequest else sprStored v d

/-- What a write of `SPR.CTRL` does to the device: SWAP, then ABORT. -/
def sprActed (v : Word) (d : Dev) : Dev := if v.getLsbD 5 then (sprAsked v d).endShadow 7 else sprAsked v d

theorem exec_sprCtrl {c : Instr} (hr : Reaches s m R.SPR_CTRL) (hc : c ∈ [Instr.swap m v, .sprAbort m v]) :
    exec c s = .next (commit s (onBus R.SPR_CTRL (sprActed v) s.dev)) := by
  have hw : s.dev.busWrite m R.SPR_CTRL .word v = onBus R.SPR_CTRL (sprActed v) s.dev := by
    rw [busWrite_stored (f := fun new t d => d.writeSpr R.SPR_CTRL new t) (by decide) sprCtrl_bits (by decide)
      (fun d => heldWord_reg (by decide) (by decide) (by decide)) (fun r d hb => store_spr d (by decide) hb) hr]
    simp only [writeSpr, if_true, getLsbD_trigger v (show (BitVec.ofNat 32 0x30).getLsbD 4 = true by decide),
      getLsbD_trigger v (show (BitVec.ofNat 32 0x30).getLsbD 5 = true by decide)]
    rfl
  simp only [List.mem_cons, List.not_mem_nil, or_false] at hc
  rcases hc with rfl | rfl <;> exact congrArg (fun d => Host.Outcome.next (commit s d)) hw

/-- LANE of the word that the write leaves is the one written. -/
theorem sprStored_lane (v : Word) (d : Dev) : Fin.ofNat 8 ((sprStored v d).fld F.SPR_CTRL_LANE) = sprLane v := by
  have hmask : ∀ k < 3, (BitVec.ofNat 32 7).getLsbD (0 + k) = true := by decide
  rw [sprStored, fld, reg_setReg_self, getBits_wordWritten hmask, getBits, pow_zero, Nat.div_one, sprLane]
  rfl

theorem sprStored_phase (v : Word) (d : Dev) : (sprStored v d).phase = d.phase := fld_setReg_ne _ _ (by decide)

theorem sprStored_takes (v : Word) (d : Dev) (n : Lane) : (sprStored v d).swapTakes n ↔ d.swapTakes n := by
  have hrun : (sprStored v d).inRun n = d.inRun n :=
    congrArg (· == 2) (fld_setReg_ne (g := laneStat n) _ _ (show R.PWR_LANE_STAT ≠ R.SPR_CTRL by decide))
  rw [swapTakes, sprStored_phase, hrun]
  rfl

/-- A SWAP that is taken. -/
theorem sprAsked_taken (h4 : v.getLsbD 4 = true) (h : d.swapTakes (sprLane v)) :
    sprAsked v d = (sprStored v d).modSpr fun p => { p with cmd := p.cmd ++ [sprLane v] } := by
  rw [sprAsked, if_pos h4, swapRequest_taken (sprStored_lane v d) ((sprStored_takes v d _).2 h)]

/-- No SWAP, or one that is not taken. -/
theorem sprAsked_none (h : v.getLsbD 4 = true → ¬ d.swapTakes (sprLane v)) : sprAsked v d = sprStored v d := by
  unfold sprAsked
  split
  case isTrue h4 => exact swapRequest_ignored (sprStored_lane v d) fun ht => h h4 ((sprStored_takes v d _).1 ht)
  case isFalse => rfl

theorem sprActed_noAbort (h5 : v.getLsbD 5 = false) : sprActed v d = sprAsked v d := by
  rw [sprActed, h5, if_neg Bool.false_ne_true]

/-- ABORT with no shadow in progress. -/
theorem sprActed_idle (h : (sprAsked v d).phase = 0) : sprActed v d = sprAsked v d := by
  rw [sprActed, endShadow_none h, ite_self]

theorem sprControlled (hs : s.dev.settled = true) (m : Master) (v : Word) : SprControlled s m v := by
  intro hr c hc
  have hexec {f : Dev → Dev} (h : sprActed v (s.dev.touch (domainOf R.SPR_CTRL)) = f (s.dev.touch (domainOf R.SPR_CTRL))) :
      exec c s = .next (commit s (onBus R.SPR_CTRL f s.dev)) := by rw [exec_sprCtrl hr hc, onBus, onBus, h]
  have hstored (g : SprSt → SprSt) (a : Nat) (ha : a ∉ [R.SPR_CTRL]) :
      (onBus R.SPR_CTRL (fun d => (sprStored v d).modSpr g) s.dev).reg a = s.dev.reg a := by
    rw [onBus, returned_reg, modSpr_reg, sprStored, reg_setReg_ne _ _ (List.ne_of_not_mem_cons ha), touch_reg]
  have hyields {g : SprSt → SprSt}
      (h : sprActed v (s.dev.touch (domainOf R.SPR_CTRL)) = (sprStored v (s.dev.touch (domainOf R.SPR_CTRL))).modSpr g) :
      Yields c s (onBus R.SPR_CTRL (fun d => (sprStored v d).modSpr g) s.dev) [R.SPR_CTRL] [] :=
    yields_quiet (hexec (f := fun d => (sprStored v d).modSpr g) h) hs (hstored g) (fun _ => rfl) rfl rfl rfl rfl
  have hfails (h : s.dev.phase ≠ 0 ∨ s.dev.inRun (sprLane v) = false ∨ sprLane v ∈ s.dev.spr.cmd) :
      ¬ (s.dev.touch (domainOf R.SPR_CTRL)).swapTakes (sprLane v) := by
    rintro ⟨hphase, hrun, hcmd⟩
    rcases h with h | h | h
    · exact h hphase
    · exact Bool.false_ne_true (h.symm.trans hrun)
    · exact hcmd h
  refine ⟨fun h4 h5 hp hrun hcmd => ?_, fun h4 h5 h => ?_, fun h4 h5 hp hrun hcmd => ?_, fun h5 h => ?_⟩
  · exact hyields ((sprActed_noAbort h5).trans (sprAsked_taken h4 ⟨hp, hrun, hcmd⟩))
  · exact hyields (g := id) ((sprActed_noAbort h5).trans (sprAsked_none fun _ => hfails h))
  · have hasked := sprAsked_taken (d := s.dev.touch (domainOf R.SPR_CTRL)) h4 ⟨hp, hrun, hcmd⟩
    have hidle : (sprAsked v (s.dev.touch (domainOf R.SPR_CTRL))).phase = 0 := by
      rw [hasked]
      exact (sprStored_phase v _).trans hp
    exact hyields ((sprActed_idle hidle).trans hasked)
  · refine ⟨_, hexec (f := fun d => (sprStored v d).endShadow 7) ?_, rfl⟩
    rw [sprActed, if_pos h5, sprAsked_none fun h4 => hfails (h.resolve_left (by simp [h4]))]

/-! ### SPR.RET (R373) -/

theorem sprRet_bits : rowBits R.SPR_RET 0xF 0 = true := by decide +kernel

/-- The slice number that a written word names. -/
theorem sprRet_written (d : Dev) (v : Word) : (wordWritten d R.SPR_RET 0xF v).toNat % 16 = v.toNat % 16 := by
  have hmask : ∀ k < 4, (BitVec.ofNat 32 0xF).getLsbD (0 + k) = true := by decide
  simpa [getBits] using getBits_wordWritten (d := d) (a := R.SPR_RET) (v := v) (f := F.SPR_RET_RET) hmask

/-- What a write of `SPR.RET` does to the device. -/
def retActed (v : Word) (d : Dev) : Dev :=
  if d.retired = 15 ∧ v.toNat % 16 ≤ 8 then d.modSpr fun p => { p with retDue := some (Fin.ofNat 9 (v.toNat % 16)) } else d

theorem exec_sprRet (hr : Reaches s m R.SPR_RET) :
    exec (.sprRetWrite m v) s = .next (commit s (onBus R.SPR_RET (retActed v) s.dev)) := by
  have he : exec (.sprRetWrite m v) s = .next (commit s (s.dev.busWrite m R.SPR_RET .word v)) := rfl
  rw [he, busWrite_stored (f := fun new t d => d.writeSpr R.SPR_RET new t) (by decide) sprRet_bits (by decide)
    (fun d => heldWord_reg (by decide) (by decide) (by decide)) (fun r d hb => store_spr d (by decide) hb) hr]
  have hret : R.SPR_RET ≠ R.SPR_CTRL := by decide
  simp only [writeSpr, if_neg hret, if_true, sprRet_written]
  rfl

theorem retWritten (hs : s.dev.settled = true) (m : Master) (v : Word) : RetWritten s m v := by
  intro hr
  have hexec {f : Dev → Dev} (h : retActed v (s.dev.touch (domainOf R.SPR_RET)) = f (s.dev.touch (domainOf R.SPR_RET))) :
      exec (.sprRetWrite m v) s = .next (commit s (onBus R.SPR_RET f s.dev)) := by rw [exec_sprRet hr, onBus, onBus, h]
  refine ⟨fun h15 h8 => ?_, fun h => yields_onBus hs (hexec (f := id) (if_neg ?_))⟩
  · exact yields_quiet (hexec (f := fun d => d.modSpr fun p => { p with retDue := some (Fin.ofNat 9 (v.toNat % 16)) })
      (if_pos ⟨h15, h8⟩)) hs (fun _ _ => rfl) (fun _ => rfl) rfl rfl rfl rfl
  · rintro ⟨h15, h8⟩
    rcases h with h | h
    · exact h h15
    · omega

/-- Settles O33: a write of `SPR.CTRL` by whether its SWAP is taken and whether its ABORT meets a shadow; one of `SPR.RET` by whether
it names a slice while none is retired. -/
theorem spareCommanded : Obligations.SpareCommanded := fun _ hs m v => ⟨sprControlled hs m v, retWritten hs m v⟩

end Sys2Proof.Claims
end

section
/-! SUPPORT. BST.FULL.GO (R672), which a swap past its commit makes wait (R361). -/

namespace Sys2Proof.Machine.Dev

variable {d : Dev}

theorem fullAllowed_iff : d.fullAllowed = true ↔
    (d.sec.lc = 1 ∨ d.sec.lc = 3) ∧ d.dstate = stACTIVE ∧ d.fld F.THM_STAT_LEVEL = 0 := by
  simp [fullAllowed, and_assoc]

/-- A GO that is accepted in SWITCH or UNDO: the test waits for the end of the swap. -/
theorem fullGo_waits (hidle : d.fullRunning = false) (hmay : d.fullAllowed = true) (hswap : 3 ≤ d.phase) :
    d.fullGo = d.modSpr fun p => { p with testDue := true } := by
  rw [fullGo, if_neg (by simp [hidle]), if_neg (by simp [hmay]), if_pos hswap]

end Sys2Proof.Machine.Dev

namespace Sys2Proof.Claims

open Sys2Proof.Machine Sys2Proof.Machine.Dev

variable {s : State} {m : Master} {v : Word}

theorem bstFull_bits : rowBits R.BST_FULL 0 (2 ^ 31) = true := by decide +kernel

theorem exec_fullGo (hr : Reaches s m R.BST_FULL) (hv : v.getLsbD 31 = true) :
    exec (.fullGo m v) s = .next (commit s (onBus R.BST_FULL Dev.fullGo s.dev)) := by
  have he : exec (.fullGo m v) s = .next (commit s (s.dev.busWrite m R.BST_FULL .word v)) := rfl
  rw [he, busWrite_stored (f := fun new t d => d.writeBst R.BST_FULL new t) (by decide) bstFull_bits (by decide)
    (fun d => heldWord_reg (by decide) (by decide) (by decide)) (fun r d hb => store_bst d (by decide) hb) hr]
  simp only [writeBst, if_true, getLsbD_trigger v (show (BitVec.ofNat 32 (2 ^ 31)).getLsbD 31 = true by decide), hv]

/-- A GO in SWITCH or UNDO shows no running test yet. -/
theorem not_fullTestAsked_of_swap (hr : Reaches s m R.BST_FULL) (hv : v.getLsbD 31 = true) (hidle : s.dev.fullRunning = false)
    (hmay : s.dev.fullAllowed = true) (hswap : 3 ≤ s.dev.phase) : ¬ FullTestAsked s m v := by
  intro h
  obtain ⟨-, -, hstarts⟩ := h hr hv
  obtain ⟨t, ht, hstate, -⟩ := hstarts hidle (fullAllowed_iff.1 hmay)
  have hwaits : (s.dev.touch (domainOf R.BST_FULL)).fullGo = _ := fullGo_waits hidle hmay hswap
  rw [exec_fullGo hr hv, onBus, hwaits] at ht
  obtain rfl := Host.Outcome.next.inj ht
  rw [commit, fld_finish (by decide), returned_fld, modSpr_fld, touch_fld] at hstate
  simp [fullRunning, hstate] at hidle

/-- A device of life cycle MANUFACTURE, in ACTIVE at level NORMAL, with a swap in SWITCH. -/
def switching : State :=
  { State.reset with
    dev := ((State.reset.dev.setFld F.PWR_STAT_DSTATE stACTIVE).setFld F.SPR_STAT_PHASE 3).modSec fun x => { x with lc := 1 } }

theorem switching_reaches : Reaches switching .cpuM R.BST_FULL :=
  ⟨by decide +kernel, by decide +kernel, fun _ _ _ => rfl⟩

theorem switching_may : switching.dev.settled = true ∧ switching.dev.fullRunning = false ∧ switching.dev.fullAllowed = true ∧
    3 ≤ switching.dev.phase := by decide +kernel

/-- Refutes O59: a full test asked for after the commit of a swap waits for Rs (R361), so `BST.FULL.STATE` does not read 1 after the
GO, as the statement has it wherever R672 lets the test start. -/
theorem not_selfTestsRun : ¬ Obligations.SelfTestsRun := by
  intro h
  obtain ⟨hsettled, hidle, hmay, hswap⟩ := switching_may
  obtain ⟨-, -, hasked, -⟩ := h switching hsettled
  exact not_fullTestAsked_of_swap switching_reaches (v := 0x80000000) (by decide) hidle hmay hswap (hasked .cpuM _).2

end Sys2Proof.Claims
end

section
/-! SUPPORT. The neighbours of the stitch mesh (R379 to R387, R413, R414): hellos, time leaves, the discipline of mesh time, traffic. -/

namespace Sys2Proof.Machine.Dev

variable {d : Dev} {n : Lane} {x : StitchLeaf}

theorem each_fixed {α : Type} {f : α → Dev → Dev} {l : List α} (h : ∀ x ∈ l, f x d = d) : d.each l f = d := by
  rw [each]
  induction l with
  | nil => rfl
  | cons x l ih => rw [List.foldl_cons, h x List.mem_cons_self, ih fun y hy => h y (List.mem_cons_of_mem x hy)]

theorem modLink_modLink (f g : LinkSt → LinkSt) : (d.modLink n f).modLink n g = d.modLink n fun l => g (f l) := by
  simp [modLink, modMsh]

/-! ### Hellos (R381, R387) -/

theorem takeLeaf_found {p : StitchLeaf → Bool} (h : (d.link n).inbox.find? p = some x) :
    d.takeLeaf n p = (some x, d.modLink n fun l => { l with inbox := l.inbox.eraseP p }) := by rw [takeLeaf, h]

theorem helloReceived_found (h : (d.link n).inbox.find? (fun x => x.w == 0) = some x) :
    d.helloReceived n = (d.modLink n fun l => { l with inbox := l.inbox.eraseP fun x => x.w == 0 }).hello n x := by
  rw [helloReceived, takeLeaf_found h]

theorem hello_ignored (h : x.bad = true ∨ linkFcsOk x.bits = false) : d.hello n x = d := by
  rw [hello]
  exact if_pos (by rcases h with h | h <;> simp [h])

/-! ### Time leaves (R382, R413) -/

/-- What a time leaf carries. -/
def timeCarried (x : StitchLeaf) : BitVec 64 × Nat × Nat × BitVec 64 × BitVec 32 :=
  (BitVec.ofNat 64 (leafField x.bits 263 200), leafField x.bits 199 194, leafField x.bits 193 192,
    BitVec.ofNat 64 (leafField x.bits 191 128), BitVec.ofNat 32 (leafField x.bits 127 96))

/-- The offset of this end at a time leaf. -/
def timeOffset (n : Lane) (x : StitchLeaf) (d : Dev) : Int :=
  timeDiff (d.lane n).rx.arrive.toNat (leafField x.bits 191 128)

/-- A time leaf is taken from the inbox, and what it carries kept with the offset of this end. -/
def timeNoted (n : Lane) (x : StitchLeaf) (d : Dev) : Dev :=
  d.modLink n fun l =>
    { l with inbox := l.inbox.eraseP (fun x => x.w == 4), time := some (timeCarried x), rxofs := d.timeOffset n x }

/-- A time leaf that is judged: undamaged, of its kind, its FCS holding (R383, R386). -/
def soundTime (x : StitchLeaf) : Prop := x.bad = false ∧ leafField x.bits 271 264 = 0xC8 ∧ linkFcsOk x.bits = true

theorem timeNoted_epsHalf (x : StitchLeaf) (d : Dev) :
    (d.timeNoted n x).epsHalf n = some (d.timeOffset n x - signed 32 (leafField x.bits 127 96)) := by
  have hlt : leafField x.bits 127 96 % 2 ^ 32 = leafField x.bits 127 96 := Nat.mod_mod _ _
  rw [epsHalf, timeNoted, link_modLink]
  simp only [timeCarried, BitVec.toNat_ofNat, hlt]

theorem timeLeafReceived_sound (h : (d.link n).inbox.find? (fun x => x.w == 4) = some x) (hx : soundTime x) :
    d.timeLeafReceived n =
      if d.parent = (n : Nat) then (d.timeNoted n x).takeEps n (d.timeOffset n x - signed 32 (leafField x.bits 127 96))
      else d.timeNoted n x := by
  obtain ⟨hb, hk, hf⟩ := hx
  have hnoted : (d.modLink n fun l => { l with inbox := l.inbox.eraseP fun x => x.w == 4 }).modLink n
      (fun l => { l with time := some (timeCarried x), rxofs := d.timeOffset n x }) = d.timeNoted n x := modLink_modLink ..
  have heps : (match (d.timeNoted n x).epsHalf n with | some e => (d.timeNoted n x).takeEps n e | none => d.timeNoted n x) =
      (d.timeNoted n x).takeEps n (d.timeOffset n x - signed 32 (leafField x.bits 127 96)) := by rw [timeNoted_epsHalf]
  rw [← heps, ← hnoted, timeLeafReceived, takeLeaf_found h]
  exact if_neg (by simp [hb, hk, hf])

/-! ### The discipline of mesh time (R414) -/

/-- A new ε is shown in `MSH.TERR`, and the correction of the ticks follows it. -/
def epsShown (e : Int) (d : Dev) : Dev :=
  (d.setReg R.MSH_TERR (BitVec.ofInt 32 (roundAway e 2))).modMsh fun m =>
    { m with corr := -(clampI (-64) 64 (roundAway e (2 ^ (d.lv F.MSH_CFG_KT + 1)))) }

/-- In ACQ a large ε asks for a step. -/
def stepAsked (e : Int) (d : Dev) : Dev :=
  if 8192 ≤ e.natAbs ∧ d.msh.stepHold = 0 then d.modMsh fun m => { m with stepNext := some (-(roundAway e 2)) } else d

/-- In ACQ the run of small ε comes to `run`. -/
def acqRuns (n : Lane) (run : Nat) (d : Dev) : Dev :=
  if 16 ≤ run then
    ((d.setFld F.MSH_TSTAT_TSTATE 2).modMsh fun m => { m with acqRun := 0, trackRun := 0, stepNext := none }).raise Blk.msh 0x97 n
  else d.modMsh fun m => { m with acqRun := run }

/-- In TRACK the run of large ε comes to `run`. -/
def trackRuns (run : Nat) (d : Dev) : Dev :=
  if 4 ≤ run then (d.setFld F.MSH_TSTAT_TSTATE 1).modMsh fun m => { m with acqRun := 0, trackRun := 0 }
  else d.modMsh fun m => { m with trackRun := run }

variable {e : Int}

theorem stepAsked_acqRun (e : Int) (d : Dev) : (d.stepAsked e).msh.acqRun = d.msh.acqRun := by
  rw [stepAsked]
  split <;> rfl

theorem stepAsked_none (h : e.natAbs < 8192 ∨ d.msh.stepHold ≠ 0) : d.stepAsked e = d :=
  if_neg fun ⟨hbig, hfree⟩ => h.elim (fun h => by omega) (· hfree)

theorem epsShown_meshState (e : Int) (d : Dev) : (d.epsShown e).meshState = d.meshState := fld_setReg_ne _ _ (by decide)

theorem takeEps_acq (h : d.meshState = 1) :
    d.takeEps n e = ((d.epsShown e).stepAsked e).acqRuns n (if e.natAbs < 512 then d.msh.acqRun + 1 else 0) := by
  have hrun : d.msh.acqRun = ((d.epsShown e).stepAsked e).msh.acqRun := (stepAsked_acqRun e (d.epsShown e)).symm
  rw [takeEps, hrun]
  refine (if_pos ((epsShown_meshState e d).trans h)).trans ?_
  simp only [decide_eq_true_eq]
  rfl

theorem takeEps_track (h : d.meshState = 2) :
    d.takeEps n e = (d.epsShown e).trackRuns (if 8192 ≤ e.natAbs then d.msh.trackRun + 1 else 0) := by
  have hs : (d.epsShown e).meshState = 2 := (epsShown_meshState e d).trans h
  rw [takeEps]
  refine (if_neg (show (d.epsShown e).meshState ≠ 1 by omega)).trans ((if_pos hs).trans ?_)
  simp only [decide_eq_true_eq]
  rfl

/-! ### Traffic (R379, R386) -/

/-- The traffic leaves that a link holds. -/
def trafficHeld (d : Dev) (n : Lane) : List StitchLeaf := (d.link n).inbox.filter fun x => x.w != 0 && x.w != 4

/-- The traffic leaves are taken from the inbox. -/
def trafficLeft (n : Lane) (d : Dev) : Dev := d.modLink n fun l => { l with inbox := l.inbox.filter fun x => x.w == 0 || x.w == 4 }

theorem stitchReceived_each (n : Lane) (d : Dev) :
    d.stitchReceived n = (d.trafficLeft n).each (d.trafficHeld n) fun x d => if d.linkUp n then d.trafficLeaf n x else d := rfl

theorem stitchReceived_none (h : d.trafficHeld n = []) : d.stitchReceived n = d.trafficLeft n := by
  rw [stitchReceived_each, h]
  rfl

theorem stitchReceived_one (h : d.trafficHeld n = [x]) (hup : d.linkUp n = true) :
    d.stitchReceived n = (d.trafficLeft n).trafficLeaf n x := by
  rw [stitchReceived_each, h]
  exact if_pos hup

theorem stitchReceived_down (hup : d.linkUp n = false) : d.stitchReceived n = d.trafficLeft n := by
  have hup' : (d.trafficLeft n).linkUp n = false := hup
  rw [stitchReceived_each]
  exact each_fixed fun _ _ => if_neg (by simp [hup'])

end Sys2Proof.Machine.Dev

namespace Sys2Proof.Claims

open Sys2Proof.Machine Sys2Proof.Machine.Dev

variable {s : State} {n : Lane} {x : StitchLeaf}

/-- A command that changes one link's record and nothing else. -/
theorem yields_modLink {c : Instr} {f : LinkSt → LinkSt} (hs : s.dev.settled = true)
    (h : exec c s = .next (commit s (s.dev.modLink n f))) : Yields c s (s.dev.modLink n f) [] [] :=
  yields_quiet h hs (fun _ _ => rfl) (fun _ => rfl) rfl rfl rfl rfl

theorem helloTaken (s : State) (n : Lane) (x : StitchLeaf) : HelloTaken s n x := by
  intro h
  have he : exec (.helloReceived n) s = .next (commit s (s.dev.helloReceived n)) := rfl
  exact ⟨_, he, by rw [helloReceived_found h]⟩

theorem timeKept (hs : s.dev.settled = true) (n : Lane) (x : StitchLeaf) : TimeKept s n x := by
  intro h hb hk hf hp
  have he : exec (.timeLeafReceived n) s = .next (commit s (s.dev.timeLeafReceived n)) := rfl
  rw [timeLeafReceived_sound h ⟨hb, hk, hf⟩, if_neg hp] at he
  exact yields_modLink hs he

theorem timeFollowed (s : State) (n : Lane) (x : StitchLeaf) : TimeFollowed s n x := by
  intro h hb hk hf hp
  have he : exec (.timeLeafReceived n) s = .next (commit s (s.dev.timeLeafReceived n)) := rfl
  rw [timeLeafReceived_sound h ⟨hb, hk, hf⟩, if_pos hp] at he
  exact ⟨_, he, rfl⟩

theorem timeDisciplined (d : Dev) (n : Lane) (e : Int) : TimeDisciplined d n e := by
  refine ⟨fun h hsmall hrun => ?_, fun h hsmall hrun => ?_, fun h hlarge hno => ?_, fun h hbig hfree => ?_, fun h hsmall => ?_,
    fun h hbig hrun => ?_, fun h hbig hrun => ?_⟩
  · rw [takeEps_acq h, if_pos hsmall, stepAsked_none (.inl (by omega)), acqRuns, if_neg (by omega)]
    rfl
  · rw [takeEps_acq h, if_pos hsmall, stepAsked_none (.inl (by omega)), acqRuns, if_pos hrun]
    rfl
  · rw [takeEps_acq h, if_neg (by omega), stepAsked_none (d := d.epsShown e) hno, acqRuns, if_neg (by omega)]
    rfl
  · rw [takeEps_acq h, if_neg (by omega), stepAsked, if_pos ⟨hbig, hfree⟩, acqRuns, if_neg (by omega)]
    rfl
  · rw [takeEps_track h, if_neg (by omega), trackRuns, if_neg (by omega)]
    rfl
  · rw [takeEps_track h, if_pos hbig, trackRuns, if_neg (by omega)]
    rfl
  · rw [takeEps_track h, if_pos hbig, trackRuns, if_pos hrun]
    rfl

theorem helloTimedOut (hs : s.dev.settled = true) (n : Lane) : HelloTimedOut s n := by
  intro hup
  have he : exec (.helloTimeout n) s = .next (commit s (s.dev.helloTimeout n)) := rfl
  refine ⟨fun h => ⟨_, he, ?_⟩, fun h => yields_same hs ?_⟩
  · rw [helloTimeout, if_pos ⟨hup, h⟩]
  · rw [he, helloTimeout, if_neg (by omega)]

theorem trafficTaken (hs : s.dev.settled = true) (n : Lane) : TrafficTaken s n := by
  have he : exec (.stitchReceived n) s = .next (commit s (s.dev.stitchReceived n)) := rfl
  refine ⟨fun h => ?_, fun x h hup => ⟨_, he, ?_⟩, fun hup => ?_⟩
  · rw [stitchReceived_none h] at he
    exact yields_modLink hs he
  · rw [stitchReceived_one h hup]
    rfl
  · rw [stitchReceived_down hup] at he
    exact yields_modLink hs he

/-- Settles O34: a hello or time leaf by the leaf found in the inbox; the discipline by the runs of ACQ and TRACK; the traffic by whether
the link is UP. -/
theorem neighboursFollow : Obligations.NeighboursFollow := fun s hs =>
  ⟨fun n x => ⟨helloTaken s n x, timeKept hs n x, timeFollowed s n x⟩, timeDisciplined,
    fun n => ⟨helloTimedOut hs n, trafficTaken hs n⟩, fun _ _ _ => hello_ignored⟩

end Sys2Proof.Claims
end

section
/-! SUPPORT. The remote access engine (R419 to R422): what the request at the head of its queue comes to. -/

namespace Sys2Proof.Machine.Dev

variable {d : Dev} {r : Stitch} {rs : List Stitch}

/-- The engine's next request is `r`, of type `type`, in a domain that is on. -/
def nextRequest (d : Dev) (type : Nat) (r : Stitch) (rs : List Stitch) : Prop :=
  d.msh.requests = r :: rs ∧ r.type = type ∧ d.domOn .msh = true

theorem remoteRead_refused (q : Vector EvQ 32) (h : d.nextRequest 2 r rs) (hst : d.requestStatus false r ≠ 0) :
    d.remoteRead q = d.servedHead.respond r (d.requestStatus false r) [] := by
  obtain ⟨hq, ht, hd⟩ := h
  rw [remoteRead, hq]
  exact (if_neg (by simp [ht, hd])).trans (if_pos hst)

theorem remoteRead_served (q : Vector EvQ 32) (h : d.nextRequest 2 r rs) (hst : d.requestStatus false r = 0) :
    d.remoteRead q =
      let x := d.servedHead.remoteReadWords q r
      x.2.2.respond r x.2.1.toNat x.1 := by
  obtain ⟨hq, ht, hd⟩ := h
  rw [remoteRead, hq]
  exact (if_neg (by simp [ht, hd])).trans (if_neg (by simp [hst]))

theorem remoteWrite_refused (h : d.nextRequest 3 r rs) (hst : d.requestStatus true r ≠ 0) :
    d.remoteWrite = d.servedHead.respond r (d.requestStatus true r) [] := by
  obtain ⟨hq, ht, hd⟩ := h
  rw [remoteWrite, hq]
  exact (if_neg (by simp [ht, hd])).trans (if_pos hst)

theorem remoteWrite_served (h : d.nextRequest 3 r rs) (hst : d.requestStatus true r = 0) :
    d.remoteWrite =
      let x := d.servedHead.remoteWriteWords r
      x.2.respond r x.1.toNat [] := by
  obtain ⟨hq, ht, hd⟩ := h
  rw [remoteWrite, hq]
  exact (if_neg (by simp [ht, hd])).trans (if_neg (by simp [hst]))

/-- The enable is judged before everything else (R421, log 25). -/
theorem requestStatus_disabled {write : Bool} (h : d.lvOn (if write then F.MSH_RA_CFG_WR_EN else F.MSH_RA_CFG_RD_EN) = false) :
    d.requestStatus write r = 2 := by
  rw [requestStatus, h]
  rfl

end Sys2Proof.Machine.Dev

namespace Sys2Proof.Claims

open Sys2Proof.Machine Sys2Proof.Machine.Dev

theorem remoteReadRefused (s : State) (r : Stitch) (rs : List Stitch) : RemoteReadRefused s r rs := by
  intro hq ht hd hst
  have he : exec .remoteRegRead s = .next (commit s (s.dev.remoteRead s.evq)) := rfl
  exact ⟨_, he, by rw [remoteRead_refused _ ⟨hq, ht, hd⟩ hst]⟩

theorem remoteReadServed (s : State) (r : Stitch) (rs : List Stitch) : RemoteReadServed s r rs := by
  intro hq ht hd hst
  have he : exec .remoteRegRead s = .next (commit s (s.dev.remoteRead s.evq)) := rfl
  exact ⟨_, he, by rw [remoteRead_served _ ⟨hq, ht, hd⟩ hst]⟩

theorem remoteWritten (s : State) (r : Stitch) (rs : List Stitch) : RemoteWritten s r rs := by
  intro hq ht hd
  have he : exec .remoteRegWrite s = .next (commit s s.dev.remoteWrite) := rfl
  exact ⟨fun hst => ⟨_, he, by rw [remoteWrite_refused ⟨hq, ht, hd⟩ hst]⟩,
    fun hst => ⟨_, he, by rw [remoteWrite_served ⟨hq, ht, hd⟩ hst]⟩⟩

/-- Settles O35: the request at the head by its type and by the status it earns. -/
theorem remoteAccess : Obligations.RemoteAccess := fun s _ =>
  ⟨fun r rs => ⟨remoteReadRefused s r rs, remoteReadServed s r rs, remoteWritten s r rs⟩, fun _ _ _ => requestStatus_disabled⟩

end Sys2Proof.Claims
end

section
/-! SUPPORT. Routes that are advertised and grow old, stitches that wait, and the settling of an address (R393, R397, R399, R408). -/

namespace Sys2Proof.Machine.Dev

variable {d : Dev} {n : Lane} {x : Stitch} {xs : List Stitch}

/-! ### Routes (R397, R399) -/

/-- An unconfirmed route becomes unreachable, and its change falls due. -/
def routeLost (r : Route) (d : Dev) : Dev := (d.putRoute { r with dist := 63, gone := 0 }).changed r.addr

/-- The entry of the route's address is unreachable. -/
def unreached (l : List Route) (r : Route) : List Route :=
  l.map fun x => if x.addr = r.addr then { r with dist := 63, gone := 0 } else x

/-- The address is among those that fall due. -/
def dueAlso (l : List (BitVec 16)) (r : Route) : List (BitVec 16) := if l.contains r.addr then l else l ++ [r.addr]

/-- The route is among those removed, once, as unreachable. -/
def removedAlso (l : List Route) (r : Route) : List Route := l.filter (fun x => x.addr != r.addr) ++ [{ r with dist := 63 }]

theorem unreached_addrs (l : List Route) (r : Route) : (unreached l r).map Route.addr = l.map Route.addr := by
  rw [unreached, List.map_map]
  refine List.map_congr_left fun x _ => ?_
  rw [Function.comp_apply]
  split
  case isTrue h => exact h.symm
  case isFalse => rfl

theorem routeLost_listed {r : Route} (h : r.addr ∈ d.msh.routes.map Route.addr) :
    d.routeLost r = d.modMsh fun m => { m with routes := unreached m.routes r, advDue := dueAlso m.advDue r } := by
  obtain ⟨x, hx, ha⟩ := List.mem_map.mp h
  have hany : (d.msh.routes.any fun x => x.addr == r.addr) = true := List.any_eq_true.mpr ⟨x, hx, beq_iff_eq.mpr ha⟩
  have hput : d.putRoute { r with dist := 63, gone := 0 } = d.modMsh fun m => { m with routes := unreached m.routes r } := by
    simp only [putRoute, modMsh, hany, if_true]
    rfl
  rw [routeLost, hput]
  rfl

theorem each_routeLost (l : List Route) (d : Dev) (h : ∀ r ∈ l, r.addr ∈ d.msh.routes.map Route.addr) :
    d.each l routeLost = d.modMsh fun m => { m with routes := l.foldl unreached m.routes, advDue := l.foldl dueAlso m.advDue } := by
  induction l generalizing d with
  | nil => rfl
  | cons r l ih =>
    obtain ⟨hr, hl⟩ := List.forall_mem_cons.mp h
    have hstep : d.each (r :: l) routeLost = (d.routeLost r).each l routeLost := rfl
    rw [hstep, routeLost_listed hr, ih _ fun r' h' => ?_]
    · rfl
    · exact (congrArg (r'.addr ∈ ·) (unreached_addrs d.msh.routes r)).mpr (hl r' h')

theorem each_routeGone (l : List Route) (d : Dev) :
    d.each l routeGone = d.modMsh fun m => { m with removed := l.foldl removedAlso m.removed } := by
  induction l generalizing d with
  | nil => rfl
  | cons r l ih => exact ih (d.routeGone r)

/-- A route that was unreachable through the period p. -/
def spentRoute (p : Nat) (r : Route) : Bool := r.dist == 63 && decide (p ≤ r.gone)

/-- A route that no one has confirmed for four periods p. -/
def staleRoute (p : Nat) (r : Route) : Bool := r.dist != 63 && decide (4 * p ≤ r.age)

/-- The routes that stay in the table. -/
def routesLeft (d : Dev) : List Route := d.msh.routes.filter fun r => !spentRoute d.routePeriod r

/-- The spent routes leave the table. -/
def dropSpent (d : Dev) : Dev := d.modMsh fun m => { m with routes := d.routesLeft }

theorem routeExpiry_stages (hm : d.meshOn = true) : d.routeExpiry =
    (d.dropSpent.each (d.routesLeft.filter (staleRoute d.routePeriod)) routeLost).each
      (d.msh.routes.filter (spentRoute d.routePeriod)) routeGone := by
  rw [routeExpiry, hm]
  rfl

theorem routeExpiry_ages (hm : d.meshOn = true) : d.routeExpiry = d.modMsh fun m =>
    { m with routes := (d.routesLeft.filter (staleRoute d.routePeriod)).foldl unreached d.routesLeft
             advDue := (d.routesLeft.filter (staleRoute d.routePeriod)).foldl dueAlso m.advDue
             removed := (d.msh.routes.filter (spentRoute d.routePeriod)).foldl removedAlso m.removed } := by
  have hlisted : ∀ r ∈ d.routesLeft.filter (staleRoute d.routePeriod), r.addr ∈ d.dropSpent.msh.routes.map Route.addr :=
    fun r hr => List.mem_map_of_mem (List.mem_filter.mp hr).1
  rw [routeExpiry_stages hm, each_routeLost _ _ hlisted, each_routeGone]
  rfl

theorem routeExpiry_young (hm : d.meshOn = true) (h : ∀ r ∈ d.msh.routes, r.dist ≠ 63 ∧ r.age < 4 * d.routePeriod) :
    d.routeExpiry = d := by
  have hspent : d.msh.routes.filter (spentRoute d.routePeriod) = [] :=
    List.filter_eq_nil_iff.mpr fun r hr => by simp [spentRoute, (h r hr).1]
  have hleft : d.routesLeft = d.msh.routes := List.filter_eq_self.mpr fun r hr => by simp [spentRoute, (h r hr).1]
  have hstale : d.msh.routes.filter (staleRoute d.routePeriod) = [] :=
    List.filter_eq_nil_iff.mpr fun r hr => by simp [staleRoute, (h r hr).2]
  rw [routeExpiry_ages hm, hleft, hstale, hspent]
  rfl

theorem routeAdvertise_due (hm : d.meshOn = true) (h : d.routePeriod ≤ d.msh.advQ) :
    d.routeAdvertise = (d.modMsh fun m => { m with advQ := 0 }).advertise d.routeTable := by
  rw [routeAdvertise, if_neg (by simp [hm, h])]

theorem routeAdvertise_early (h : d.msh.advQ < d.routePeriod) : d.routeAdvertise = d := by
  rw [routeAdvertise, if_pos (.inr h)]

/-! ### Stitches that wait (R408) -/

/-- A stitch that has waited 2^AGE_EXP quires. -/
def stitchOld (d : Dev) (s : Stitch) : Bool := decide (2 ^ d.lv F.MSH_CFG_AGE_EXP ≤ s.age)

/-- The stitches of a link that `old` holds of are dropped. -/
def ageLink (old : Stitch → Bool) (n : Lane) (d : Dev) : Dev :=
  (d.modLink n fun l => { l with queue := l.queue.filter fun s => !old s }).each ((d.link n).queue.filter old) (dropStitch R.MSH_AGED)

/-- The stitches before the receive ring that `old` holds of are dropped. -/
def ageRing (old : Stitch → Bool) (d : Dev) : Dev :=
  (d.modMsh fun m => { m with ringWait := m.ringWait.filter fun s => !old s }).each (d.msh.ringWait.filter old) (dropStitch R.MSH_AGED)

theorem stitchAged_stages (hm : d.meshOn = true) :
    d.stitchAged = (d.each allLanes fun n e => e.ageLink d.stitchOld n).ageRing d.stitchOld := by
  have hold : d.stitchOld = fun s => decide (2 ^ d.lv F.MSH_CFG_AGE_EXP ≤ s.age) := rfl
  simp only [stitchAged, hm, ageRing, ageLink, hold, Bool.not_true, Bool.false_eq_true, if_false]

variable {old : Stitch → Bool}

/-- A queue without an old stitch keeps all and drops none. -/
theorem filter_young (h : ∀ y ∈ xs, old y = false) : (xs.filter fun s => !old s) = xs ∧ xs.filter old = [] :=
  ⟨List.filter_eq_self.mpr fun y hy => by rw [h y hy]; rfl, List.filter_eq_nil_iff.mpr fun y hy => by simp [h y hy]⟩

/-- What is done to a link depends on the record that it has. -/
theorem modLink_congr {f g : LinkSt → LinkSt} (h : f (d.link n) = g (d.link n)) : d.modLink n f = d.modLink n g := by
  have h' : f d.msh.links[n] = g d.msh.links[n] := h
  simp only [modLink, modMsh, h']

theorem link_modLink_ne {k : Lane} (h : k ≠ n) (f : LinkSt → LinkSt) (d : Dev) : (d.modLink k f).link n = d.link n := by
  simp [link, modLink, modMsh, Fin.val_inj, h]

theorem modLink_self {f : LinkSt → LinkSt} (h : f (d.link n) = d.link n) : d.modLink n f = d := by
  have h' : f d.msh.links[n.val] = d.msh.links[n.val] := h
  simp only [modLink, modMsh, Fin.getElem_fin, h', Vector.set_getElem_self]

theorem ageLink_young (h : ∀ y ∈ (d.link n).queue, old y = false) : d.ageLink old n = d := by
  obtain ⟨hkeep, hnone⟩ := filter_young h
  rw [ageLink, modLink_self (by rw [hkeep]), hnone]
  rfl

theorem ageLink_head (hq : (d.link n).queue = x :: xs) (hx : old x = true) (hxs : ∀ y ∈ xs, old y = false) :
    d.ageLink old n = (d.modLink n fun l => { l with queue := xs }).dropStitch R.MSH_AGED x := by
  obtain ⟨hkeep, hnone⟩ := filter_young hxs
  have hleft : (d.modLink n fun l => { l with queue := l.queue.filter fun s => !old s })
      = d.modLink n fun l => { l with queue := xs } :=
    modLink_congr (by simp [hq, hx, hkeep])
  rw [ageLink, hleft, hq, List.filter_cons_of_pos hx, hnone]
  rfl

theorem ageRing_young (h : ∀ y ∈ d.msh.ringWait, old y = false) : d.ageRing old = d := by
  obtain ⟨hkeep, hnone⟩ := filter_young h
  rw [ageRing, hnone]
  simp only [modMsh, hkeep]
  rfl

/-! ### What a drop leaves -/

theorem setVc_queue (vc : Nat) (v : VcSt) (l : LinkSt) : (l.setVc vc v).queue = l.queue := by
  rw [LinkSt.setVc]
  split <;> rfl

theorem queue_modLink (k : Lane) {f : LinkSt → LinkSt} (h : ∀ l, (f l).queue = l.queue) (d : Dev) :
    ((d.modLink k f).link n).queue = (d.link n).queue := by
  by_cases hk : k = n
  · subst hk
    rw [link_modLink, h]
  · rw [link_modLink_ne hk]

/-- What a dropped stitch's buffer, count and state do not touch. -/
theorem dropStitch_keeps {β : Type} (g : Dev → β)
    (hlink : ∀ k vc (v : LinkSt → VcSt) d, g (d.modLink k fun l => l.setVc vc (v l)) = g d)
    (hreg : ∀ a v d, g (d.setReg a v) = g d) (c : Nat) (x : Stitch) (d : Dev) : g (d.dropStitch c x) = g d := by
  have hfree : g (d.freeBuffer x) = g d := by
    rw [freeBuffer]
    split
    · exact hlink ..
    · rfl
  have hcount : g ((d.freeBuffer x).bump c) = g d := (hreg ..).trans hfree
  rw [dropStitch]
  split
  · exact (hreg ..).trans hcount
  · exact hcount

theorem dropStitch_queue (c : Nat) (x : Stitch) (d : Dev) : ((d.dropStitch c x).link n).queue = (d.link n).queue :=
  dropStitch_keeps (fun d => (d.link n).queue) (fun k _ _ => queue_modLink k fun _ => setVc_queue ..) (fun _ _ _ => rfl) c x d

theorem dropStitch_ringWait (c : Nat) (x : Stitch) (d : Dev) : (d.dropStitch c x).msh.ringWait = d.msh.ringWait :=
  dropStitch_keeps (fun d => d.msh.ringWait) (fun _ _ _ _ => rfl) (fun _ _ _ => rfl) c x d

/-- A pass over the lanes that changes the device at one of them only. -/
theorem each_one {f : Lane → Dev → Dev} {k : Lane} {l : List Lane} (hl : l.Nodup) (hk : k ∈ l)
    (hbefore : ∀ n, n ≠ k → f n d = d) (hafter : ∀ n, n ≠ k → f n (f k d) = f k d) : d.each l f = f k d := by
  induction l with
  | nil => exact absurd hk List.not_mem_nil
  | cons n l ih =>
    obtain ⟨hn, hl⟩ := List.nodup_cons.mp hl
    have hstep : d.each (n :: l) f = (f n d).each l f := rfl
    by_cases hnk : n = k
    · subst hnk
      rw [hstep]
      exact each_fixed fun y hy => hafter y fun h => hn (h ▸ hy)
    · rw [hstep, hbefore n hnk]
      exact ih hl ((List.mem_cons.mp hk).resolve_left (Ne.symm hnk))

/-- One link's oldest stitch has waited long enough, and no other stitch has. -/
theorem stitchAged_head (hm : d.meshOn = true) (hq : (d.link n).queue = x :: xs) (hx : d.stitchOld x = true)
    (hxs : ∀ y ∈ xs, d.stitchOld y = false) (hlinks : ∀ k, k ≠ n → ∀ y ∈ (d.link k).queue, d.stitchOld y = false)
    (hring : ∀ y ∈ d.msh.ringWait, d.stitchOld y = false) :
    d.stitchAged = (d.modLink n fun l => { l with queue := xs }).dropStitch R.MSH_AGED x := by
  have hhead : d.ageLink d.stitchOld n = _ := ageLink_head hq hx hxs
  have hlanes : d.each allLanes (ageLink d.stitchOld) = d.ageLink d.stitchOld n :=
    each_one (List.nodup_finRange 8) (List.mem_finRange n) (fun k hk => ageLink_young (hlinks k hk)) fun k hk => ageLink_young <| by
      rw [hhead, dropStitch_queue, link_modLink_ne (Ne.symm hk)]
      exact hlinks k hk
  rw [stitchAged_stages hm, hlanes, hhead]
  refine ageRing_young ?_
  rw [dropStitch_ringWait]
  exact hring

theorem stitchAged_young (hm : d.meshOn = true) (hlinks : ∀ n, ∀ y ∈ (d.link n).queue, d.stitchOld y = false)
    (hring : ∀ y ∈ d.msh.ringWait, d.stitchOld y = false) : d.stitchAged = d := by
  rw [stitchAged_stages hm, each_fixed fun n _ => ageLink_young (hlinks n), ageRing_young hring]

end Sys2Proof.Machine.Dev

namespace Sys2Proof.Claims

open Sys2Proof.Machine Sys2Proof.Machine.Dev

variable {s : State}

theorem routesAdvertised (hs : s.dev.settled = true) : RoutesAdvertised s := by
  intro hm
  have he : exec .routeAdvertise s = .next (commit s s.dev.routeAdvertise) := rfl
  exact ⟨fun h => ⟨_, he, by rw [routeAdvertise_due hm h]⟩, fun h => yields_same hs (by rw [he, routeAdvertise_early h])⟩

theorem routesKept (hs : s.dev.settled = true) : RoutesKept s := by
  intro hm h
  have he : exec .routeExpiry s = .next (commit s s.dev.routeExpiry) := rfl
  exact yields_same hs (by rw [he, routeExpiry_young hm h])

theorem routesAged (hs : s.dev.settled = true) : RoutesAged s := by
  intro hm
  have he : exec .routeExpiry s = .next (commit s s.dev.routeExpiry) := rfl
  rw [routeExpiry_ages hm] at he
  exact yields_quiet he hs (fun _ _ => rfl) (fun _ => rfl) rfl rfl rfl rfl

/-- A stitch below the limit is not old. -/
theorem stitchOld_young {d : Dev} {y : Stitch} (h : y.age < 2 ^ d.lv F.MSH_CFG_AGE_EXP) : d.stitchOld y = false :=
  decide_eq_false (Nat.not_le.mpr h)

theorem stitchesKept (hs : s.dev.settled = true) : StitchesKept s := by
  intro hm hlinks hring
  have he : exec .stitchAged s = .next (commit s s.dev.stitchAged) := rfl
  exact yields_same hs (by
    rw [he, stitchAged_young hm (fun n y hy => stitchOld_young (hlinks n y hy)) fun y hy => stitchOld_young (hring y hy)])

theorem stitchDropped (s : State) (l : Lane) (x : Stitch) (xs : List Stitch) : StitchDropped s l x xs := by
  intro hm hq hx hxs hlinks hring
  have he : exec .stitchAged s = .next (commit s s.dev.stitchAged) := rfl
  exact ⟨_, he, by
    rw [stitchAged_head hm hq (decide_eq_true (Nat.not_lt.mp hx)) (fun y hy => stitchOld_young (hxs y hy))
      (fun k hk y hy => stitchOld_young (hlinks k hk y hy)) fun y hy => stitchOld_young (hring y hy)]⟩

theorem addressSettled (hs : s.dev.settled = true) : AddressSettled s := by
  intro hm hst hlose hq
  have he : exec .addressSelfAssigned s = .next (commit s s.dev.addressSelfAssigned) := rfl
  rw [addressSelfAssigned, if_pos (by simp [hm, hst, hlose, hq])] at he
  refine yields_raised [⟨Blk.msh, 0x94, 0⟩] he hs (fun a ha => ?_) (fun _ => ?_) (raise_rest ..) ?_ ?_ ?_ rfl rfl
  · rw [raise_reg, changed, modMsh_reg, reg_setFld_ne _ _ _ (by simpa using ha)]
  · rw [raise_reg]
  · rw [raise_raised, changed, modMsh_raised, setFld_raised]
  · rw [raise_popped, changed, modMsh_popped, setFld_popped]
  · rw [raise_emptied, changed, modMsh_emptied, setFld_emptied]

/-- Settles O36: the routes by what is spent and what is stale; the stitches by the one link whose oldest has waited long enough; the
address by its time without conflict. -/
theorem routesFollow : Obligations.RoutesFollow := fun s hs =>
  ⟨routesAdvertised hs, routesKept hs, routesAged hs, stitchesKept hs, stitchDropped s, addressSettled hs⟩

end Sys2Proof.Claims
end

section
/-! SUPPORT. SEND (R423) once an entry to STANDBY has stopped the acceptance of local stitches (R585). -/

namespace Sys2Proof.Machine.Dev

/-- A mesh that accepts no local stitch takes no SEND. -/
theorem sendLocal_closed {d : Dev} (h : d.noAccept = true) : d.sendLocal = d := if_pos (.inr (.inr h))

end Sys2Proof.Machine.Dev

namespace Sys2Proof.Claims

open Sys2Proof.Machine Sys2Proof.Machine.Dev

variable {s : State} {m : Master} {v : Word}

theorem mshTxCtrl_bits : rowBits R.MSH_TX_CTRL 0 1 = true := by decide +kernel

theorem exec_send (hr : Reaches s m R.MSH_TX_CTRL) (hv : v.getLsbD 0 = true) :
    exec (.send m v) s = .next (commit s (onBus R.MSH_TX_CTRL Dev.sendLocal s.dev)) := by
  have he : exec (.send m v) s = .next (commit s (s.dev.busWrite m R.MSH_TX_CTRL .word v)) := rfl
  rw [he, busWrite_stored (f := fun new t d => d.writeMsh R.MSH_TX_CTRL new t (wordWr m v none none)) (by decide) mshTxCtrl_bits
    (by decide) (fun d => heldWord_reg (by decide) (by decide) (by decide)) (fun r d hb => store_msh d (by decide) hb) hr]
  simp only [writeMsh, if_true, getLsbD_trigger v (show (BitVec.ofNat 32 1).getLsbD 0 = true by decide), hv]

/-- A SEND of a length that may not be sent leaves `TX_STAT` as it was where no local stitch is accepted. -/
theorem not_sendRefused_of_closed (hr : Reaches s m R.MSH_TX_CTRL) (hv : v.getLsbD 0 = true) (hleave : s.dev.msh.leaving = false)
    (hclosed : s.dev.noAccept = true) (hstate : s.dev.fld F.MSH_TX_STAT_STATE = 0) (hlen : 250 < s.dev.fld F.MSH_TX_HDR_PLEN) :
    ¬ SendRefused s m v := by
  intro h
  obtain ⟨-, hrefused⟩ := h hr hv hleave
  obtain ⟨t, ht, hreg, -⟩ := hrefused (by omega) hlen
  have hkept : (s.dev.touch (domainOf R.MSH_TX_CTRL)).sendLocal = _ := sendLocal_closed hclosed
  rw [exec_send hr hv, onBus, hkept] at ht
  obtain rfl := Host.Outcome.next.inj ht
  have htwo : ((s.dev.touch (domainOf R.MSH_TX_CTRL)).setFld F.MSH_TX_STAT_STATE 2).fld F.MSH_TX_STAT_STATE = 2 :=
    fld_setFld_self _ _ _ (by decide)
  have hzero : ((s.dev.touch (domainOf R.MSH_TX_CTRL)).setFld F.MSH_TX_STAT_STATE 2).fld F.MSH_TX_STAT_STATE = 0 := by
    have hword := hreg R.MSH_TX_STAT (by decide)
    rw [onBus, returned_reg, commit, finish_reg _ _ _ (by decide), returned_reg, touch_reg] at hword
    rw [← hstate, fld, fld, ← hword]
  omega

/-- A device in an entry to STANDBY after B0, its mesh up and not leaving, that holds a local stitch of 251 bytes. -/
def stopping : State :=
  { State.reset with
    dev := (((State.reset.dev.setFld F.PWR_STAT_DSTATE stToSTANDBY).setOn F.PWR_DOM_MSH true).setFld F.MSH_TX_HDR_PLEN 251).modPwr
      fun p => { p with sbyTry := 1 } }

theorem stopping_reaches : Reaches stopping .cpuM R.MSH_TX_CTRL :=
  ⟨by decide +kernel, by decide +kernel, fun _ _ _ => rfl⟩

theorem stopping_closed : stopping.dev.settled = true ∧ stopping.dev.msh.leaving = false ∧ stopping.dev.noAccept = true ∧
    stopping.dev.fld F.MSH_TX_STAT_STATE = 0 ∧ 250 < stopping.dev.fld F.MSH_TX_HDR_PLEN := by decide +kernel

/-- Refutes O37: whether a SEND is taken is decided by `noAccept`, the state of the entry to STANDBY (R585), and not by LEAVE. The
statement guards by `leaving = false` alone, so it has `TX_STAT` go to 2 also where the entry has stopped the acceptance, and there a
SEND changes nothing. The state used does not say LEAVE, which the model sets together with the stop. -/
theorem not_stitchesCommanded : ¬ Obligations.StitchesCommanded := by
  intro h
  obtain ⟨hsettled, hleave, hclosed, hstate, hlen⟩ := stopping_closed
  obtain ⟨-, hsend, -⟩ := h stopping hsettled
  exact not_sendRefused_of_closed stopping_reaches (v := 1) (by decide) hleave hclosed hstate hlen (hsend .cpuM 1).1

end Sys2Proof.Claims
end

section
/-! SUPPORT. The bias DACs (R433 to R440): what a sub-interval does to one of them, the limiter's step, and the end of the safe state. -/

namespace Sys2Proof.Machine.Dev

variable {d : Dev} {k : Fin 24} {j a : Nat} {f : Fld}

/-- What holds after the pass has come to x, and what every other step keeps, holds after the pass. -/
theorem each_establishes {α : Type} {P : Dev → Prop} {f : α → Dev → Dev} {l : List α} {x : α} (hx : x ∈ l)
    (hset : ∀ d, P (f x d)) (hkeep : ∀ y d, P d → P (f y d)) : P (d.each l f) := by
  have hpass (l : List α) (d : Dev) (h : P d) : P (d.each l f) := by
    induction l generalizing d with
    | nil => exact h
    | cons y l ih => exact ih _ (hkeep y d h)
  induction l generalizing d with
  | nil => exact absurd hx List.not_mem_nil
  | cons y l ih =>
    rcases List.mem_cons.mp hx with rfl | hx
    · exact hpass l _ (hset d)
    · exact ih hx

/-- A pass keeps what each of its steps keeps. -/
theorem each_keeps_mem {α β : Type} {f : α → Dev → Dev} {l : List α} (p : Dev → β) (h : ∀ x ∈ l, ∀ d, p (f x d) = p d) (d : Dev) :
    p (d.each l f) = p d := by
  induction l generalizing d with
  | nil => rfl
  | cons x l ih => exact (ih (fun y hy => h y (List.mem_cons_of_mem x hy)) _).trans (h x List.mem_cons_self d)

/-! ### The goal (R437, R438) -/

theorem biasBusy_busy : (d.biasBusy k).on (F.HKP_BSTAT_BUSY k) = (d.fld (F.HKP_BSTAT_OUT k) != d.hkp.goal[k]) :=
  on_setOn_self _ _ _ (by simp) rfl

/-- A new goal of the limiter. -/
def goalSet (k : Fin 24) (g : Nat) (d : Dev) : Dev := d.modHkp fun h => { h with goal := h.goal.set k g }

/-- The safe code replaces the goal of a DAC in the safe state (R438). -/
def goalTaken (k : Fin 24) (d : Dev) : Dev :=
  if d.on (F.HKP_BSTAT_SAFE k) then (d.goalSet k (d.fld (F.HKP_BCFG_SAFE k))).biasBusy k else d

/-- Taking the goal changes the goal and BUSY only. -/
theorem goalTaken_keeps {β : Type} (p : Dev → β) (hg : ∀ g d, p (goalSet k g d) = p d)
    (hb : ∀ x d, p (setFld (F.HKP_BSTAT_BUSY k) x d) = p d) : p (d.goalTaken k) = p d := by
  rw [goalTaken]
  split
  · exact (hb _ _).trans (hg _ _)
  · rfl

theorem goalTaken_reg (h : a ≠ R.HKP_BSTAT k) : (d.goalTaken k).reg a = d.reg a :=
  goalTaken_keeps (fun d => d.reg a) (fun _ _ => modHkp_reg ..) fun _ _ => reg_setFld_ne _ _ _ h

theorem goalTaken_fld (h : (F.HKP_BSTAT_BUSY k).apart f) : (d.goalTaken k).fld f = d.fld f :=
  goalTaken_keeps (fun d => d.fld f) (fun _ _ => modHkp_fld ..) fun _ _ => fld_setFld_apart _ _ (by simp) h

theorem goalTaken_goal (i : Fin 24) : (d.goalTaken k).hkp.goal[i] =
    if i = k ∧ d.on (F.HKP_BSTAT_SAFE k) = true then d.fld (F.HKP_BCFG_SAFE k) else d.hkp.goal[i] := by
  rw [goalTaken]
  split
  case isTrue hsafe =>
    simp only [Fin.getElem_fin, biasBusy, setOn_hkp, goalSet, modHkp, Vector.getElem_set, hsafe, and_true, Fin.ext_iff, eq_comm]
  case isFalse hsafe => simp [hsafe]

/-! ### The limiter (R436, R437) -/

/-- Where a step of the limiter moves OUT. -/
def limited (d : Dev) (k : Fin 24) : Nat :=
  let out := d.fld (F.HKP_BSTAT_OUT k)
  let step := max 1 (d.fld (F.HKP_BCFG_STEP k))
  if out ≤ d.hkp.goal[k] then min d.hkp.goal[k] (out + step) else max d.hkp.goal[k] (out - step)

theorem limited_lt (hg : d.hkp.goal[k] < 2 ^ 14) : d.limited k < 2 ^ 14 := by
  have hout : d.fld (F.HKP_BSTAT_OUT k) < 2 ^ 14 := getBits_lt _ _
  rw [limited]
  split <;> omega

/-- A step changes OUT and BUSY only. -/
theorem biasStep_keeps {β : Type} (p : Dev → β) (hb : ∀ x d, p (setFld (F.HKP_BSTAT_BUSY k) x d) = p d)
    (ho : ∀ x d, p (setFld (F.HKP_BSTAT_OUT k) x d) = p d) : p (d.biasStep k) = p d := (hb _ _).trans (ho _ _)

theorem biasStep_out (hg : d.hkp.goal[k] < 2 ^ 14) : (d.biasStep k).fld (F.HKP_BSTAT_OUT k) = d.limited k := by
  have hset : (d.biasStep k).fld (F.HKP_BSTAT_OUT k) = d.limited k % 2 ^ 14 :=
    (fld_setFld_apart _ _ (by simp) (by simp [Fld.apart])).trans (fld_setFld_self _ _ _ (by simp))
  rw [hset, Nat.mod_eq_of_lt (limited_lt hg)]

theorem biasStep_busy :
    (d.biasStep k).on (F.HKP_BSTAT_BUSY k) = ((d.biasStep k).fld (F.HKP_BSTAT_OUT k) != d.hkp.goal[k]) := by
  have hout : (d.biasStep k).fld (F.HKP_BSTAT_OUT k) = (d.setFld (F.HKP_BSTAT_OUT k) (d.limited k)).fld (F.HKP_BSTAT_OUT k) :=
    fld_setFld_apart _ _ (by simp) (by simp [Fld.apart])
  rw [hout]
  exact biasBusy_busy

/-- The limiter's step where one falls due (R436). -/
def stepTaken (j : Nat) (k : Fin 24) (d : Dev) : Dev := if d.stepDue k j then d.biasStep k else d

theorem stepTaken_idle (h : d.stepDue k j = false) : d.stepTaken j k = d := by rw [stepTaken, h, if_neg Bool.false_ne_true]

theorem stepTaken_keeps {β : Type} (p : Dev → β) (hb : ∀ x d, p (setFld (F.HKP_BSTAT_BUSY k) x d) = p d)
    (ho : ∀ x d, p (setFld (F.HKP_BSTAT_OUT k) x d) = p d) : p (d.stepTaken j k) = p d := by
  rw [stepTaken]
  split
  · exact biasStep_keeps p hb ho
  · rfl

/-- No step falls due where the count of steps so far does not rise. -/
theorem stepDue_level (h : j * (d.fld (F.HKP_BCFG_RATE k) + 1) / 16 = (j + 1) * (d.fld (F.HKP_BCFG_RATE k) + 1) / 16) :
    d.stepDue k j = false := decide_eq_false h.not_lt

/-! ### A sub-interval (R433, R440) -/

/-- The goal and the step of a sub-interval. -/
def biasMoved (j : Nat) (k : Fin 24) (d : Dev) : Dev := (d.goalTaken k).stepTaken j k

/-- The output code of a DAC with its dither (R433). -/
def dithered (d : Dev) (k : Fin 24) (j : Nat) : Nat := (clampI 0 16383 (d.fld (F.HKP_BSTAT_OUT k) + d.dither k j)).toNat

theorem biasSub_moved (d : Dev) (j : Nat) (k : Fin 24) : d.biasSub j k =
    (d.biasMoved j k).modHkp fun h => { h with code := h.code.set k ((d.biasMoved j k).dithered k j) } := rfl

theorem biasMoved_keeps {β : Type} (p : Dev → β) (hg : ∀ g d, p (goalSet k g d) = p d)
    (hb : ∀ x d, p (setFld (F.HKP_BSTAT_BUSY k) x d) = p d) (ho : ∀ x d, p (setFld (F.HKP_BSTAT_OUT k) x d) = p d) :
    p (d.biasMoved j k) = p d := (stepTaken_keeps p hb ho).trans (goalTaken_keeps p hg hb)

theorem biasMoved_reg (h : a ≠ R.HKP_BSTAT k) : (d.biasMoved j k).reg a = d.reg a :=
  biasMoved_keeps (fun d => d.reg a) (fun _ _ => modHkp_reg ..) (fun _ _ => reg_setFld_ne _ _ _ h) fun _ _ => reg_setFld_ne _ _ _ h

theorem biasMoved_fld (hb : (F.HKP_BSTAT_BUSY k).apart f) (ho : (F.HKP_BSTAT_OUT k).apart f) : (d.biasMoved j k).fld f = d.fld f :=
  biasMoved_keeps (fun d => d.fld f) (fun _ _ => modHkp_fld ..) (fun _ _ => fld_setFld_apart _ _ (by simp) hb)
    fun _ _ => fld_setFld_apart _ _ (by simp) ho

theorem biasMoved_goal (i : Fin 24) : (d.biasMoved j k).hkp.goal[i] =
    if i = k ∧ d.on (F.HKP_BSTAT_SAFE k) = true then d.fld (F.HKP_BCFG_SAFE k) else d.hkp.goal[i] :=
  (stepTaken_keeps (fun d => d.hkp.goal[i]) (fun _ _ => by rw [setFld_hkp]) fun _ _ => by rw [setFld_hkp]).trans (goalTaken_goal i)

theorem biasMoved_idle (h : j * (d.fld (F.HKP_BCFG_RATE k) + 1) / 16 = (j + 1) * (d.fld (F.HKP_BCFG_RATE k) + 1) / 16) :
    (d.biasMoved j k).fld (F.HKP_BSTAT_OUT k) = d.fld (F.HKP_BSTAT_OUT k) := by
  have hrate : (d.goalTaken k).fld (F.HKP_BCFG_RATE k) = d.fld (F.HKP_BCFG_RATE k) :=
    congrArg (getBits · (F.HKP_BCFG_RATE k)) (goalTaken_reg (by simp only [R.HKP_BCFG, R.HKP_BSTAT]; omega))
  rw [biasMoved, stepTaken_idle (stepDue_level (by rw [hrate]; exact h)), goalTaken_fld (by simp [Fld.apart])]

theorem dither_none (h : d.on (F.HKP_BSTAT_SAFE k) = true ∨ d.on (F.HKP_BDIT_DEN k) = false) : d.dither k j = 0 := by
  rw [dither]
  exact if_pos (by rcases h with h | h <;> simp [h])

/-- Without dither the output is OUT. -/
theorem dithered_plain (h : d.dither k j = 0) : d.dithered k j = d.fld (F.HKP_BSTAT_OUT k) := by
  have hout : d.fld (F.HKP_BSTAT_OUT k) < 2 ^ 14 := getBits_lt _ _
  rw [dithered, h, clampI, if_neg (by omega), if_neg (by omega), add_zero, Int.toNat_natCast]

theorem dithered_biasMoved (h : d.on (F.HKP_BSTAT_SAFE k) = true ∨ d.on (F.HKP_BDIT_DEN k) = false) :
    (d.biasMoved j k).dithered k j = (d.biasMoved j k).fld (F.HKP_BSTAT_OUT k) := by
  have hsafe : (d.biasMoved j k).on (F.HKP_BSTAT_SAFE k) = d.on (F.HKP_BSTAT_SAFE k) :=
    congrArg (· == 1) (biasMoved_fld (by simp [Fld.apart]) (by simp [Fld.apart]))
  have hden : (d.biasMoved j k).on (F.HKP_BDIT_DEN k) = d.on (F.HKP_BDIT_DEN k) :=
    congrArg (getBits · (F.HKP_BDIT_DEN k) == 1) (biasMoved_reg (by simp only [R.HKP_BDIT, R.HKP_BSTAT]; omega))
  exact dithered_plain (dither_none (by rwa [hsafe, hden]))

theorem biasSub_code (i : Fin 24) :
    (d.biasSub j k).hkp.code[i] = if i = k then (d.biasMoved j k).dithered k j else d.hkp.code[i] := by
  have hcode : (d.biasMoved j k).hkp.code = d.hkp.code :=
    biasMoved_keeps (fun d => d.hkp.code) (fun _ _ => rfl) (fun _ _ => by rw [setFld_hkp]) fun _ _ => by rw [setFld_hkp]
  rw [biasSub_moved]
  simp only [modHkp, Fin.getElem_fin, Vector.getElem_set, hcode, Fin.ext_iff, eq_comm]

/-! ### SAFE_CLR (R439) -/

theorem safeClear_held (h : d.safeCause = true) : d.safeClear = d := by rw [safeClear, if_pos h]

/-- Every bias DAC leaves the safe state. -/
def safeLeft (d : Dev) : Dev := d.each (List.range 24) fun k d => d.setOn (F.HKP_BSTAT_SAFE k) false

theorem safeClear_free (h : d.safeCause = false) : d.safeClear = d.safeLeft := by
  rw [safeClear, h, if_neg Bool.false_ne_true]
  rfl

theorem safeLeft_safe (k : Fin 24) : d.safeLeft.on (F.HKP_BSTAT_SAFE k) = false := by
  refine each_establishes (P := fun d => d.on (F.HKP_BSTAT_SAFE k) = false) (List.mem_range.mpr k.isLt)
    (fun d => on_setOn_self _ _ _ (by simp) rfl) fun i d h => ?_
  by_cases hi : i = k
  · subst hi
    exact on_setOn_self _ _ _ (by simp) rfl
  · rw [on_setOn_word _ _ (by simp only [R.HKP_BSTAT]; omega), h]

theorem safeLeft_reg (h : a ∉ (List.range 24).map R.HKP_BSTAT) : d.safeLeft.reg a = d.reg a :=
  each_keeps_mem (fun d => d.reg a) (fun _ hi _ => reg_setOn_ne _ _ _ fun ha => h (ha ▸ List.mem_map_of_mem hi)) d

/-- Leaving the safe state keeps what a field write keeps. -/
theorem safeLeft_keeps {β : Type} (p : Dev → β) (h : ∀ f d, p (d.setOn f false) = p d) : p d.safeLeft = p d :=
  each_keeps _ _ p (fun _ _ => h _ _) d

end Sys2Proof.Machine.Dev

namespace Sys2Proof.Claims

open Sys2Proof.Machine Sys2Proof.Machine.Dev

variable {s : State} {m : Master} {v : Word} {a mask trig : Nat}

theorem subintervalStarts (hs : s.dev.settled = true) : SubintervalStarts s := by
  have he : exec .subintervalStart s = .next (commit s s.dev.subinterval) := rfl
  refine ⟨fun hsub htick hdom => ⟨_, he, ?_⟩, fun h => yields_same hs ?_⟩
  · have hruns : ¬ (16 ≤ s.dev.hkp.sub ∨ (!s.dev.on F.CLK_STAT_TICK_RUN) = true ∨ (!s.dev.domOn .mgt) = true) := by
      simp [htick, hdom, hsub]
    rw [subinterval]
    dsimp only
    rw [if_neg hruns]
  · rw [he, subinterval]
    dsimp only
    rw [if_pos (by simpa using h)]

theorem biasTaken (d : Dev) (j : Nat) (k : Fin 24) : BiasTaken d j k := by
  have hmem : (d.biasMoved j k).mem = d.mem := biasMoved_keeps Dev.mem (fun _ _ => modHkp_mem ..) (setFld_mem _) (setFld_mem _)
  have hraised : (d.biasMoved j k).raised = d.raised := biasMoved_keeps Dev.raised (fun _ _ => modHkp_raised ..) (setFld_raised _)
    (setFld_raised _)
  have hgoal (i : Fin 24) : (d.biasSub j k).hkp.goal[i] = _ := biasMoved_goal i
  refine ⟨?goal, biasMoved_idle, ?output, ?others, fun _ ha => biasMoved_reg ha, hmem, hraised⟩
  case goal => rw [hgoal]; simp only [true_and]
  case output =>
    intro hplain _ _
    rw [biasSub_code, if_pos rfl, dithered_biasMoved hplain]
    rfl
  case others =>
    intro i hi
    rw [hgoal, biasSub_code, if_neg fun h => hi h.1, if_neg hi]
    exact ⟨rfl, rfl⟩

theorem biasStepped (d : Dev) (k : Fin 24) : BiasStepped d k := by
  unfold BiasStepped
  extract_lets out goal e
  intro hg
  have hout : e.fld (F.HKP_BSTAT_OUT k) =
      if out ≤ goal then min goal (out + max 1 (d.fld (F.HKP_BCFG_STEP k))) else max goal (out - max 1 (d.fld (F.HKP_BCFG_STEP k))) :=
    biasStep_out hg
  refine ⟨fun hup => ?_, fun hdown => ?_, biasStep_busy, biasStep_keeps hkp (setFld_hkp _) (setFld_hkp _),
    biasStep_keeps Dev.mem (setFld_mem _) (setFld_mem _)⟩
  · rw [hout, if_pos hup]
    omega
  · rw [hout, if_neg (by omega)]
    omega

/-! ### HKP.BCTRL (R439, R519) -/

/-- A word write of a register of the block HKP. -/
theorem busWrite_hkp (ha : RegWord a) (hblk : blockOf a = 22) (hrow : rowBits a mask trig = true)
    (hb : BitVec.ofNat 32 (mask ||| trig) ≠ 0) (hr : Reaches s m a) :
    s.dev.busWrite m a .word v =
      onBus a (fun d => d.writeHkp a (wordWritten d a mask v) (v &&& BitVec.ofNat 32 trig)) s.dev := by
  have hbl : a / 0x10000 = 0x1016 := by
    obtain ⟨hlo, hhi, -⟩ := ha
    simp only [blockOf] at hblk
    omega
  exact busWrite_stored (f := fun new t d => d.writeHkp a new t) ha hrow hb
    (fun d => heldWord_reg (by unfold ribbonPlace; exact if_neg (by omega)) (by omega) (by omega))
    (fun r d hb => store_hkp d hblk hb) hr

theorem bctrl_bits : rowBits R.HKP_BCTRL 0 1 = true := by decide +kernel

theorem exec_safeClr (hr : Reaches s m R.HKP_BCTRL) :
    exec (.safeClr m v) s = .next (commit s (onBus R.HKP_BCTRL (fun d => if v.getLsbD 0 then d.safeClear else d) s.dev)) := by
  have he : exec (.safeClr m v) s = .next (commit s (s.dev.busWrite m R.HKP_BCTRL .word v)) := rfl
  rw [he, busWrite_hkp (by decide) (by decide) bctrl_bits (by decide) hr]
  simp only [writeHkp, if_true, getLsbD_trigger v (show (BitVec.ofNat 32 1).getLsbD 0 = true by decide)]

theorem safeHeld (hs : s.dev.settled = true) (m : Master) (v : Word) : SafeHeld s m v := by
  intro hr hv hcause
  have hkept : (s.dev.touch (domainOf R.HKP_BCTRL)).safeClear = _ := safeClear_held hcause
  exact yields_onBus hs (by rw [exec_safeClr hr, onBus, if_pos hv, hkept]; rfl)

theorem safeUnasked (hs : s.dev.settled = true) (m : Master) (v : Word) : SafeUnasked s m v := by
  intro hr hv
  exact yields_onBus hs (by rw [exec_safeClr hr, onBus, hv, if_neg Bool.false_ne_true]; rfl)

theorem safeCleared (hs : s.dev.settled = true) (m : Master) (v : Word) : SafeCleared s m v := by
  intro hr hv hcause
  have hleft : (s.dev.touch (domainOf R.HKP_BCTRL)).safeClear = _ := safeClear_free hcause
  have he := exec_safeClr (v := v) hr
  rw [onBus, if_pos hv, hleft] at he
  refine ⟨_, he, fun k => ?safe, frame_quiet hs rfl (fun a ha => ?_) ?_ ?_ ?_ ?_⟩
  case safe => rw [commit, on_finish (by simp only [R.HKP_BSTAT, R.MGT_STAT]; omega), returned_on, safeLeft_safe]
  · rw [returned_reg, safeLeft_reg ha, touch_reg]
  · rw [returned_rest, safeLeft_keeps Dev.rest fun _ _ => rfl, onBus, returned_rest, id]
  · rw [returned_raised, safeLeft_keeps Dev.raised fun _ _ => rfl, touch_raised]
  · rw [returned_popped, safeLeft_keeps Dev.popped fun _ _ => rfl, touch_popped]
  · rw [returned_emptied, safeLeft_keeps Dev.emptied fun _ _ => rfl, touch_emptied]

/-- Settles O38: a sub-interval by its goal, its step and its output; a limiter step by where it moves OUT; `SAFE_CLR` by whether a
cause of the safe state holds. -/
theorem biasFollows : Obligations.BiasFollows := fun _ hs =>
  ⟨subintervalStarts hs, biasTaken, biasStepped, fun m v => ⟨safeHeld hs m v, safeUnasked hs m v, safeCleared hs m v⟩⟩

end Sys2Proof.Claims
end

section
/-! SUPPORT. The monitor ADC (R445 to R455): a conversion that closes or fails, the limits of a channel, urgent requests, the sequencer. -/

namespace Sys2Proof.Machine

/-- A field set twice holds what it was set to last. -/
theorem putBits_putBits (v : Word) (f : Fld) (x y : Nat) (h : f.lo + f.w ≤ 32) : putBits (putBits v f x) f y = putBits v f y := by
  apply BitVec.eq_of_toNat_eq
  apply Nat.eq_of_testBit_eq
  intro i
  simp only [testBit_putBits _ f _ i h]
  split
  · rfl
  · split <;> rfl

namespace Dev

variable {d : Dev} {c : Conv} {mean : Int} {sat was : Bool} {ch a : Nat}

theorem reg_setFld_setFld (f : Fld) (x y a : Nat) (d : Dev) (h : f.lo + f.w ≤ 32) :
    ((d.setFld f x).setFld f y).reg a = (d.setFld f y).reg a := by
  by_cases ha : a = f.addr
  · subst ha
    simp only [setFld, reg_setReg_self, putBits_putBits _ _ _ _ h]
  · simp only [reg_setFld_ne _ _ _ ha]

/-! ### Conversions (R445, R453, R454) -/

theorem conversionResult_idle (h : d.hkp.closing = none) : d.conversionResult mean sat = d := by rw [conversionResult, h]

theorem noResult_idle (h : d.hkp.closing = none) : d.noResult = d := by rw [noResult, h]

theorem noResult_closing (h : d.hkp.closing = some c) : d.noResult =
    ((((((d.modHkp fun h => { h with closing := none }).setOn (F.HKP_RES_VALID c.ch) false).bump R.HKP_CFAULT).raise Blk.hkp
      0xA3 0).converterFault).urgentOver c) := by rw [noResult, h]

theorem fullScale_cast (c : Conv) : (fullScale c : Int) = if c.range = 0 then 2 ^ 43 else 2 ^ 40 := by
  rw [fullScale]
  split <;> rfl

/-- Whether a channel's result lies outside its limits (R454). -/
def limitOut (d : Dev) (ch : Nat) : Bool :=
  decide (d.fld (F.HKP_LIM_HI ch) < d.fld (F.HKP_RES_VALUE ch) / 16) || decide (d.fld (F.HKP_RES_VALUE ch) / 16 < d.fld (F.HKP_LIM_LO ch))

/-- The channel's bit already says whether its result lies outside the limits. -/
theorem limitCheck_same (h : d.limitOut ch = d.on ⟨R.HKP_LIMSTAT, ch, 1⟩) : d.limitCheck ch = d := if_pos (beq_iff_eq.mpr h)

theorem limitCheck_changed (h : d.limitOut ch ≠ d.on ⟨R.HKP_LIMSTAT, ch, 1⟩) : d.limitCheck ch =
    (d.setOn ⟨R.HKP_LIMSTAT, ch, 1⟩ (d.limitOut ch)).raise Blk.hkp (if d.limitOut ch then 0xA0 else 0xA1) 0 :=
  if_neg (mt beq_iff_eq.mp h)

theorem limitCheck_on (hch : ch < 32) : (d.limitCheck ch).on ⟨R.HKP_LIMSTAT, ch, 1⟩ = d.limitOut ch := by
  by_cases h : d.limitOut ch = d.on ⟨R.HKP_LIMSTAT, ch, 1⟩
  · rw [limitCheck_same h, h]
  · rw [limitCheck_changed h, raise_on, on_setOn_self ⟨R.HKP_LIMSTAT, ch, 1⟩ _ _ hch rfl]

theorem limitCheck_raised : (d.limitCheck ch).raised = d.raised ++
    (if d.limitOut ch == d.on ⟨R.HKP_LIMSTAT, ch, 1⟩ then [] else [⟨Blk.hkp, if d.limitOut ch then 0xA0 else 0xA1, 0⟩]) := by
  by_cases h : d.limitOut ch = d.on ⟨R.HKP_LIMSTAT, ch, 1⟩
  · rw [limitCheck_same h, if_pos (beq_iff_eq.mpr h), List.append_nil]
  · rw [limitCheck_changed h, if_neg (mt beq_iff_eq.mp h), raise_raised, setOn_raised]

theorem limitCheck_reg (ha : a ≠ R.HKP_LIMSTAT) : (d.limitCheck ch).reg a = d.reg a := by
  by_cases h : d.limitOut ch = d.on ⟨R.HKP_LIMSTAT, ch, 1⟩
  · rw [limitCheck_same h]
  · rw [limitCheck_changed h, raise_reg, reg_setOn_ne _ _ _ ha]

/-! ### Urgent requests (R448) -/

theorem ureqGo_pending (h : d.on F.HKP_SEQ_STAT_UPEND = true) : d.ureqGo = d := by rw [ureqGo, if_pos h]

/-- The firmware's request is taken. -/
def requested (d : Dev) : Dev :=
  (d.modHkp fun h => { h with reqFw := some ⟨3, d.fld F.HKP_UREQ_CH, d.fld F.HKP_UREQ_RANGE, d.fld F.HKP_UREQ_NQ + 1⟩ }).setOn
    F.HKP_SEQ_STAT_UPEND true

theorem ureqGo_taken (h : d.on F.HKP_SEQ_STAT_UPEND = false) : d.ureqGo = d.requested := by
  rw [ureqGo, h, if_neg Bool.false_ne_true, requested]

/-! ### The sequencer (R446, R447) -/

/-- What follows a write of `HKP.SEQ_CFG`, before which EN was `was`, restarts the list: EN rises, or LAST lies below ENTRY. -/
def seqRestarts (was : Bool) (d : Dev) : Prop :=
  (was = false ∧ d.on F.HKP_SEQ_CFG_EN = true) ∨ d.fld F.HKP_SEQ_CFG_LAST < d.fld F.HKP_SEQ_STAT_ENTRY

/-- What follows a write of `HKP.SEQ_CFG` changes ENTRY only. -/
theorem seqFollowed_keeps {β : Type} (p : Dev → β) (h : ∀ x d, p (setFld F.HKP_SEQ_STAT_ENTRY x d) = p d) :
    p (d.entryInList.seqEnabled was) = p d := by
  have hlist : p d.entryInList = p d := by
    rw [entryInList]
    split
    · rfl
    · exact h _ _
  rw [seqEnabled]
  split
  · exact (h _ _).trans hlist
  · exact hlist

theorem seqFollowed_restarts (h : d.seqRestarts was) (a : Nat) :
    (d.entryInList.seqEnabled was).reg a = (d.setFld F.HKP_SEQ_STAT_ENTRY 0).reg a := by
  have hen : (d.setFld F.HKP_SEQ_STAT_ENTRY 0).on F.HKP_SEQ_CFG_EN = d.on F.HKP_SEQ_CFG_EN :=
    congrArg (· == 1) (fld_setFld_word _ _ (by decide))
  by_cases hlast : d.fld F.HKP_SEQ_STAT_ENTRY ≤ d.fld F.HKP_SEQ_CFG_LAST
  · obtain ⟨hwas, hon⟩ := h.resolve_right (Nat.not_lt.mpr hlast)
    rw [entryInList, if_pos hlast, seqEnabled, if_pos (by simp [hwas, hon])]
  · rw [entryInList, if_neg hlast, seqEnabled, hen]
    split
    · exact reg_setFld_setFld _ _ _ _ _ (by decide)
    · rfl

theorem seqFollowed_kept (h : ¬ d.seqRestarts was) : d.entryInList.seqEnabled was = d := by
  obtain ⟨hrise, hlast⟩ := not_or.mp h
  rw [entryInList, if_pos (Nat.not_lt.mp hlast), seqEnabled]
  exact if_neg (by simpa using hrise)

end Dev

end Sys2Proof.Machine

namespace Sys2Proof.Claims

open Sys2Proof.Machine Sys2Proof.Machine.Dev

variable {s : State} {m : Master} {v : Word}

theorem conversionClosed (s : State) (c : Conv) (mean : Int) (sat : Bool) : ConversionClosed s c mean sat := by
  intro h
  have he : exec (.conversionClose mean sat) s = .next (commit s (s.dev.conversionResult mean sat)) := rfl
  refine ⟨_, he, ?_⟩
  rw [conversionResult, h]
  dsimp only
  rw [fullScale_cast]

theorem noConversion (hs : s.dev.settled = true) (mean : Int) (sat : Bool) : NoConversion s mean sat := by
  intro h
  have hclose : exec (.conversionClose mean sat) s = .next (commit s (s.dev.conversionResult mean sat)) := rfl
  have hfault : exec .conversionFault s = .next (commit s s.dev.noResult) := rfl
  exact ⟨yields_same hs (by rw [hclose, conversionResult_idle h]), yields_same hs (by rw [hfault, noResult_idle h])⟩

theorem conversionFaulted (s : State) (c : Conv) : ConversionFaulted s c := by
  intro h
  have he : exec .conversionFault s = .next (commit s s.dev.noResult) := rfl
  exact ⟨_, he, by rw [noResult_closing h]⟩

theorem limitChecked (d : Dev) (ch : Fin 32) : LimitChecked d ch :=
  ⟨limitCheck_on ch.isLt, limitCheck_raised, fun _ ha => limitCheck_reg ha⟩

/-! ### HKP.UREQ (R448) -/

theorem ureq_bits : rowBits R.HKP_UREQ 0x73F 0x80000000 = true := by decide +kernel

/-- A write's bits are stored in `HKP.UREQ`. -/
def ureqStored (v : Word) (d : Dev) : Dev := d.setReg R.HKP_UREQ (wordWritten d R.HKP_UREQ 0x73F v)

theorem exec_ureqGo (hr : Reaches s m R.HKP_UREQ) (hv : v.getLsbD 31 = true) :
    exec (.ureqGo m v) s = .next (commit s (onBus R.HKP_UREQ (fun d => (ureqStored v d).ureqGo) s.dev)) := by
  have he : exec (.ureqGo m v) s = .next (commit s (s.dev.busWrite m R.HKP_UREQ .word v)) := rfl
  have hgo : (v &&& BitVec.ofNat 32 0x80000000).getLsbD 31 = true := (getLsbD_trigger v (by decide)).trans hv
  rw [he, busWrite_hkp (by decide) (by decide) ureq_bits (by decide) hr]
  have hne : R.HKP_UREQ ≠ R.HKP_BCTRL ∧ R.HKP_UREQ ≠ R.HKP_SEQ_CFG := by decide
  simp only [writeHkp, if_neg hne.1, if_neg hne.2, hgo, and_self, if_true]
  rfl

theorem urgentAsked (hs : s.dev.settled = true) (m : Master) (v : Word) : UrgentAsked s m v := by
  intro hr hv
  have hpend : (ureqStored v (s.dev.touch (domainOf R.HKP_UREQ))).on F.HKP_SEQ_STAT_UPEND = s.dev.on F.HKP_SEQ_STAT_UPEND :=
    congrArg (· == 1) (fld_setReg_ne _ _ (by decide))
  have hstored (a : Nat) (ha : a ≠ R.HKP_UREQ) : (ureqStored v (s.dev.touch (domainOf R.HKP_UREQ))).reg a = s.dev.reg a :=
    reg_setReg_ne _ _ ha
  have he := exec_ureqGo hr hv
  rw [onBus] at he
  refine ⟨fun h => ?pending, fun h => ?taken⟩
  case pending =>
    rw [ureqGo_pending (hpend.trans h)] at he
    exact yields_quiet he hs (fun a ha => hstored a (List.ne_of_not_mem_cons ha)) (fun _ => rfl) rfl rfl rfl rfl
  case taken =>
    rw [ureqGo_taken (hpend.trans h)] at he
    refine yields_quiet he hs (fun a ha => ?_) (fun _ => rfl) rfl rfl rfl rfl
    simp only [List.mem_cons, List.not_mem_nil, or_false, not_or] at ha
    obtain ⟨hreq, hstat⟩ := ha
    rw [returned_reg, requested, reg_setOn_ne _ _ _ hstat, modHkp_reg, hstored a hreq]

/-! ### HKP.SEQ_CFG (R446, R447) -/

theorem seqCfg_bits : rowBits R.HKP_SEQ_CFG 0x8000001F 0 = true := by decide +kernel

/-- A write's bits are stored in `HKP.SEQ_CFG`. -/
def seqStored (v : Word) (d : Dev) : Dev := d.setReg R.HKP_SEQ_CFG (wordWritten d R.HKP_SEQ_CFG 0x8000001F v)

theorem exec_sequencerEnable (hr : Reaches s m R.HKP_SEQ_CFG) : exec (.sequencerEnable m v) s =
    .next (commit s (onBus R.HKP_SEQ_CFG (fun d => (seqStored v d).entryInList.seqEnabled (d.on F.HKP_SEQ_CFG_EN)) s.dev)) := by
  have he : exec (.sequencerEnable m v) s = .next (commit s (s.dev.busWrite m R.HKP_SEQ_CFG .word v)) := rfl
  rw [he, busWrite_hkp (by decide) (by decide) seqCfg_bits (by decide) hr]
  have hne : R.HKP_SEQ_CFG ≠ R.HKP_BCTRL := by decide
  simp only [writeHkp, if_neg hne, if_true]
  rfl

/-- EN and LAST read as written, and ENTRY as before. -/
theorem seqStored_restarts (was : Bool) (v : Word) (d : Dev) : (seqStored v d).seqRestarts was ↔
    (v.getLsbD 31 = true ∧ was = false) ∨ v.toNat % 2 ^ 5 < d.fld F.HKP_SEQ_STAT_ENTRY := by
  have hen : ∀ k < 1, (BitVec.ofNat 32 0x8000001F).getLsbD (31 + k) = true := by decide
  have hlast : ∀ k < 5, (BitVec.ofNat 32 0x8000001F).getLsbD (0 + k) = true := by decide
  have hentry : (seqStored v d).fld F.HKP_SEQ_STAT_ENTRY = d.fld F.HKP_SEQ_STAT_ENTRY := fld_setReg_ne _ _ (by decide)
  have hlasts : (seqStored v d).fld F.HKP_SEQ_CFG_LAST = v.toNat % 2 ^ 5 := by
    rw [seqStored, fld, reg_setReg_self, getBits_wordWritten hlast, getBits, pow_zero, Nat.div_one]
  have hens : (seqStored v d).on F.HKP_SEQ_CFG_EN = v.getLsbD 31 := by
    rw [seqStored, on, fld, reg_setReg_self, getBits_wordWritten hen, getBits_bit v rfl]
    cases v.getLsbD 31 <;> rfl
  rw [seqRestarts, hentry, hlasts, hens, and_comm]

theorem sequencerEnabled (hs : s.dev.settled = true) (m : Master) (v : Word) : SequencerEnabled s m v := by
  intro hr
  have he := exec_sequencerEnable (v := v) hr
  rw [onBus] at he
  have hrestarts := seqStored_restarts (s.dev.on F.HKP_SEQ_CFG_EN) v (s.dev.touch (domainOf R.HKP_SEQ_CFG))
  refine ⟨fun h => ?restarts, fun hen hlast => ?kept⟩
  case restarts =>
    refine yields_quiet he hs (fun a ha => ?_) (seqFollowed_restarts (hrestarts.mpr h)) ?_ ?_ ?_ ?_
    · simp only [List.mem_cons, List.not_mem_nil, or_false, not_or] at ha
      obtain ⟨hcfg, hstat⟩ := ha
      rw [returned_reg, seqFollowed_keeps (fun d => d.reg a) fun _ _ => reg_setFld_ne _ _ _ hstat, seqStored, reg_setReg_ne _ _ hcfg,
        touch_reg]
    · rw [returned_rest, seqFollowed_keeps Dev.rest (setFld_rest _)]
      rfl
    · rw [returned_raised, seqFollowed_keeps Dev.raised (setFld_raised _)]
      rfl
    · rw [returned_popped, seqFollowed_keeps Dev.popped (setFld_popped _)]
      rfl
    · rw [returned_emptied, seqFollowed_keeps Dev.emptied (setFld_emptied _)]
      rfl
  case kept =>
    have hkept : ¬ (seqStored v (s.dev.touch (domainOf R.HKP_SEQ_CFG))).seqRestarts (s.dev.on F.HKP_SEQ_CFG_EN) := by
      rw [hrestarts, not_or, not_and_or]
      exact ⟨by simpa using hen, hlast⟩
    rw [touch_on, seqFollowed_kept hkept] at he
    exact yields_quiet he hs (fun a ha => reg_setReg_ne _ _ (List.ne_of_not_mem_cons ha)) (fun _ => rfl) rfl rfl rfl rfl

/-- Settles O39: a conversion by the channel that closes; the limits by whether the channel's bit changes; an urgent request by whether
one waits; a write of `HKP.SEQ_CFG` by whether it restarts the list. -/
theorem monitorConverts : Obligations.MonitorConverts := fun s hs =>
  ⟨conversionClosed s, noConversion hs, conversionFaulted s, limitChecked, fun m v => ⟨urgentAsked hs m v, sequencerEnabled hs m v⟩⟩

end Sys2Proof.Claims
end

section
/-! SUPPORT. The idle cycle (R477, R581, R582, R655): the edge of the RTC by what it meets, the alarm, and the watchdog's count. -/

namespace Sys2Proof.Machine.Dev

variable {d : Dev}

/-- Whether the alarm is set to the second x. -/
def alarmAt (d : Dev) (x : BitVec 48) : Bool := d.on F.PWR_RTC_CTRL_ALM_EN && x == d.rtcAlm

/-- As a second begins, the alarm that is set to it falls due. -/
theorem alarmCheck_second (h : d.pwr.rtcSub = 0) :
    d.alarmCheck = d.modPwr fun p => { p with alarmDue := p.alarmDue || d.alarmAt d.pwr.rtc } := by
  unfold alarmCheck alarmAt
  rw [h, beq_self_eq_true, Bool.and_true]
  split
  case isTrue hd => rw [hd]; simp only [Bool.or_true]
  case isFalse hd => rw [Bool.eq_false_iff.mpr hd]; simp only [Bool.or_false]; rfl

theorem alarmAt_modPwr (f : PwrSt → PwrSt) (x : BitVec 48) : (d.modPwr f).alarmAt x = d.alarmAt x := rfl

/-- The second x of the RTC begins. -/
def secondAt (x : BitVec 48) (d : Dev) : Dev :=
  d.modPwr fun p => { p with rtc := x, rtcSub := 0, alarmDue := p.alarmDue || d.alarmAt x }

theorem alarmCheck_loaded (x : BitVec 48) :
    (d.modPwr fun p => { p with rtc := x, rtcSub := 0, loadDue := false }).alarmCheck =
      (d.modPwr fun p => { p with loadDue := false }).secondAt x := by
  rw [alarmCheck_second rfl, alarmAt_modPwr, secondAt, alarmAt_modPwr]
  rfl

theorem rtcEdge_counts (hl : d.pwr.loadDue = false) (hs : d.pwr.rtcSub ≠ 0x7FFF) :
    d.rtcEdge = d.modPwr fun p => { p with rtcSub := p.rtcSub + 1 } := by
  rw [rtcEdge, hl, if_neg Bool.false_ne_true, if_neg hs]

theorem rtcEdge_turns (hl : d.pwr.loadDue = false) (hs : d.pwr.rtcSub = 0x7FFF) :
    d.rtcEdge = (d.secondAt (d.pwr.rtc + 1)).budgetSecond := by
  rw [rtcEdge, hl, if_neg Bool.false_ne_true, if_pos hs, alarmCheck_second rfl, alarmAt_modPwr]
  simp only [secondAt, modPwr]

theorem rtcEdge_loads (hl : d.pwr.loadDue = true) :
    d.rtcEdge = (d.modPwr fun p => { p with loadDue := false }).secondAt d.rtcSet := by
  rw [rtcEdge, if_pos hl, alarmCheck_loaded]

/-- A second of the budget window is one word's. -/
theorem budgetSecond_onlyWord : OnlyWord R.NVM_WIN_LEFT
    (if d.reg R.NVM_WIN_LEFT = 0 then 0 else d.reg R.NVM_WIN_LEFT - 1) d d.budgetSecond := by
  unfold budgetSecond
  split
  case isTrue h => exact onlyWord_same h
  case isFalse => exact onlyWord_setReg _ _ _

theorem wdtEdge_reg (a : Nat) : d.wdtEdge.reg a = d.reg a := by unfold wdtEdge; split <;> rfl

theorem wdtEdge_books : d.wdtEdge.eventBooks = d.eventBooks := by unfold wdtEdge; split <;> rfl

/-- The watchdog's count looks at the domain's bit alone. -/
theorem wdtEdge_rest {e : Dev} (h : e.rest = d.rest) (hdom : e.reg R.PWR_DOM = d.reg R.PWR_DOM) :
    e.wdtEdge.rest = d.wdtEdge.rest := by
  have hon : e.domOn .mgt = d.domOn .mgt := congrArg (fun w => getBits w F.PWR_DOM_MGT == 1) hdom
  unfold wdtEdge
  rw [hon]
  split
  · simp only [modPwr_rest, h]
  · exact h

end Sys2Proof.Machine.Dev

namespace Sys2Proof.Claims

open Sys2Proof.Machine Sys2Proof.Machine.Dev

variable {s : State}

theorem step_idle (h : s.pending = []) : step s = .next (commit s (idleDev s.dev)) := by
  rw [step, h]
  rfl

/-- The frame of a command that raises no event, by the device's event books. -/
theorem frame_books {as : List Nat} {d d' : Dev} (hs : s.dev.settled = true) (hk : ∀ a, a ∉ as → d.reg a = s.dev.reg a)
    (hr : d.rest = d'.rest) (hb : d.eventBooks = s.dev.eventBooks) : Frame as d' [] s (commit s d) := by
  simp only [eventBooks, Prod.mk.injEq] at hb
  obtain ⟨hraised, hpopped, hemptied⟩ := hb
  exact frame_quiet hs rfl hk hr hraised hpopped hemptied

/-- An idle cycle whose edge of the RTC changes no register. -/
theorem frame_idle (hs : s.dev.settled = true) (hoff : s.dev.dstate ≠ stOFF) {f : PwrSt → PwrSt}
    (h : s.dev.rtcEdge = s.dev.modPwr f) : Frame [] (s.dev.modPwr f).wdtEdge [] s (commit s (idleDev s.dev)) := by
  rw [idleDev, if_neg hoff, h]
  exact frame_books hs (fun a _ => wdtEdge_reg a) rfl wdtEdge_books

/-- Settles O2: in OFF nothing moves; else the cycle is the RTC's edge, by whether it brings a LOAD, turns a second or counts within
one, and the watchdog's. -/
theorem stepOnEmptyQueue : Obligations.StepOnEmptyQueue := by
  intro s hs hp
  have hstep := step_idle hp
  refine ⟨fun hoff => ?off, fun hoff hl hsub => ⟨_, hstep, frame_idle hs hoff (rtcEdge_counts hl hsub)⟩, fun hoff hl hsub => ?turn,
    fun hoff hl => ⟨_, hstep, frame_idle hs hoff (rtcEdge_loads hl)⟩⟩
  case off =>
    rw [idleDev, if_pos hoff] at hstep
    exact ⟨_, hstep, frame_quiet hs rfl (fun _ _ => rfl) rfl rfl rfl rfl⟩
  case turn =>
    obtain ⟨hword, hother, hrest, hbooks⟩ := budgetSecond_onlyWord (d := s.dev.secondAt (s.dev.pwr.rtc + 1))
    rw [idleDev, if_neg hoff, rtcEdge_turns hl hsub] at hstep
    have hdom : (s.dev.secondAt (s.dev.pwr.rtc + 1)).budgetSecond.reg R.PWR_DOM = s.dev.reg R.PWR_DOM := hother _ (by decide)
    refine ⟨_, hstep, (finish_reg _ _ _ (by decide)).trans ((wdtEdge_reg _).trans hword),
      frame_books hs (fun a ha => ?_) (wdtEdge_rest hrest hdom) (wdtEdge_books.trans hbooks)⟩
    rw [wdtEdge_reg, hother a (List.ne_of_not_mem_cons ha)]
    rfl

end Sys2Proof.Claims
end

section
/-! SUPPORT. The SRAM code (R469, R470), whatever arrangement of columns the device has (log 4): an inverted bit adds its column to the
syndrome, the columns are distinct, and the sum of two is no column. -/

namespace Sys2Proof.Machine

/-! ### The columns -/

theorem pickColumns_nodup (n : Nat) : ∀ (l : List Nat) (s : Nat), n ≤ l.length → l.Nodup → (pickColumns n l s).Nodup := by
  induction n with
  | zero => intro l s _ _; exact List.nodup_nil
  | succ n ih =>
    intro l s hn hl
    have hi : s % l.length < l.length := Nat.mod_lt _ (by omega)
    have hlen : n ≤ (l.eraseIdx (s % l.length)).length := by rw [List.length_eraseIdx_of_lt hi]; omega
    refine List.nodup_cons.mpr ⟨fun hmem => ?_, ih _ _ hlen (hl.eraseIdx _)⟩
    obtain ⟨j, hj, hne, heq⟩ := List.mem_eraseIdx_iff_getElem.mp (pickColumns_mem n _ _ hlen _ hmem)
    rw [List.getD_eq_getElem _ _ hi] at heq
    exact hne (hl.getElem_inj_iff.mp heq)

/-- The columns that a stored bit may have: those of weight 3 and of weight 1. -/
def oddColumns : List Nat := weightThree ++ (List.range 7).map fun k => 2 ^ k

theorem oddColumns_ne_zero : ∀ x ∈ oddColumns, x ≠ 0 := by decide +kernel

theorem oddColumns_sum : ∀ x ∈ oddColumns, ∀ y ∈ oddColumns, x ^^^ y ∉ oddColumns ∧ x ^^^ y ≠ 0x7F := by decide +kernel

theorem storedColumns_length : storedColumns.length = 39 := by simp [storedColumns, secdedColumns_length]

theorem storedColumns_nodup : storedColumns.Nodup := by
  have hdata : secdedColumns.Nodup := pickColumns_nodup 32 _ _ (by rw [weightThree_length]; omega) (by decide +kernel)
  have hapart : ∀ x ∈ weightThree, ∀ y ∈ (List.range 7).map fun k => 2 ^ k, x ≠ y := by decide +kernel
  exact List.nodup_append.mpr ⟨hdata, by decide +kernel, fun x hx => hapart x (secdedColumns_mem hx)⟩

theorem storedColumns_odd {b : Nat} (hb : b < 39) : storedColumns.getD b 0 ∈ oddColumns := by
  rw [List.getD_eq_getElem _ _ (by rwa [storedColumns_length])]
  have hmem := List.getElem_mem (l := storedColumns) (n := b) (by rwa [storedColumns_length])
  rcases List.mem_append.mp hmem with h | h
  · exact List.mem_append_left _ (secdedColumns_mem h)
  · exact List.mem_append_right _ h

theorem storedColumns_inj {b c : Nat} (hb : b < 39) (hc : c < 39) (h : storedColumns.getD b 0 = storedColumns.getD c 0) : b = c := by
  rw [List.getD_eq_getElem _ _ (by rwa [storedColumns_length]), List.getD_eq_getElem _ _ (by rwa [storedColumns_length])] at h
  exact storedColumns_nodup.getElem_inj_iff.mp h

/-! ### Syndromes -/

theorem foldl_xor_start (cols : Nat → Nat) (l : List Nat) (c y : Nat) :
    l.foldl (fun c b => c ^^^ cols b) (c ^^^ y) = l.foldl (fun c b => c ^^^ cols b) c ^^^ y := by
  induction l generalizing c with
  | nil => rfl
  | cons x l ih =>
    rw [List.foldl_cons, List.foldl_cons, ← ih, Nat.xor_assoc, Nat.xor_assoc, Nat.xor_comm y]

/-- A sum of columns chosen by f, and by g, which differs from f at b alone. -/
theorem foldl_xor_flip (cols : Nat → Nat) {f g : Nat → Bool} {b : Nat} (hb : g b = !f b) (hne : ∀ x, x ≠ b → g x = f x)
    (l : List Nat) (hl : l.Nodup) (hm : b ∈ l) (c : Nat) :
    (l.filter g).foldl (fun c b => c ^^^ cols b) c = (l.filter f).foldl (fun c b => c ^^^ cols b) c ^^^ cols b := by
  induction l generalizing c with
  | nil => exact absurd hm List.not_mem_nil
  | cons x l ih =>
    obtain ⟨hx, hl⟩ := List.nodup_cons.mp hl
    by_cases hxb : x = b
    case pos =>
      subst hxb
      have hrest : l.filter g = l.filter f := List.filter_congr fun y hy => hne y fun h => hx (h ▸ hy)
      cases hf : f x with
      | true =>
        simp only [List.filter_cons, hb, hf, hrest, Bool.not_true, Bool.false_eq_true, if_false, if_true, List.foldl_cons,
          foldl_xor_start, Nat.xor_assoc, Nat.xor_self, Nat.xor_zero]
      | false => simp only [List.filter_cons, hb, hf, hrest, Bool.not_false, Bool.false_eq_true, if_false, if_true,
          List.foldl_cons, foldl_xor_start]
    case neg =>
      have hm := (List.mem_cons.mp hm).resolve_left (Ne.symm hxb)
      simp only [List.filter_cons, hne x hxb]
      split
      · exact ih hl hm _
      · exact ih hl hm _

theorem getLsbD_invertBit (w : Word) {b : Nat} (hb : b < 32) (k : Nat) :
    (invertBit w b).getLsbD k = (w.getLsbD k ^^ decide (k = b)) := by
  rw [invertBit, if_pos hb, BitVec.getLsbD_xor, BitVec.getLsbD_ofNat, Nat.testBit_two_pow]
  by_cases hk : b = k
  · subst hk; simp [hb]
  · simp [hk, Ne.symm hk]

theorem checkBits_invertBit (w : Word) {b : Nat} (hb : b < 32) : checkBits (invertBit w b) = checkBits w ^^^ secdedColumns.getD b 0 :=
  foldl_xor_flip (secdedColumns.getD · 0) (by rw [getLsbD_invertBit w hb]; simp)
    (fun x hx => by rw [getLsbD_invertBit w hb]; simp [hx]) _ List.nodup_range (List.mem_range.mpr hb) 0

/-- The syndrome of a stored word (R469). -/
def syndromeOf (x : Word × Nat) : Nat := checkBits x.1 ^^^ x.2

theorem syndromeOf_stored (w : Word) : syndromeOf (w, checkBits w) = 0 := Nat.xor_self _

open Claims (invertStored)

theorem syndromeOf_invertStored (x : Word × Nat) {b : Nat} (hb : b < 39) :
    syndromeOf (invertStored x b) = syndromeOf x ^^^ storedColumns.getD b 0 := by
  unfold invertStored syndromeOf
  split
  case isTrue h =>
    have hcol : storedColumns.getD b 0 = secdedColumns.getD b 0 := List.getD_append _ _ _ _ (by rw [secdedColumns_length]; exact h)
    rw [checkBits_invertBit _ h, hcol, Nat.xor_right_comm]
  case isFalse h =>
    have hcol := storedColumns_check (k := b - 32) (by omega)
    rw [show 32 + (b - 32) = b by omega] at hcol
    rw [hcol, Nat.xor_assoc]

/-! ### Classes -/

theorem classifyWord_clean {w : Word} {c : Nat} (h : syndromeOf (w, c) = 0) : classifyWord w c = .clean := if_pos h

theorem classifyWord_column {w : Word} {c b : Nat} (hb : b < 39) (h : syndromeOf (w, c) = storedColumns.getD b 0) :
    classifyWord w c = .correctable b := by
  have hne : storedColumns.getD b 0 ≠ 0 := oddColumns_ne_zero _ (storedColumns_odd hb)
  have hfind : (List.range 39).find? (fun k => storedColumns.getD k 0 == storedColumns.getD b 0) = some b := by
    refine List.find?_range_eq_some.mpr ⟨beq_self_eq_true _, List.mem_range.mpr hb, fun j hj => ?_⟩
    have hcols : storedColumns.getD j 0 ≠ storedColumns.getD b 0 := fun he => hj.ne (storedColumns_inj (hj.trans hb) hb he)
    simpa using hcols
  unfold syndromeOf at h
  simp only [classifyWord, h, if_neg hne, hfind]

theorem classifyWord_twoColumns {w : Word} {c b b' : Nat} (hb : b < 39) (hb' : b' < 39) (hne : b ≠ b')
    (h : syndromeOf (w, c) = storedColumns.getD b 0 ^^^ storedColumns.getD b' 0) : classifyWord w c = .uncorrectable := by
  obtain ⟨hodd, hpoison⟩ := oddColumns_sum _ (storedColumns_odd hb) _ (storedColumns_odd hb')
  have hzero : storedColumns.getD b 0 ^^^ storedColumns.getD b' 0 ≠ 0 :=
    fun h0 => hne (storedColumns_inj hb hb' (Nat.xor_eq_zero_iff.mp h0))
  have hfind : (List.range 39).find? (fun k => storedColumns.getD k 0 == storedColumns.getD b 0 ^^^ storedColumns.getD b' 0) = none := by
    refine List.find?_eq_none.mpr fun k hk he => hodd ?_
    rw [← eq_of_beq he]
    exact storedColumns_odd (List.mem_range.mp hk)
  unfold syndromeOf at h
  simp only [classifyWord, h, if_neg hzero, hfind, if_neg hpoison]

end Sys2Proof.Machine

namespace Sys2Proof.Claims

open Sys2Proof.Machine

/-- Settles O9: by the syndrome, which is 0 for a stored word, a column for a single error and the sum of two columns for a double one;
no such sum is a column, and the poison pattern's is neither. -/
theorem sramCodeProtects : Obligations.SramCodeProtects := by
  intro w
  refine ⟨classifyWord_clean (syndromeOf_stored w), fun b hb => ?single, fun b c hb hc hne => ?double, ?poison⟩
  case single =>
    refine classifyWord_column hb ?_
    rw [syndromeOf_invertStored _ hb, syndromeOf_stored, Nat.zero_xor]
  case double =>
    refine classifyWord_twoColumns hb hc hne ?_
    rw [syndromeOf_invertStored _ hc, syndromeOf_invertStored _ hb, syndromeOf_stored, Nat.zero_xor]
  case poison => exact classifyWord_poison _ _ (by rw [← Nat.xor_assoc, Nat.xor_self, Nat.zero_xor])

end Sys2Proof.Claims
end

section
/-! SUPPORT. Accesses that are refused (R514, R515, R538), and the read of an event queue (R526, R527). -/

namespace Sys2Proof.Machine.Dev

variable {d : Dev} {m : Master} {a : Nat} {w : Width} {v : Word} {p : Place}

/-- A write that is judged to end otherwise than performed. -/
theorem busWrite_refused {r : Access} {e : Dev} (hm : d.domOn .mgt = true) (hw : debugWay m a = none)
    (hj : d.judge m a w false = (r, e)) (hr : r ≠ .done) : d.busWrite m a w v = e.returned r 0 := by
  simp only [busWrite, busWriteAt, when_busUp_on hm, hw, hm, hj, Bool.not_true, Bool.false_eq_true, if_false]

theorem judge_denied {read : Bool} (hw : a % widthBytes w = 0) (hl : isAlias a = false) (hp : place (a - a % 4) = some p)
    (hg : p.guarded = true) (ht : d.trusted m = false) : d.judge m a w read = (.denied, d.denyAccess m a) := by
  have hfit : ¬ (a % widthBytes w ≠ 0 ∨ (isAlias a ∧ w ≠ .word)) := by simp [hw, hl]
  have htarget : (busTarget a).1 = a - a % 4 := by rw [busTarget, hl, if_neg Bool.false_ne_true]
  simp only [judge, if_neg hfit, htarget, hp, hg, ht, Bool.not_false, Bool.and_true, Bool.true_or, if_true]

theorem judge_bad {read : Bool} (h : a % widthBytes w ≠ 0 ∨ (isAlias a = false ∧ place (a - a % 4) = none)) :
    d.judge m a w read = (.bad, d.badAccess a) := by
  by_cases hfit : a % widthBytes w ≠ 0 ∨ (isAlias a ∧ w ≠ .word)
  case pos => rw [judge, if_pos hfit]
  case neg =>
    obtain ⟨hl, hp⟩ := h.resolve_left fun hw => hfit (.inl hw)
    have htarget : (busTarget a).1 = a - a % 4 := by rw [busTarget, hl, if_neg Bool.false_ne_true]
    simp only [judge, if_neg hfit, htarget, hp]

theorem place_evq (b : Fin 32) (h : blockExists b = true) : place (evqAddr b) = some (.evq b) := by
  revert h; revert b
  decide +kernel

/-- No word whose read latches another stands right before an event queue. -/
theorem isLatched_evq (b : Fin 32) : d.isLatched (evqAddr b) = false := by
  have hbefore : ∀ b : Fin 32, (rowAt (evqAddr b - 4)).all RegRow.single = true := by decide +kernel
  have hlive : liveAddr (evqAddr b - 4) = evqAddr b - 4 := liveAddr_live (by unfold evqAddr; omega)
  have hlo : d.isLo (evqAddr b - 4) = false := isLo_single hlive (hbefore b)
  have hsec : ∀ b : Fin 32, evqAddr b ≠ R.PWR_RTC_SEC_LO ∧ evqAddr b ≠ R.PWR_RTC_SEC_HI := by decide +kernel
  simp [isLatched, hsec b, hlo]

end Sys2Proof.Machine.Dev

namespace Sys2Proof.Claims

open Sys2Proof.Machine Sys2Proof.Machine.Dev

variable {s : State} {m : Master} {a : Nat} {w : Width} {v : Word}

/-- The frame of a refused write: two words record it. -/
theorem writeDenied (hs : s.dev.settled = true) (p : Place) (c : Nat) : WriteDenied s m a w v p c := by
  intro hm hw hp hg ht hc
  obtain ⟨hlo, hhi, -⟩ := place_bounds hp
  have hl : isAlias a = false := by
    simp only [isAlias, decide_eq_false_iff_not]
    omega
  have he : exec (.registerWrite m a w v) s = .next (commit s ((s.dev.denyAccess m a).returned .denied 0)) := by
    have hwrite : s.dev.busWrite m a w v = (s.dev.denyAccess m a).returned .denied 0 :=
      busWrite_refused hm (debugWay_above (by omega)) (judge_denied hw hl hp hg ht) nofun
    exact congrArg (fun d => Host.Outcome.next (commit s d)) hwrite
  have hdeny : s.dev.denyAccess m a = (s.dev.bump c).setReg R.SYS_DENY_ADDR (BitVec.ofNat 32 a) := by simp only [denyAccess, hc]
  have hne : c ≠ R.SYS_DENY_ADDR ∧ c ≠ R.MGT_STAT := by
    cases m <;> simp [denyCounter] at hc <;> subst hc <;> decide
  rw [hdeny] at he
  refine ⟨_, he, ?_, ?_, frame_quiet hs rfl (fun b hb => ?_) rfl rfl rfl rfl⟩
  · rw [commit, finish_reg _ _ _ hne.2, returned_reg, reg_setReg_ne _ _ hne.1, reg_bump, if_pos rfl]
  · rw [commit, finish_reg _ _ _ (by decide), returned_reg, reg_setReg_self]
  · simp only [List.mem_cons, List.not_mem_nil, or_false, not_or] at hb
    rw [returned_reg, reg_setReg_ne _ _ hb.2, reg_bump_ne _ hb.1]

theorem accessBad (hs : s.dev.settled = true) : AccessBad s m a w v := by
  intro hm hw hbad
  have he : exec (.registerWrite m a w v) s = .next (commit s ((s.dev.badAccess a).returned .bad 0)) :=
    congrArg (fun d => Host.Outcome.next (commit s d)) (busWrite_refused hm hw (judge_bad hbad) nofun)
  refine ⟨_, he, ?_, ?_, frame_quiet hs rfl (fun b hb => ?_) rfl rfl rfl rfl⟩
  · rw [commit, finish_reg _ _ _ (by decide), returned_reg, badAccess, reg_setReg_ne _ _ (by decide), reg_bump, if_pos rfl]
  · rw [commit, finish_reg _ _ _ (by decide), returned_reg, badAccess, reg_setReg_self]
  · simp only [List.mem_cons, List.not_mem_nil, or_false, not_or] at hb
    rw [returned_reg, badAccess, reg_setReg_ne _ _ hb.2, reg_bump_ne _ hb.1]

theorem evqAddr_register (b : Fin 32) : evqAddr b % 4 = 0 ∧ isAlias (evqAddr b) = false := by
  revert b
  decide +kernel

/-- The queues after a command that popped one event and raised none. -/
theorem evq_popped {d : Dev} {b : Fin 32} (hp : d.popped = [b.val]) (hr : d.raised = []) (he : d.emptied = false) (k : Fin 32) :
    (commit s d).evq[k] = if k = b then { s.evq[k] with q := s.evq[k].q.tail } else s.evq[k] := by
  have hnone : (sortRaises []).filter (fun r => r.blk == k.val) = [] := rfl
  rw [commit, finish_evq, queueAfter, hr, hp, he, hnone]
  simp [Fin.val_inj]

theorem eventPopped (hs : s.dev.settled = true) (b : Fin 32) : EventPopped s m b := by
  intro hb hmesh hreach
  obtain ⟨hm, hd, hg⟩ := hreach
  obtain ⟨ha, hl⟩ := evqAddr_register b
  obtain ⟨hraised, hpopped, hemptied⟩ := books hs
  have hp := place_evq b hb
  have hq : queueOf s.evq b = s.evq[b] := congrArg (fun k => s.evq[k]) (Fin.cast_val_eq_self b)
  have hread := busRead_done (q := s.evq) hm ha hl hp (hg _ hp) (fun h => absurd h hmesh) hd
  simp only [isLatched_evq, Bool.false_eq_true, if_false, placeWord, hq, narrowRead_word _ ha] at hread
  have hpop : (((s.dev.touch (domainOf (evqAddr b))).readEffect s.evq m (evqAddr b) (.evq b)).returned .done
      (Dev.headWord s.evq[b])).popped = [b.val] := congrArg (b.val :: ·) hpopped
  refine ⟨_, congrArg (fun d => Host.Outcome.next (commit s d)) hread, finish_busWord, ?_, ?_, fun k hk => ?_,
    kept_finish fun a _ => rfl, finish_rest _ _ _, rfl⟩
  · rw [evq_popped hpop hraised hemptied, if_pos rfl]
  · rw [evq_popped hpop hraised hemptied, if_pos rfl]
  · rw [evq_popped hpop hraised hemptied, if_neg hk]

/-- Settles O16: a judgement that ends otherwise than performed leaves only its count and its address, and a performed read
of an event queue pops its head. -/
theorem accessesRefused : Obligations.AccessesRefused :=
  fun _ hs => ⟨fun _ _ _ _ => writeDenied hs, fun _ _ _ _ => accessBad hs, fun _ => eventPopped hs⟩

end Sys2Proof.Claims
end

section
/-! SUPPORT. A performed register access by what it does to the device: the frame of one that raises no event. -/

namespace Sys2Proof.Claims

open Sys2Proof.Machine Sys2Proof.Machine.Dev

variable {s : State} {a : Nat} {f g : Dev → Dev} {d : Dev}

theorem onBus_congr (h : f (d.touch (domainOf a)) = g (d.touch (domainOf a))) : onBus a f d = onBus a g d :=
  congrArg (Dev.returned .done 0) h

/-- What an access does may be said in any way that comes to the same on the device that it meets. -/
theorem exec_onBus {c : Instr} (h : exec c s = .next (commit s (onBus a f s.dev)))
    (hfg : f (s.dev.touch (domainOf a)) = g (s.dev.touch (domainOf a))) : exec c s = .next (commit s (onBus a g s.dev)) := by
  rw [h, onBus_congr hfg]

theorem setFld_eventBooks (f : Fld) (x : Nat) (d : Dev) : (d.setFld f x).eventBooks = d.eventBooks := by
  simp only [eventBooks, setFld_raised, setFld_popped, setFld_emptied]

theorem modEcc_eventBooks (f : EccSt → EccSt) (d : Dev) : (d.modEcc f).eventBooks = d.eventBooks := rfl

/-- An access whose effect f raises nothing and leaves the words other than `as`. -/
theorem yields_effect {c : Instr} {as : List Nat} (hs : s.dev.settled = true)
    (h : exec c s = .next (commit s (onBus a f s.dev))) (hreg : ∀ b, b ∉ as → ∀ d, (f d).reg b = d.reg b)
    (hbooks : ∀ d, (f d).eventBooks = d.eventBooks) : Yields c s (onBus a f s.dev) as [] := by
  have hb := hbooks (s.dev.touch (domainOf a))
  simp only [eventBooks, Prod.mk.injEq, touch_raised, touch_popped, touch_emptied] at hb
  obtain ⟨hraised, hpopped, hemptied⟩ := hb
  refine yields_quiet h hs (fun b hb => ?_) (fun _ => rfl) rfl ?_ ?_ ?_
  · rw [onBus, returned_reg, hreg b hb, touch_reg]
  · rw [onBus, returned_raised, hraised]
  · rw [onBus, returned_popped, hpopped]
  · rw [onBus, returned_emptied, hemptied]

end Sys2Proof.Claims
end

section
/-! SUPPORT. What counting changes: the words of the counter banks of chapter 21, the clocks of the quire, the sampler and the draws of
free values; nothing of the processor, of the memories or of another block. -/

namespace Sys2Proof.Machine.Dev

variable {d₀ d e : Dev}

/-- A word of the global counter bank or of a slice's. -/
def counterWord (a : Nat) : Prop := (0x10080000 ≤ a ∧ a < 0x10110000) ∨ (0x101A0000 ≤ a ∧ a < 0x101B0000)

/-- The device without its register words, its events, its sampler and the count of draws. -/
def uncounted (d : Dev) : Dev := { d.rest with cnt := CntSt.init, freeCtr := 0 }

/-- From d₀ to d nothing but counting has gone on. -/
structure Advances (d₀ d : Dev) : Prop where
  uncounted : d.uncounted = d₀.uncounted
  reg  : ∀ a, ¬ counterWord a → d.reg a = d₀.reg a

namespace Advances

theorem refl (d : Dev) : Advances d d := ⟨rfl, fun _ _ => rfl⟩

variable (h : Advances d₀ d)
include h

/-- A reading that looks at no register word, event, sample or draw is as it was. -/
theorem keeps {β : Type} (g : Dev → β) (hg : ∀ e : Dev, g e.uncounted = g e) : g d = g d₀ :=
  calc g d = g d.uncounted := (hg d).symm
    _ = g d₀.uncounted := congrArg g h.uncounted
    _ = g d₀ := hg d₀

theorem cpu : d.cpu = d₀.cpu := h.keeps Dev.cpu fun _ => rfl
theorem mem : d.mem = d₀.mem := h.keeps Dev.mem fun _ => rfl
theorem chk : d.chk = d₀.chk := h.keeps Dev.chk fun _ => rfl

/-- An update of what counting may change. -/
theorem same (hrest : e.uncounted = d.uncounted) (hregs : e.regs = d.regs) : Advances d₀ e :=
  ⟨hrest.trans h.uncounted, fun a ha => by rw [Dev.reg, hregs]; exact h.reg a ha⟩

theorem word {a : Nat} (v : Word) (ha : counterWord a) : Advances d₀ (d.setReg a v) :=
  ⟨h.uncounted, fun b hb => (reg_setReg_ne v d fun hab => hb (by rwa [hab])).trans (h.reg b hb)⟩

theorem bit {f : Fld} (b : Bool) (ha : counterWord f.addr) : Advances d₀ (d.setOn f b) := h.word _ ha

theorem raise (b c l : Nat) : Advances d₀ (d.raise b c l) := h.same rfl rfl

omit h in
theorem each {α : Type} (l : List α) {f : α → Dev → Dev} (hf : ∀ x ∈ l, ∀ d, Advances d₀ d → Advances d₀ (f x d)) :
    ∀ {d}, Advances d₀ d → Advances d₀ (d.each l f) := by
  induction l with
  | nil => exact id
  | cons x l ih => exact fun h => ih (fun y hy => hf y (List.mem_cons_of_mem _ hy)) (hf x List.mem_cons_self _ h)

/-! ### Slice banks (R684, R685) -/

theorem sliceAdd {s : Nat} (hs : s < 9) (k n : Nat) (hk : k < 4) : Advances d₀ (d.sliceAdd s k n).2 :=
  h.word _ (.inl (by simp only [R.SLC_PMC]; omega))

theorem sliceOverflow {s : Nat} (hs : s < 9) (k : Nat) : Advances d₀ (d.setOn ⟨R.SLC_PM_OVF s, k, 1⟩ true) :=
  h.bit _ (.inl (by simp only [R.SLC_PM_OVF]; omega))

theorem slicePairLow {s k : Nat} (hs : s < 9) (hk : k < 3) (n : Nat) (chained : Bool) :
    Advances d₀ (d.slicePairLow s k n chained) := by
  have hlow := h.sliceAdd hs k n (by omega)
  have hhigh := hlow.sliceAdd hs (k + 1) 1 (by omega)
  unfold Dev.slicePairLow
  dsimp only
  split_ifs
  · exact hlow
  · exact hhigh.sliceOverflow hs _
  · exact hhigh
  · exact hlow.sliceOverflow hs _

theorem sliceEvent (s e n : Nat) : Advances d₀ (d.sliceEvent s e n) := by
  unfold Dev.sliceEvent
  split
  · exact h
  · next hc =>
    have hs : s < 9 := by
      simp only [Bool.or_eq_true, decide_eq_true_eq, not_or] at hc
      exact Nat.not_le.mp hc.2
    refine each _ (fun k hk d h => ?_) h
    have hk4 : k < 4 := by revert hk; revert k; decide
    have hadd := h.sliceAdd hs k n hk4
    dsimp only
    generalize (if k < 2 then d.lvOn (F.SLC_PM_CFG_CH01 s) else d.lvOn (F.SLC_PM_CFG_CH23 s)) = chained
    split_ifs
    · exact h
    · exact h.slicePairLow hs (by omega) n _
    · exact h
    · exact hadd.sliceOverflow hs _
    · exact hadd

theorem sliceClocks (k : Nat) : Advances d₀ (d.sliceClocks k) := by
  have hs := each (d₀ := d₀) ((List.finRange 9).filter fun s => d.domOn (.slc s) && !d.gated s)
    (f := fun s d => d.sliceEvent s 1 k) (fun s _ d h => h.sliceEvent s 1 k) h
  unfold Dev.sliceClocks
  dsimp only
  split
  · exact hs
  · exact hs.sliceEvent _ _ _

/-! ### The global bank (R677 to R681) -/

theorem pmcAdd {i : Nat} (hi : i < 8) (k : Nat) : Advances d₀ (d.pmcAdd i k) := by
  have hword : counterWord (R.CNT_PMC_LO i) ∧ counterWord (R.CNT_PMC_LO i + 4) := by
    unfold counterWord
    simp only [R.CNT_PMC_LO]
    omega
  have hset : Advances d₀ (d.set48 (R.CNT_PMC_LO i) ((d.count48 (R.CNT_PMC_LO i) + k) % 2 ^ 48)) :=
    (h.word _ hword.1).word _ hword.2
  have hwrap := hset.bit (f := ⟨R.CNT_OVF, i, 1⟩) true (.inr (by simp [R.CNT_OVF]))
  unfold Dev.pmcAdd Dev.pmcWrap
  dsimp only
  split_ifs
  · exact hwrap.raise _ _ _
  · exact hwrap
  · exact hset

theorem cpuEvent (e k : Nat) : Advances d₀ (d.cpuEvent e k) := by
  unfold Dev.cpuEvent
  split
  · exact h
  · refine each _ (fun i hi d h => ?_) h
    dsimp only
    generalize (if d.cpu.user then _ else _ : Bool) = counts
    split
    · exact h.pmcAdd (List.mem_range.mp hi) k
    · exact h

theorem devEvent (e k : Nat) : Advances d₀ (d.devEvent e k) := by
  refine each _ (fun i hi d h => h.pmcAdd ?_ k) h
  unfold countersOf at hi
  split at hi
  · exact absurd hi List.not_mem_nil
  · exact List.mem_range.mp (List.mem_filter.mp hi).1

theorem cycles (k : Nat) : Advances d₀ (d.cycles k) := by
  unfold Dev.cycles
  split
  · exact h
  · exact (h.word _ (.inr (by decide))).word _ (.inr (by decide))

/-! ### Clocks, samples and accesses -/

theorem takeFree : Advances d₀ d.takeFree.2 := h.same rfl rfl

theorem elapse : Advances d₀ d.elapse := by
  unfold Dev.elapse
  split
  · exact h
  · exact (((h.takeFree.sliceClocks _).cycles _).cpuEvent _ _).same rfl rfl

theorem sampleRetired : Advances d₀ d.sampleRetired := by
  unfold Dev.sampleRetired
  split_ifs
  · exact h
  · exact h.same rfl rfl
  · exact h.same rfl rfl

theorem accessClocks (k : AccessClocks) : Advances d₀ (d.accessClocks k) := (h.cpuEvent _ _).cpuEvent _ _

end Advances

end Sys2Proof.Machine.Dev
end

section
/-! SUPPORT. The ECC block: remap requests (R483), the log of damaged words (R491, R518) and the scrubber (R486 to R489). -/

namespace Sys2Proof.Machine.Dev

open Claims

variable {s : State} {m : Master} {a mask trig : Nat} {v : Word} {d : Dev}

theorem heldWord_ecc (h : blockOf a = 24) (d : Dev) : d.heldWord m a = d.reg a := by
  have ha : (a - 0x10000000) / 0x10000 = 24 := h
  exact heldWord_reg (by unfold ribbonPlace; exact if_neg (by omega)) (by omega) (by omega)

/-- A word write that the ECC block takes. -/
theorem busWrite_ecc (ha : RegWord a) (hecc : blockOf a = 24) (hrow : rowBits a mask trig = true)
    (hb : BitVec.ofNat 32 (mask ||| trig) ≠ 0) (hr : Reaches s m a) :
    s.dev.busWrite m a .word v = onBus a (fun d =>
      d.writeEcc a (wordWritten d a mask v) (v &&& BitVec.ofNat 32 trig) (wordWr m v none none)) s.dev :=
  busWrite_stored (f := fun new t d => d.writeEcc a new t (wordWr m v none none)) ha hrow hb (heldWord_ecc hecc)
    (fun _ d h => store_ecc d hecc h) hr

/-- A remap request carries its memory in bits 14 and 15 and its row below. -/
theorem remapReq_fields (v : Word) : (v &&& BitVec.ofNat 32 0xFFFF).toNat / 16384 = v.toNat % 65536 / 16384 ∧
    (v &&& BitVec.ofNat 32 0xFFFF).toNat % 16384 = v.toNat % 16384 := by
  have h : (v &&& BitVec.ofNat 32 0xFFFF).toNat = v.toNat % 65536 := by
    rw [BitVec.toNat_and]
    exact Nat.and_two_pow_sub_one_eq_mod v.toNat 16
  rw [h]
  omega

theorem remapReq_ignored {k row : Nat}
    (h : d.ecc.remaps.contains (k, row) = true ∨ spareRows k ≤ d.sparesUsed k ∨ memSize k ≤ 256 * row) : d.remapReq k row = d :=
  if_pos h

theorem remapReq_taken {k row : Nat} (hnew : d.ecc.remaps.contains (k, row) = false) (hspare : d.sparesUsed k < spareRows k)
    (hrow : 256 * row < memSize k) :
    d.remapReq k row =
      (((d.each (List.range 64) fun i d => d.copyWord k (memBase k + 256 * row + 4 * i)).modEcc fun e =>
        { e with remaps := e.remaps ++ [(k, row)] }).bump (R.ECC_REMAP k)).raise Blk.ecc 0xB3 k := by
  have hask : ¬ (d.ecc.remaps.contains (k, row) = true ∨ spareRows k ≤ d.sparesUsed k ∨ memSize k ≤ 256 * row) := by
    rw [hnew, or_iff_right Bool.false_ne_true]
    omega
  rw [remapReq, if_neg hask, remapRow, if_neg (Nat.not_le.mpr hspare)]

/-- The words of a pass's summary. -/
abbrev scrubSummary : List Nat :=
  [R.ECC_SCRUB_READ, R.ECC_SCRUB_FIXED, R.ECC_SCRUB_UNC, R.ECC_SCRUB_FIRST, R.ECC_SCRUB_LAST, R.ECC_SCRUB_CYC]

/-- The range of a pass lies in its memory, on word boundaries (R486). -/
def ScrubLegal (d : Dev) : Prop :=
  (d.reg R.ECC_SCRUB_BASE).toNat % 4 = 0 ∧ (d.reg R.ECC_SCRUB_END).toNat % 4 = 0 ∧
    (d.reg R.ECC_SCRUB_BASE).toNat ≤ (d.reg R.ECC_SCRUB_END).toNat ∧
    (d.reg R.ECC_SCRUB_END).toNat < memSize (d.fld F.ECC_SCRUB_CFG_MEM)

theorem scrubStart_running (h : d.scrubRunning = true) : d.scrubStart = d := if_pos h

theorem scrubStart_legal (h : d.scrubRunning = false) (hl : d.ScrubLegal) :
    d.scrubStart = ((d.each scrubSummary fun a d => d.setReg a 0).setFld F.ECC_SCRUB_STAT_STATE 1).modEcc fun x =>
      { x with scrubAt := (d.reg R.ECC_SCRUB_BASE).toNat, scrubMem := d.fld F.ECC_SCRUB_CFG_MEM,
               scrubLast := (d.reg R.ECC_SCRUB_END).toNat } :=
  (if_neg (by simp [h])).trans (if_pos hl)

theorem scrubStart_illegal (h : d.scrubRunning = false) (hl : ¬ d.ScrubLegal) :
    d.scrubStart = d.setFld F.ECC_SCRUB_STAT_STATE 4 :=
  (if_neg (by simp [h])).trans (if_neg hl)

/-- A word of a pass counted, with the clocks since the last. -/
def scrubCounted (k : Nat) (d : Dev) : Dev :=
  (d.bump R.ECC_SCRUB_READ).setReg R.ECC_SCRUB_CYC
    (BitVec.ofNat 32 (min (2 ^ 32 - 1) ((d.reg R.ECC_SCRUB_CYC).toNat + max 4 k)))

@[simp] theorem scrubCounted_raised (k : Nat) (d : Dev) : (d.scrubCounted k).raised = d.raised := (rfl)
@[simp] theorem scrubCounted_popped (k : Nat) (d : Dev) : (d.scrubCounted k).popped = d.popped := (rfl)
@[simp] theorem scrubCounted_emptied (k : Nat) (d : Dev) : (d.scrubCounted k).emptied = d.emptied := (rfl)
@[simp] theorem scrubCounted_ecc (k : Nat) (d : Dev) : (d.scrubCounted k).ecc = d.ecc := (rfl)

/-- The pass after its word at `off`. -/
def scrubNext (off : Nat) (d : Dev) : Dev :=
  if d.ecc.scrubLast ≤ off then d.scrubEnd 2 else d.modEcc fun x => { x with scrubAt := off + 4 }

/-- The address of the word that is due. -/
def scrubAddr (d : Dev) : Nat := memBase d.ecc.scrubMem + d.ecc.scrubAt

/-- What the class of the word that is due makes of the device (R473, R487). -/
def scrubTaken (d : Dev) : WordClass → Dev
  | .clean => d
  | .correctable b => (((d.countCorr d.ecc.scrubMem).wordEvent d.scrubAddr false).storeWord d.scrubAddr
      (invertBit (d.memWord d.scrubAddr) b)).bump R.ECC_SCRUB_FIXED
  | .uncorrectable => ((d.foundBad d.ecc.scrubMem d.scrubAddr srcScrub).wordEvent d.scrubAddr true).scrubBad d.ecc.scrubAt
  | .poisoned => d.scrubBad d.ecc.scrubAt

theorem scrubWord_running (k : Nat) (h : d.scrubRunning = true) : d.scrubWord k =
    ((d.scrubCounted k).scrubTaken (classifyWord (d.memWord d.scrubAddr) (d.memCheck d.scrubAddr))).scrubNext d.ecc.scrubAt := by
  have hgo : ¬ (!d.scrubRunning) = true := by simp [h]
  have hread : d.scrubWord k = (match classifyWord ((d.scrubCounted k).memWord d.scrubAddr) ((d.scrubCounted k).memCheck d.scrubAddr) with
    | .clean => (d.scrubCounted k).scrubTaken .clean
    | .correctable b => (d.scrubCounted k).scrubTaken (.correctable b)
    | .uncorrectable => (d.scrubCounted k).scrubTaken .uncorrectable
    | .poisoned => (d.scrubCounted k).scrubTaken .poisoned).scrubNext d.ecc.scrubAt := if_neg hgo
  have hkept : classifyWord ((d.scrubCounted k).memWord d.scrubAddr) ((d.scrubCounted k).memCheck d.scrubAddr) =
      classifyWord (d.memWord d.scrubAddr) (d.memCheck d.scrubAddr) := rfl
  rw [hread, hkept]
  cases classifyWord (d.memWord d.scrubAddr) (d.memCheck d.scrubAddr) <;> rfl

/-- The command that a write of `ECC.SCRUB_CTRL` gives. -/
theorem writeEcc_scrub {new t : Word} {x : Wr} : d.writeEcc R.ECC_SCRUB_CTRL new t x =
    if t.getLsbD 1 then if d.scrubRunning then d.scrubEnd 3 else d else if t.getLsbD 0 then d.scrubStart else d := rfl

end Sys2Proof.Machine.Dev

namespace Sys2Proof.Claims

open Sys2Proof.Machine Sys2Proof.Machine.Dev

variable {s : State} {m : Master} {v : Word}

theorem remapAsked (hs : s.dev.settled = true) : RemapAsked s m v := by
  unfold RemapAsked
  intro mem row hr
  have he : exec (.remapReq m v) s = .next (commit s (onBus R.ECC_REMAP_REQ (fun d => d.remapReq mem row) s.dev)) := by
    obtain ⟨hmem, hrow⟩ := remapReq_fields v
    have hb := busWrite_ecc (a := R.ECC_REMAP_REQ) (mask := 0) (trig := 0xFFFF) (v := v) (by decide) (by decide)
      (by decide +kernel) (by decide) hr
    simp only [writeEcc, wordWr, if_true, hmem, hrow] at hb
    exact congrArg (fun d => Host.Outcome.next (commit s d)) hb
  refine ⟨fun h => yields_onBus hs ?_, fun hnew hspare hrow => ⟨_, he, congrArg (commit s) (onBus_congr ?_)⟩⟩
  · exact exec_onBus he (remapReq_ignored h)
  · exact remapReq_taken hnew hspare hrow

theorem ulogPopped (hs : s.dev.settled = true) : UlogPopped s m := by
  intro hmesh ⟨hm, hd, hg⟩
  obtain ⟨r, hp, -⟩ := row_of_bits (a := R.ECC_ULOG) (mask := 0) (trig := 0) (by decide) (by decide +kernel)
  have hlo (d : Dev) : d.isLo R.ECC_ULOG = false := isLo_single (liveAddr_live (by decide)) (by decide +kernel)
  have hlatched (d : Dev) : d.isLatched R.ECC_ULOG = false :=
    isLatched_none (by decide) (isLo_single (liveAddr_live (by decide)) (by decide +kernel))
  have hread := busRead_done (q := s.evq) hm (by decide) (by decide) hp (hg _ hp) (fun h => absurd h hmesh) hd
  have hdom : domainOf R.ECC_ULOG = .mgt := rfl
  have hword (q : Vector EvQ 32) (d : Dev) : d.placeWord q R.ECC_ULOG (.live r) = d.ecc.ulog.headD 0 := rfl
  have heffect (q : Vector EvQ 32) (d : Dev) : d.readEffect q m R.ECC_ULOG (.live r) =
      d.modEcc fun e => { e with ulog := e.ulog.tail } := by
    simp only [readEffect, hlo, Bool.false_eq_true, if_false]
    rfl
  simp only [hdom, hlatched, hword, heffect, Bool.false_eq_true, if_false, narrowRead_word _ (show R.ECC_ULOG % 4 = 0 by decide)] at hread
  refine yields_quiet (congrArg (fun d => Host.Outcome.next (commit s d)) hread) hs (fun _ _ => ?_) (fun _ => rfl) rfl ?_ ?_ ?_
  · rw [returned_reg, modEcc_reg, touch_reg]
  · rw [returned_raised, modEcc_raised, touch_raised]
  · rw [returned_popped, modEcc_popped, touch_popped]
  · rw [returned_emptied, modEcc_emptied, touch_emptied]

/-- Both commands of the scrubber are a write of `ECC.SCRUB_CTRL`. -/
theorem exec_scrub {c : Instr} (hc : c ∈ [Instr.scrubStart m v, .scrubAbort m v]) (hr : Reaches s m R.ECC_SCRUB_CTRL) :
    exec c s = .next (commit s (onBus R.ECC_SCRUB_CTRL (fun d =>
      if v.getLsbD 1 then if d.scrubRunning then d.scrubEnd 3 else d else if v.getLsbD 0 then d.scrubStart else d) s.dev)) := by
  have hb := busWrite_ecc (a := R.ECC_SCRUB_CTRL) (mask := 0) (trig := 3) (v := v) (by decide) (by decide)
      (by decide +kernel) (by decide) hr
  simp only [writeEcc_scrub, getLsbD_trigger v (show (BitVec.ofNat 32 3).getLsbD 0 = true by decide),
    getLsbD_trigger v (show (BitVec.ofNat 32 3).getLsbD 1 = true by decide)] at hb
  have hbus : exec c s = .next (commit s (s.dev.busWrite m R.ECC_SCRUB_CTRL .word v)) := by
    simp only [List.mem_cons, List.not_mem_nil, or_false] at hc
    rcases hc with rfl | rfl <;> rfl
  rw [hbus, hb]

/-- The state of a pass is all that a command of the scrubber changes. -/
theorem yields_scrubState {c : Instr} {st : Nat} (hs : s.dev.settled = true)
    (h : exec c s = .next (commit s (onBus R.ECC_SCRUB_CTRL (fun d => d.setFld F.ECC_SCRUB_STAT_STATE st) s.dev))) :
    Yields c s (onBus R.ECC_SCRUB_CTRL (fun d => d.setFld F.ECC_SCRUB_STAT_STATE st) s.dev) [R.ECC_SCRUB_STAT] [] :=
  yields_effect hs h (fun _ ha d => reg_setFld_ne _ _ _ (by simpa using ha)) (setFld_eventBooks _ _)

theorem yields_scrubStart {c : Instr} {b k e : Nat} (hs : s.dev.settled = true)
    (h : exec c s = .next (commit s (onBus R.ECC_SCRUB_CTRL (fun d => ((d.each scrubSummary fun a d => d.setReg a 0).setFld
      F.ECC_SCRUB_STAT_STATE 1).modEcc fun x => { x with scrubAt := b, scrubMem := k, scrubLast := e }) s.dev))) :
    Yields c s (onBus R.ECC_SCRUB_CTRL (fun d => ((d.each scrubSummary fun a d => d.setReg a 0).setFld
      F.ECC_SCRUB_STAT_STATE 1).modEcc fun x => { x with scrubAt := b, scrubMem := k, scrubLast := e }) s.dev)
      [R.ECC_SCRUB_READ, R.ECC_SCRUB_FIXED, R.ECC_SCRUB_UNC, R.ECC_SCRUB_FIRST, R.ECC_SCRUB_LAST, R.ECC_SCRUB_CYC,
        R.ECC_SCRUB_STAT] [] := by
  refine yields_effect hs h (fun a ha d => ?_) fun d => ?_
  · obtain ⟨hsummary, hstat⟩ : a ∉ scrubSummary ∧ a ≠ R.ECC_SCRUB_STAT := by
      simpa only [scrubSummary, List.mem_cons, List.not_mem_nil, or_false, not_or, and_assoc] using ha
    have hother : ∀ x ∈ scrubSummary, ∀ d : Dev, (d.setReg x 0).reg a = d.reg a := fun x hx d =>
      reg_setReg_ne _ _ (fun h => hsummary (h ▸ hx))
    rw [modEcc_reg, reg_setFld_ne _ _ _ hstat, each_keeps_mem (fun d => d.reg a) hother]
  · rw [modEcc_eventBooks, setFld_eventBooks]
    exact each_keeps _ _ eventBooks (fun a d => (onlyWord_setReg a 0 d).books) d

theorem scrubControlled (hs : s.dev.settled = true) : ScrubControlled s m v := by
  unfold ScrubControlled
  intro b e legal hr c hc
  have he := exec_scrub hc hr
  refine ⟨fun habort hstart hidle hlegal => ?starts, fun habort hstart hidle hlegal => ?refused, fun habort hrun => ?ignored,
    fun habort hrun => ?aborts⟩
  case starts =>
    simp only [habort, hstart, if_true, Bool.false_eq_true, if_false] at he
    exact yields_scrubStart hs (exec_onBus he (scrubStart_legal hidle hlegal))
  case refused =>
    simp only [habort, hstart, if_true, Bool.false_eq_true, if_false] at he
    exact yields_scrubState hs (exec_onBus he (scrubStart_illegal hidle hlegal))
  case ignored =>
    have hkept (d : Dev) (hd : d.scrubRunning = true) :
        (if v.getLsbD 1 then if d.scrubRunning then d.scrubEnd 3 else d else if v.getLsbD 0 then d.scrubStart else d) = d := by
      simp only [habort, Bool.false_eq_true, if_false, scrubStart_running hd, ite_self]
    exact yields_onBus hs (exec_onBus he (hkept _ hrun))
  case aborts =>
    have hended (d : Dev) (hd : d.scrubRunning = true) :
        (if v.getLsbD 1 then if d.scrubRunning then d.scrubEnd 3 else d else if v.getLsbD 0 then d.scrubStart else d) =
          d.setFld F.ECC_SCRUB_STAT_STATE 3 := by
      simp only [habort, if_true, hd]
      rfl
    exact yields_scrubState hs (exec_onBus he (hended _ hrun))

/-- After a word the pass goes on, or ends with its last. -/
theorem ends_scrubNext {c : Instr} {off : Nat} {e : Dev} (h : exec c s = .next (commit s (e.scrubNext off))) :
    (off < e.ecc.scrubLast → Ends c s (e.modEcc fun x => { x with scrubAt := off + 4 })) ∧
    (e.ecc.scrubLast ≤ off → Ends c s (e.scrubEnd 2)) := by
  refine ⟨fun hlt => ⟨_, h, ?_⟩, fun hle => ⟨_, h, ?_⟩⟩
  · rw [scrubNext, if_neg (Nat.not_le.mpr hlt)]
  · rw [scrubNext, if_pos hle]

/-- The words of a clean step of a pass. -/
theorem scrubCounted_other {k a : Nat} {d : Dev} (ha : a ≠ R.ECC_SCRUB_READ ∧ a ≠ R.ECC_SCRUB_CYC) :
    (d.scrubCounted k).reg a = d.reg a := by
  rw [scrubCounted, reg_setReg_ne _ _ ha.2, reg_bump_ne _ ha.1]

theorem scrubStepped (hs : s.dev.settled = true) (k : Nat) : ScrubStepped s k := by
  unfold ScrubStepped
  intro m off a word d noted goesOn hrun
  have he : exec (.scrubWord k) s = .next (commit s (s.dev.scrubWord k)) := rfl
  rw [scrubWord_running k hrun] at he
  have hends {c : WordClass} {e : Dev} (hc : classifyWord word (s.dev.memCheck a) = c) (hk : (s.dev.scrubCounted k).scrubTaken c = e) :
      goesOn e := by
    subst hk
    rw [show classifyWord (s.dev.memWord s.dev.scrubAddr) (s.dev.memCheck s.dev.scrubAddr) = c from hc] at he
    exact ends_scrubNext he
  refine ⟨fun hc => ⟨fun hlt => ?_, fun hle => ?_⟩, fun b hc => hends hc rfl, fun hc => hends hc rfl, fun hc => hends hc rfl⟩
  · obtain ⟨t, ht, hcommit⟩ := (hends hc rfl).1 hlt
    refine yields_quiet (hcommit ▸ ht) hs (fun a ha => ?_) (fun _ => rfl) rfl rfl rfl rfl
    exact scrubCounted_other (by simpa using ha)
  · obtain ⟨t, ht, hcommit⟩ := (hends hc rfl).2 hle
    refine yields_raised [⟨Blk.ecc, 0xB5, m⟩] (hcommit ▸ ht) hs (fun a ha => ?_) (fun _ => ?_) ?_ ?_ ?_ ?_ rfl rfl
    · simp only [List.mem_cons, List.not_mem_nil, or_false, not_or] at ha
      obtain ⟨hread, hcyc, hstat⟩ := ha
      rw [scrubEnd, if_pos rfl, raise_reg, reg_setFld_ne _ _ _ hstat]
      exact scrubCounted_other ⟨hread, hcyc⟩
    all_goals rw [scrubEnd, if_pos rfl]
    · rw [raise_reg]
      rfl
    · rw [raise_rest]
      rfl
    · rw [raise_raised, setFld_raised, setFld_ecc, scrubTaken, scrubCounted_raised, scrubCounted_ecc]
    · rw [raise_popped, setFld_popped, scrubTaken, scrubCounted_popped]
    · rw [raise_emptied, setFld_emptied, scrubTaken, scrubCounted_emptied]

/-- Settles O43: what a write of the two request registers asks, the oldest entry of the log taken, and one word of a pass by its
class. -/
theorem memoriesRepaired : Obligations.MemoriesRepaired :=
  fun _ hs => ⟨fun _ _ => ⟨remapAsked hs, scrubControlled hs⟩, fun _ => ulogPopped hs, scrubStepped hs⟩

end Sys2Proof.Claims
end

section
/-! SUPPORT. The processor's interrupts (R460, R461, R474, R476), what its two kicks end (R462, R477) and the watchdog (R477). -/

namespace Sys2Proof.Machine.Dev

open Claims

variable {s : State} {d : Dev} {m : Master} {a mask trig : Nat} {v : Word}

theorem memoryErrorInterrupt_taken (hb : d.between = true) (hp : d.cpu.memPend = true) (hf : d.cpu.memFlag = false) :
    d.memoryErrorInterrupt = (d.modCpu fun c => { c with memPend := false, memFlag := true }).trap 16 true d.cpu.pc 0 := by
  have hflag : ¬ (d.modCpu fun c => { c with memPend := false }).cpu.memFlag = true := by
    rw [Bool.not_eq_true]
    exact hf
  rw [memoryErrorInterrupt, if_neg (by simp [hb, hp])]
  exact if_neg hflag

theorem memoryErrorInterrupt_halts (hb : d.between = true) (hp : d.cpu.memPend = true) (hf : d.cpu.memFlag = true) :
    d.memoryErrorInterrupt = d.modCpu fun c => { c with memPend := false, halted := true } := by
  rw [memoryErrorInterrupt, if_neg (by simp [hb, hp])]
  exact if_pos (c := (d.modCpu fun c => { c with memPend := false }).cpu.memFlag = true) hf

theorem heldWord_low (h : a < 0x10120000) (d : Dev) : d.heldWord m a = d.reg a :=
  heldWord_reg (by unfold ribbonPlace; exact if_neg (by omega)) (by omega) (by omega)

/-- A word write that the SYS block takes. -/
theorem busWrite_sys (ha : RegWord a) (hsys : a < 0x10010000) (hrow : rowBits a mask trig = true)
    (hb : BitVec.ofNat 32 (mask ||| trig) ≠ 0) (hr : Reaches s m a) :
    s.dev.busWrite m a .word v = onBus a (fun d =>
      d.writeSys a (wordWritten d a mask v) (v &&& BitVec.ofNat 32 trig) (wordWr m v none none)) s.dev := by
  have hblock : blockOf a = 0 := by unfold blockOf; omega
  exact busWrite_stored (f := fun new t d => d.writeSys a new t (wordWr m v none none)) ha hrow hb (heldWord_low (by omega))
    (fun _ d h => store_sys d hblock h) hr

end Sys2Proof.Machine.Dev

namespace Sys2Proof.Claims

open Sys2Proof.Machine Sys2Proof.Machine.Dev

variable {s : State} {m : Master} {v : Word}

theorem memoryErrorTaken (hs : s.dev.settled = true) : MemoryErrorTaken s := by
  intro hb hp
  have he : exec .memoryErrorInterrupt s = .next (commit s s.dev.memoryErrorInterrupt) := rfl
  refine ⟨fun hf => ⟨_, he, ?_⟩, fun hf => ?_⟩
  · rw [memoryErrorInterrupt_taken hb hp hf]
  · rw [memoryErrorInterrupt_halts hb hp hf] at he
    exact yields_quiet he hs (fun _ _ => rfl) (fun _ => rfl) rfl rfl rfl rfl

theorem interruptsTaken (hs : s.dev.settled = true) : InterruptsTaken s := by
  intro hb hp
  have hquire : exec .quireInterrupt s = .next (commit s s.dev.quireInterrupt) := rfl
  have hext : exec .machineExternalInterrupt s = .next (commit s (s.dev.externalInterrupt s.evq)) := rfl
  refine ⟨fun hq hi => ⟨_, hquire, ?_⟩, fun h => yields_same hs ?_, fun hirq hi => ⟨_, hext, ?_⟩, fun h => yields_same hs ?_⟩
  · rw [quireInterrupt, if_pos (by simp [hb, hp, hq, hi]), interrupt]
  · rw [hquire, quireInterrupt, if_neg (by rcases h with h | h <;> simp [h])]
  · have hpend : (irqPend s.evq &&& s.dev.reg R.SYS_IRQ_EN != 0) = true := bne_iff_ne.mpr hirq
    rw [externalInterrupt, if_pos (by simp only [hb, hp, hpend, hi]; rfl), interrupt]
  · rw [hext, externalInterrupt, if_neg (by rcases h with h | h <;> simp [h])]

theorem cpuKicks (hs : s.dev.settled = true) : CpuKicks s m v := by
  have hrt (hr : Reaches s m R.SYS_RT) : exec (.done m v) s = .next (commit s (onBus R.SYS_RT (fun d =>
      if v.getLsbD 0 then d.rtDone else d) s.dev)) := by
    have hb := busWrite_sys (a := R.SYS_RT) (mask := 0) (trig := 1) (v := v) (by decide) (by decide) (by decide +kernel) (by decide) hr
    simp only [writeSys, if_true, getLsbD_trigger v (show (BitVec.ofNat 32 1).getLsbD 0 = true by decide)] at hb
    exact congrArg (fun d => Host.Outcome.next (commit s d)) hb
  refine ⟨fun hr hv => ?done, fun hr hv => ?unasked, fun hr => ?kicked⟩
  case done =>
    have he := hrt hr
    simp only [hv, if_true] at he
    exact yields_effect hs he (fun _ _ _ => rfl) fun _ => rfl
  case unasked =>
    have he := hrt hr
    simp only [hv, Bool.false_eq_true, if_false] at he
    exact yields_onBus hs he
  case kicked =>
    have hb := busWrite_sys (a := R.SYS_WDT_KICK) (mask := 0) (trig := 0xFFFFFFFF) (v := v) (by decide) (by decide)
      (by decide +kernel) (by decide) hr
    have hkick (d : Dev) (new t : Word) : d.writeSys R.SYS_WDT_KICK new t (wordWr m v none none) =
        d.modPwr fun p => { p with wdt := 0 } := rfl
    simp only [hkick] at hb
    exact yields_effect hs (congrArg (fun d => Host.Outcome.next (commit s d)) hb) (fun _ _ d => modPwr_reg _ _ d) fun _ => rfl

theorem watchdogExpired (hs : s.dev.settled = true) : WatchdogExpired s := by
  intro hm hen hdue hper
  have he : exec .watchdogExpiry s = .next (commit s s.dev.watchdogExpiry) := rfl
  rw [watchdogExpiry, if_pos (by simp [hm, hen, hdue, hper])] at he
  exact yields_quiet he hs (fun _ _ => rfl) (fun _ => rfl) rfl rfl rfl rfl

end Sys2Proof.Claims
end

section
/-! SUPPORT. The restart of the management domain (R478, R489, R507, R732): what each of its steps leaves of a register word, of the
processor and of the memories. -/

namespace Sys2Proof.Machine.Dev

variable {d : Dev} {a : Nat}

theorem reg_resetWords (q : Nat → Bool) (d : Dev) (a : Nat) :
    (d.resetWords q).reg a = if q a then regReset a else d.reg a := by
  have h := Cells.get_filter regReset d.regs (fun a => !q a) a
  cases hq : q a with
  | true => simpa [hq, reg, resetWords] using h
  | false => simpa [hq, reg, resetWords] using h

/-- The processor, the data bits of every memory and the books of their errors. -/
def runState (d : Dev) : CpuSt × List Host.Cell × EccSt := (d.cpu, d.mem, d.ecc)

@[simp] theorem setReg_runState (a : Nat) (v : Word) (d : Dev) : (d.setReg a v).runState = d.runState := (rfl)
@[simp] theorem setFld_runState (f : Fld) (x : Nat) (d : Dev) : (d.setFld f x).runState = d.runState := (rfl)
@[simp] theorem setOn_runState (f : Fld) (b : Bool) (d : Dev) : (d.setOn f b).runState = d.runState := (rfl)
@[simp] theorem raise_runState (b c l : Nat) (d : Dev) : (d.raise b c l).runState = d.runState := (rfl)
@[simp] theorem modBst_runState (f : BstSt → BstSt) (d : Dev) : (d.modBst f).runState = d.runState := (rfl)
@[simp] theorem modSec_runState (f : SecSt → SecSt) (d : Dev) : (d.modSec f).runState = d.runState := (rfl)
@[simp] theorem modNvm_runState (f : NvmSt → NvmSt) (d : Dev) : (d.modNvm f).runState = d.runState := (rfl)
@[simp] theorem modMgmt_runState (f : MgmtSt → MgmtSt) (d : Dev) : (d.modMgmt f).runState = d.runState := (rfl)
@[simp] theorem modHkp_runState (f : HkpSt → HkpSt) (d : Dev) : (d.modHkp f).runState = d.runState := (rfl)
@[simp] theorem modThm_runState (f : ThmSt → ThmSt) (d : Dev) : (d.modThm f).runState = d.runState := (rfl)
@[simp] theorem modDma_runState (f : DmaSt → DmaSt) (d : Dev) : (d.modDma f).runState = d.runState := (rfl)
@[simp] theorem resetWords_runState (q : Nat → Bool) (d : Dev) : (d.resetWords q).runState = d.runState := (rfl)

/-! ### The steps -/

/-- The cause and the count of a restart are recorded, and an unlocked session ends. -/
def restartRecorded (cause : Nat) (d : Dev) : Dev := ((d.setFld F.SYS_MRST_CAUSE cause).bumpFld F.SYS_MRST_COUNT).endSession

/-- The work under way stops, and the SRAMs lose their contents. -/
def restartStopped (d : Dev) : Dev := (d.stopTest fun t => t.part == 3).abandonWork.loseSrams

/-- The converters, the thermal words, the counters and the DMA engine take their reset values. -/
def restartReset (d : Dev) : Dev :=
  ((d.hkpRestart.thermalRestart.cntReset.dmaReset).clearBuckets fun c => decide (8 ≤ c)).setOn F.PWR_AVS_STAT_DEGRADED false

/-- The power manager's share of a restart. -/
def powerAfresh (p : PwrSt) : PwrSt :=
  { p with mrst := 0, wdt := 0, booted := false, avsStop := false, late := p.late ++ [(Blk.sys, 0x02)] }

/-- The processor starts again in the life cycle of the start. -/
def cpuAfresh (d : Dev) : Dev :=
  let d := d.modSec fun s => { s with lc := s.lcAtStart, lcNext := none }
  { d with latch := [], cpu := d.cpu.restarted, powerList := [], emptied := true }

/-- The management blocks and the processor start again. -/
def restartStarted (d : Dev) : Dev := (d.restartBlocks.modPwr powerAfresh).cpuAfresh.showOtp

theorem managementRestart_none (h : d.restartCause = 0 ∨ d.domOn .mgt = false) : d.managementRestart = d :=
  if_pos (h.imp_right fun h => by rw [h]; rfl)

theorem managementRestart_due (h : d.restartCause ≠ 0) (hm : d.domOn .mgt = true) :
    d.managementRestart = (d.restartRecorded d.restartCause).restartStopped.restartReset.restartStarted :=
  if_neg (by simp [h, hm])

/-! ### What a step keeps -/

theorem endSession_keeps (d : Dev) : d.endSession.runState = d.runState ∧ ∀ a, d.endSession.reg a = d.reg a := by
  unfold endSession
  split
  · exact ⟨by rw [raise_runState, modMgmt_runState], fun _ => by rw [raise_reg, modMgmt_reg]⟩
  · exact ⟨rfl, fun _ => rfl⟩

/-- A memory segment whose test did nothing is queued again: words of the block BST show it. -/
theorem testEnd_keeps {t : TestItem} (ht : d.bst.run = some t) (hp : t.part ≠ 0) (ha : blockOf a ≠ 25) :
    (d.testEnd ⟨0, true, []⟩).runState = d.runState ∧ (d.testEnd ⟨0, true, []⟩).reg a = d.reg a := by
  have hne {b : Nat} (hb : blockOf b = 25) : a ≠ b := fun h => ha (h ▸ hb)
  have hres : testResult marchOps ⟨0, true, []⟩ = 2 := rfl
  have hword {f : Fld} (x : Nat) (d : Dev) (hf : blockOf f.addr = 25) : (d.setFld f x).reg a = d.reg a :=
    reg_setFld_ne _ _ _ (hne hf)
  simp only [testEnd, ht, if_neg hp, hres, if_true, showQueue, testEvent, showIdle]
  refine ⟨?_, ?_⟩
  · simp only [setFld_runState, modBst_runState, raise_runState]
  · rw [hword _ _ (by decide), modBst_reg, raise_reg, hword _ _ (by decide), hword _ _ (by decide), hword _ _ (by decide),
      hword _ _ (by decide), hword _ _ (by decide), hword _ _ (by decide), hword _ _ (by decide), hword _ _ (by decide), modBst_reg]

/-- A test of a memory segment that stops leaves the words of other blocks. -/
theorem stopTest_keeps (d : Dev) (ha : blockOf a ≠ 25) : (d.stopTest fun t => t.part == 3).runState = d.runState ∧
    (d.stopTest fun t => t.part == 3).reg a = d.reg a := by
  cases ht : d.bst.run with
  | none => simp only [stopTest, ht, and_self]
  | some t =>
    by_cases hp : t.part = 3
    · have hend := testEnd_keeps (d := d.takeFree.2) (a := a) ht (by omega) ha
      simp only [stopTest, ht, hp, stoppedRun, beq_self_eq_true, Bool.not_true, Bool.false_eq_true, if_false,
        show (3 : Nat) ≠ 0 by decide]
      exact ⟨hend.1, (reg_setFld_ne _ _ _ fun h => ha (by rw [h]; rfl)).trans hend.2⟩
    · simp only [stopTest, ht, beq_eq_false_iff_ne.mpr hp, Bool.not_false, if_true, and_self]

theorem otpInterrupt_keeps (d : Dev) : d.otpInterrupt.runState = d.runState ∧ ∀ a, d.otpInterrupt.reg a = d.reg a := by
  unfold otpInterrupt
  dsimp only
  split
  · exact ⟨by rw [modSec_runState], fun _ => by rw [modSec_reg]⟩
  · exact ⟨by simp only [modSec_runState], fun _ => by simp only [modSec_reg]⟩
  · exact ⟨by rw [modSec_runState]; rfl, fun _ => by rw [modSec_reg]; rfl⟩
  · exact ⟨by rw [modSec_runState]; rfl, fun _ => by rw [modSec_reg]; rfl⟩

/-- Work that a restart abandons leaves the words outside SEC and NVM as the ledger's end leaves them. -/
theorem abandonWork_keeps (d : Dev) (ha : blockOf a ≠ 28 ∧ blockOf a ≠ 29) :
    d.abandonWork.runState = d.eccRestart.runState ∧ d.abandonWork.reg a = d.eccRestart.reg a := by
  obtain ⟨hrun, hreg⟩ := otpInterrupt_keeps d.eccRestart
  have hne {b : Nat} (hb : blockOf b = 28 ∨ blockOf b = 29) : a ≠ b := fun h => by
    subst h
    exact hb.elim ha.1 ha.2
  have hword {f : Fld} (x : Nat) (d : Dev) (hf : blockOf f.addr = 28 ∨ blockOf f.addr = 29) : (d.setFld f x).reg a = d.reg a :=
    reg_setFld_ne _ _ _ (hne hf)
  have hbit {f : Fld} (b : Bool) (d : Dev) (hf : blockOf f.addr = 28 ∨ blockOf f.addr = 29) : (d.setOn f b).reg a = d.reg a :=
    hword _ _ hf
  rw [← hrun, ← hreg]
  unfold abandonWork
  dsimp only
  split
  · refine ⟨by simp only [modNvm_runState, setReg_runState, modSec_runState, setOn_runState, setFld_runState], ?_⟩
    rw [modNvm_reg, reg_setReg_ne _ _ (hne (by decide)), modSec_reg, hbit _ _ (by decide), hword _ _ (by decide),
      hword _ _ (by decide), hbit _ _ (by decide)]
  · refine ⟨by simp only [modNvm_runState, setReg_runState, modSec_runState, setOn_runState, setFld_runState], ?_⟩
    rw [modNvm_reg, reg_setReg_ne _ _ (hne (by decide)), modSec_reg, hbit _ _ (by decide), hword _ _ (by decide),
      hbit _ _ (by decide)]

theorem hkpRestart_keeps (d : Dev) (ha : blockOf a ≠ 22) : d.hkpRestart.runState = d.runState ∧ d.hkpRestart.reg a = d.reg a := by
  refine ⟨by rw [hkpRestart, modHkp_runState, resetWords_runState], ?_⟩
  have hq : adcReg a = false := by
    simp only [blockOf] at ha
    simp only [adcReg, decide_eq_false_iff_not]
    omega
  rw [hkpRestart, modHkp_reg, reg_resetWords, hq]
  rfl

theorem thermalRestart_keeps (d : Dev) (ha : blockOf a ≠ 2) :
    d.thermalRestart.runState = d.runState ∧ d.thermalRestart.reg a = d.reg a := by
  have hne {b : Nat} (hb : blockOf b = 2) : a ≠ b := fun h => ha (h ▸ hb)
  have hword : ∀ k ∈ List.range 16, ∀ d : Dev, (d.setReg (R.THM_T k) 0).reg a = d.reg a := fun k hk d =>
    reg_setReg_ne _ _ (hne (by revert hk; revert k; decide))
  refine ⟨?_, ?_⟩
  · rw [thermalRestart, modThm_runState, setReg_runState]
    exact each_keeps _ _ runState (fun k d => setReg_runState _ _ d) d
  · rw [thermalRestart, modThm_reg, reg_setReg_ne _ _ (hne (by decide)), each_keeps_mem (fun d => d.reg a) hword]

theorem cntReset_keeps (d : Dev) (ha : ¬ counterWord a) : d.cntReset.runState = d.runState ∧ d.cntReset.reg a = d.reg a := by
  have h := (Advances.refl d).elapse
  have hq : decide (0x101A0000 ≤ a ∧ a < 0x101A7F00 ∨ 0x101A8000 ≤ a ∧ a < 0x101AFF00) = false := by
    simp only [counterWord, not_or] at ha
    simp only [decide_eq_false_iff_not]
    omega
  refine ⟨h.keeps runState fun _ => rfl, ?_⟩
  have hreset := reg_resetWords (fun a => decide (0x101A0000 ≤ a ∧ a < 0x101A7F00 ∨ 0x101A8000 ≤ a ∧ a < 0x101AFF00)) d.elapse a
  rw [hq] at hreset
  exact hreset.trans (h.reg a ha)

theorem dmaReset_runState (d : Dev) : d.dmaReset.runState = d.runState := by rw [dmaReset, modDma_runState, resetWords_runState]

theorem dmaReset_reg (d : Dev) (a : Nat) :
    d.dmaReset.reg a = if decide (0x10170000 ≤ a ∧ a < 0x10177F00) then regReset a else d.reg a := by
  rw [dmaReset, modDma_reg]
  exact reg_resetWords _ d a

theorem eccRestart_runState (d : Dev) : d.eccRestart.runState = (d.cpu, d.mem, { d.ecc with ulog := [] }) := rfl

/-- The ledger's words take their reset values, but for the word that shows the spare rows of the retention SRAM. -/
theorem eccRestart_reg (ha : 0x10180000 ≤ a ∧ a < 0x10187F00) (hstat : a ≠ R.ECC_STAT) (d : Dev) :
    d.eccRestart.reg a = regReset a := by
  have hq : eccLedger a = true := by simp only [eccLedger, decide_eq_true_eq]; exact ha
  rw [eccRestart, modEcc_reg, setOn, reg_setFld_ne _ _ _ hstat, reg_resetWords, hq, if_pos rfl]

theorem eccRestart_other (ha : a < 0x10180000) (d : Dev) : d.eccRestart.reg a = d.reg a := by
  have hq : eccLedger a = false := by simp only [eccLedger, decide_eq_false_iff_not]; omega
  rw [eccRestart, modEcc_reg, setOn, reg_setFld_ne _ _ _ (fun h => absurd (h ▸ ha) (by decide)), reg_resetWords, hq]
  rfl

theorem loseSrams_reg (d : Dev) (a : Nat) : d.loseSrams.reg a = d.reg a := rfl
theorem loseSrams_cpu (d : Dev) : d.loseSrams.cpu = d.cpu := rfl
theorem loseSrams_ulog (d : Dev) : d.loseSrams.ecc.ulog = d.ecc.ulog := rfl
theorem loseSrams_mem (d : Dev) : d.loseSrams.mem = d.mem.filter fun c => decide (memBase 3 ≤ c.1) := rfl

/-! ### The steps as they bear on the words of SYS, ECC and DMA -/

theorem restartRecorded_runState (k : Nat) (d : Dev) : (d.restartRecorded k).runState = d.runState := by
  rw [restartRecorded, (endSession_keeps _).1, bumpFld, setFld_runState, setFld_runState]

theorem restartRecorded_fields (k : Nat) (d : Dev) (hk : k < 16) : (d.restartRecorded k).fld F.SYS_MRST_CAUSE = k ∧
    (d.restartRecorded k).fld F.SYS_MRST_COUNT = (d.fld F.SYS_MRST_COUNT + 1) % 2 ^ 16 := by
  have hend (f : Fld) (e : Dev) : e.endSession.fld f = e.fld f := by rw [fld, fld, (endSession_keeps e).2]
  rw [restartRecorded, hend, hend, bumpFld]
  refine ⟨?_, ?_⟩
  · rw [fld_setFld_apart _ _ (by decide) (by decide), fld_setFld_self _ _ _ (by decide)]
    exact Nat.mod_eq_of_lt hk
  · rw [fld_setFld_self _ _ _ (by decide), fld_setFld_apart _ _ (by decide) (by decide)]

/-- After the stop nothing of the SRAMs is left but the retention SRAM, and the ledger is empty. -/
theorem restartStopped_runState (d : Dev) : d.restartStopped.cpu = d.cpu ∧
    d.restartStopped.mem = d.mem.filter (fun c => decide (memBase 3 ≤ c.1)) ∧ d.restartStopped.ecc.ulog = [] := by
  have hstop : (d.stopTest fun t => t.part == 3).abandonWork.runState = (d.cpu, d.mem, { d.ecc with ulog := [] }) := by
    have htest := (stopTest_keeps (a := 0) d (by decide)).1
    simp only [runState, Prod.mk.injEq] at htest
    obtain ⟨hcpu, hmem, hecc⟩ := htest
    rw [(abandonWork_keeps (a := 0) _ (by decide)).1, eccRestart_runState, hcpu, hmem, hecc]
  simp only [runState, Prod.mk.injEq] at hstop
  obtain ⟨hcpu, hmem, hecc⟩ := hstop
  exact ⟨by rw [restartStopped, loseSrams_cpu, hcpu], by rw [restartStopped, loseSrams_mem, hmem],
    by rw [restartStopped, loseSrams_ulog, hecc]⟩

theorem restartStopped_ledger (ha : 0x10180000 ≤ a ∧ a < 0x10187F00) (hstat : a ≠ R.ECC_STAT) (d : Dev) :
    d.restartStopped.reg a = regReset a := by
  have hblock : blockOf a ≠ 28 ∧ blockOf a ≠ 29 := by unfold blockOf; omega
  rw [restartStopped, loseSrams_reg, (abandonWork_keeps _ hblock).2, eccRestart_reg ha hstat]

theorem restartStopped_other (ha : a < 0x10180000) (d : Dev) : d.restartStopped.reg a = d.reg a := by
  have hblock : blockOf a ≠ 28 ∧ blockOf a ≠ 29 ∧ blockOf a ≠ 25 := by unfold blockOf; omega
  rw [restartStopped, loseSrams_reg, (abandonWork_keeps _ ⟨hblock.1, hblock.2.1⟩).2, eccRestart_other ha,
    (stopTest_keeps d hblock.2.2).2]

theorem restartReset_runState (d : Dev) : d.restartReset.runState = d.runState := by
  rw [restartReset, setOn_runState]
  show d.hkpRestart.thermalRestart.cntReset.dmaReset.runState = _
  rw [dmaReset_runState, (cntReset_keeps (a := 0) _ (by unfold counterWord; omega)).1,
    (thermalRestart_keeps (a := 0x10000000) _ (by decide)).1, (hkpRestart_keeps (a := 0) _ (by decide)).1]

theorem restartReset_keeps (ha : blockOf a = 24 ∨ a = R.SYS_MRST) (d : Dev) : d.restartReset.reg a = d.reg a := by
  have hblock : blockOf a ≠ 22 ∧ blockOf a ≠ 2 := by
    rcases ha with ha | rfl
    · omega
    · decide
  have hcounter : ¬ counterWord a := by
    rcases ha with ha | rfl
    · unfold blockOf at ha; unfold counterWord; omega
    · unfold counterWord; decide
  have hdma : decide (0x10170000 ≤ a ∧ a < 0x10177F00) = false := by
    rcases ha with ha | rfl
    · unfold blockOf at ha; rw [decide_eq_false_iff_not]; omega
    · rfl
  have havs : a ≠ R.PWR_AVS_STAT := by
    rintro rfl
    exact absurd ha (by decide)
  rw [restartReset, setOn, reg_setFld_ne _ _ _ havs]
  show d.hkpRestart.thermalRestart.cntReset.dmaReset.reg a = _
  rw [dmaReset_reg, hdma, if_neg Bool.false_ne_true, (cntReset_keeps _ hcounter).2, (thermalRestart_keeps _ hblock.2).2,
    (hkpRestart_keeps _ hblock.1).2]

theorem restartReset_dma (ha : 0x10170000 ≤ a ∧ a < 0x10177F00) (d : Dev) : d.restartReset.reg a = regReset a := by
  rw [restartReset, setOn, reg_setFld_ne _ _ _ (fun h => absurd (h ▸ ha).1 (by decide))]
  show d.hkpRestart.thermalRestart.cntReset.dmaReset.reg a = _
  rw [dmaReset_reg, decide_eq_true ha, if_pos rfl]

/-- The fuse words are all that is shown again. -/
theorem showOtp_keeps {β : Type} (g : Dev → β) (hg : ∀ f x d, blockOf (Fld.addr f) = 28 → g (d.setFld f x) = g d) (d : Dev) :
    g d.showOtp = g d := by
  unfold showOtp
  simp only [setOn]
  rw [hg _ _ _ (by decide), hg _ _ _ (by decide), hg _ _ _ (by decide), hg _ _ _ (by decide), hg _ _ _ (by decide),
    hg _ _ _ (by decide)]

/-- What of the device's state a restart sets, besides its words. -/
def startState (d : Dev) : CpuSt × List Host.Cell × EccSt × Bool × Bool × List Busy :=
  (d.cpu, d.mem, d.ecc, d.pwr.booted, d.mgmt.ready, d.mgmt.busy)

theorem cpuAfresh_reg (d : Dev) (a : Nat) : d.cpuAfresh.reg a = d.reg a := rfl

theorem cpuAfresh_state (d : Dev) :
    d.cpuAfresh.startState = (d.cpu.restarted, d.mem, d.ecc, d.pwr.booted, d.mgmt.ready, d.mgmt.busy) := rfl

theorem restartBlocks_reg (hq : restartWord a = false) (hrt : a ≠ R.SYS_RT) (d : Dev) : d.restartBlocks.reg a = d.reg a := by
  have hword : ((d.resetWords restartWord).setFld F.SYS_RT_OVR 0).reg a = d.reg a := by
    rw [reg_setFld_ne _ _ _ hrt, reg_resetWords, hq, if_neg Bool.false_ne_true]
  rw [restartBlocks, modMgmt_reg, reg]
  exact hword

theorem withHold_runState (d : Dev) (h : List (Nat × Word)) : ({ d with hold := h } : Dev).runState = d.runState := rfl

theorem restartBlocks_runState (d : Dev) : d.restartBlocks.runState = d.runState := by
  rw [restartBlocks, modMgmt_runState, withHold_runState, setFld_runState, resetWords_runState]

theorem restartBlocks_mgmt (d : Dev) : d.restartBlocks.mgmt.ready = false ∧ d.restartBlocks.mgmt.busy = [] := ⟨rfl, rfl⟩

theorem restartStarted_reg (hq : restartWord a = false) (hrt : a ≠ R.SYS_RT) (hsec : blockOf a ≠ 28) (d : Dev) :
    d.restartStarted.reg a = d.reg a := by
  rw [restartStarted, showOtp_keeps (fun d => d.reg a) fun f x d hf => reg_setFld_ne _ _ _ fun h => hsec (by rw [h]; exact hf),
    cpuAfresh_reg, modPwr_reg, restartBlocks_reg hq hrt]

theorem restartStarted_state (d : Dev) : d.restartStarted.startState = (d.cpu.restarted, d.mem, d.ecc, false, false, []) := by
  obtain ⟨hready, hbusy⟩ := d.restartBlocks_mgmt
  have hrun := restartBlocks_runState d
  simp only [runState, Prod.mk.injEq] at hrun
  obtain ⟨hcpu, hmem, hecc⟩ := hrun
  rw [restartStarted, showOtp_keeps startState fun f x d _ => rfl, cpuAfresh_state, modPwr_cpu, modPwr_mem, modPwr_ecc, modPwr_mgmt,
    hcpu, hmem, hecc, hready, hbusy]
  rfl

end Sys2Proof.Machine.Dev
end

section
/-! SUPPORT. A restart of the management domain as its command takes it (R478, R489, R507, R732). -/

namespace Sys2Proof.Claims

open Sys2Proof.Machine Sys2Proof.Machine.Dev

variable {s : State}

/-- The ledger's words that the statement names, at their reset values. -/
theorem ledger_reset : (∀ m, m < 4 → regReset (R.ECC_CORR m) = 0) ∧
    getBits (regReset R.ECC_SCRUB_STAT) F.ECC_SCRUB_STAT_STATE = 0 := by
  decide +kernel

/-- The DMA words that the statement names, at their reset values. -/
theorem dma_reset : getBits (regReset R.DMA_ACTIVE) F.DMA_ACTIVE_CH = 15 ∧
    ∀ c, c < 8 → getBits (regReset (R.DMA_STAT c)) (F.DMA_STAT_STATE c) = 0 := by
  decide +kernel

section
variable (d : Dev) (k : Nat)

/-- The whole of a restart for cause k. -/
abbrev restarted : Dev := (d.restartRecorded k).restartStopped.restartReset.restartStarted

theorem restarted_reg {a : Nat} (ha : (0x10180000 ≤ a ∧ a < 0x10187F00) ∨ a = R.SYS_MRST) :
    (restarted d k).reg a = (d.restartRecorded k).restartStopped.reg a := by
  have hkept : restartWord a = false ∧ a ≠ R.SYS_RT ∧ blockOf a ≠ 28 ∧ (blockOf a = 24 ∨ a = R.SYS_MRST) := by
    rcases ha with ha | rfl
    · simp only [restartWord, blockOf, Bool.or_eq_false_iff, beq_eq_false_iff_ne, decide_eq_false_iff_not, R.SYS_IRQ_EN, R.SYS_RT]
      refine ⟨⟨⟨?_, ?_⟩, ?_⟩, ?_, ?_, ?_⟩ <;> omega
    · decide
  obtain ⟨hq, hrt, hsec, hreset⟩ := hkept
  rw [restarted, restartStarted_reg hq hrt hsec, restartReset_keeps hreset]

theorem restarted_ledger {a : Nat} (ha : 0x10180000 ≤ a ∧ a < 0x10187F00) (hstat : a ≠ R.ECC_STAT) :
    (restarted d k).reg a = regReset a := by
  rw [restarted_reg d k (.inl ha), restartStopped_ledger ha hstat]

theorem restarted_dma {a : Nat} (ha : 0x10170000 ≤ a ∧ a < 0x10177F00) : (restarted d k).reg a = regReset a := by
  have hkept : restartWord a = false ∧ a ≠ R.SYS_RT ∧ blockOf a ≠ 28 := by
    simp only [restartWord, blockOf, Bool.or_eq_false_iff, beq_eq_false_iff_ne, decide_eq_false_iff_not, R.SYS_IRQ_EN, R.SYS_RT]
    refine ⟨⟨⟨?_, ?_⟩, ?_⟩, ?_, ?_⟩ <;> omega
  obtain ⟨hq, hrt, hsec⟩ := hkept
  rw [restarted, restartStarted_reg hq hrt hsec, restartReset_dma ha]

theorem restarted_cause (hk : k < 16) : (restarted d k).fld F.SYS_MRST_CAUSE = k ∧
    (restarted d k).fld F.SYS_MRST_COUNT = (d.fld F.SYS_MRST_COUNT + 1) % 2 ^ 16 := by
  have hword (f : Fld) (hf : f.addr = R.SYS_MRST) : (restarted d k).fld f = (d.restartRecorded k).fld f := by
    rw [fld, fld, hf, restarted_reg d k (.inr rfl), restartStopped_other (by decide)]
  rw [hword _ rfl, hword _ rfl]
  exact restartRecorded_fields k d hk

theorem restarted_state : (restarted d k).cpu = d.cpu.restarted ∧
    (restarted d k).mem = d.mem.filter (fun c => decide (memBase 3 ≤ c.1)) ∧ (restarted d k).ecc.ulog = [] ∧
    (restarted d k).pwr.booted = false ∧ (restarted d k).mgmt.ready = false ∧ (restarted d k).mgmt.busy = [] := by
  obtain ⟨hcpu, hmem, hulog⟩ := restartStopped_runState (d.restartRecorded k)
  have hrecorded := restartRecorded_runState k d
  have hreset := restartReset_runState (d.restartRecorded k).restartStopped
  simp only [runState, Prod.mk.injEq] at hrecorded hreset
  obtain ⟨hcpu₀, hmem₀, -⟩ := hrecorded
  obtain ⟨hcpu₁, hmem₁, hecc₁⟩ := hreset
  have hstate := restartStarted_state (d.restartRecorded k).restartStopped.restartReset
  rw [hcpu₁, hmem₁, hecc₁, hcpu, hmem, hcpu₀, hmem₀] at hstate
  simp only [startState, Prod.mk.injEq] at hstate
  obtain ⟨hcpu', hmem', hecc', hbooted, hready, hbusy⟩ := hstate
  exact ⟨hcpu', hmem', by rw [restarted, hecc', hulog], hbooted, hready, hbusy⟩

end

theorem restartTaken (hs : s.dev.settled = true) : RestartTaken s := by
  have he : exec .managementRestart s = .next (commit s s.dev.managementRestart) := rfl
  refine ⟨fun h => yields_same hs ?_, fun hc hk hm => ?_⟩
  · rw [he, managementRestart_none h]
  · have hdue : s.dev.managementRestart = restarted s.dev s.dev.restartCause := managementRestart_due hc hm
    rw [hdue] at he
    obtain ⟨hcause, hcount⟩ := restarted_cause s.dev s.dev.restartCause hk
    obtain ⟨hcpu, hmem, hulog, hbooted, hready, hbusy⟩ := restarted_state s.dev s.dev.restartCause
    have hscrub : (restarted s.dev s.dev.restartCause).fld F.ECC_SCRUB_STAT_STATE = 0 := by
      rw [fld, restarted_ledger _ _ (by decide) (by decide), ledger_reset.2]
    have hcorr (m : Nat) (hm : m < 4) : (restarted s.dev s.dev.restartCause).reg (R.ECC_CORR m) = 0 := by
      rw [restarted_ledger _ _ (by simp only [R.ECC_CORR]; omega) (by simp only [R.ECC_CORR, R.ECC_STAT]; omega), ledger_reset.1 m hm]
    have hactive : (restarted s.dev s.dev.restartCause).fld F.DMA_ACTIVE_CH = 15 := by
      rw [fld, restarted_dma _ _ (by decide), dma_reset.1]
    have hstate (c : Nat) (hc : c < 8) : (restarted s.dev s.dev.restartCause).dmaState c = 0 := by
      rw [dmaState, fld, restarted_dma _ _ (by simp only [R.DMA_STAT]; omega), dma_reset.2 c hc]
    generalize restarted s.dev s.dev.restartCause = e at he hcause hcount hcpu hmem hulog hbooted hready hbusy hscrub hcorr hactive hstate
    refine ⟨_, he, ?_, ?_, ?_, ?_, fun m hm => ?_, ?_, ?_, ?_, ?_, ?_, fun c hc => ?_, fun b => ?_, finish_pending _ _ _⟩
    · rw [commit, fld_finish (by decide), hcause]
      rfl
    · rw [commit, fld_finish (by decide), hcount]
    · exact (finish_keeps (fun d => d.ecc.ulog) fun _ => rfl).trans hulog
    · rw [commit, fld_finish (by decide), hscrub]
    · rw [commit, finish_reg _ _ _ (by simp only [R.ECC_CORR, R.MGT_STAT]; omega), hcorr m hm]
    · exact (finish_keeps Dev.cpu fun _ => rfl).trans hcpu
    · exact (finish_keeps (fun d => d.pwr.booted) fun _ => rfl).trans hbooted
    · exact (finish_keeps (fun d => d.mgmt.ready) fun _ => rfl).trans hready
    · exact (finish_keeps (fun d => d.mgmt.busy) fun _ => rfl).trans hbusy
    · rw [commit, fld_finish (by decide), hactive]
    · rw [dmaState, commit, fld_finish (by simp only [R.DMA_STAT, R.MGT_STAT]; omega)]
      exact hstate c hc
    · have hkept : (commit s e).dev.mem = _ := (finish_keeps Dev.mem fun _ => rfl).trans hmem
      have hget := Cells.get_filter zeroByte s.dev.mem (fun b => decide (memBase 3 ≤ b)) b
      rw [hkept, hget]
      by_cases hb : memBase 3 ≤ b
      · rw [if_pos hb, if_pos (decide_eq_true hb)]
      · rw [if_neg hb, if_neg (by simpa using hb)]
        rfl

/-- Settles O42: an interrupt by its conditions, a kick by its register, and a restart by what each of its steps leaves. -/
theorem interruptsAndRestart : Obligations.InterruptsAndRestart :=
  fun _ hs => ⟨memoryErrorTaken hs, interruptsTaken hs, fun _ _ => cpuKicks hs, watchdogExpired hs, restartTaken hs⟩

end Sys2Proof.Claims
end

section
/-! SUPPORT. The processor (R457 to R460, R463, R476): what counting, a write of a CSR and a retirement leave of it, and what a trap
saves. -/

namespace Sys2Proof.Machine.Dev

variable {d e : Dev} {n k : Nat} {v : Word}

/-! ### Reading rules of the CSRs -/

theorem csr_setCsr (n : Nat) (v : Word) (d : Dev) (k : Nat) : (d.setCsr n v).csr k = if k = n then v else d.csr k :=
  Cells.get_put zeroWord d.cpu.csr n k v

@[simp] theorem csr_setCsr_self (n : Nat) (v : Word) (d : Dev) : (d.setCsr n v).csr n = v := by rw [csr_setCsr, if_pos rfl]

theorem csr_setCsr_ne (v : Word) (d : Dev) (h : k ≠ n) : (d.setCsr n v).csr k = d.csr k := by rw [csr_setCsr, if_neg h]

theorem Advances.csr (h : Advances d e) (k : Nat) : e.csr k = d.csr k := by rw [Dev.csr, h.cpu, Dev.csr]

/-! ### The processor apart from its CSRs -/

/-- The processor without its CSRs, and the data bits of every memory. -/
def workState (d : Dev) : CpuSt × List Host.Cell := ({ d.cpu with csr := [] }, d.mem)

theorem Advances.workState (h : Advances d e) : e.workState = d.workState := h.keeps Dev.workState fun _ => rfl

@[simp] theorem setCsr_workState (n : Nat) (v : Word) (d : Dev) : (d.setCsr n v).workState = d.workState := (rfl)

theorem csrAdd_workState (n k : Nat) (d : Dev) : (d.csrAdd n k).workState = d.workState := by
  rw [csrAdd, setCsr_workState, setCsr_workState]

theorem cpuEvent_workState (e k : Nat) (d : Dev) : (d.cpuEvent e k).workState = d.workState :=
  ((Advances.refl d).cpuEvent e k).workState

theorem takeFree_workState (d : Dev) : d.takeFree.2.workState = d.workState := (Advances.refl d).takeFree.workState

theorem retire_workState (d : Dev) : d.retire.workState = d.workState := by
  rw [retire, (Advances.refl _).sampleRetired.workState, csrAdd_workState, cpuEvent_workState]

/-- Retirement counts, and touches no other CSR. -/
theorem retire_csr (d : Dev) (hk : k ≠ csrMINSTRET ∧ k ≠ csrMINSTRET + 0x80) : d.retire.csr k = d.csr k := by
  rw [retire, (Advances.refl _).sampleRetired.csr, csrAdd, csr_setCsr_ne _ _ hk.2, csr_setCsr_ne _ _ hk.1,
    ((Advances.refl d).cpuEvent 2 1).csr]

/-- Whatever a CSR instruction writes, it writes to CSRs. -/
theorem csrWrite_workState (k : Nat) (v : Word) (d : Dev) : (d.csrWrite k v).workState = d.workState := by
  unfold csrWrite mstatusWrite pmpCfgWrite
  dsimp only
  split_ifs
  all_goals simp only [setCsr_workState, takeFree_workState]

theorem csrWrite_plain (v : Word) (d : Dev) (h : csrPlain k = true) : (d.csrWrite k v).csr k = v := by
  rw [csrWrite, if_pos h, csr_setCsr_self]

/-! ### Modes and traps -/

theorem toMode_cpu (u : Bool) (d : Dev) : (d.toMode u).cpu = { d.cpu with user := u } := by
  unfold toMode
  split
  · rfl
  · rw [modCpu, (Advances.refl d).elapse.cpu]

theorem toMode_mem (u : Bool) (d : Dev) : (d.toMode u).mem = d.mem := by
  unfold toMode
  split
  · rfl
  · exact (Advances.refl d).elapse.mem

/-- The CSRs that a trap writes. -/
def trapSaved (epc cause tval status : Word) (d : Dev) : Dev :=
  (((d.setCsr csrMEPC epc).setCsr csrMCAUSE cause).setCsr csrMTVAL tval).setCsr csrMSTATUS status

theorem trapSaved_workState (epc cause tval status : Word) (d : Dev) :
    (d.trapSaved epc cause tval status).workState = d.workState := by
  simp only [trapSaved, setCsr_workState]

theorem trapSaved_csr (epc cause tval status : Word) (d : Dev) :
    (d.trapSaved epc cause tval status).csr csrMEPC = epc ∧ (d.trapSaved epc cause tval status).csr csrMCAUSE = cause ∧
    (d.trapSaved epc cause tval status).csr csrMTVAL = tval ∧ (d.trapSaved epc cause tval status).csr csrMTVEC = d.csr csrMTVEC := by
  simp only [trapSaved, csr_setCsr, csrMEPC, csrMCAUSE, csrMTVAL, csrMSTATUS, csrMTVEC, Nat.reduceEqDiff, if_true, if_false, and_self]

/-- Where a trap goes: a vectored interrupt to its own entry. -/
def vector (intr : Bool) (cause tvec : Nat) : Word :=
  BitVec.ofNat 32 (if intr && tvec % 4 == 1 then tvec - tvec % 4 + 4 * cause else tvec - tvec % 4)

/-- Machine mode is entered at a pc. -/
def enterMachine (pc : Word) (d : Dev) : Dev := (d.toMode false).modCpu fun c => { c with pc := pc }

theorem enterMachine_cpu (pc : Word) (d : Dev) : (d.enterMachine pc).cpu = { d.cpu with user := false, pc := pc } := by
  rw [enterMachine, modCpu, toMode_cpu]

theorem enterMachine_mem (pc : Word) (d : Dev) : (d.enterMachine pc).mem = d.mem := toMode_mem false d

theorem enterMachine_csr (pc : Word) (d : Dev) (k : Nat) : (d.enterMachine pc).csr k = d.csr k := by
  rw [csr, enterMachine_cpu, csr]

/-- `mstatus` after a trap: the interrupt enable and the mode put aside, interrupts off. -/
def trapStatus (st : Nat) (user : Bool) : Word :=
  BitVec.ofNat 32 (st - st / 8 % 2 * 8 - st / 128 % 2 * 128 - st / 2048 % 4 * 2048 + st / 8 % 2 * 128 +
    (if user then 0 else 3 * 2048))

/-- A trap saves what it interrupts and enters machine mode at the vector. -/
theorem trap_steps (cause : Nat) (intr : Bool) (epc tval : Word) (d : Dev) : ∃ e status, Advances d e ∧
    d.trap cause intr epc tval =
      (e.trapSaved epc (BitVec.ofNat 32 (intr.toNat * 2 ^ 31 + cause)) tval status).enterMachine
        (vector intr cause (d.csr csrMTVEC).toNat) := by
  have hcount := (Advances.refl d).cpuEvent (if intr then 9 else 10) 1
  refine ⟨_, trapStatus ((d.cpuEvent (if intr then 9 else 10) 1).csr csrMSTATUS).toNat (d.cpuEvent (if intr then 9 else 10) 1).cpu.user,
    hcount, ?_⟩
  rw [← hcount.csr, ← (trapSaved_csr epc (BitVec.ofNat 32 (intr.toNat * 2 ^ 31 + cause)) tval
    (trapStatus ((d.cpuEvent (if intr then 9 else 10) 1).csr csrMSTATUS).toNat (d.cpuEvent (if intr then 9 else 10) 1).cpu.user) _).2.2.2]
  rfl

end Sys2Proof.Machine.Dev

namespace Sys2Proof.Claims

open Sys2Proof.Machine Sys2Proof.Machine.Dev

variable {s : State} {d e : Dev} {pc v : Word} {rd : Fin 32}

theorem trapTaken (d : Dev) (cause : Nat) (intr : Bool) (epc tval : Word) : TrapTaken d cause intr epc tval := by
  obtain ⟨e, status, hcount, htrap⟩ := trap_steps cause intr epc tval d
  unfold TrapTaken
  rw [htrap]
  have hwork := (trapSaved_workState epc (BitVec.ofNat 32 (intr.toNat * 2 ^ 31 + cause)) tval status e).trans hcount.workState
  obtain ⟨hepc, hcause, htval, -⟩ := trapSaved_csr epc (BitVec.ofNat 32 (intr.toNat * 2 ^ 31 + cause)) tval status e
  simp only [enterMachine_csr, enterMachine_cpu, enterMachine_mem, true_and]
  exact ⟨hepc, hcause, htval, congrArg (fun w => w.1.x) hwork, congrArg Prod.snd hwork, rfl⟩

/-- What an exception leaves: its cause and the pc of the instruction, machine mode, and everything else that the statements name. -/
theorem exception_taken (cause : Nat) (tval : Word) (d : Dev) :
    (d.exception cause tval).csr csrMCAUSE = BitVec.ofNat 32 cause ∧ (d.exception cause tval).csr csrMEPC = d.cpu.ipc ∧
      (d.exception cause tval).cpu.user = false ∧ (d.exception cause tval).cpu.x = d.cpu.x ∧
      (d.exception cause tval).mem = d.mem := by
  obtain ⟨hepc, hcause, -, huser, hx, hmem, -⟩ := trapTaken d cause false d.cpu.ipc tval
  rw [Bool.toNat_false, Nat.zero_mul, Nat.zero_add] at hcause
  exact ⟨hcause, hepc, huser, hx, hmem⟩

theorem exceptionFree_taken (cause : Nat) (d : Dev) :
    (d.exceptionFree cause).csr csrMCAUSE = BitVec.ofNat 32 cause ∧ (d.exceptionFree cause).csr csrMEPC = d.cpu.ipc ∧
      (d.exceptionFree cause).cpu.user = false ∧ (d.exceptionFree cause).cpu.x = d.cpu.x ∧
      (d.exceptionFree cause).mem = d.mem := exception_taken cause d.takeFree.1 d.takeFree.2

theorem insnTraps (d : Dev) (q : Vector EvQ 32) (w : Word) (n : Nat) : InsnTraps d q w n := by
  refine ⟨fun hw => ?_, ?_, ?_, fun hu => ?_⟩
  · have hrun : d.runWord q w =
        (d.modCpu fun c => { c with insn := if isShort w then BitVec.ofNat 32 (w.toNat % 65536) else w }).exceptionFree 2 := by
      simp only [runWord, hw]
    rw [hrun]
    exact exceptionFree_taken 2 _
  · obtain ⟨hcause, htaken⟩ := exception_taken (if d.cpu.user then 8 else 11) 0 d
    refine ⟨hcause.trans ?_, htaken⟩
    cases d.cpu.user <;> rfl
  · exact exceptionFree_taken 3 d
  · rw [runInsn, if_pos hu]
    exact exceptionFree_taken 2 d

/-! ### What an instruction leaves -/

/-- What follows in CSRs and counters changes nothing of what an instruction leaves. -/
theorem Leaves.of_workState {e' : Dev} (h : Leaves d e pc rd v) (he : e'.workState = e.workState) : Leaves d e' pc rd v := by
  have hpc : e'.cpu.pc = e.cpu.pc := congrArg (fun w => w.1.pc) he
  have hx : e'.cpu.x = e.cpu.x := congrArg (fun w => w.1.x) he
  have huser : e'.cpu.user = e.cpu.user := congrArg (fun w => w.1.user) he
  have hop : e'.cpu.op = e.cpu.op := congrArg (fun w => w.1.op) he
  have hmem : e'.mem = e.mem := congrArg Prod.snd he
  unfold Leaves
  rw [hpc, hx, huser, hop, hmem]
  exact h

/-- The pc moves and a register takes its value. -/
theorem leaves_set (d : Dev) (pc : Word) (rd : Fin 32) (v : Word) :
    Leaves d ((d.modCpu fun c => { c with pc := pc }).setX rd v) pc rd v := by
  unfold setX
  split
  · next h => exact ⟨rfl, fun r => by simp [h, modCpu], rfl, rfl, rfl⟩
  · next h =>
    refine ⟨rfl, fun r => ?_, rfl, rfl, rfl⟩
    by_cases hr : r = rd
    · subst hr
      simp [modCpu, h]
    · simp [modCpu, hr, Fin.val_inj, Ne.symm hr]

theorem leaves_writes (d : Dev) (rd : Fin 32) (v : Word) (n : Nat) :
    Leaves d (d.writes rd v n) (d.cpu.pc + BitVec.ofNat 32 n) rd v :=
  (leaves_set d (d.cpu.pc + BitVec.ofNat 32 n) rd v).of_workState (retire_workState _)

theorem leaves_jumps (d : Dev) (rd : Fin 32) (v target : Word) : Leaves d (d.jumps rd v target) target rd v :=
  ((leaves_set d target rd v).of_workState (cpuEvent_workState 5 1 _)).of_workState (retire_workState _)

theorem insnComputes (d : Dev) (q : Vector EvQ 32) (n : Nat) : InsnComputes d q n := by
  refine ⟨fun op rd a b => ?_, fun op rd a k => ?_, fun rd v => ?_, fun rd v => ?_, fun rd off => ?_, fun rd a off => ?_,
    fun c a b off => ?_, ?_, ?_⟩
  case refine_7 =>
    show Leaves d (if c.holds (d.getX a) (d.getX b) then d.jumps 0 0 (d.cpu.pc + off) else d.writes 0 0 n)
      (if c.holds (d.getX a) (d.getX b) then d.cpu.pc + off else d.cpu.pc + BitVec.ofNat 32 n) 0 0
    split
    · exact leaves_jumps d 0 0 _
    · exact leaves_writes d 0 0 n
  case refine_5 => exact leaves_jumps d rd _ _
  case refine_6 => exact leaves_jumps d rd _ _
  all_goals exact leaves_writes d _ _ n

theorem insnWaits (d : Dev) (q : Vector EvQ 32) (n : Nat) : InsnWaits d q n :=
  ⟨fun _ _ _ _ _ => rfl, fun _ _ _ _ => rfl, fun hu => if_neg (by rw [hu]; exact Bool.false_ne_true)⟩

theorem insnCsr (d : Dev) (q : Vector EvQ 32) (op : CsrOp) (k : Nat) (rd src : Fin 32) (imm : Bool) (n : Nat) :
    InsnCsr d q op k rd src imm n := by
  unfold InsnCsr
  intro e wr old v
  have he : e = d.csrInsn q op k rd src imm n := rfl
  refine ⟨fun hopen => ?_, fun hclosed => ?_⟩
  · have hacts : e = if wr then (d.writes rd old n).csrWrite k (op.result old v) else d.writes rd old n :=
      if_neg (by simpa using hopen)
    have hleaves := leaves_writes d rd old n
    refine ⟨?_, fun hwr hplain => ?_⟩
    · rw [hacts]
      split
      · exact hleaves.of_workState (csrWrite_workState _ _ _)
      · exact hleaves
    · rw [hacts, if_pos hwr, csrWrite_plain _ _ hplain]
  · have hacts : e = d.exceptionFree 2 := if_pos (by simpa using hclosed)
    obtain ⟨hcause, hepc, huser, hx, -⟩ := exceptionFree_taken 2 d
    rw [hacts]
    exact ⟨hcause, hepc, huser, hx⟩

/-! ### Fetches and `mret` -/

/-- The device once a fetch has begun. -/
abbrev fetching (d : Dev) (stalled : Nat) : Dev := (d.modCpu fun c => { c with ipc := c.pc, iuser := c.user }).cpuEvent 6 stalled

theorem fetching_advances (d : Dev) (k : Nat) :
    Advances (d.modCpu fun c => { c with ipc := c.pc, iuser := c.user }) (fetching d k) := (Advances.refl _).cpuEvent 6 k

/-- The PMP reads nothing but the mode and the CSRs. -/
theorem pmpAllows_congr (h : e.cpu.csr = d.cpu.csr) : e.pmpAllows = d.pmpAllows := by
  have hcsr (k : Nat) : e.csr k = d.csr k := by rw [csr, h, csr]
  have hcfg : e.pmpCfg = d.pmpCfg := funext fun i => by rw [pmpCfg, hcsr, pmpCfg]
  have haddr : e.pmpAddr = d.pmpAddr := funext fun i => by rw [pmpAddr, hcsr, pmpAddr]
  have hrange : e.pmpRange = d.pmpRange := funext fun i => by simp only [pmpRange, hcfg, haddr]
  funext user a n p
  simp only [pmpAllows, hcfg, hrange]

theorem fetching_state (d : Dev) (k : Nat) : (fetching d k).cpu.user = d.cpu.user ∧ (fetching d k).pmpAllows = d.pmpAllows ∧
    (fetching d k).mem = d.mem ∧ (fetching d k).chk = d.chk := by
  have h := fetching_advances d k
  exact ⟨by rw [h.cpu]; rfl, pmpAllows_congr (by rw [h.cpu]; rfl), h.mem, h.chk⟩

/-- What a fetch that has begun does at its pc. -/
def fetchAt (q : Vector EvQ 32) (pc : Nat) (d : Dev) : Dev :=
  if !fetchRegion pc 2 || !d.pmpAllows d.cpu.user pc 2 2 then d.exception 1 (BitVec.ofNat 32 pc)
  else
    let (w, d) := if 0x80000 ≤ pc then (let (x, d) := d.takeFree; (Except.ok x, d)) else d.fetchWord pc
    match w with
    | .error a => d.fetchDamaged a
    | .ok w =>
      if !isShort w && (!fetchRegion (pc + 2) 2 || !d.pmpAllows d.cpu.user (pc + 2) 2 2) then
        d.exception 1 (BitVec.ofNat 32 (pc + 2))
      else d.runWord q w

theorem fetch_begun (q : Vector EvQ 32) (k : Nat) (hb : d.between = true) :
    d.fetch q k = fetchAt q d.cpu.pc.toNat (fetching d k) := if_neg (by simp [hb])

theorem fetchAt_faults (q : Vector EvQ 32) {a : Nat} (h : fetchRegion a 2 = false ∨ d.pmpAllows d.cpu.user a 2 2 = false) :
    fetchAt q a d = d.exception 1 (BitVec.ofNat 32 a) := if_pos (by rcases h with h | h <;> simp [h])

theorem fetchWord_clean {a : Nat} (halign : a % 4 = 0) (h : classifyWord (d.memWord a) (d.memCheck a) = .clean) :
    d.fetchWord a = (.ok (d.memWord a), d) := by
  have hword : a - a % 4 = a := by omega
  rw [fetchWord, hword, readMem_clean h]
  exact if_pos halign

theorem fetchAt_runs (q : Vector EvQ 32) {a : Nat} (halign : a % 4 = 0) (hregion : a + 4 ≤ 0x80000)
    (hlow : d.pmpAllows d.cpu.user a 2 2 = true) (hhigh : d.pmpAllows d.cpu.user (a + 2) 2 2 = true)
    (hclean : classifyWord (d.memWord a) (d.memCheck a) = .clean) : fetchAt q a d = d.runWord q (d.memWord a) := by
  have hin : fetchRegion a 2 = true ∧ fetchRegion (a + 2) 2 = true := by
    simp only [fetchRegion, Bool.or_eq_true, decide_eq_true_eq]
    omega
  have hsram : ¬ 0x80000 ≤ a := by omega
  rw [fetchAt, if_neg (by simp [hin, hlow]), if_neg hsram, fetchWord_clean halign hclean]
  exact if_neg (by simp [hin, hhigh])

theorem fetchRuns (s : State) (k : Nat) : FetchRuns s k := by
  unfold FetchRuns
  intro pc hb halign hregion hlow hhigh hclean
  have he : exec (.instructionFetch k) s = .next (commit s (s.dev.fetch s.evq k)) := rfl
  obtain ⟨huser, hpmp, hmem, hchk⟩ := fetching_state s.dev k
  have hword : (fetching s.dev k).memWord pc = s.dev.memWord pc := by rw [memWord, hmem, memWord]
  have hcheck : (fetching s.dev k).memCheck pc = s.dev.memCheck pc := by rw [memCheck, hchk, memCheck]
  refine ⟨_, he, congrArg (commit s) ?_⟩
  rw [fetch_begun _ _ hb, fetchAt_runs _ halign hregion (by rw [hpmp, huser]; exact hlow) (by rw [hpmp, huser]; exact hhigh)
    (by rw [hword, hcheck]; exact hclean), hword]

theorem fetchFaults (s : State) (k : Nat) : FetchFaults s k := by
  intro hb hfault
  have he : exec (.instructionFetch k) s = .next (commit s (s.dev.fetch s.evq k)) := rfl
  obtain ⟨huser, hpmp, -, -⟩ := fetching_state s.dev k
  refine ⟨_, he, congrArg (commit s) ?_⟩
  rw [fetch_begun _ _ hb, fetchAt_faults _ (by rw [hpmp, huser]; exact hfault), BitVec.ofNat_toNat, BitVec.setWidth_eq]

/-- `mret` retires, gives back the interrupt enable, the mode and the pc, and clears the memory-error flag. -/
theorem mret_steps (hx : d.executing = true) (hop : d.cpu.op = some .mret) : ∃ e : Dev, e.workState = d.workState ∧
    e.csr csrMEPC = d.csr csrMEPC ∧ d.mret = (e.toMode ((d.csr csrMSTATUS).toNat / 2048 % 4 != 3)).modCpu fun c =>
      { c with op := none, pc := e.csr csrMEPC, memFlag := false } := by
  have hgo : ¬ ((!d.executing || d.cpu.op != some .mret) = true) := by simp [hx, hop]
  exact ⟨_, (setCsr_workState _ _ _).trans (retire_workState d),
    (csr_setCsr_ne _ _ (by decide)).trans (retire_csr d (by decide)), if_neg hgo⟩

theorem mret_state (hx : d.executing = true) (hop : d.cpu.op = some .mret) : d.mret.cpu.pc = d.csr csrMEPC ∧
    d.mret.cpu.user = ((d.csr csrMSTATUS).toNat / 2048 % 4 != 3) ∧ d.mret.cpu.memFlag = false ∧ d.mret.cpu.op = none ∧
    d.mret.cpu.x = d.cpu.x ∧ d.mret.mem = d.mem := by
  obtain ⟨e, hwork, hepc, hmret⟩ := mret_steps hx hop
  rw [hmret, modCpu, toMode_cpu, toMode_mem]
  exact ⟨hepc, rfl, rfl, rfl, congrArg (fun w => w.1.x) hwork, congrArg Prod.snd hwork⟩

theorem mretReturns (s : State) : MretReturns s := by
  intro hx hop
  have he : exec .mret s = .next (commit s s.dev.mret) := rfl
  have hcpu : (commit s s.dev.mret).dev.cpu = s.dev.mret.cpu := finish_keeps Dev.cpu fun _ => rfl
  have hmem : (commit s s.dev.mret).dev.mem = s.dev.mret.mem := finish_keeps Dev.mem fun _ => rfl
  obtain ⟨hpc, huser, hflag, hnone, hregs, hkept⟩ := mret_state hx hop
  refine ⟨_, he, ?_⟩
  simp only [hcpu, hmem]
  exact ⟨hpc, huser, hflag, hnone, hregs, hkept, finish_pending _ _ _⟩

/-- Settles O40: a fetch by what its word is and what the PMP allows, an instruction by what it leaves of the processor apart from
its CSRs, and a trap and `mret` by the CSRs that they write. -/
theorem instructionsRetire : Obligations.InstructionsRetire := fun s _ =>
  ⟨fun k => ⟨fetchRuns s k, fetchFaults s k⟩, fun d q n => ⟨insnComputes d q n, insnWaits d q n⟩, insnCsr, insnTraps, trapTaken,
    mretReturns s⟩

end Sys2Proof.Claims
end

section
/-! SUPPORT. The stored bytes of a word and its check bits (R469, R475): what a store leaves in them, and elsewhere. -/

namespace Sys2Proof.Machine

theorem bytesWord_wordBytes (v : Word) : bytesWord (wordBytes v) = v := by
  have hv := v.isLt
  apply BitVec.eq_of_toNat_eq
  simp only [bytesWord, wordBytes, List.range_succ, List.range_zero, List.nil_append, List.cons_append, List.map_cons, List.map_nil,
    List.take_succ_cons, List.take_zero, List.reverse_cons, List.reverse_nil, List.foldl_cons, List.foldl_nil,
    BitVec.extractLsb'_toNat, BitVec.toNat_ofNat, Nat.shiftRight_eq_div_pow]
  omega

namespace Dev

variable {d : Dev} {a b : Nat}

/-- The stored bytes once a word has been put: its own four, and the others as before. -/
theorem mem_putWord (a : Nat) (v : Word) (d : Dev) (b : Nat) : Cells.get zeroByte (d.putWord a v).mem b =
    if a ≤ b ∧ b < a + 4 then v.extractLsb' (8 * (b - a)) 8 else Cells.get zeroByte d.mem b := by
  have hput : (d.putWord a v).mem = Cells.put zeroByte (Cells.put zeroByte (Cells.put zeroByte (Cells.put zeroByte d.mem
      (a + 0) (v.extractLsb' (8 * 0) 8)) (a + 1) (v.extractLsb' (8 * 1) 8)) (a + 2) (v.extractLsb' (8 * 2) 8))
      (a + 3) (v.extractLsb' (8 * 3) 8) := rfl
  rw [hput, Cells.get_put, Cells.get_put, Cells.get_put, Cells.get_put]
  by_cases hin : a ≤ b ∧ b < a + 4
  · obtain ⟨k, rfl⟩ := Nat.exists_eq_add_of_le hin.1
    have hk : k = 0 ∨ k = 1 ∨ k = 2 ∨ k = 3 := by omega
    rcases hk with rfl | rfl | rfl | rfl <;> simp
  · rw [if_neg hin, if_neg (by omega), if_neg (by omega), if_neg (by omega), if_neg (by omega)]

theorem memWord_putWord (a : Nat) (v : Word) (d : Dev) : (d.putWord a v).memWord a = v := by
  have hbytes : ((List.range 4).map fun k => Cells.get zeroByte (d.putWord a v).mem (a + k)) = wordBytes v := by
    refine List.map_congr_left fun k hk => ?_
    have hk4 := List.mem_range.mp hk
    rw [mem_putWord, if_pos (by omega), Nat.add_sub_cancel_left]
  rw [memWord, hbytes, bytesWord_wordBytes]

theorem memWord_putWord_ne (v : Word) (d : Dev) (h : b + 4 ≤ a ∨ a + 4 ≤ b) : (d.putWord a v).memWord b = d.memWord b := by
  have hbytes : ((List.range 4).map fun k => Cells.get zeroByte (d.putWord a v).mem (b + k)) =
      (List.range 4).map fun k => Cells.get zeroByte d.mem (b + k) := by
    refine List.map_congr_left fun k hk => ?_
    have hk4 := List.mem_range.mp hk
    rw [mem_putWord, if_neg (by omega)]
  rw [memWord, hbytes, memWord]

/-! ### A store with new check bits -/

theorem storeWord_mem (a : Nat) (v : Word) (d : Dev) : (d.storeWord a v).mem = (d.putWord a v).mem := rfl

theorem memWord_storeWord (a : Nat) (v : Word) (d : Dev) : (d.storeWord a v).memWord a = v := by
  rw [memWord, storeWord_mem]
  exact memWord_putWord a v d

theorem memWord_storeWord_ne (v : Word) (d : Dev) (h : b + 4 ≤ a ∨ a + 4 ≤ b) : (d.storeWord a v).memWord b = d.memWord b := by
  rw [memWord, storeWord_mem]
  exact memWord_putWord_ne v d h

theorem memCheck_storeWord (a : Nat) (v : Word) (d : Dev) (b : Nat) :
    (d.storeWord a v).memCheck b = if b = a then checkBits v % 256 else d.memCheck b := by
  have hchk : (d.storeWord a v).chk = Cells.put zeroByte d.chk a (BitVec.ofNat 8 (checkBits v)) := rfl
  rw [memCheck, hchk, Cells.get_put]
  split
  · rw [BitVec.toNat_ofNat]
  · rfl

end Dev

end Sys2Proof.Machine
end

section
/-! SUPPORT. Loads and stores of the processor (R458, R463, R472, R475, R591) by the region that the address leads to. -/

namespace Sys2Proof.Machine.Dev

variable {d : Dev} {q : Vector EvQ 32} {a : Nat} {w : Width} {sext : Bool} {rd : Fin 32} {v : Word} {c : AccessClocks}

/-- A loaded value goes to its register, and the load retires. -/
abbrev loaded (rd : Fin 32) (v : Word) (d : Dev) : Dev := ((d.setX rd v).cpuEvent 3 1).retire

/-- An aligned load that the PMP allows, by its region. -/
def loadRegion (q : Vector EvQ 32) (a : Nat) (w : Width) (sext : Bool) (rd : Fin 32) (d : Dev) : Region → Dev
  | .sram m =>
    let (v, bad, e) := d.readMem m (a - a % 4) srcLoad
    if bad then (loaded rd 0 e).modCpu fun c => { c with memPend := true } else loaded rd (extend w sext (narrowRead a w v)) e
  | .rom => loaded rd (extend w sext (narrowRead 0 w d.takeFree.1)) d.takeFree.2
  | .regs =>
    let e := d.busRead q d.cpuMaster a w
    if e.busRes = .off then e.exception 5 (BitVec.ofNat 32 a)
    else if e.busRes = .bad ∧ isAlias a ∧ w ≠ .word then e.exception 4 (BitVec.ofNat 32 a)
    else loaded rd (extend w sext e.busWord) e
  | .nowhere => d.exception 5 (BitVec.ofNat 32 a)

theorem loadAt_misaligned (h : a % widthBytes w ≠ 0) : d.loadAt q a w sext rd c =
    ((d.accessClocks c).when (regionOf a == .regs) (badAccess a)).exception 4 (BitVec.ofNat 32 a) := if_pos h

theorem loadAt_denied (hw : a % widthBytes w = 0)
    (h : (d.accessClocks c).pmpAllows (d.accessClocks c).dataUser a (widthBytes w) 0 = false) :
    d.loadAt q a w sext rd c = (d.accessClocks c).exception 5 (BitVec.ofNat 32 a) :=
  (if_neg (not_not.mpr hw)).trans (if_pos (by rw [h]; rfl))

theorem loadAt_allowed (hw : a % widthBytes w = 0)
    (h : (d.accessClocks c).pmpAllows (d.accessClocks c).dataUser a (widthBytes w) 0 = true) :
    d.loadAt q a w sext rd c = (d.accessClocks c).loadRegion q a w sext rd (regionOf a) := by
  refine (if_neg (not_not.mpr hw)).trans ((if_neg (by rw [h]; decide)).trans ?_)
  cases regionOf a <;> rfl

/-- An aligned store that the PMP allows, by its region. -/
def storeRegion (a : Nat) (w : Width) (v : Word) (d : Dev) : Region → Dev
  | .sram m =>
    ((if w = .word then d.cpuStoreWord m a v else d.partialStore m (a - a % 4) (a % 4) (widthBytes w) v).cpuEvent 4 1).retire
  | .regs =>
    let e := d.busWrite d.cpuMaster a w v
    if e.busRes = .off then e.exception 7 (BitVec.ofNat 32 a)
    else if e.busRes = .bad ∧ isAlias a ∧ w ≠ .word then e.exception 6 (BitVec.ofNat 32 a)
    else (e.cpuEvent 4 1).retire
  | .rom | .nowhere => d.exception 7 (BitVec.ofNat 32 a)

theorem storeAt_misaligned (h : a % widthBytes w ≠ 0) : d.storeAt a w v c =
    ((d.accessClocks c).when (regionOf a == .regs) (badAccess a)).exception 6 (BitVec.ofNat 32 a) := if_pos h

theorem storeAt_denied (hw : a % widthBytes w = 0)
    (h : (d.accessClocks c).pmpAllows (d.accessClocks c).dataUser a (widthBytes w) 1 = false) :
    d.storeAt a w v c = (d.accessClocks c).exception 7 (BitVec.ofNat 32 a) :=
  (if_neg (not_not.mpr hw)).trans (if_pos (by rw [h]; rfl))

theorem storeAt_allowed (hw : a % widthBytes w = 0)
    (h : (d.accessClocks c).pmpAllows (d.accessClocks c).dataUser a (widthBytes w) 1 = true) :
    d.storeAt a w v c = (d.accessClocks c).storeRegion a w v (regionOf a) := by
  refine (if_neg (not_not.mpr hw)).trans ((if_neg (by rw [h]; decide)).trans ?_)
  cases regionOf a <;> rfl

/-! ### What waits for STANDBY (R591) -/

/-- The access of a load or a store is judged by the PMP as it is before its stalls are counted. -/
theorem pmp_counted (d : Dev) (c : AccessClocks) : (d.opDone.accessClocks c).pmpAllows = d.pmpAllows ∧
    (d.opDone.accessClocks c).dataUser = d.dataUser := by
  have hcpu := ((Advances.refl d.opDone).accessClocks c).cpu
  refine ⟨Claims.pmpAllows_congr (by rw [hcpu]; rfl), ?_⟩
  rw [dataUser, csr, hcpu]
  rfl

theorem waiting_other {read : Bool} (h : regionOf a ≠ .regs) : d.waiting a w read = false := by
  rw [waiting, beq_eq_false_iff_ne.mpr h, Bool.false_and, Bool.false_and]

theorem waiting_denied {read : Bool} (h : d.pmpAllows d.dataUser a (widthBytes w) (if read then 0 else 1) = false) :
    d.waiting a w read = false := by
  rw [waiting, h, Bool.and_false, Bool.false_and]

end Sys2Proof.Machine.Dev

namespace Sys2Proof.Claims

open Sys2Proof.Machine Sys2Proof.Machine.Dev

variable {s : State} {p : Word} {w : Width} {sext : Bool} {rd : Fin 32} {v : Word} {k : AccessClocks}

theorem exec_load (hx : s.dev.executing = true) (hop : s.dev.cpu.op = some (.load rd p w sext)) :
    exec (.processorLoad k) s = .next (commit s (if s.dev.waiting p.toNat w true then s.dev
      else s.dev.opDone.loadAt s.evq p.toNat w sext rd k)) := by
  have he : exec (.processorLoad k) s = .next (commit s (s.dev.load s.evq k)) := rfl
  rw [he, load, if_neg (by simp [hx]), hop]

theorem exec_store (hx : s.dev.executing = true) (hop : s.dev.cpu.op = some (.store p w v)) :
    exec (.processorStore k) s = .next (commit s (if s.dev.waiting p.toNat w false then s.dev
      else s.dev.opDone.storeAt p.toNat w v k)) := by
  have he : exec (.processorStore k) s = .next (commit s (s.dev.store k)) := rfl
  rw [he, store, if_neg (by simp [hx]), hop]

theorem ends_load {e : Dev} (hx : s.dev.executing = true) (hop : s.dev.cpu.op = some (.load rd p w sext))
    (hw : s.dev.waiting p.toNat w true = false) (h : s.dev.opDone.loadAt s.evq p.toNat w sext rd k = e) :
    Ends (.processorLoad k) s e := ⟨_, exec_load hx hop, by rw [hw, if_neg Bool.false_ne_true, h]⟩

theorem ends_store {e : Dev} (hx : s.dev.executing = true) (hop : s.dev.cpu.op = some (.store p w v))
    (hw : s.dev.waiting p.toNat w false = false) (h : s.dev.opDone.storeAt p.toNat w v k = e) :
    Ends (.processorStore k) s e := ⟨_, exec_store hx hop, by rw [hw, if_neg Bool.false_ne_true, h]⟩

theorem loads (s : State) (p : Word) (w : Width) (sext : Bool) (rd : Fin 32) (k : AccessClocks) : Loads s p w sext rd k := by
  unfold Loads
  intro a d hx hop
  obtain ⟨hpmp, huser⟩ := pmp_counted s.dev k
  have hdenied (h : d.pmpAllows d.dataUser a (widthBytes w) 0 = false) : s.dev.waiting a w true = false :=
    waiting_denied (by rw [← hpmp, ← huser]; exact h)
  refine ⟨fun hw hr => ?misaligned, fun m hw hp hr => ?sram, fun hw hp hr => ?rom, fun hw hp hr => ?nowhere, fun hw hp => ?denied⟩
  case misaligned =>
    refine ends_load hx hop (waiting_other hr) ((loadAt_misaligned hw).trans ?_)
    rw [beq_eq_false_iff_ne.mpr hr]
    rfl
  case sram =>
    have hload := (loadAt_allowed (q := s.evq) (sext := sext) (rd := rd) hw hp).trans (by rw [hr])
    refine ⟨fun hd => ends_load hx hop (waiting_other (by rw [hr]; nofun)) (hload.trans ?_),
      fun hd => ends_load hx hop (waiting_other (by rw [hr]; nofun)) (hload.trans ?_)⟩
    · exact if_neg (by rw [hd]; exact Bool.false_ne_true)
    · exact if_pos hd
  case rom => exact ends_load hx hop (waiting_other (by rw [hr]; nofun)) ((loadAt_allowed hw hp).trans (by rw [hr]; rfl))
  case nowhere => exact ends_load hx hop (waiting_other (by rw [hr]; nofun)) ((loadAt_allowed hw hp).trans (by rw [hr]; rfl))
  case denied => exact ends_load hx hop (hdenied hp) (loadAt_denied hw hp)

theorem loadsRegister (hs : s.dev.settled = true) (p : Word) (w : Width) (sext : Bool) (rd : Fin 32) (k : AccessClocks) :
    LoadsRegister s p w sext rd k := by
  unfold LoadsRegister
  intro a d e t hx hop hr
  refine ⟨fun hwait => yields_same hs ?_, fun hwait => ⟨fun hw => ?misaligned, fun hw hp => ?denied, fun hw hp => ?_⟩⟩
  · rw [exec_load hx hop, if_pos hwait]
  case misaligned =>
    refine ends_load hx hop hwait ((loadAt_misaligned hw).trans ?_)
    rw [show regionOf p.toNat = .regs from hr]
    rfl
  case denied => exact ends_load hx hop hwait (loadAt_denied hw hp)
  have hload : s.dev.opDone.loadAt s.evq p.toNat w sext rd k = d.loadRegion s.evq a w sext rd .regs :=
    (loadAt_allowed hw hp).trans (by rw [show regionOf p.toNat = .regs from hr])
  refine ⟨fun hoff => ?_, fun hbad hl hword => ?_, fun hoff hbad => ?_⟩
  · exact ends_load hx hop hwait (hload.trans (if_pos hoff))
  · exact ends_load hx hop hwait (hload.trans ((if_neg (by rw [hbad]; nofun)).trans (if_pos ⟨hbad, hl, hword⟩)))
  · have hgood : ¬ (e.busRes = .bad ∧ isAlias a = true ∧ w ≠ .word) := fun ⟨hb, hl, hword⟩ =>
      (hbad hb).elim (fun h => by rw [hl] at h; exact absurd h nofun) hword
    exact ends_load hx hop hwait (hload.trans ((if_neg hoff).trans (if_neg hgood)))

theorem stores (hs : s.dev.settled = true) (p : Word) (w : Width) (v : Word) (k : AccessClocks) : Stores s p w v k := by
  unfold Stores
  intro a d hx hop
  obtain ⟨hpmp, huser⟩ := pmp_counted s.dev k
  refine ⟨fun hw hr => ?misaligned, fun hw hr hwait => ?unaligned, fun hw hp => ?denied, fun hw hp => ?_⟩
  case misaligned =>
    refine ends_store hx hop (waiting_other hr) ((storeAt_misaligned hw).trans ?_)
    rw [beq_eq_false_iff_ne.mpr hr]
    rfl
  case unaligned =>
    refine ends_store hx hop hwait ((storeAt_misaligned hw).trans ?_)
    rw [show regionOf p.toNat = .regs from hr]
    rfl
  case denied =>
    have hwait : s.dev.waiting a w false = false := waiting_denied (by rw [← hpmp, ← huser]; exact hp)
    exact ends_store hx hop hwait (storeAt_denied hw hp)
  have hstore {r : Region} (hr : regionOf a = r) : s.dev.opDone.storeAt p.toNat w v k = d.storeRegion a w v r :=
    (storeAt_allowed hw hp).trans (by rw [show regionOf p.toNat = r from hr])
  refine ⟨fun m hr hword => ?word, fun m hr hword => ?part, fun hr hwait => yields_same hs ?_, fun hr hwait => ?_, fun hr => ?nowhere⟩
  case word =>
    refine ends_store hx hop (waiting_other (by rw [hr]; nofun)) ((hstore hr).trans ?_)
    rw [storeRegion, if_pos hword]
  case part =>
    refine ends_store hx hop (waiting_other (by rw [hr]; nofun)) ((hstore hr).trans ?_)
    rw [storeRegion, if_neg hword]
  case nowhere =>
    have hother : s.dev.waiting a w false = false := waiting_other (by rcases hr with h | h <;> rw [h] <;> nofun)
    rcases hr with hr | hr <;> exact ends_store hx hop hother (hstore hr)
  · rw [exec_store hx hop, if_pos hwait]
  · intro e
    refine ⟨fun hoff => ?_, fun hbad hl hword => ?_, fun hoff hbad => ?_⟩
    · exact ends_store hx hop hwait ((hstore hr).trans (if_pos hoff))
    · exact ends_store hx hop hwait ((hstore hr).trans ((if_neg (by rw [hbad]; nofun)).trans (if_pos ⟨hbad, hl, hword⟩)))
    · have hgood : ¬ (e.busRes = .bad ∧ isAlias a = true ∧ w ≠ .word) := fun ⟨hb, hl, hword⟩ =>
        (hbad hb).elim (fun h => by rw [hl] at h; exact absurd h nofun) hword
      exact ends_store hx hop hwait ((hstore hr).trans ((if_neg hoff).trans (if_neg hgood)))

theorem wordStored (d : Dev) (m a : Nat) (v : Word) : WordStored d m a v := by
  intro _ hinj
  have hstore : d.cpuStoreWord m a v = d.storeWord a v := if_pos (by rw [hinj]; rfl)
  simp only [hstore]
  refine ⟨memWord_storeWord a v d, ?_, fun b hb => ?_, rfl, rfl⟩
  · rw [memCheck_storeWord, if_pos rfl]
  · rw [storeWord_mem, mem_putWord, if_neg (by omega)]

theorem memoryRead (d : Dev) (m : Fin 4) (a src : Nat) : MemoryRead d m a src := by
  refine ⟨readMem_clean, fun b h => readMem_correctable h, fun h => ?_, fun h => ?_⟩
  · simp only [readMem, h]
  · simp only [readMem, h]

/-- Settles O41: an access by its alignment, what the PMP says and its region, and a word by what is stored of it. -/
theorem loadsAndStores : Obligations.LoadsAndStores := fun s hs =>
  ⟨fun p w x rd k => ⟨loads s p w x rd k, loadsRegister hs p w x rd k⟩, stores hs, wordStored, memoryRead⟩

end Sys2Proof.Claims
end

section
/-! SUPPORT. A correctable word of the journal as the start-up sequence meets it: where one event is a lasting fault (R479), the read of
the check at start (R651) has the row copied to its spare (R481), which stores the corrected word. -/

namespace Sys2Proof.Machine.Dev

variable {d e : Dev} {a m : Nat} {b : Nat}

/-- What the memories and the fault windows are in. -/
def faultState (d : Dev) : List Host.Cell × List Host.Cell × EccSt × List Bucket × List (Nat × Word) :=
  (d.mem, d.chk, d.ecc, d.flt, d.live)

@[simp] theorem setFld_faultState (f : Fld) (x : Nat) (d : Dev) : (d.setFld f x).faultState = d.faultState := (rfl)
@[simp] theorem bump_faultState (a : Nat) (d : Dev) : (d.bump a).faultState = d.faultState := (rfl)
@[simp] theorem raise_faultState (b c l : Nat) (d : Dev) : (d.raise b c l).faultState = d.faultState := (rfl)
@[simp] theorem modPwr_faultState (f : PwrSt → PwrSt) (d : Dev) : (d.modPwr f).faultState = d.faultState := (rfl)
@[simp] theorem modSec_faultState (f : SecSt → SecSt) (d : Dev) : (d.modSec f).faultState = d.faultState := (rfl)

theorem countCorr_faultState (m : Nat) (d : Dev) : (d.countCorr m).faultState = d.faultState := by
  rw [countCorr, ((Advances.refl _).devEvent 12 1).keeps faultState fun _ => rfl, bump_faultState]

theorem bump_mem (a : Nat) (d : Dev) : (d.bump a).mem = d.mem := (rfl)

theorem bump_chk (a : Nat) (d : Dev) : (d.bump a).chk = d.chk := (rfl)

/-- The classes of the stored words follow what the memories hold. -/
def wordClass (d : Dev) (a : Nat) : WordClass := classifyWord (d.memWord a) (d.memCheck a)

theorem words_of_stores (hmem : e.mem = d.mem) (hchk : e.chk = d.chk) (a : Nat) :
    e.memWord a = d.memWord a ∧ e.wordClass a = d.wordClass a := by
  have hword : e.memWord a = d.memWord a := by rw [memWord, hmem, memWord]
  have hcheck : e.memCheck a = d.memCheck a := by rw [memCheck, hchk, memCheck]
  exact ⟨hword, by rw [wordClass, hword, hcheck, wordClass]⟩

/-- A store leaves the other words as they were. -/
theorem words_storeWord_ne {v : Word} (h : b + 4 ≤ a ∨ a + 4 ≤ b) :
    (d.storeWord a v).memWord b = d.memWord b ∧ (d.storeWord a v).wordClass b = d.wordClass b := by
  have hword := memWord_storeWord_ne v d h
  have hcheck : (d.storeWord a v).memCheck b = d.memCheck b := by rw [memCheck_storeWord, if_neg (by omega)]
  exact ⟨hword, by rw [wordClass, hword, hcheck, wordClass]⟩

/-! ### Copies of clean words, and of one that waits corrected -/

theorem copyWord_clean (h : d.wordClass a = .clean) : d.copyWord m a = d := by
  rw [wordClass] at h
  simp only [copyWord, h]

/-- A correctable word whose event was counted since it was written is no event again. -/
theorem copyWord_seen (h : d.wordClass a = .correctable b) (hs : d.ecc.track.any (fun t => t.key == a && t.seen) = true) :
    d.copyWord m a = (d.countCorr m).storeWord a (invertBit (d.memWord a) b) := by
  have hkept := countCorr_faultState m d
  simp only [faultState, Prod.mk.injEq] at hkept
  obtain ⟨-, -, hecc, -⟩ := hkept
  rw [wordClass] at h
  simp only [copyWord, h]
  rw [wordEventAs, if_pos (by rw [hecc, hs]; rfl)]

theorem each_cons {α : Type} (x : α) (l : List α) (f : α → Dev → Dev) (d : Dev) : d.each (x :: l) f = (f x d).each l f := rfl

theorem each_copy_clean {l : List Nat} {f : Nat → Nat} (h : ∀ k ∈ l, d.wordClass (f k) = .clean) :
    d.each l (fun k d => d.copyWord m (f k)) = d := by
  induction l with
  | nil => rfl
  | cons k l ih =>
    rw [each_cons, copyWord_clean (h k List.mem_cons_self)]
    exact ih fun x hx => h x (List.mem_cons_of_mem k hx)

/-- Words that are all clean read as they stand and change nothing. -/
theorem readWords_clean {src : Nat} {l : List Nat} (h : ∀ a ∈ l, d.wordClass a = .clean) :
    d.readWords m src l = (l.map d.memWord, d) := by
  induction l with
  | nil => rfl
  | cons a l ih =>
    have hread : d.readMem m a src = (d.memWord a, false, d) := Claims.readMem_clean (h a List.mem_cons_self)
    rw [readWords, hread]
    simp only [ih fun x hx => h x (List.mem_cons_of_mem a hx), List.map_cons]

/-! ### An event that is a lasting fault at once (R479, R659) -/

theorem charge_lasting {c i : Nat} (action : Dev → Dev) (hf : d.flt = []) (ht : d.faultT c = 1) :
    d.charge c i action = action ((d.setBucket ⟨c, i, 1, d.faultPeriod c + 1, true⟩).reportLasting c i) := by
  have hb : d.bucket c i = ⟨c, i, 0, 0, false⟩ := by rw [bucket, hf]; rfl
  have hleak : d.leak c i = d := by rw [leak, hb]; rfl
  unfold charge
  simp only [hleak, hb, ht]
  rfl

/-- The stored words and the books of their errors. -/
def memories (d : Dev) : List Host.Cell × List Host.Cell × EccSt := (d.mem, d.chk, d.ecc)

theorem setBucket_memories (b : Bucket) (d : Dev) : (d.setBucket b).memories = d.memories := rfl

theorem memories_congr (h : e.faultState = d.faultState) : e.memories = d.memories := by
  simp only [faultState, Prod.mk.injEq] at h
  rw [memories, h.1, h.2.1, h.2.2.1, memories]

theorem reportLasting_memories (c i : Nat) (d : Dev) : (d.reportLasting c i).memories = d.memories :=
  memories_congr (by rw [reportLasting, raise_faultState, setFld_faultState, setFld_faultState, bump_faultState])

/-- The first event of a word where one makes a lasting fault: its slot's action is taken on what the memories then hold. -/
theorem wordEvent_lasting (hn : d.ecc.track = []) (hf : d.flt = []) (ht : d.faultT 8 = 1) :
    ∃ e : Dev, d.wordEvent a false = e.slotLasting 0 ∧
      e.memories = (d.mem, d.chk, { d.ecc with track := [⟨a, 0, true⟩] }) := by
  have htrack : d.trackWord a = (0, d.modEcc fun e => { e with track := [⟨a, 0, true⟩] }) := by
    simp only [trackWord, hn, List.find?_nil, List.length_nil, Nat.zero_lt_succ, if_true, List.all_nil, modEcc, List.nil_append]
    rfl
  have hevent : d.wordEvent a false = (d.modEcc fun e => { e with track := [⟨a, 0, true⟩] }).charge 8 0 (slotLasting 0) := by
    rw [wordEvent, wordEventAs, hn, htrack]
    rfl
  rw [hevent, charge_lasting (d := d.modEcc fun e => { e with track := [⟨a, 0, true⟩] }) _ hf ht]
  have hreport (e : Dev) (b : Bucket) : ((e.setBucket b).reportLasting 8 0).memories = e.memories := by
    rw [reportLasting_memories, setBucket_memories]
  have hkept := hreport (d.modEcc fun e => { e with track := [⟨a, 0, true⟩] })
    ⟨8, 0, 1, (d.modEcc fun e => { e with track := [⟨a, 0, true⟩] }).faultPeriod 8 + 1, true⟩
  exact ⟨_, rfl, hkept⟩

/-- The lasting fault of the one tracked word copies its row. -/
theorem slotLasting_copies (hm : memOf a = some m) (he : d.ecc.track = [⟨a, 0, true⟩]) (hr : d.sparesUsed m < spareRows m) :
    d.slotLasting 0 = (((d.each (List.range 64) fun k d => d.copyWord m (memBase m + 256 * ((a - memBase m) / 256) + 4 * k)).modEcc
      fun e => { e with remaps := e.remaps ++ [(m, (a - memBase m) / 256)] }).bump (R.ECC_REMAP m)).raise Blk.ecc 0xB3 m := by
  have hfind : d.slotLasting 0 = d.remapRow m ((a - memBase m) / 256) := by
    simp only [slotLasting, he, List.find?_cons, beq_self_eq_true, hm]
  rw [hfind, remapRow, if_neg (Nat.not_le.mpr hr)]

end Sys2Proof.Machine.Dev

namespace Sys2Proof.Claims

open Sys2Proof.Machine Sys2Proof.Machine.Dev

/-- The first word of the journal. -/
abbrev journal : Nat := memBase 3

/-- A device right after reset whose first journal word holds one inverted bit, and where one event of a memory word is a lasting
fault: T of class 8 is 1. -/
def strained : Dev := (State.reset.dev.setLive (R.FLT_CLS 8) 1).putCheck journal (storedColumns.getD 0 0)

theorem strained_settled : strained.settled = true ∧ strained.domOn .mgt = true ∧ strained.pwr.booted = false ∧ strained.mem = [] ∧
    strained.flt = [] ∧ strained.ecc = EccSt.init ∧ strained.faultT 8 = 1 ∧ strained.pwr.late = [] ∧
    strained.sec.hash = none ∧ strained.sec.hashQ = [] := by
  refine ⟨rfl, ?_, rfl, rfl, rfl, rfl, ?_, rfl, rfl, rfl⟩
  · decide +kernel
  · decide +kernel

theorem strained_word (a : Nat) : strained.memWord a = 0 := rfl

theorem strained_check (a : Nat) : strained.memCheck a = if a = journal then storedColumns.getD 0 0 else 0 := by
  have hodd : storedColumns.getD 0 0 ∈ oddColumns := storedColumns_odd (by decide)
  have hsmall : ∀ x ∈ oddColumns, x % 2 ^ 8 = x := by decide +kernel
  have hchk : strained.chk = Cells.put zeroByte [] journal (BitVec.ofNat 8 (storedColumns.getD 0 0)) := rfl
  rw [memCheck, hchk, Cells.get_put]
  split
  · rw [BitVec.toNat_ofNat, hsmall _ hodd]
  · rfl

theorem syndromeOf_zero (c : Nat) : syndromeOf (0, c) = c := by
  have hzero : checkBits 0 = 0 := by simp [checkBits]
  rw [syndromeOf, hzero, Nat.zero_xor]

theorem strained_first : strained.wordClass journal = .correctable 0 := by
  rw [wordClass, strained_word, strained_check, if_pos rfl]
  exact classifyWord_column (by decide) (syndromeOf_zero _)

theorem strained_other {a : Nat} (h : a ≠ journal) : strained.wordClass a = .clean := by
  rw [wordClass, strained_word, strained_check, if_neg h]
  exact classifyWord_clean (syndromeOf_zero _)

/-- What a row copy leaves of the strained row: its first word corrected, and every other word clean and 0. -/
structure Copied (d : Dev) : Prop where
  first : d.memWord journal = 1
  other : ∀ a, a % 4 = 0 → a ≠ journal → d.wordClass a = .clean ∧ d.memWord a = 0

variable {d e : Dev}

theorem Copied.of_stores (h : Copied d) (hmem : e.mem = d.mem) (hchk : e.chk = d.chk) : Copied e := by
  have hwords := words_of_stores hmem hchk
  refine ⟨(hwords _).1.trans h.first, fun a ha hne => ?_⟩
  rw [(hwords a).1, (hwords a).2]
  exact h.other a ha hne

/-- The copy of the strained row. -/
theorem copied_row (hmem : d.mem = strained.mem) (hchk : d.chk = strained.chk) (htrack : d.ecc.track = [⟨journal, 0, true⟩]) :
    Copied (d.each (List.range 64) fun k d => d.copyWord 3 (memBase 3 + 256 * ((journal - memBase 3) / 256) + 4 * k)) := by
  have hwords := words_of_stores hmem hchk
  have hfirst : d.copyWord 3 journal = (d.countCorr 3).storeWord journal 1 := by
    rw [copyWord_seen ((hwords journal).2.trans strained_first) (by rw [htrack]; rfl), (hwords journal).1, strained_word]
    rfl
  have hkept := countCorr_faultState 3 d
  simp only [faultState, Prod.mk.injEq] at hkept
  have hcounted := words_of_stores (hkept.1.trans hmem) (hkept.2.1.trans hchk)
  have hcopied : Copied (d.copyWord 3 journal) := by
    rw [hfirst]
    refine ⟨memWord_storeWord _ _ _, fun a ha hne => ?_⟩
    have happart : a + 4 ≤ journal ∨ journal + 4 ≤ a := by
      have hj : journal = 0x700000 := rfl
      omega
    rw [(words_storeWord_ne happart).1, (words_storeWord_ne happart).2, (hcounted a).1, (hcounted a).2]
    exact ⟨strained_other hne, strained_word a⟩
  have hrest : (d.copyWord 3 journal).each ((List.range 63).map Nat.succ)
      (fun k d => d.copyWord 3 (memBase 3 + 256 * ((journal - memBase 3) / 256) + 4 * k)) = d.copyWord 3 journal := by
    refine each_copy_clean fun k hk => ?_
    obtain ⟨i, -, rfl⟩ := List.mem_map.mp hk
    have hbase : memBase 3 = 0x700000 ∧ journal = 0x700000 := ⟨rfl, rfl⟩
    exact (hcopied.other _ (by omega) (by omega)).1
  have hsteps : d.each (List.range 64) (fun k d => d.copyWord 3 (memBase 3 + 256 * ((journal - memBase 3) / 256) + 4 * k)) =
      (d.copyWord 3 journal).each ((List.range 63).map Nat.succ)
        fun k d => d.copyWord 3 (memBase 3 + 256 * ((journal - memBase 3) / 256) + 4 * k) := by
    have haddr : memBase 3 + 256 * ((journal - memBase 3) / 256) + 4 * 0 = journal := rfl
    rw [show List.range 64 = 0 :: (List.range 63).map Nat.succ from List.range_succ_eq_map, each_cons, haddr]
  rw [hsteps, hrest]
  exact hcopied

theorem faultT_congr (h : e.live = d.live) (c : Nat) : e.faultT c = d.faultT c := by
  rw [faultT, lv, liveWord, h, faultT, lv, liveWord]

/-- A read of the strained word gives it corrected, and its event has the row copied. -/
theorem journal_read (h : d.faultState = strained.faultState) : ∃ e : Dev, d.readMem 3 journal srcLoad = (1, false, e) ∧ Copied e := by
  obtain ⟨-, -, -, -, hflt₀, hecc₀, hlasting₀, -⟩ := strained_settled
  have hstate := (countCorr_faultState 3 d).trans h
  simp only [faultState, Prod.mk.injEq] at hstate h
  obtain ⟨hmem, hchk, hecc, hflt, hlive⟩ := hstate
  have hwords := words_of_stores h.1 h.2.1 journal
  obtain ⟨x, hevent, hx⟩ := wordEvent_lasting (a := journal) (d := d.countCorr 3) (by rw [hecc, hecc₀]; rfl) (hflt.trans hflt₀)
    ((faultT_congr hlive 8).trans hlasting₀)
  simp only [memories, Prod.mk.injEq] at hx
  obtain ⟨hxmem, hxchk, hxecc⟩ := hx
  have htrack : x.ecc.track = [⟨journal, 0, true⟩] := by rw [hxecc]
  have hspare : x.sparesUsed 3 < spareRows 3 := by
    have hnone : x.ecc.remaps = [] := by rw [hxecc, hecc, hecc₀]; rfl
    rw [sparesUsed, hnone]
    decide
  have hcopied := copied_row (hxmem.trans hmem) (hxchk.trans hchk) htrack
  refine ⟨_, ?_, hcopied.of_stores (e := x.slotLasting 0) ?_ ?_⟩
  · rw [readMem_correctable (hwords.2.trans strained_first), hwords.1, strained_word, hevent]
    rfl
  · rw [slotLasting_copies (by decide +kernel) htrack hspare, raise_mem, bump_mem, modEcc_mem]
  · rw [slotLasting_copies (by decide +kernel) htrack hspare, raise_chk, bump_chk, modEcc_chk]

/-- The journal's head on the strained device: the corrected word, and seven that are 0. -/
theorem journal_head (h : d.faultState = strained.faultState) :
    ∃ e : Dev, d.readWords 3 srcLoad ((List.range 8).map jnlAddr) = ([1, 0, 0, 0, 0, 0, 0, 0], e) ∧ Copied e := by
  obtain ⟨e, hread, hcopied⟩ := journal_read h
  have hlist : (List.range 8).map jnlAddr = journal :: [1, 2, 3, 4, 5, 6, 7].map jnlAddr := rfl
  have hother : ∀ i ∈ [1, 2, 3, 4, 5, 6, 7], e.wordClass (jnlAddr i) = .clean ∧ e.memWord (jnlAddr i) = 0 := by
    have hbase : ∀ i ∈ [1, 2, 3, 4, 5, 6, 7], jnlAddr i % 4 = 0 ∧ jnlAddr i ≠ journal := by decide
    exact fun i hi => hcopied.other _ (hbase i hi).1 (hbase i hi).2
  have hrest : e.readWords 3 srcLoad ([1, 2, 3, 4, 5, 6, 7].map jnlAddr) = ([0, 0, 0, 0, 0, 0, 0], e) := by
    have hclean : ∀ a ∈ [1, 2, 3, 4, 5, 6, 7].map jnlAddr, e.wordClass a = .clean := fun a ha => by
      obtain ⟨i, hi, rfl⟩ := List.mem_map.mp ha
      exact (hother i hi).1
    have hzero : ([1, 2, 3, 4, 5, 6, 7].map jnlAddr).map e.memWord = [1, 2, 3, 4, 5, 6, 7].map fun _ => 0 := by
      rw [List.map_map]
      exact List.map_congr_left fun i hi => (hother i hi).2
    rw [readWords_clean hclean, hzero]
    rfl
  refine ⟨e, ?_, hcopied⟩
  rw [hlist, readWords, hread]
  simp only [hrest]

/-- The journal's check, as the start-up sequence runs it on the strained device: the word is corrected in its memory. -/
theorem journalCheck_corrects (h : d.faultState = strained.faultState) : d.journalCheck.memWord journal = 1 := by
  obtain ⟨e, hhead, hcopied⟩ := journal_head h
  have hcheck : ∃ ok, d.journalCheck = e.setOn F.SEC_JNL_STAT_VALID ok := by
    unfold journalCheck
    rw [hhead]
    exact ⟨_, rfl⟩
  obtain ⟨ok, hok⟩ := hcheck
  rw [hok, setOn, (words_of_stores (setFld_mem _ _ e) (setFld_chk _ _ e) journal).1, hcopied.first]

theorem startJournalCheck_corrects (h : d.faultState = strained.faultState) (hh : d.sec.hash = none) (hq : d.sec.hashQ = []) :
    d.startJournalCheck.memWord journal = 1 := by
  have hgo : d.hashGo .journal = d.modSec fun s => { s with hash := some .journal } := by
    rw [hashGo, hh, hq]
    rfl
  have hstart : d.startJournalCheck =
      ((d.modSec fun s => { s with hash := some .journal }).modSec fun s => { s with hash := none }).journalCheck := by
    rw [startJournalCheck, hgo]
    rfl
  rw [hstart]
  exact journalCheck_corrects (by rw [modSec_faultState, modSec_faultState, h])

/-- The start-up sequence that a failed checker ends comes after the journal's check. -/
theorem bootSequence_checked {st : BootStore} {f : BitVec 4} (hm : d.domOn .mgt = true) (hb : d.pwr.booted = false) (hf : f ≠ 0) :
    (d.bootSequence st f).mem = (d.modPwr fun p => { p with booted := true }).flushLate.showOtp.startJournalCheck.mem := by
  rw [bootSequence, if_neg (by simp [hm, hb])]
  simp only [if_pos hf, setFld_mem, modNvm_mem, setReg_mem]

/-- What comes before the journal's check leaves the memories, the fault windows and the hash engine as they are. -/
theorem boot_begun (d : Dev) : (d.modPwr fun p => { p with booted := true }).flushLate.showOtp.faultState = d.faultState ∧
    (d.modPwr fun p => { p with booted := true }).flushLate.showOtp.sec = d.sec := by
  have hflush {β : Type} (g : Dev → β) (hraise : ∀ b c l d, g (d.raise b c l) = g d) (hpwr : ∀ f d, g (d.modPwr f) = g d) (d : Dev) :
      g d.flushLate = g d := by
    rw [flushLate, hpwr]
    exact each_keeps _ _ g (fun p d => hraise _ _ _ d) d
  have hotp {β : Type} (g : Dev → β) (hfld : ∀ f x d, g (d.setFld f x) = g d) (d : Dev) : g d.showOtp = g d := by
    simp only [showOtp, setOn, hfld]
  refine ⟨?_, ?_⟩
  · rw [hotp faultState setFld_faultState, hflush faultState raise_faultState modPwr_faultState, modPwr_faultState]
  · rw [hotp Dev.sec setFld_sec, hflush Dev.sec raise_sec modPwr_sec, modPwr_sec]

/-- The strained device, its queues empty. -/
def strainedState : State := { State.reset with dev := strained }

/-- A boot store with nothing in it. -/
def emptyStore : BootStore := ⟨[], [], ⟨[], [], [], []⟩, ⟨[], [], [], []⟩, none, none, none, none, none⟩

/-- The start-up sequence of the strained device, ended by a failed checker, has stored the corrected word. -/
theorem bootSequence_corrects : (strained.bootSequence emptyStore 1).memWord journal = 1 := by
  obtain ⟨-, hm, hb, -, -, -, -, -, hh, hq⟩ := strained_settled
  obtain ⟨hstate, hsec⟩ := boot_begun strained
  rw [memWord, bootSequence_checked hm hb (by decide)]
  exact startJournalCheck_corrects hstate (by rw [hsec, hh]) (by rw [hsec, hq])

/-- Refutes O54: with a failed checker the statement has the memories as they were. The journal's check at start (R651) comes first, and
its reads are reads (R471, R479): where one correctable word is a lasting fault (T of class 8 is 1), the row of a journal word with one
inverted bit is copied to its spare (R481), which stores the corrected word. -/
theorem not_startUpRuns : ¬ Obligations.StartUpRuns := by
  intro h
  obtain ⟨hsettled, hm, hb, hmem, -⟩ := strained_settled
  obtain ⟨-, hfailed, -⟩ := (h strainedState hsettled).1 emptyStore 1
  obtain ⟨t, ht, -, -, -, hkept, -⟩ := hfailed hm hb (by decide)
  have he : exec (.bootSequence emptyStore 1) strainedState =
      .next (commit strainedState (strained.bootSequence emptyStore 1)) := rfl
  obtain rfl := Host.Outcome.next.inj (he.symm.trans ht)
  have hend : (commit strainedState (strained.bootSequence emptyStore 1)).dev.mem = (strained.bootSequence emptyStore 1).mem :=
    finish_keeps Dev.mem fun _ => rfl
  have hsame : (strained.bootSequence emptyStore 1).mem = strained.mem := hend.symm.trans hkept
  have hone := bootSequence_corrects
  rw [memWord, hsame] at hone
  exact absurd hone (by decide +kernel)

end Sys2Proof.Claims
end

section
/-! SUPPORT. The DMA engine (chapter 14): what its operations change of a channel's words, and that the rest of the device stays. -/

namespace Sys2Proof.Machine.Dev

variable {d d₀ e : Dev} {c : Fin 8} {as : List Nat} {a : Nat} {f : Fld}

theorem fld_of_word (h : e.reg f.addr = d.reg f.addr) : e.fld f = d.fld f := by rw [fld, h, fld]

theorem on_of_word (h : e.reg f.addr = d.reg f.addr) : e.on f = d.on f := by rw [on, fld_of_word h, on]

/-- The device without its register words, its events and the bookkeeping of the DMA engine. -/
def disengaged (d : Dev) : Dev := d.rest.modDma fun _ => DmaSt.init

/-- From d₀ to d only the words `as` and the bookkeeping of the DMA engine have changed. -/
structure Engages (as : List Nat) (d₀ d : Dev) : Prop where
  reg   : ∀ a, a ∉ as → d.reg a = d₀.reg a
  rest  : d.disengaged = d₀.disengaged
  books : d.eventBooks = d₀.eventBooks

namespace Engages

theorem refl (as : List Nat) (d : Dev) : Engages as d d := ⟨fun _ _ => rfl, rfl, rfl⟩

theorem trans (h : Engages as d₀ d) (h' : Engages as d e) : Engages as d₀ e :=
  ⟨fun a ha => (h'.reg a ha).trans (h.reg a ha), h'.rest.trans h.rest, h'.books.trans h.books⟩

variable (h : Engages as d₀ d)
include h

theorem word (v : Word) (ha : a ∈ as) : Engages as d₀ (d.setReg a v) :=
  ⟨fun _ hb => (reg_setReg_ne v d fun hab => hb (by rwa [hab])).trans (h.reg _ hb), h.rest,
    (onlyWord_setReg a v d).books.trans h.books⟩

theorem field (x : Nat) (ha : f.addr ∈ as) : Engages as d₀ (d.setFld f x) := h.word _ ha

theorem bit (b : Bool) (ha : f.addr ∈ as) : Engages as d₀ (d.setOn f b) := h.word _ ha

theorem bump (ha : a ∈ as) : Engages as d₀ (d.bump a) := h.word _ ha

theorem modDma (g : DmaSt → DmaSt) : Engages as d₀ (d.modDma g) := ⟨h.reg, h.rest, h.books⟩

theorem widen {bs : List Nat} (hsub : as ⊆ bs) : Engages bs d₀ d := ⟨fun a ha => h.reg a fun hin => ha (hsub hin), h.rest, h.books⟩

/-- A reading that looks at no register word, event or bookkeeping of the engine is as it was. -/
theorem keeps {β : Type} (g : Dev → β) (hg : ∀ e : Dev, g e.disengaged = g e) : g d = g d₀ :=
  calc g d = g d.disengaged := (hg d).symm
    _ = g d₀.disengaged := congrArg g h.rest
    _ = g d₀ := hg d₀

theorem mem : d.mem = d₀.mem := h.keeps Dev.mem fun _ => rfl

theorem chk : d.chk = d₀.chk := h.keeps Dev.chk fun _ => rfl

end Engages

/-! ### A channel gives up the engine (R504, R506) -/

theorem dmaFree_engages (c : Fin 8) (d : Dev) : Engages [R.DMA_ACTIVE] d (d.dmaFree c) := by
  have hburst : Engages [R.DMA_ACTIVE] d (d.modDma fun x => { x with burst := x.burst.set c 0 }) := (Engages.refl _ d).modDma _
  unfold dmaFree
  dsimp only
  split
  · exact (hburst.field _ (by simp)).modDma _
  · exact hburst

theorem dmaFree_active (c : Fin 8) (d : Dev) :
    (d.dmaFree c).fld F.DMA_ACTIVE_CH = if d.fld F.DMA_ACTIVE_CH = c then 15 else d.fld F.DMA_ACTIVE_CH := by
  unfold dmaFree
  dsimp only
  rw [modDma_fld]
  split
  · rw [modDma_fld, fld_setFld_self _ _ _ (by decide)]
    rfl
  · rw [modDma_fld]

theorem dmaFree_handOver (h : d.fld F.DMA_ACTIVE_CH = c) : (d.dmaFree c).dma.handOver = false := by
  unfold dmaFree
  dsimp only
  rw [modDma_fld, if_pos h]
  rfl

/-! ### Halts (R506) -/

/-- The words that a halt of channel c may change. -/
abbrev haltWords (c : Fin 8) : List Nat := [R.DMA_STAT c, R.DMA_ERR_ADDR c, R.DMA_ERR c, R.DMA_ACTIVE]

section
variable (d) (c) (err addr : Nat)

theorem dmaHalt_engages : Engages (haltWords c) d (d.dmaHalt c err addr) :=
  have hwords := ((((Engages.refl (haltWords c) d).field (f := F.DMA_STAT_STATE c) 3 (by simp)).field (f := F.DMA_STAT_ERR c) err
    (by simp)).word (a := R.DMA_ERR_ADDR c) (BitVec.ofNat 32 addr) (by simp)).bump (a := R.DMA_ERR c) (by simp)
  hwords.trans ((dmaFree_engages c _).widen (by simp))

/-- Before the engine is given up, a halt sets words of the channel. -/
theorem dmaHalt_word (ha : a ≠ R.DMA_ACTIVE) : (d.dmaHalt c err addr).reg a =
    ((((d.setFld (F.DMA_STAT_STATE c) 3).setFld (F.DMA_STAT_ERR c) err).setReg (R.DMA_ERR_ADDR c) (BitVec.ofNat 32 addr)).bump
      (R.DMA_ERR c)).reg a := (dmaFree_engages c _).reg a (by simpa using ha)

theorem dmaHalt_stat : (d.dmaHalt c err addr).reg (R.DMA_STAT c) =
    ((d.setFld (F.DMA_STAT_STATE c) 3).setFld (F.DMA_STAT_ERR c) err).reg (R.DMA_STAT c) := by
  rw [dmaHalt_word _ _ _ _ (by simp only [R.DMA_STAT, R.DMA_ACTIVE]; omega),
    reg_bump_ne _ (by simp only [R.DMA_STAT, R.DMA_ERR]; omega),
    reg_setReg_ne _ _ (by simp only [R.DMA_STAT, R.DMA_ERR_ADDR]; omega)]

theorem dmaHalt_state : (d.dmaHalt c err addr).dmaState c = 3 := by
  rw [dmaState, fld_of_word (f := F.DMA_STAT_STATE c) (dmaHalt_stat d c err addr), fld_setFld_apart _ _ (by simp) (.inl (by simp)),
    fld_setFld_self _ _ _ (by simp)]
  rfl

theorem dmaHalt_code (herr : err < 8) : (d.dmaHalt c err addr).fld (F.DMA_STAT_ERR c) = err := by
  rw [fld_of_word (f := F.DMA_STAT_ERR c) (dmaHalt_stat d c err addr), fld_setFld_self _ _ _ (by simp)]
  exact Nat.mod_eq_of_lt herr

/-- The fields of `STAT` below the code stay. -/
theorem dmaHalt_low (ha : f.addr = R.DMA_STAT c) (hf : f.lo + f.w ≤ 26) : (d.dmaHalt c err addr).fld f = d.fld f := by
  have hword : (d.dmaHalt c err addr).reg f.addr = ((d.setFld (F.DMA_STAT_STATE c) 3).setFld (F.DMA_STAT_ERR c) err).reg f.addr := by
    rw [ha, dmaHalt_stat]
  rw [fld_of_word hword, fld_setFld_apart (f := F.DMA_STAT_ERR c) _ _ (by simp) (.inr hf),
    fld_setFld_apart (f := F.DMA_STAT_STATE c) _ _ (by simp) (.inr (Nat.le_trans hf (by simp)))]

theorem dmaHalt_errAddr : (d.dmaHalt c err addr).reg (R.DMA_ERR_ADDR c) = BitVec.ofNat 32 addr := by
  rw [dmaHalt_word _ _ _ _ (by simp only [R.DMA_ERR_ADDR, R.DMA_ACTIVE]; omega),
    reg_bump_ne _ (by simp only [R.DMA_ERR_ADDR, R.DMA_ERR]; omega), reg_setReg_self]

theorem dmaHalt_count : (d.dmaHalt c err addr).reg (R.DMA_ERR c) = d.reg (R.DMA_ERR c) + 1 := by
  have hstat : R.DMA_ERR c ≠ R.DMA_STAT c := by simp only [R.DMA_ERR, R.DMA_STAT]; omega
  rw [dmaHalt_word _ _ _ _ (by simp only [R.DMA_ERR, R.DMA_ACTIVE]; omega), reg_bump, if_pos rfl,
    reg_setReg_ne _ _ (by simp only [R.DMA_ERR, R.DMA_ERR_ADDR]; omega), reg_setFld_ne _ _ _ hstat, reg_setFld_ne _ _ _ hstat]

theorem dmaHalt_active : (d.dmaHalt c err addr).fld F.DMA_ACTIVE_CH =
    if d.fld F.DMA_ACTIVE_CH = c then 15 else d.fld F.DMA_ACTIVE_CH := by
  have hword : ((((d.setFld (F.DMA_STAT_STATE c) 3).setFld (F.DMA_STAT_ERR c) err).setReg (R.DMA_ERR_ADDR c)
      (BitVec.ofNat 32 addr)).bump (R.DMA_ERR c)).reg R.DMA_ACTIVE = d.reg R.DMA_ACTIVE := by
    have hstat : R.DMA_ACTIVE ≠ R.DMA_STAT c := by simp only [R.DMA_ACTIVE, R.DMA_STAT]; omega
    rw [reg_bump_ne _ (by simp only [R.DMA_ACTIVE, R.DMA_ERR]; omega),
      reg_setReg_ne _ _ (by simp only [R.DMA_ACTIVE, R.DMA_ERR_ADDR]; omega), reg_setFld_ne _ _ _ hstat, reg_setFld_ne _ _ _ hstat]
  rw [dmaHalt, dmaFree_active, fld_of_word (f := F.DMA_ACTIVE_CH) hword]

end

end Sys2Proof.Machine.Dev

namespace Sys2Proof.Claims

open Sys2Proof.Machine Sys2Proof.Machine.Dev

theorem dmaHalted (d : Dev) (c : Fin 8) (err addr : Nat) : DmaHalted d c err addr := fun herr =>
  ⟨dmaHalt_state d c err addr, dmaHalt_code d c err addr herr, dmaHalt_errAddr d c err addr, dmaHalt_count d c err addr,
    congrArg (· == 1) (dmaHalt_low d c err addr (f := F.DMA_STAT_SH_VALID c) rfl (by simp)), dmaHalt_active d c err addr,
    (dmaHalt_engages d c err addr).mem, (dmaHalt_engages d c err addr).reg⟩

end Sys2Proof.Claims
end

section
/-! SUPPORT. The commands of the DMA engine (R496 to R499, R505, R506): the checks of a transfer, START, NEXT and ABORT, and the writes of a
channel's registers. -/

namespace Sys2Proof.Machine.Dev

open Claims

variable {s : State} {m : Master} {c : Fin 8} {a mask trig src dst n e : Nat} {v t : Word} {d : Dev}

/-! ### An access leaves the engine to the command -/

section
variable (x : Dom) (d) (c src dst n : Nat)

theorem touch_handing : handing (d.touch x) c ↔ handing d c := Iff.rfl

@[simp] theorem touch_dmaState : (d.touch x).dmaState c = d.dmaState c := (rfl)
@[simp] theorem touch_dmaCheck : (d.touch x).dmaCheck c src dst n = d.dmaCheck c src dst n := (rfl)
@[simp] theorem touch_freeCtr : (d.touch x).freeCtr = d.freeCtr := (rfl)
@[simp] theorem touch_mem : (d.touch x).mem = d.mem := (rfl)
@[simp] theorem touch_eventBooks : (d.touch x).eventBooks = d.eventBooks := (rfl)

end

section
variable (d)

theorem takeFree_reg (a : Nat) : d.takeFree.2.reg a = d.reg a := (rfl)
theorem takeFree_fld (f : Fld) : d.takeFree.2.fld f = d.fld f := (rfl)
theorem takeFree_mem : d.takeFree.2.mem = d.mem := (rfl)
theorem takeFree_eventBooks : d.takeFree.2.eventBooks = d.eventBooks := (rfl)

end

/-! ### The checks (R496) -/

/-- A range of n bytes from a lies in one region of R496. -/
def InRegion (a n : Nat) : Prop :=
  (a + n ≤ 0x80000) ∨ (0x100000 ≤ a ∧ a + n ≤ 0x140000) ∨ (0x200000 ≤ a ∧ a + n ≤ 0x600000) ∨
    (0x10000000 ≤ a ∧ a + n ≤ 0x10200000)

/-- A transfer is a positive number of whole bursts between burst boundaries. -/
def DmaAligned (d : Dev) (c src dst n : Nat) : Prop :=
  src % d.dmaBurst c = 0 ∧ dst % d.dmaBurst c = 0 ∧ n % d.dmaBurst c = 0 ∧ n ≠ 0

/-- Both sides of a transfer lie in a region each. -/
def DmaInside (d : Dev) (c src dst n : Nat) : Prop :=
  InRegion src (if d.on (F.DMA_CFG_SFIX c) then 4 else n) ∧ InRegion dst (if d.on (F.DMA_CFG_DFIX c) then 4 else n)

theorem dmaLegal_iff {c : Nat} : DmaLegal d c src dst n ↔ d.DmaAligned c src dst n ∧ d.DmaInside c src dst n := Iff.rfl

theorem dmaRegion_iff : dmaRegion a n = true ↔ InRegion a n := by simp [dmaRegion, InRegion]

theorem dmaCheck_misaligned {c : Nat} (h : ¬ d.DmaAligned c src dst n) : d.dmaCheck c src dst n = 1 :=
  if_pos (by unfold DmaAligned at h; tauto)

theorem dmaCheck_aligned {c : Nat} (h : d.DmaAligned c src dst n) : d.dmaCheck c src dst n =
    if (!dmaRegion src (if d.on (F.DMA_CFG_SFIX c) then 4 else n) || !dmaRegion dst (if d.on (F.DMA_CFG_DFIX c) then 4 else n)) = true
      then 2 else 0 :=
  if_neg (by unfold DmaAligned at h; tauto)

theorem dmaCheck_legal {c : Nat} (h : DmaLegal d c src dst n) : d.dmaCheck c src dst n = 0 := by
  obtain ⟨haligned, hsrc, hdst⟩ := dmaLegal_iff.mp h
  rw [dmaCheck_aligned haligned, dmaRegion_iff.mpr hsrc, dmaRegion_iff.mpr hdst]
  rfl

theorem dmaCheck_outside {c : Nat} (haligned : d.DmaAligned c src dst n) (h : ¬ DmaLegal d c src dst n) :
    d.dmaCheck c src dst n = 2 := by
  have hout : ¬ d.DmaInside c src dst n := fun hin => h (dmaLegal_iff.mpr ⟨haligned, hin⟩)
  rw [dmaCheck_aligned haligned, if_pos]
  rw [DmaInside, ← dmaRegion_iff, ← dmaRegion_iff, not_and_or] at hout
  simpa using hout

/-- A transfer that is not legal fails with one of two codes. -/
theorem dmaCheck_illegal {c : Nat} (h : ¬ DmaLegal d c src dst n) : d.dmaCheck c src dst n = 1 ∨ d.dmaCheck c src dst n = 2 := by
  by_cases haligned : d.DmaAligned c src dst n
  · exact .inr (dmaCheck_outside haligned h)
  · exact .inl (dmaCheck_misaligned haligned)

/-! ### START, NEXT and ABORT outside the hand-over cycle (R496 to R499, R506) -/

/-- The channel that an ABORT halts: it has lost its pending requests and its shadow. -/
def dmaDropped (c : Nat) (d : Dev) : Dev := (d.setFld (F.DMA_STAT_PEND c) 0).takeFree.2.setOn (F.DMA_STAT_SH_VALID c) false

theorem dmaDropped_pend (c : Nat) (d : Dev) : (d.dmaDropped c).fld (F.DMA_STAT_PEND c) = 0 := by
  rw [dmaDropped, setOn, fld_setFld_apart _ _ (by simp) (.inr (by simp)), takeFree_fld, fld_setFld_self _ _ _ (by simp), Nat.zero_mod]

theorem dmaDropped_valid (c : Nat) (d : Dev) : (d.dmaDropped c).on (F.DMA_STAT_SH_VALID c) = false :=
  on_setOn_self _ _ _ (by simp) rfl

theorem dmaDropped_reg {c : Nat} (d : Dev) (ha : a ≠ R.DMA_STAT c) : (d.dmaDropped c).reg a = d.reg a := by
  rw [dmaDropped, reg_setOn_ne _ _ _ ha, takeFree_reg, reg_setFld_ne _ _ d ha]

theorem dmaDropped_mem (c : Nat) (d : Dev) : (d.dmaDropped c).mem = d.mem := by
  rw [dmaDropped, setOn_mem, takeFree_mem, setFld_mem]

theorem dmaDropped_books (c : Nat) (d : Dev) : (d.dmaDropped c).eventBooks = d.eventBooks := by
  rw [dmaDropped, setOn, setFld_eventBooks, takeFree_eventBooks, setFld_eventBooks]

theorem dmaSettle_idle {c : Nat} (hh : ¬ handing d c) : d.dmaSettle c = d := if_neg hh

section
variable (hh : ¬ handing d c)
include hh

theorem dmaStart_ignored (h : d.dmaState c = 1 ∨ d.dmaState c = 2) : d.dmaStart c = d := by
  rw [dmaStart, dmaSettle_idle hh, if_pos h]

theorem dmaStart_checked (h1 : d.dmaState c ≠ 1) (h2 : d.dmaState c ≠ 2)
    (he : d.dmaCheck c (d.reg (R.DMA_SRC c)).toNat (d.reg (R.DMA_DST c)).toNat (d.fld (F.DMA_COUNT_COUNT c)) = e) :
    d.dmaStart c = ((d.setFld (F.DMA_STAT_ERR c) e).setFld (F.DMA_STAT_PEND c) 0).setFld (F.DMA_STAT_STATE c)
      (if e = 0 then 1 else 3) := by
  subst he
  rw [dmaStart, dmaSettle_idle hh, if_neg (not_or.mpr ⟨h1, h2⟩)]

theorem dmaNext_ignored (h : d.on (F.DMA_STAT_SH_VALID c) = true) : d.dmaNext c = d := by
  rw [dmaNext, dmaSettle_idle hh, if_pos h]

theorem dmaNext_checked (h : d.on (F.DMA_STAT_SH_VALID c) = false)
    (he : d.dmaCheck c (d.reg (R.DMA_NSRC c)).toNat (d.reg (R.DMA_NDST c)).toNat (d.fld (F.DMA_NCOUNT_NCOUNT c)) = e) :
    d.dmaNext c = (d.setFld (F.DMA_STAT_SH_ERR c) e).setOn (F.DMA_STAT_SH_VALID c) (e == 0) := by
  subst he
  rw [dmaNext, dmaSettle_idle hh, h, if_neg Bool.false_ne_true]

theorem dmaAbort_states : d.dmaAbort c =
    if d.dmaState c = 1 ∨ d.dmaState c = 2 then (d.dmaDropped c).dmaHalt c 5 (Config.free d.freeCtr).toNat
    else d.setFld (F.DMA_STAT_PEND c) 0 := by
  have hstate : (d.setFld (F.DMA_STAT_PEND c) 0).dmaState c = d.dmaState c :=
    fld_setFld_apart _ _ (by simp) (.inl (by simp))
  rw [dmaAbort, dmaSettle_idle hh]
  simp only [hstate, takeFree, dmaDropped, setFld_freeCtr]

/-- What ABORT leaves of a channel that waits or runs. -/
theorem dmaAbort_halts (h : d.dmaState c = 1 ∨ d.dmaState c = 2) :
    (d.dmaAbort c).dmaState c = 3 ∧ (d.dmaAbort c).fld (F.DMA_STAT_ERR c) = 5 ∧ (d.dmaAbort c).fld (F.DMA_STAT_PEND c) = 0 ∧
    (d.dmaAbort c).on (F.DMA_STAT_SH_VALID c) = false ∧ (d.dmaAbort c).reg (R.DMA_ERR_ADDR c) = Config.free d.freeCtr ∧
    (d.dmaAbort c).reg (R.DMA_ERR c) = d.reg (R.DMA_ERR c) + 1 ∧
    (d.dmaAbort c).fld F.DMA_ACTIVE_CH = (if d.fld F.DMA_ACTIVE_CH = c then 15 else d.fld F.DMA_ACTIVE_CH) ∧
    (∀ a, a ∉ haltWords c → (d.dmaAbort c).reg a = d.reg a) ∧ (d.dmaAbort c).mem = d.mem ∧
    (d.dmaAbort c).eventBooks = d.eventBooks := by
  have hengages := dmaHalt_engages (d.dmaDropped c) c 5 (Config.free d.freeCtr).toNat
  rw [dmaAbort_states hh, if_pos h]
  refine ⟨dmaHalt_state .., dmaHalt_code _ _ _ _ (by decide), ?pend, ?shadow, ?address, ?count, ?engine, fun a ha => ?words,
    hengages.mem.trans (dmaDropped_mem ..), hengages.books.trans (dmaDropped_books ..)⟩
  case pend => rw [dmaHalt_low _ _ _ _ rfl (by simp), dmaDropped_pend]
  case shadow => rw [on, dmaHalt_low _ _ _ _ rfl (by simp)]; exact dmaDropped_valid ..
  case address => rw [dmaHalt_errAddr, BitVec.ofNat_toNat, BitVec.setWidth_eq]
  case count => rw [dmaHalt_count, dmaDropped_reg _ (by simp only [R.DMA_ERR, R.DMA_STAT]; omega)]
  case engine =>
    rw [dmaHalt_active, fld_of_word (dmaDropped_reg (c := c) d (by simp only [R.DMA_STAT, R.DMA_ACTIVE]; omega))]
  case words => rw [hengages.reg a ha, dmaDropped_reg _ (List.ne_of_not_mem_cons ha)]

end

/-! ### A write of the DMA block -/

/-- A word write that the DMA block takes. -/
theorem busWrite_dma (ha : RegWord a) (hdma : blockOf a = 23) (hrow : rowBits a mask trig = true)
    (hb : BitVec.ofNat 32 (mask ||| trig) ≠ 0) (hr : Reaches s m a) :
    s.dev.busWrite m a .word v = onBus a (fun d => d.writeDma a (wordWritten d a mask v) (v &&& BitVec.ofNat 32 trig)) s.dev := by
  have hblk : (a - 0x10000000) / 0x10000 = 23 := hdma
  exact busWrite_stored (f := fun new t d => d.writeDma a new t) ha hrow hb
    (fun d => heldWord_reg (by unfold ribbonPlace; exact if_neg (by omega)) (by omega) (by omega))
    (fun _ d h => store_dma d hdma h) hr

/-- What `CTRL` asks for, NEXT first and ABORT over START (R498). -/
def dmaCommand (c : Fin 8) (t : Word) (d : Dev) : Dev :=
  let d := if t.getLsbD 2 then d.dmaNext c else d
  if t.getLsbD 1 then d.dmaAbort c else if t.getLsbD 0 then d.dmaStart c else d

/-- The channel of a word of the DMA block. -/
theorem dmaChannel {k : Nat} (hk : k < 0x40) (ha : a = 0x10170000 + c * 0x40 + k) :
    Fin.ofNat 8 (a % 0x1000 / 0x40) = c ∧ a % 0x40 = k := by
  have hc := c.isLt
  exact ⟨Fin.ext (by simp only [Fin.ofNat]; omega), by omega⟩

theorem writeDma_ctrl (hh : ¬ handing d c) : d.writeDma (R.DMA_CTRL c) v t = d.dmaCommand c t := by
  obtain ⟨hc, hk⟩ := dmaChannel (a := R.DMA_CTRL c) (c := c) (k := 0x10) (by decide) (by simp only [R.DMA_CTRL]; omega)
  rw [writeDma, hc, hk, dmaSettle_idle hh, if_pos rfl, dmaCommand]

theorem writeDma_transfer (hh : ¬ handing d c) (ha : a ∈ [R.DMA_SRC c, R.DMA_DST c]) :
    d.writeDma a v t = if d.dmaState c = 0 ∨ d.dmaState c = 3 then d.setReg a v else d := by
  obtain ⟨k, hk10, hk⟩ : ∃ k, k < 0x10 ∧ a = 0x10170000 + c * 0x40 + k := by
    simp only [List.mem_cons, List.not_mem_nil, or_false] at ha
    rcases ha with rfl | rfl
    · exact ⟨0, by decide, by simp only [R.DMA_SRC]; omega⟩
    · exact ⟨4, by decide, by simp only [R.DMA_DST]; omega⟩
  obtain ⟨hc, hm⟩ := dmaChannel (by omega) hk
  rw [writeDma, hc, hm, dmaSettle_idle hh, if_neg (by omega), if_pos hk10]

theorem writeDma_shadow (hh : ¬ handing d c) (ha : a ∈ [R.DMA_NSRC c, R.DMA_NDST c]) :
    d.writeDma a v t = if d.on (F.DMA_STAT_SH_VALID c) then d else d.setReg a v := by
  obtain ⟨k, hk10, hk40, hk⟩ : ∃ k, 0x10 < k ∧ k < 0x40 ∧ a = 0x10170000 + c * 0x40 + k := by
    simp only [List.mem_cons, List.not_mem_nil, or_false] at ha
    rcases ha with rfl | rfl
    · exact ⟨0x18, by decide, by decide, by simp only [R.DMA_NSRC]; omega⟩
    · exact ⟨0x1C, by decide, by decide, by simp only [R.DMA_NDST]; omega⟩
  obtain ⟨hc, hm⟩ := dmaChannel hk40 hk
  rw [writeDma, hc, hm, dmaSettle_idle hh, if_neg (by omega), if_neg (by omega)]

end Sys2Proof.Machine.Dev

namespace Sys2Proof.Claims

open Sys2Proof.Machine Sys2Proof.Machine.Dev

variable {s : State} {m : Master} {c : Fin 8} {v : Word} {a : Nat}

/-! ### DMA.CTRL -/

theorem dmaCtrl_bits : ∀ c : Fin 8, rowBits (R.DMA_CTRL c) 0 7 = true := by decide +kernel

theorem dmaCommand_triggers : dmaCommand c (v &&& BitVec.ofNat 32 7) = dmaCommand c v := by
  funext d
  rw [dmaCommand, dmaCommand, getLsbD_trigger v (show (BitVec.ofNat 32 7).getLsbD 0 = true by decide),
    getLsbD_trigger v (show (BitVec.ofNat 32 7).getLsbD 1 = true by decide),
    getLsbD_trigger v (show (BitVec.ofNat 32 7).getLsbD 2 = true by decide)]

/-- The three commands are a write of `DMA.CTRL`. -/
theorem exec_dmaCtrl {i : Instr} (hi : i ∈ [Instr.dmaStart m c v, .dmaNext m c v, .dmaAbort m c v]) (hr : Reaches s m (R.DMA_CTRL c))
    (hh : ¬ handing s.dev c) : exec i s = .next (commit s (onBus (R.DMA_CTRL c) (dmaCommand c v) s.dev)) := by
  have hblock : RegWord (R.DMA_CTRL c) ∧ blockOf (R.DMA_CTRL c) = 23 := by
    simp only [RegWord, blockOf, R.DMA_CTRL]
    omega
  have hbus : exec i s = .next (commit s (s.dev.busWrite m (R.DMA_CTRL c) .word v)) := by
    simp only [List.mem_cons, List.not_mem_nil, or_false] at hi
    rcases hi with rfl | rfl | rfl <;> rfl
  rw [hbus, busWrite_dma hblock.1 hblock.2 (dmaCtrl_bits c) (by decide) hr, onBus, writeDma_ctrl (mt (touch_handing ..).mp hh),
    dmaCommand_triggers, onBus]

theorem dmaCommand_start (h2 : v.getLsbD 2 = false) (h1 : v.getLsbD 1 = false) (h0 : v.getLsbD 0 = true) :
    dmaCommand c v = dmaStart c := by
  funext d
  simp only [dmaCommand, h2, h1, h0, Bool.false_eq_true, if_false, if_true]

theorem dmaCommand_next (h2 : v.getLsbD 2 = true) (h1 : v.getLsbD 1 = false) (h0 : v.getLsbD 0 = false) :
    dmaCommand c v = dmaNext c := by
  funext d
  simp only [dmaCommand, h2, h1, h0, Bool.false_eq_true, if_false, if_true]

theorem dmaCommand_abort (h2 : v.getLsbD 2 = false) (h1 : v.getLsbD 1 = true) : dmaCommand c v = dmaAbort c := by
  funext d
  simp only [dmaCommand, h2, h1, Bool.false_eq_true, if_false, if_true]

/-- A command whose effect f changes `STAT` of its channel alone. -/
theorem yields_dmaStat {i : Instr} {f : Dev → Dev} (hs : s.dev.settled = true)
    (h : exec i s = .next (commit s (onBus (R.DMA_CTRL c) f s.dev))) (hf : ∀ d, Engages [R.DMA_STAT c] d (f d)) :
    Yields i s (onBus (R.DMA_CTRL c) f s.dev) [R.DMA_STAT c] [] :=
  yields_effect hs h (fun b hb d => (hf d).reg b hb) fun d => (hf d).books

section
variable {r : Access} {w : Word} {d : Dev} {f : Fld}

/-- What an access returned does not touch the registers below MGT. -/
theorem reg_served (h : a < 0x101B0000) : (commit s (d.returned r w)).dev.reg a = d.reg a :=
  (reg_commit h).trans (returned_reg r w a d)

theorem fld_served (h : f.addr < 0x101B0000) : (commit s (d.returned r w)).dev.fld f = d.fld f := fld_of_word (reg_served h)

theorem on_served (h : f.addr < 0x101B0000) : (commit s (d.returned r w)).dev.on f = d.on f := on_of_word (reg_served h)

theorem frame_served {as : List Nat} (hs : s.dev.settled = true) (hreg : ∀ a, a ∉ as → d.reg a = s.dev.reg a)
    (hbooks : d.eventBooks = s.dev.eventBooks) : Frame as (d.returned r w) [] s (commit s (d.returned r w)) :=
  frame_books hs (fun a ha => (returned_reg r w a d).trans (hreg a ha)) rfl hbooks

theorem mem_served (s : State) (d : Dev) : (commit s (d.returned r w)).dev.mem = d.mem := finish_keeps Dev.mem fun _ => rfl

end

theorem dmaStarted (hs : s.dev.settled = true) : DmaStarted s m c v := by
  unfold DmaStarted
  intro a src dst n b aligned ends hr hh h2 h1 h0
  have he := exec_dmaCtrl (v := v) (i := .dmaStart m c v) (by simp) hr hh
  rw [dmaCommand_start h2 h1 h0] at he
  have hh' : ¬ handing (s.dev.touch (domainOf a)) c := mt (touch_handing ..).mp hh
  refine ⟨fun hst => yields_onBus hs (exec_onBus he (dmaStart_ignored hh' (by simpa using hst))), fun hs1 hs2 => ?_⟩
  have judged {err st : Nat} (hc : s.dev.dmaCheck c src dst n = err) (hst : (if err = 0 then 1 else 3) = st) : ends err st := by
    subst hst
    have hstart := dmaStart_checked hh' (by simpa using hs1) (by simpa using hs2) (by simpa using hc)
    refine yields_dmaStat hs (exec_onBus he hstart) fun d => ?_
    exact (((Engages.refl _ d).field _ (by simp)).field _ (by simp)).field _ (by simp)
  exact ⟨fun hl => judged (dmaCheck_legal hl) rfl, fun ha => judged (dmaCheck_misaligned ha) rfl,
    fun ha hl => judged (dmaCheck_outside ha hl) rfl⟩

theorem dmaArmed (hs : s.dev.settled = true) : DmaArmed s m c v := by
  unfold DmaArmed
  intro a src dst n hr hh h2 h1 h0
  have he := exec_dmaCtrl (v := v) (i := .dmaNext m c v) (by simp) hr hh
  rw [dmaCommand_next h2 h1 h0] at he
  have hstat (d : Dev) (err : Nat) (b : Bool) :
      Engages [R.DMA_STAT c] d ((d.setFld (F.DMA_STAT_SH_ERR c) err).setOn (F.DMA_STAT_SH_VALID c) b) :=
    ((Engages.refl _ d).field _ (by simp)).bit _ (by simp)
  have hh' : ¬ handing (s.dev.touch (domainOf a)) c := mt (touch_handing ..).mp hh
  have hchecked {err : Nat} (hv : s.dev.on (F.DMA_STAT_SH_VALID c) = false) (hc : s.dev.dmaCheck c src dst n = err) :=
    exec_onBus he (dmaNext_checked hh' (by rw [touch_on, hv]) (by simpa using hc))
      (g := fun d => (d.setFld (F.DMA_STAT_SH_ERR c) err).setOn (F.DMA_STAT_SH_VALID c) (err == 0))
  refine ⟨fun hv => yields_onBus hs (exec_onBus he (dmaNext_ignored hh' (by rw [touch_on, hv]))),
    fun hv hl => yields_dmaStat hs (hchecked hv (dmaCheck_legal hl)) fun d => hstat d _ _,
    fun hv hl => ?illegal⟩
  case illegal =>
    obtain ⟨err, hc, herr⟩ : ∃ err, s.dev.dmaCheck c src dst n = err ∧ (err = 1 ∨ err = 2) := ⟨_, rfl, dmaCheck_illegal hl⟩
    have hzero : (err == 0) = false := by rcases herr with rfl | rfl <;> rfl
    have heff := hchecked hv hc
    rw [hzero] at heff
    obtain ⟨t, ht, hreg, hframe⟩ := yields_dmaStat hs heff fun d => hstat d _ _
    have hword := hreg (R.DMA_STAT c) (by simp only [R.DMA_STAT, R.MGT_STAT]; omega)
    refine ⟨t, ht, ?_, ?_, ?_, hframe.regs, ?_, hframe.events, hframe.pending⟩
    · rw [on_of_word (f := F.DMA_STAT_SH_VALID c) hword, onBus, returned_on, on_setOn_self _ _ _ (by simp) rfl]
    · rw [fld_of_word (f := F.DMA_STAT_SH_ERR c) hword, onBus, returned_fld, setOn, fld_setFld_apart _ _ (by simp) (.inr (by simp)),
        fld_setFld_self _ _ _ (by simp)]
      rcases herr with rfl | rfl <;> simp
    · rw [fld_of_word (f := F.DMA_STAT_STATE c) hword, onBus, returned_fld, setOn, fld_setFld_apart _ _ (by simp) (.inl (by simp)),
        fld_setFld_apart _ _ (by simp) (.inl (by simp)), touch_fld]
    · rw [hframe.rest, onBus, returned_rest, setOn_rest, setFld_rest, onBus, id, returned_rest]

theorem dmaAborted (hs : s.dev.settled = true) : DmaAborted s m c v := by
  unfold DmaAborted
  intro a hr hh h2 h1
  have he := exec_dmaCtrl (v := v) (i := .dmaAbort m c v) (by simp) hr hh
  rw [dmaCommand_abort h2 h1] at he
  have hh' : ¬ handing (s.dev.touch (domainOf a)) c := mt (touch_handing ..).mp hh
  refine ⟨fun hs1 hs2 => ?idle, fun hst => ?halts⟩
  case idle =>
    refine yields_dmaStat hs (exec_onBus he ((dmaAbort_states hh').trans (if_neg (by simp [hs1, hs2])))) fun d => ?_
    exact (Engages.refl _ d).field _ (by simp)
  case halts =>
    obtain ⟨hstate, hcode, hpend, hshadow, haddr, hcount, hactive, hregs, hmem, hbooks⟩ := dmaAbort_halts hh' (by simpa using hst)
    simp only [touch_reg, touch_fld, touch_mem, touch_freeCtr, touch_eventBooks] at haddr hcount hactive hregs hmem hbooks
    rw [onBus] at he
    generalize dmaAbort c (s.dev.touch (domainOf (R.DMA_CTRL c))) = e at *
    have hframe := frame_served (as := haltWords c) (r := .done) (w := 0) hs hregs hbooks
    have hstat : R.DMA_STAT c < 0x101B0000 := by simp only [R.DMA_STAT]; omega
    exact ⟨_, he, (fld_served hstat).trans hstate, (fld_served hstat).trans hcode, (fld_served hstat).trans hpend,
      (on_served hstat).trans hshadow, (reg_served (by simp only [R.DMA_ERR_ADDR]; omega)).trans haddr,
      (reg_served (by simp only [R.DMA_ERR]; omega)).trans hcount, (fld_served (by decide)).trans hactive, hframe.regs,
      (mem_served s e).trans hmem, hframe.events, hframe.pending⟩

/-! ### The registers of a transfer and of its shadow (R498) -/

theorem dmaWords_bits : ∀ c : Fin 8, ∀ a ∈ [R.DMA_SRC c, R.DMA_DST c, R.DMA_NSRC c, R.DMA_NDST c], rowBits a 0xFFFFFFFF 0 = true := by
  decide +kernel

/-- A word of RW bits alone takes what is written. -/
theorem wordWritten_all (d : Dev) (a : Nat) (v : Word) : wordWritten d a 0xFFFFFFFF v = v := by
  rw [wordWritten, show BitVec.ofNat 32 0xFFFFFFFF = BitVec.allOnes 32 from rfl, BitVec.not_allOnes, BitVec.and_zero, BitVec.zero_or,
    BitVec.and_allOnes]

theorem exec_dmaWord (ha : a ∈ [R.DMA_SRC c, R.DMA_DST c, R.DMA_NSRC c, R.DMA_NDST c]) (hr : Reaches s m a) :
    exec (.registerWrite m a .word v) s = .next (commit s (onBus a (writeDma a v 0) s.dev)) := by
  have hbus : exec (.registerWrite m a .word v) s = .next (commit s (s.dev.busWrite m a .word v)) := rfl
  have hblock : RegWord a ∧ blockOf a = 23 := by
    simp only [List.mem_cons, List.not_mem_nil, or_false, R.DMA_SRC, R.DMA_DST, R.DMA_NSRC, R.DMA_NDST] at ha
    simp only [RegWord, blockOf]
    omega
  rw [hbus, busWrite_dma hblock.1 hblock.2 (dmaWords_bits c a ha) (by decide) hr, onBus, wordWritten_all,
    show v &&& BitVec.ofNat 32 0 = 0 from BitVec.and_zero, onBus]

theorem yields_word {i : Instr} (hs : s.dev.settled = true) (h : exec i s = .next (commit s (onBus a (fun d => d.setReg a v) s.dev))) :
    Yields i s (onBus a (fun d => d.setReg a v) s.dev) [a] [] :=
  yields_effect hs h (fun _ hb d => reg_setReg_ne v d (List.ne_of_not_mem_cons hb)) fun d => (onlyWord_setReg a v d).books

theorem dmaRegWritten (hs : s.dev.settled = true) : DmaRegWritten s m c v := by
  refine ⟨fun a ha hr hh => ?transfer, fun a ha hr hh => ?shadow⟩
  case transfer =>
    have he := exec_dmaWord (v := v) (c := c) (by simp only [List.mem_cons] at ha ⊢; tauto) hr
    have hw := writeDma_transfer (v := v) (t := 0) (d := s.dev.touch (domainOf a)) (mt (touch_handing ..).mp hh) ha
    rw [touch_dmaState] at hw
    refine ⟨fun hst => yields_word hs (exec_onBus he (hw.trans (if_pos hst))),
      fun hst => yields_onBus hs (exec_onBus he (hw.trans (if_neg ?_)))⟩
    omega
  case shadow =>
    have he := exec_dmaWord (v := v) (c := c) (by simp only [List.mem_cons] at ha ⊢; tauto) hr
    have hw := writeDma_shadow (v := v) (t := 0) (d := s.dev.touch (domainOf a)) (mt (touch_handing ..).mp hh) ha
    rw [touch_on] at hw
    exact ⟨fun hv => yields_word hs (exec_onBus he (hw.trans (if_neg (by simp [hv])))),
      fun hv => yields_onBus hs (exec_onBus he (hw.trans (if_pos hv)))⟩

/-- Settles O44: each command by the check of its transfer or by the channel's state, and a write of a channel's registers by the state
or the shadow that guards them. -/
theorem dmaCommanded : Obligations.DmaCommanded :=
  fun _ hs _ _ _ => ⟨dmaStarted hs, dmaArmed hs, dmaAborted hs, dmaRegWritten hs⟩

end Sys2Proof.Claims
end

section
/-! SUPPORT. Request lines, arbitration and the hand-over of the DMA engine (R499, R501, R502, R504). -/

namespace Sys2Proof.Machine.Dev

open Claims

variable {d e : Dev} {c k : Fin 8} {a line : Nat}

/-- A reading that no step but x's touches, and x's alone decides, is after the pass what that step makes of it. -/
theorem each_at {α β : Type} {f : α → Dev → Dev} {l : List α} {x : α} (p : Dev → β) (hl : l.Nodup) (hx : x ∈ l)
    (hother : ∀ y, y ≠ x → ∀ d, p (f y d) = p d) (hself : ∀ d e, p d = p e → p (f x d) = p (f x e)) (d : Dev) :
    p (d.each l f) = p (f x d) := by
  induction l generalizing d with
  | nil => exact absurd hx List.not_mem_nil
  | cons y l ih =>
    obtain ⟨hy, hl⟩ := List.nodup_cons.mp hl
    by_cases hyx : y = x
    · subst hyx
      exact each_keeps_mem p (fun z hz => hother z fun h => hy (h ▸ hz)) _
    · have hx := (List.mem_cons.mp hx).resolve_left (Ne.symm hyx)
      exact (ih hl hx (f y d)).trans (hself _ _ (hother y hyx d))

/-! ### A pulse on a request line (R499, R501) -/

/-- Channel c waits or runs, and listens to the line. -/
def Hears (d : Dev) (line c : Nat) : Prop :=
  line ≠ 0 ∧ d.fld (F.DMA_CFG_REQ c) = line ∧ (d.dmaState c = 1 ∨ d.dmaState c = 2)

/-- What a pulse does to channel c. -/
def pulseAt (line c : Nat) (d : Dev) : Dev :=
  if line = 0 ∨ d.fld (F.DMA_CFG_REQ c) ≠ line ∨ (d.dmaState c ≠ 1 ∧ d.dmaState c ≠ 2) then d
  else if d.fld (F.DMA_STAT_PEND c) = 255 then d.bump (R.DMA_REQ_LOST c)
  else d.bumpFld (F.DMA_STAT_PEND c)

theorem pulse_channels (line : Nat) (d : Dev) : d.pulse line = d.each (List.range 8) (pulseAt line) := rfl

theorem pulseAt_deaf {c : Nat} (h : ¬ d.Hears line c) : d.pulseAt line c = d := if_pos (by unfold Hears at h; tauto)

theorem pulseAt_heard {c : Nat} (h : d.Hears line c) : d.pulseAt line c =
    if d.fld (F.DMA_STAT_PEND c) = 255 then d.bump (R.DMA_REQ_LOST c) else d.bumpFld (F.DMA_STAT_PEND c) :=
  if_neg (by unfold Hears at h; tauto)

theorem pulseAt_cases (line c : Nat) (d : Dev) :
    d.pulseAt line c = d ∨ d.pulseAt line c = d.bump (R.DMA_REQ_LOST c) ∨ d.pulseAt line c = d.bumpFld (F.DMA_STAT_PEND c) := by
  unfold pulseAt
  split_ifs
  · exact .inl rfl
  · exact .inr (.inl rfl)
  · exact .inr (.inr rfl)

theorem pulseAt_reg {c : Nat} (d : Dev) (hstat : a ≠ R.DMA_STAT c) (hlost : a ≠ R.DMA_REQ_LOST c) :
    (d.pulseAt line c).reg a = d.reg a := by
  rcases pulseAt_cases line c d with h | h | h <;> rw [h]
  · exact reg_bump_ne d hlost
  · exact reg_setFld_ne _ _ d hstat

theorem pulse_reg (d : Dev) (h : ∀ c < 8, a ≠ R.DMA_STAT c ∧ a ≠ R.DMA_REQ_LOST c) : (d.pulse line).reg a = d.reg a :=
  each_keeps_mem (fun d => d.reg a) (fun c hc d => pulseAt_reg d (h c (List.mem_range.mp hc)).1 (h c (List.mem_range.mp hc)).2) d

theorem pulse_rest (line : Nat) (d : Dev) : (d.pulse line).rest = d.rest :=
  each_keeps _ (pulseAt line) rest (fun c d => by
    rcases pulseAt_cases line c d with h | h | h <;> rw [h]
    · exact bump_rest _ d
    · exact setFld_rest _ _ d) d

theorem pulse_eventBooks (line : Nat) (d : Dev) : (d.pulse line).eventBooks = d.eventBooks :=
  each_keeps _ (pulseAt line) eventBooks (fun c d => by
    rcases pulseAt_cases line c d with h | h | h <;> rw [h]
    · exact bump_eventBooks _ d
    · exact setFld_eventBooks _ _ d) d

/-- The words of channel c that a pulse reads or writes. -/
def requestWords (c : Nat) (d : Dev) : Word × Word × Word := (d.reg (R.DMA_CFG c), d.reg (R.DMA_STAT c), d.reg (R.DMA_REQ_LOST c))

theorem requestWords_other {j i : Nat} (h : j ≠ i) (d : Dev) :
    requestWords i (d.pulseAt line j) = requestWords i d := by
  have hreg {a : Nat} (ha : a = R.DMA_CFG i ∨ a = R.DMA_STAT i ∨ a = R.DMA_REQ_LOST i) : (d.pulseAt line j).reg a = d.reg a := by
    simp only [R.DMA_CFG, R.DMA_STAT, R.DMA_REQ_LOST] at ha
    exact pulseAt_reg d (by simp only [R.DMA_STAT]; omega) (by simp only [R.DMA_REQ_LOST]; omega)
  rw [requestWords, hreg (.inl rfl), hreg (.inr (.inl rfl)), hreg (.inr (.inr rfl)), requestWords]

theorem requestWords_pulseAt (i : Nat) (d e : Dev) (h : requestWords i d = requestWords i e) :
    requestWords i (d.pulseAt line i) = requestWords i (e.pulseAt line i) := by
  have hwords := h
  simp only [requestWords, Prod.mk.injEq] at hwords
  obtain ⟨hcfg, hstat, hlost⟩ := hwords
  have hpend := fld_of_word (f := F.DMA_STAT_PEND i) hstat
  have hhears : d.Hears line i ↔ e.Hears line i := by
    unfold Hears dmaState
    rw [fld_of_word (f := F.DMA_CFG_REQ i) hcfg, fld_of_word (f := F.DMA_STAT_STATE i) hstat]
  by_cases hd : d.Hears line i
  · rw [pulseAt_heard hd, pulseAt_heard (hhears.mp hd), hpend]
    split
    · simp only [requestWords, reg_bump, hcfg, hstat, hlost]
    · simp only [requestWords, bumpFld, setFld, reg_setReg, hpend, hcfg, hstat, hlost]
  · rwa [pulseAt_deaf hd, pulseAt_deaf (mt hhears.mpr hd)]

/-- A pulse leaves the words of a channel as that channel's own step does. -/
theorem pulse_words (line : Nat) (c : Fin 8) (d : Dev) : (d.pulse line).reg (R.DMA_STAT c) = (d.pulseAt line c).reg (R.DMA_STAT c) ∧
    (d.pulse line).reg (R.DMA_REQ_LOST c) = (d.pulseAt line c).reg (R.DMA_REQ_LOST c) := by
  have h := each_at (requestWords c) List.nodup_range (List.mem_range.mpr c.isLt)
    (fun _ hne d => requestWords_other (line := line) hne d) (requestWords_pulseAt c) d
  simp only [← pulse_channels, requestWords, Prod.mk.injEq] at h
  exact h.2

theorem pulse_deaf (h : ¬ d.Hears line c) : (d.pulse line).reg (R.DMA_STAT c) = d.reg (R.DMA_STAT c) ∧
    (d.pulse line).reg (R.DMA_REQ_LOST c) = d.reg (R.DMA_REQ_LOST c) := by
  have hwords := pulse_words line c d
  rwa [pulseAt_deaf h] at hwords

theorem lost_ne_stat (c : Fin 8) : R.DMA_REQ_LOST c ≠ R.DMA_STAT c := by simp only [R.DMA_REQ_LOST, R.DMA_STAT]; omega

theorem pulse_lost (h : d.Hears line c) (hp : d.fld (F.DMA_STAT_PEND c) = 255) :
    (d.pulse line).reg (R.DMA_STAT c) = d.reg (R.DMA_STAT c) ∧
    (d.pulse line).reg (R.DMA_REQ_LOST c) = d.reg (R.DMA_REQ_LOST c) + 1 := by
  have hwords := pulse_words line c d
  rwa [pulseAt_heard h, if_pos hp, reg_bump_ne _ (lost_ne_stat c).symm, reg_bump, if_pos rfl] at hwords

theorem pulse_taken (h : d.Hears line c) (hp : d.fld (F.DMA_STAT_PEND c) < 255) :
    (d.pulse line).reg (R.DMA_STAT c) = (d.bumpFld (F.DMA_STAT_PEND c)).reg (R.DMA_STAT c) ∧
    (d.pulse line).fld (F.DMA_STAT_PEND c) = d.fld (F.DMA_STAT_PEND c) + 1 ∧
    (d.pulse line).reg (R.DMA_REQ_LOST c) = d.reg (R.DMA_REQ_LOST c) := by
  obtain ⟨hstat, hlost⟩ := pulse_words line c d
  rw [pulseAt_heard h, if_neg (Nat.ne_of_lt hp)] at hstat hlost
  refine ⟨hstat, ?_, hlost.trans (reg_setFld_ne _ _ d (lost_ne_stat c))⟩
  rw [fld_of_word (f := F.DMA_STAT_PEND c) hstat, bumpFld, fld_setFld_self _ _ _ (by simp)]
  exact Nat.mod_eq_of_lt (Nat.succ_lt_succ hp)

/-! ### The channel that is found (R502) -/

theorem find_channel {p : Fin 8 → Bool} (hp : p c = true) (hlow : ∀ k < c, p k = false) : (List.finRange 8).find? p = some c := by
  refine List.find?_eq_some_iff_getElem.mpr ⟨hp, c, by simp, by simp, fun j hj => ?_⟩
  have hfalse := hlow ⟨j, hj.trans c.isLt⟩ hj
  simpa using hfalse

/-- At most one channel has the engine. -/
theorem find_active {p : Fin 8 → Bool} (hc : d.fld F.DMA_ACTIVE_CH = c) (hp : p c = true)
    (hactive : ∀ k, p k = true → d.fld F.DMA_ACTIVE_CH = k) : (List.finRange 8).find? p = some c :=
  find_channel hp fun k hk => by
    by_contra hne
    have hkc : (k : Nat) = c := (hactive k (by simpa using hne)).symm.trans hc
    omega

/-- Channel c waits, with a request pending. -/
def Ready (d : Dev) (c : Nat) : Prop := d.dmaState c = 1 ∧ (d.fld (F.DMA_CFG_REQ c) = 0 ∨ 0 < d.fld (F.DMA_STAT_PEND c))

theorem ready_iff (d : Dev) (c : Nat) : (d.dmaState c == 1 && d.dmaPending c) = true ↔ d.Ready c := by
  simp [Ready, dmaPending]

/-- The channels are tried in ascending order. -/
theorem dmaActivate_tries (d : Dev) : d.dmaActivate = if d.fld F.DMA_ACTIVE_CH ≠ 15 then d else
    ((List.range 8).find? fun c => d.dmaState c == 1 && d.dmaPending c).elim d fun c =>
      (d.setFld (F.DMA_STAT_STATE c) 2).setFld F.DMA_ACTIVE_CH c := by
  have hchannels : ((List.finRange 8) >>= fun a => pure (a : Nat) : List Nat) = List.range 8 := by decide
  rw [dmaActivate, hchannels]
  cases (List.range 8).find? fun c => d.dmaState c == 1 && d.dmaPending c <;> rfl

theorem dmaActivate_busy (h : d.fld F.DMA_ACTIVE_CH ≠ 15) : d.dmaActivate = d := if_pos h

theorem dmaActivate_none (h : ∀ c : Fin 8, ¬ d.Ready c) : d.dmaActivate = d := by
  have hfind : ((List.range 8).find? fun c => d.dmaState c == 1 && d.dmaPending c) = none :=
    List.find?_eq_none.mpr fun c hc => by rw [ready_iff]; exact h ⟨c, List.mem_range.mp hc⟩
  rw [dmaActivate_tries, hfind]
  exact ite_self _

theorem dmaActivate_lowest (h : d.fld F.DMA_ACTIVE_CH = 15) (hc : d.Ready c) (hlow : ∀ k : Fin 8, k < c → ¬ d.Ready k) :
    d.dmaActivate = (d.setFld (F.DMA_STAT_STATE c) 2).setFld F.DMA_ACTIVE_CH c := by
  have hfind : ((List.range 8).find? fun c => d.dmaState c == 1 && d.dmaPending c) = some c.val := by
    refine List.find?_range_eq_some.mpr ⟨(ready_iff d c).mpr hc, List.mem_range.mpr c.isLt, fun k hk => ?_⟩
    rw [Bool.not_eq_true', Bool.eq_false_iff, ne_eq, ready_iff]
    exact hlow ⟨k, hk.trans c.isLt⟩ hk
  rw [dmaActivate_tries, if_neg (not_not.mpr h), hfind]
  rfl

/-! ### The hand-over (R504) -/

/-- The channel takes its armed shadow and waits. -/
def shadowTaken (c : Nat) (d : Dev) : Dev :=
  let d := (d.setReg (R.DMA_SRC c) (d.reg (R.DMA_NSRC c))).setReg (R.DMA_DST c) (d.reg (R.DMA_NDST c))
  let d := d.setFld (F.DMA_COUNT_COUNT c) (d.fld (F.DMA_NCOUNT_NCOUNT c))
  (d.setOn (F.DMA_STAT_SH_VALID c) false).setFld (F.DMA_STAT_STATE c) 1

/-- The channel goes on with its shadow, if it is armed, or is idle. -/
def handedOver (c : Nat) (d : Dev) : Dev :=
  if d.on (F.DMA_STAT_SH_VALID c) then d.shadowTaken c else d.setFld (F.DMA_STAT_STATE c) 0

/-- The transfer is counted and the engine free. -/
def transferCounted (c : Fin 8) (d : Dev) : Dev := (d.bump (R.DMA_DONE c)).dmaFree c

/-- The completion pulse, where it is switched on. -/
def completionPulse (c : Nat) (d : Dev) : Dev :=
  if d.on (F.DMA_CFG_EVT_EN c) then d.pulse (16 + d.fld (F.DMA_CFG_EVL c)) else d

theorem dmaComplete_handing (h : handing d c) : d.dmaComplete = ((d.transferCounted c).completionPulse c).handedOver c := by
  obtain ⟨hactive, hover⟩ := h
  have hfind : ((List.finRange 8).find? fun c : Fin 8 => d.fld F.DMA_ACTIVE_CH == (c : Nat) && d.dma.handOver) = some c :=
    find_active hactive (by simp [hactive, hover]) fun k hk => by simpa [hover] using hk
  rw [dmaComplete, hfind]
  rfl

section
variable (d c)

theorem transferCounted_engages : Engages [R.DMA_DONE c, R.DMA_ACTIVE] d (d.transferCounted c) :=
  ((Engages.refl [R.DMA_DONE c, R.DMA_ACTIVE] d).bump (a := R.DMA_DONE c) (by simp)).trans
    ((dmaFree_engages c _).widen (by simp))

theorem transferCounted_done : (d.transferCounted c).reg (R.DMA_DONE c) = d.reg (R.DMA_DONE c) + 1 := by
  have hactive : R.DMA_DONE c ≠ R.DMA_ACTIVE := by simp only [R.DMA_DONE, R.DMA_ACTIVE]; omega
  rw [transferCounted, (dmaFree_engages c _).reg _ (by simpa using hactive), reg_bump, if_pos rfl]

theorem transferCounted_active (h : d.fld F.DMA_ACTIVE_CH = c) : (d.transferCounted c).fld F.DMA_ACTIVE_CH = 15 ∧
    (d.transferCounted c).dma.handOver = false := by
  have hdone : (d.bump (R.DMA_DONE c)).fld F.DMA_ACTIVE_CH = c := by
    rw [fld_of_word (reg_bump_ne d (by simp only [R.DMA_DONE, R.DMA_ACTIVE]; omega)), h]
  exact ⟨by rw [transferCounted, dmaFree_active, if_pos hdone], dmaFree_handOver hdone⟩

/-- The words of a transfer. -/
abbrev transferWords (c : Fin 8) : List Nat := [R.DMA_STAT c, R.DMA_SRC c, R.DMA_DST c, R.DMA_COUNT c]

theorem shadowTaken_engages : Engages (transferWords c) d (d.shadowTaken c) :=
  (((((Engages.refl (transferWords c) d).word (a := R.DMA_SRC c) _ (by simp)).word (a := R.DMA_DST c) _ (by simp)).field
    (f := F.DMA_COUNT_COUNT c) _ (by simp)).bit (f := F.DMA_STAT_SH_VALID c) _ (by simp)).field (f := F.DMA_STAT_STATE c) _ (by simp)

theorem handedOver_engages : Engages (transferWords c) d (d.handedOver c) := by
  unfold handedOver
  split
  · exact shadowTaken_engages d c
  · exact (Engages.refl _ d).field _ (by simp)

theorem shadowTaken_dma : (d.shadowTaken c).dma = d.dma := by simp only [shadowTaken, setFld_dma, setOn_dma, setReg_dma]

/-- The words of a transfer other than `STAT` are taken before it. -/
theorem shadowTaken_word (ha : a ≠ R.DMA_STAT c) : (d.shadowTaken c).reg a =
    (((d.setReg (R.DMA_SRC c) (d.reg (R.DMA_NSRC c))).setReg (R.DMA_DST c) (d.reg (R.DMA_NDST c))).setFld (F.DMA_COUNT_COUNT c)
      (d.fld (F.DMA_NCOUNT_NCOUNT c))).reg a := by
  have hcount : ((d.setReg (R.DMA_SRC c) (d.reg (R.DMA_NSRC c))).setReg (R.DMA_DST c) (d.reg (R.DMA_NDST c))).fld
      (F.DMA_NCOUNT_NCOUNT c) = d.fld (F.DMA_NCOUNT_NCOUNT c) := by
    rw [fld_setReg_ne _ _ (by simp only [R.DMA_NCOUNT, R.DMA_DST]; omega),
      fld_setReg_ne _ _ (by simp only [R.DMA_NCOUNT, R.DMA_SRC]; omega)]
  simp only [shadowTaken]
  rw [reg_setFld_ne _ _ _ ha, reg_setOn_ne _ _ _ ha, hcount]

theorem shadowTaken_src : (d.shadowTaken c).reg (R.DMA_SRC c) = d.reg (R.DMA_NSRC c) := by
  rw [shadowTaken_word _ _ (by simp only [R.DMA_SRC, R.DMA_STAT]; omega),
    reg_setFld_ne _ _ _ (by simp only [R.DMA_SRC, R.DMA_COUNT]; omega),
    reg_setReg_ne _ _ (by simp only [R.DMA_SRC, R.DMA_DST]; omega), reg_setReg_self]

theorem shadowTaken_dst : (d.shadowTaken c).reg (R.DMA_DST c) = d.reg (R.DMA_NDST c) := by
  rw [shadowTaken_word _ _ (by simp only [R.DMA_DST, R.DMA_STAT]; omega),
    reg_setFld_ne _ _ _ (by simp only [R.DMA_DST, R.DMA_COUNT]; omega), reg_setReg_self]

theorem shadowTaken_count : (d.shadowTaken c).fld (F.DMA_COUNT_COUNT c) = d.fld (F.DMA_NCOUNT_NCOUNT c) := by
  rw [fld_of_word (shadowTaken_word d c (by simp only [R.DMA_COUNT, R.DMA_STAT]; omega)), fld_setFld_self _ _ _ (by simp)]
  exact Nat.mod_eq_of_lt (getBits_lt _ _)

theorem shadowTaken_state : (d.shadowTaken c).dmaState c = 1 := fld_setFld_self _ _ _ (by simp)

theorem handedOver_pend : (d.handedOver c).fld (F.DMA_STAT_PEND c) = d.fld (F.DMA_STAT_PEND c) := by
  unfold handedOver
  split
  · simp only [shadowTaken]
    rw [fld_setFld_apart _ _ (by simp) (.inr (by simp)), setOn, fld_setFld_apart _ _ (by simp) (.inr (by simp)),
      fld_setFld_word _ _ (by simp only [R.DMA_STAT, R.DMA_COUNT]; omega),
      fld_setReg_ne _ _ (by simp only [R.DMA_STAT, R.DMA_DST]; omega), fld_setReg_ne _ _ (by simp only [R.DMA_STAT, R.DMA_SRC]; omega)]
  · exact fld_setFld_apart _ _ (by simp) (.inr (by simp))

theorem handedOver_valid : (d.handedOver c).on (F.DMA_STAT_SH_VALID c) = false := by
  unfold handedOver
  split
  · simp only [shadowTaken]
    rw [on, fld_setFld_apart _ _ (by simp) (.inr (by simp))]
    exact on_setOn_self _ _ _ (by simp) rfl
  · next hvalid =>
    rw [on, fld_setFld_apart _ _ (by simp) (.inr (by simp))]
    exact Bool.eq_false_iff.mpr hvalid

theorem handedOver_dma : (d.handedOver c).dma = d.dma := by
  unfold handedOver
  split
  · exact shadowTaken_dma d c
  · exact setFld_dma _ _ d

end

/-- The words below the engine's own, among them every word of a channel but its counters, do not see a transfer counted. -/
theorem transferCounted_low (d : Dev) (ha : a < R.DMA_ACTIVE) : (d.transferCounted c).reg a = d.reg a :=
  (transferCounted_engages d c).reg a (by simp only [List.mem_cons, List.not_mem_nil, or_false, R.DMA_DONE, R.DMA_ACTIVE] at *; omega)

theorem transferCounted_valid (d : Dev) (c : Fin 8) :
    (d.transferCounted c).on (F.DMA_STAT_SH_VALID c) = d.on (F.DMA_STAT_SH_VALID c) :=
  on_of_word (transferCounted_low d (by simp only [R.DMA_STAT, R.DMA_ACTIVE]; omega))

/-- The words that a hand-over of channel c may change, its pulse aside. -/
abbrev completeWords (c : Fin 8) : List Nat := [R.DMA_STAT c, R.DMA_DONE c, R.DMA_ACTIVE, R.DMA_SRC c, R.DMA_DST c, R.DMA_COUNT c]

section
variable (hhand : handing d c) (hquiet : d.on (F.DMA_CFG_EVT_EN c) = false)
include hhand hquiet

theorem dmaComplete_quiet : d.dmaComplete = (d.transferCounted c).handedOver c := by
  have hoff : (d.transferCounted c).on (F.DMA_CFG_EVT_EN c) = false :=
    (on_of_word (transferCounted_low d (by simp only [R.DMA_CFG, R.DMA_ACTIVE]; omega))).trans hquiet
  rw [dmaComplete_handing hhand, completionPulse, if_neg (Bool.eq_false_iff.mp hoff)]

theorem dmaComplete_engages : Engages (completeWords c) d d.dmaComplete := by
  rw [dmaComplete_quiet hhand hquiet]
  exact ((transferCounted_engages d c).widen (by simp)).trans ((handedOver_engages _ c).widen (by simp))

theorem dmaComplete_word (ha : a = R.DMA_DONE c ∨ a = R.DMA_ACTIVE) : d.dmaComplete.reg a = (d.transferCounted c).reg a := by
  rw [dmaComplete_quiet hhand hquiet]
  refine (handedOver_engages _ c).reg a ?_
  simp only [List.mem_cons, List.not_mem_nil, or_false, R.DMA_STAT, R.DMA_DONE, R.DMA_ACTIVE, R.DMA_SRC, R.DMA_DST, R.DMA_COUNT] at *
  omega

theorem dmaComplete_done : d.dmaComplete.reg (R.DMA_DONE c) = d.reg (R.DMA_DONE c) + 1 :=
  (dmaComplete_word hhand hquiet (.inl rfl)).trans (transferCounted_done d c)

theorem dmaComplete_active : d.dmaComplete.fld F.DMA_ACTIVE_CH = 15 :=
  (fld_of_word (dmaComplete_word hhand hquiet (.inr rfl))).trans (transferCounted_active d c hhand.1).1

theorem dmaComplete_valid : d.dmaComplete.on (F.DMA_STAT_SH_VALID c) = false := by
  rw [dmaComplete_quiet hhand hquiet, handedOver_valid]

theorem dmaComplete_handOver : d.dmaComplete.dma.handOver = false := by
  rw [dmaComplete_quiet hhand hquiet, handedOver_dma, (transferCounted_active d c hhand.1).2]

theorem dmaComplete_pend : d.dmaComplete.fld (F.DMA_STAT_PEND c) = d.fld (F.DMA_STAT_PEND c) := by
  rw [dmaComplete_quiet hhand hquiet, handedOver_pend,
    fld_of_word (transferCounted_low d (by simp only [R.DMA_STAT, R.DMA_ACTIVE]; omega))]

theorem dmaComplete_armed (hv : d.on (F.DMA_STAT_SH_VALID c) = true) : d.dmaComplete.dmaState c = 1 ∧
    d.dmaComplete.reg (R.DMA_SRC c) = d.reg (R.DMA_NSRC c) ∧ d.dmaComplete.reg (R.DMA_DST c) = d.reg (R.DMA_NDST c) ∧
    d.dmaComplete.fld (F.DMA_COUNT_COUNT c) = d.fld (F.DMA_NCOUNT_NCOUNT c) := by
  have htaken : d.dmaComplete = (d.transferCounted c).shadowTaken c := by
    rw [dmaComplete_quiet hhand hquiet, handedOver, transferCounted_valid, if_pos hv]
  rw [htaken]
  refine ⟨shadowTaken_state .., ?_, ?_, ?_⟩
  · rw [shadowTaken_src, transferCounted_low d (by simp only [R.DMA_NSRC, R.DMA_ACTIVE]; omega)]
  · rw [shadowTaken_dst, transferCounted_low d (by simp only [R.DMA_NDST, R.DMA_ACTIVE]; omega)]
  · rw [shadowTaken_count, fld_of_word (transferCounted_low d (by simp only [R.DMA_NCOUNT, R.DMA_ACTIVE]; omega))]

theorem dmaComplete_idle (hv : d.on (F.DMA_STAT_SH_VALID c) = false) : d.dmaComplete.dmaState c = 0 ∧
    Engages [R.DMA_STAT c, R.DMA_DONE c, R.DMA_ACTIVE] d d.dmaComplete := by
  have hidle : d.dmaComplete = (d.transferCounted c).setFld (F.DMA_STAT_STATE c) 0 := by
    rw [dmaComplete_quiet hhand hquiet, handedOver, transferCounted_valid, hv, if_neg Bool.false_ne_true]
  rw [hidle]
  exact ⟨fld_setFld_self _ _ _ (by simp), ((transferCounted_engages d c).widen (by simp)).field _ (by simp)⟩

end

end Sys2Proof.Machine.Dev

end

section
/-! SUPPORT. A request, an arbitration and a hand-over as their commands take them (R499, R501, R502, R504). -/

namespace Sys2Proof.Claims

open Sys2Proof.Machine Sys2Proof.Machine.Dev

variable {s : State} {c k : Fin 8} {d : Dev}

/-! ### Requests -/

theorem dmaLine_silent {line : Nat} (h : line = 0 ∨ (10 ≤ line ∧ line ≤ 15)) : d.dmaLine line = d := if_pos h

theorem dmaLine_pulses {line : Nat} (h : ¬ (line = 0 ∨ (10 ≤ line ∧ line ≤ 15))) : d.dmaLine line = d.pulse line := if_neg h

theorem dmaRequested (hs : s.dev.settled = true) (line : Fin 32) : DmaRequested s line := by
  have hstat (c : Fin 8) : R.DMA_STAT c < 0x101B0000 := by simp only [R.DMA_STAT]; omega
  have hlost (c : Fin 8) : R.DMA_REQ_LOST c < 0x101B0000 := by simp only [R.DMA_REQ_LOST]; omega
  by_cases hline : line.val = 0 ∨ (10 ≤ line.val ∧ line.val ≤ 15)
  · refine ⟨commit s s.dev, congrArg (fun d => Host.Outcome.next (commit s d)) (dmaLine_silent hline), fun c => ?_,
      frame_books hs (fun _ _ => rfl) rfl rfl⟩
    intro hears
    have hdeaf : ¬ hears := fun h => hline.elim h.1 h.2.1
    exact ⟨fun h => absurd h hdeaf, fun h => absurd h hdeaf, fun _ => ⟨reg_commit (hstat c), reg_commit (hlost c)⟩⟩
  · refine ⟨commit s (s.dev.pulse line), congrArg (fun d => Host.Outcome.next (commit s d)) (dmaLine_pulses hline), fun c => ?_,
      frame_books hs (fun a ha => ?_) (pulse_rest ..) (pulse_eventBooks ..)⟩
    · intro hears
      obtain ⟨hzero, hinner⟩ := not_or.mp hline
      have hiff : hears ↔ s.dev.Hears line c :=
        ⟨fun ⟨_, _, hreq, hst⟩ => ⟨hzero, hreq, hst⟩, fun ⟨_, hreq, hst⟩ => ⟨hzero, hinner, hreq, hst⟩⟩
      refine ⟨fun h hp => ?taken, fun h hp => ?lost, fun h => ?deaf⟩
      case taken =>
        obtain ⟨hword, hpend, hcount⟩ := pulse_taken (hiff.mp h) hp
        exact ⟨(reg_commit (hstat c)).trans hword, (fld_of_word (reg_commit (hstat c))).trans hpend,
          (reg_commit (hlost c)).trans hcount⟩
      case lost =>
        obtain ⟨hword, hcount⟩ := pulse_lost (hiff.mp h) hp
        exact ⟨(reg_commit (hstat c)).trans hword, (reg_commit (hlost c)).trans hcount⟩
      case deaf =>
        obtain ⟨hword, hcount⟩ := pulse_deaf (mt hiff.mpr h)
        exact ⟨(reg_commit (hstat c)).trans hword, (reg_commit (hlost c)).trans hcount⟩
    · refine pulse_reg s.dev fun j hj => ?_
      simp only [List.mem_flatMap, List.mem_range, List.mem_cons, List.not_mem_nil, or_false, not_exists, not_and, not_or] at ha
      exact ha j hj

/-! ### Arbitration -/

theorem dmaActivated (hs : s.dev.settled = true) : DmaActivated s := by
  unfold DmaActivated
  intro ready
  have yields {d : Dev} {as : List Nat} (h : s.dev.dmaActivate = d) (hd : Engages as s.dev d) : Yields .dmaActivate s d as [] :=
    have hexec : exec .dmaActivate s = .next (commit s d) := congrArg (fun d => Host.Outcome.next (commit s d)) h
    ⟨_, hexec, fun _ ha => finish_reg _ _ _ ha, frame_books hs hd.reg rfl hd.books⟩
  refine ⟨fun hbusy => yields (dmaActivate_busy hbusy) (Engages.refl _ _),
    fun hnone => yields (dmaActivate_none hnone) (Engages.refl _ _),
    fun hfree c hc hlow => yields (dmaActivate_lowest hfree hc hlow) ?_⟩
  exact ((Engages.refl _ _).field _ (by simp)).field _ (by simp)

/-! ### The hand-over -/

theorem exec_handing (h : handing s.dev c) : exec .dmaComplete s =
    .next (commit s (((s.dev.transferCounted c).completionPulse c).handedOver c)) :=
  congrArg (fun d => Host.Outcome.next (commit s d)) (dmaComplete_handing h)

theorem dmaCompleted (hs : s.dev.settled = true) (c : Fin 8) : DmaCompleted s c := by
  intro hhand hquiet
  have hengages := dmaComplete_engages hhand hquiet
  have hframe := frame_books (d := s.dev.dmaComplete) hs hengages.reg rfl hengages.books
  have hword {a : Nat} (ha : a < 0x101B0000) : (commit s s.dev.dmaComplete).dev.reg a = s.dev.dmaComplete.reg a := reg_commit ha
  have hstat := hword (a := R.DMA_STAT c) (by simp only [R.DMA_STAT]; omega)
  refine ⟨commit s s.dev.dmaComplete, rfl, (hword (by simp only [R.DMA_DONE]; omega)).trans (dmaComplete_done hhand hquiet),
    (fld_of_word (hword (by decide))).trans (dmaComplete_active hhand hquiet), (on_of_word hstat).trans (dmaComplete_valid hhand hquiet),
    (finish_keeps (fun d => d.dma.handOver) fun _ => rfl).trans (dmaComplete_handOver hhand hquiet),
    (fld_of_word hstat).trans (dmaComplete_pend hhand hquiet), fun hv => ?armed, fun hv => ?idle, hframe.regs,
    (finish_keeps Dev.mem fun _ => rfl).trans hengages.mem, hframe.events, hframe.pending⟩
  case armed =>
    obtain ⟨hstate, hsrc, hdst, hcount⟩ := dmaComplete_armed hhand hquiet hv
    exact ⟨(fld_of_word hstat).trans hstate, (hword (by simp only [R.DMA_SRC]; omega)).trans hsrc,
      (hword (by simp only [R.DMA_DST]; omega)).trans hdst,
      (fld_of_word (hword (by simp only [R.DMA_COUNT]; omega))).trans hcount⟩
  case idle =>
    obtain ⟨hstate, hidle⟩ := dmaComplete_idle hhand hquiet hv
    exact ⟨(fld_of_word hstat).trans hstate, kept_finish hidle.reg⟩

theorem dmaPulses (s : State) (c k : Fin 8) : DmaPulses s c k := by
  intro hhand hpulse hne hreq hst hp
  have hchannel (a : Nat) (ha : a = R.DMA_CFG k ∨ a = R.DMA_STAT k ∨ a = R.DMA_CFG c) :
      (s.dev.transferCounted c).reg a = s.dev.reg a :=
    transferCounted_low _ (by simp only [R.DMA_CFG, R.DMA_STAT, R.DMA_ACTIVE] at *; omega)
  have hline : (s.dev.transferCounted c).fld (F.DMA_CFG_EVL c) = s.dev.fld (F.DMA_CFG_EVL c) :=
    fld_of_word (hchannel _ (.inr (.inr rfl)))
  have hon : (s.dev.transferCounted c).on (F.DMA_CFG_EVT_EN c) = true := (on_of_word (hchannel _ (.inr (.inr rfl)))).trans hpulse
  have hpend : (s.dev.transferCounted c).fld (F.DMA_STAT_PEND k) = s.dev.fld (F.DMA_STAT_PEND k) :=
    fld_of_word (hchannel _ (.inr (.inl rfl)))
  have hhears : (s.dev.transferCounted c).Hears (16 + s.dev.fld (F.DMA_CFG_EVL c)) k :=
    ⟨by omega, (fld_of_word (hchannel _ (.inl rfl))).trans hreq, .inl ((fld_of_word (hchannel _ (.inr (.inl rfl)))).trans hst)⟩
  have hother {a : Nat} (ha : a = R.DMA_STAT k ∨ a = R.DMA_DONE c) (d : Dev) : (d.handedOver c).reg a = d.reg a := by
    refine (handedOver_engages d c).reg a ?_
    simp only [List.mem_cons, List.not_mem_nil, or_false, R.DMA_STAT, R.DMA_DONE, R.DMA_SRC, R.DMA_DST, R.DMA_COUNT] at *
    omega
  have htaken := (pulse_taken hhears (by rwa [hpend])).2.1
  have hdone : ∀ j < 8, R.DMA_DONE c ≠ R.DMA_STAT j ∧ R.DMA_DONE c ≠ R.DMA_REQ_LOST j := by
    simp only [R.DMA_DONE, R.DMA_STAT, R.DMA_REQ_LOST]
    omega
  have he := exec_handing hhand
  rw [completionPulse, if_pos hon, hline] at he
  refine ⟨_, he, ?_, ?_⟩
  · rw [fld_of_word (reg_commit (by simp only [R.DMA_STAT]; omega)), fld_of_word (hother (.inl rfl) _), htaken, hpend]
  · rw [reg_commit (by simp only [R.DMA_DONE]; omega), hother (.inr rfl), pulse_reg _ hdone, transferCounted_done]

end Sys2Proof.Claims
end

section
/-! SUPPORT. A beat of the DMA engine (R494, R500): the performance counters that see it, its burst, its word and its addresses. -/

namespace Sys2Proof.Machine

theorem mem_insertRaise {rank : Raise → Nat} {r x : Raise} {l : List Raise} : r ∈ insertRaise rank x l ↔ r = x ∨ r ∈ l := by
  induction l with
  | nil => simp [insertRaise]
  | cons y l ih =>
    rw [insertRaise]
    split
    · simp
    · simp only [List.mem_cons, ih]
      tauto

theorem mem_sortRaises {r : Raise} {l : List Raise} : r ∈ sortRaises l ↔ r ∈ l := by
  have hfold (l acc : List Raise) : r ∈ l.foldl (fun acc r => insertRaise Raise.code r acc) acc ↔ r ∈ acc ∨ r ∈ l := by
    induction l generalizing acc with
    | nil => simp
    | cons x l ih =>
      rw [List.foldl_cons, ih, mem_insertRaise, List.mem_cons]
      tauto
  rw [sortRaises, sortBy, hfold, or_iff_right List.not_mem_nil]

namespace Dev

open Claims

variable {d d₀ e : Dev} {c : Fin 8} {a b : Nat} {q : Vector EvQ 32} {w : Word}

/-! ### The performance counters (R679, R680) -/

/-- From d₀ to d only words of the block CNT have changed, and events of that block alone have been raised. -/
structure Counts (d₀ d : Dev) : Prop where
  reg     : ∀ a, blockOf a ≠ Blk.cnt → d.reg a = d₀.reg a
  rest    : d.rest = d₀.rest
  popped  : d.popped = d₀.popped
  emptied : d.emptied = d₀.emptied
  raised  : ∀ r ∈ d.raised, r ∈ d₀.raised ∨ r.blk = Blk.cnt

namespace Counts

theorem refl (d : Dev) : Counts d d := ⟨fun _ _ => rfl, rfl, rfl, rfl, fun _ => .inl⟩

variable (h : Counts d₀ d)
include h

theorem word (v : Word) (ha : blockOf a = Blk.cnt) : Counts d₀ (d.setReg a v) :=
  ⟨fun b hb => (reg_setReg_ne v d fun hab => hb (by rwa [hab])).trans (h.reg b hb), h.rest, h.popped, h.emptied, h.raised⟩

theorem bit {f : Fld} (v : Bool) (ha : blockOf f.addr = Blk.cnt) : Counts d₀ (d.setOn f v) := h.word _ ha

theorem raise (code lane : Nat) : Counts d₀ (d.raise Blk.cnt code lane) := by
  refine ⟨h.reg, h.rest, h.popped, h.emptied, fun r hr => ?_⟩
  rw [raise_raised, List.mem_append, List.mem_singleton] at hr
  rcases hr with hr | rfl
  · exact h.raised r hr
  · exact .inr rfl

theorem pmcAdd {i : Nat} (hi : i < 8) (k : Nat) : Counts d₀ (d.pmcAdd i k) := by
  have hblock : blockOf (R.CNT_PMC_LO i) = Blk.cnt ∧ blockOf (R.CNT_PMC_LO i + 4) = Blk.cnt := by
    simp only [blockOf, R.CNT_PMC_LO, Blk.cnt]
    omega
  have hset : Counts d₀ (d.set48 (R.CNT_PMC_LO i) ((d.count48 (R.CNT_PMC_LO i) + k) % 2 ^ 48)) :=
    (h.word _ hblock.1).word _ hblock.2
  have hwrap := hset.bit (f := ⟨R.CNT_OVF, i, 1⟩) true (show blockOf R.CNT_OVF = Blk.cnt by decide)
  unfold Dev.pmcAdd Dev.pmcWrap
  dsimp only
  split_ifs
  · exact hwrap.raise _ _
  · exact hwrap
  · exact hset

omit h in
theorem each {α : Type} (l : List α) {f : α → Dev → Dev} (hf : ∀ x ∈ l, ∀ d, Counts d₀ d → Counts d₀ (f x d)) :
    ∀ {d}, Counts d₀ d → Counts d₀ (d.each l f) := by
  induction l with
  | nil => exact id
  | cons x l ih => exact fun h => ih (fun y hy => hf y (List.mem_cons_of_mem _ hy)) (hf x List.mem_cons_self _ h)

theorem devEvent (code k : Nat) : Counts d₀ (d.devEvent code k) := by
  refine each _ (fun i hi d h => h.pmcAdd ?_ k) h
  unfold countersOf at hi
  split at hi
  · exact absurd hi List.not_mem_nil
  · exact List.mem_range.mp (List.mem_filter.mp hi).1

/-- A reading that looks at no register word and at no event is as it was. -/
theorem keeps {β : Type} (g : Dev → β) (hg : ∀ e : Dev, g e.rest = g e) : g d = g d₀ :=
  calc g d = g d.rest := (hg d).symm
    _ = g d₀.rest := congrArg g h.rest
    _ = g d₀ := hg d₀

/-- The words of the DMA block are none of the counters'. -/
theorem dmaWord (ha : 0x10170000 ≤ a) (ha' : a < 0x10180000) : d.reg a = d₀.reg a :=
  h.reg a (by simp only [blockOf, Blk.cnt]; omega)

end Counts

/-! ### Stored words by what the memories hold -/

theorem memWord_of_mem (h : e.mem = d.mem) (a : Nat) : e.memWord a = d.memWord a := by rw [memWord, h, memWord]

theorem memCheck_of_chk (h : e.chk = d.chk) (a : Nat) : e.memCheck a = d.memCheck a := by rw [memCheck, h, memCheck]

theorem storeWord_reg (a : Nat) (w : Word) (d : Dev) (b : Nat) : (d.storeWord a w).reg b = d.reg b := by
  rw [storeWord, modEcc_reg]
  rfl

theorem storeWord_eventBooks (a : Nat) (w : Word) (d : Dev) : (d.storeWord a w).eventBooks = d.eventBooks := by
  rw [storeWord, modEcc_eventBooks]
  rfl

/-! ### The beat's burst and its addresses -/

theorem dmaBeatDue_of (h : beatDue d c) : d.dmaBeatDue = some c := by
  obtain ⟨hactive, hstate, hover, hpending⟩ := h
  refine find_active hactive ?_ fun k hk => ?_
  · simpa [hactive, hstate, hover, dmaPending, or_assoc] using hpending
  · simp only [Bool.and_eq_true, beq_iff_eq] at hk
    exact hk.1.1.1

section
variable (d c)

theorem dmaBurstStart_engages : Engages [R.DMA_STAT c] d (d.dmaBurstStart c) := by
  have hsame : Engages [R.DMA_STAT c] d d := Engages.refl _ d
  unfold dmaBurstStart
  dsimp only
  split_ifs
  · exact hsame
  · exact hsame.modDma _
  · exact (hsame.field _ (by simp)).modDma _

theorem dmaBurstStart_state : (d.dmaBurstStart c).dmaState c = d.dmaState c := by
  unfold dmaBurstStart dmaState
  dsimp only
  split_ifs
  · rfl
  · rw [modDma_fld]
  · rw [modDma_fld]
    exact fld_setFld_apart _ _ (by simp) (.inl (by simp))

theorem dmaBeatDone_engages : Engages [R.DMA_SRC c, R.DMA_DST c] d (d.dmaBeatDone c) := by
  have hsame : Engages [R.DMA_SRC c, R.DMA_DST c] d d := Engages.refl _ d
  unfold dmaBeatDone
  dsimp only
  split_ifs
  · exact hsame.modDma _
  · exact (hsame.word _ (by simp)).modDma _
  · exact (hsame.word _ (by simp)).modDma _
  · exact ((hsame.word _ (by simp)).word _ (by simp)).modDma _

/-- The source moves first. -/
def sourceMoved (c : Nat) (d : Dev) : Dev := if d.on (F.DMA_CFG_SFIX c) then d else d.setReg (R.DMA_SRC c) (d.reg (R.DMA_SRC c) + 4)

theorem sourceMoved_reg (ha : a ≠ R.DMA_SRC c) : (d.sourceMoved c).reg a = d.reg a := by
  unfold sourceMoved
  split
  · rfl
  · exact reg_setReg_ne _ d ha

theorem dmaBeatDone_reg : (d.dmaBeatDone c).reg a =
    (if (d.sourceMoved c).on (F.DMA_CFG_DFIX c) then d.sourceMoved c
      else (d.sourceMoved c).setReg (R.DMA_DST c) ((d.sourceMoved c).reg (R.DMA_DST c) + 4)).reg a := rfl

theorem dmaBeatDone_src : (d.dmaBeatDone c).reg (R.DMA_SRC c) =
    (if d.on (F.DMA_CFG_SFIX c) then 0 else 4) + d.reg (R.DMA_SRC c) := by
  have hmoved : (d.sourceMoved c).reg (R.DMA_SRC c) = (if d.on (F.DMA_CFG_SFIX c) then 0 else 4) + d.reg (R.DMA_SRC c) := by
    unfold sourceMoved
    split
    · exact (BitVec.zero_add _).symm
    · rw [reg_setReg_self, BitVec.add_comm]
  rw [dmaBeatDone_reg, ← hmoved]
  split
  · rfl
  · exact reg_setReg_ne _ _ (by simp only [R.DMA_SRC, R.DMA_DST]; omega)

theorem dmaBeatDone_dst : (d.dmaBeatDone c).reg (R.DMA_DST c) =
    (if d.on (F.DMA_CFG_DFIX c) then 0 else 4) + d.reg (R.DMA_DST c) := by
  have hfixed : (d.sourceMoved c).on (F.DMA_CFG_DFIX c) = d.on (F.DMA_CFG_DFIX c) :=
    on_of_word (sourceMoved_reg d c (by simp only [R.DMA_CFG, R.DMA_SRC]; omega))
  have hdst : (d.sourceMoved c).reg (R.DMA_DST c) = d.reg (R.DMA_DST c) :=
    sourceMoved_reg d c (by simp only [R.DMA_DST, R.DMA_SRC]; omega)
  rw [dmaBeatDone_reg, hfixed]
  split
  · exact hdst.trans (BitVec.zero_add _).symm
  · rw [reg_setReg_self, hdst, BitVec.add_comm]

end

/-! ### A beat between memories (R494) -/

theorem beatRead_clean (hm : (memOf a).isSome = true) (h : classifyWord (d.memWord a) (d.memCheck a) = .clean) :
    d.beatRead q a = (.ok (d.memWord a), d) := by
  obtain ⟨m, hm⟩ := Option.isSome_iff_exists.mp hm
  simp only [beatRead, hm, readMem_clean h, Bool.false_eq_true, if_false]

theorem beatWrite_mem (hm : (memOf a).isSome = true) : d.beatWrite a w = (true, d.storeWord a w) := by
  obtain ⟨m, hm⟩ := Option.isSome_iff_exists.mp hm
  simp only [beatWrite, hm]

/-- The beat begins: its burst has taken its request, and the counters have seen it. -/
def beatBegun (c : Fin 8) (d : Dev) : Dev := (d.dmaBurstStart c).devEvent 11 1

/-- COUNT has fallen with the read, and the word is stored. -/
def beatStored (c : Fin 8) (dst : Nat) (w : Word) (d : Dev) : Dev :=
  ((d.beatBegun c).setFld (F.DMA_COUNT_COUNT c) ((d.beatBegun c).fld (F.DMA_COUNT_COUNT c) - 4)).storeWord dst w

theorem beatBegun_counts (c : Fin 8) (d : Dev) : Counts (d.dmaBurstStart c) (d.beatBegun c) := (Counts.refl _).devEvent 11 1

theorem beatBegun_mem (c : Fin 8) (d : Dev) : (d.beatBegun c).mem = d.mem ∧ (d.beatBegun c).chk = d.chk :=
  ⟨((beatBegun_counts c d).keeps Dev.mem fun _ => rfl).trans (dmaBurstStart_engages d c).mem,
    ((beatBegun_counts c d).keeps Dev.chk fun _ => rfl).trans (dmaBurstStart_engages d c).chk⟩

/-- Neither the counters nor a channel's `STAT` are among the words that a beat's beginning leaves. -/
theorem beatBegun_reg (d : Dev) (hcnt : blockOf a ≠ Blk.cnt) (hstat : a ≠ R.DMA_STAT c) : (d.beatBegun c).reg a = d.reg a :=
  ((beatBegun_counts c d).reg a hcnt).trans ((dmaBurstStart_engages d c).reg a (by simpa using hstat))

theorem beatBegun_state (c : Fin 8) (d : Dev) : (d.beatBegun c).dmaState c = d.dmaState c := by
  have hword := (beatBegun_counts c d).dmaWord (a := R.DMA_STAT c) (by simp only [R.DMA_STAT]; omega) (by simp only [R.DMA_STAT]; omega)
  exact (fld_of_word hword).trans (dmaBurstStart_state d c)

theorem beatStored_reg {dst : Nat} (ha : a ≠ R.DMA_COUNT c) : (d.beatStored c dst w).reg a = (d.beatBegun c).reg a := by
  rw [beatStored, storeWord_reg, reg_setFld_ne _ _ _ ha]

theorem beatStored_other {dst : Nat} (d : Dev) (hcnt : blockOf a ≠ Blk.cnt) (hstat : a ≠ R.DMA_STAT c) (hcount : a ≠ R.DMA_COUNT c) :
    (d.beatStored c dst w).reg a = d.reg a := (beatStored_reg hcount).trans (beatBegun_reg d hcnt hstat)

theorem beatStored_channel {dst : Nat} (d : Dev) (ha : a ∈ [R.DMA_SRC c, R.DMA_DST c, R.DMA_CFG c]) :
    (d.beatStored c dst w).reg a = d.reg a := by
  simp only [List.mem_cons, List.not_mem_nil, or_false, R.DMA_SRC, R.DMA_DST, R.DMA_CFG] at ha
  refine beatStored_other d ?_ ?_ ?_ <;> simp only [blockOf, Blk.cnt, R.DMA_STAT, R.DMA_COUNT] <;> omega

theorem beatStored_count {dst : Nat} :
    (d.beatStored c dst w).fld (F.DMA_COUNT_COUNT c) = d.fld (F.DMA_COUNT_COUNT c) - 4 := by
  have hword : (d.beatBegun c).reg (R.DMA_COUNT c) = d.reg (R.DMA_COUNT c) :=
    beatBegun_reg d (by simp only [blockOf, R.DMA_COUNT, Blk.cnt]; omega) (by simp only [R.DMA_COUNT, R.DMA_STAT]; omega)
  have hlt : d.fld (F.DMA_COUNT_COUNT c) < 2 ^ 24 := getBits_lt _ _
  rw [beatStored, fld_of_word (storeWord_reg ..), fld_setFld_self _ _ _ (by simp), fld_of_word (f := F.DMA_COUNT_COUNT c) hword]
  exact Nat.mod_eq_of_lt (Nat.lt_of_le_of_lt (Nat.sub_le _ _) hlt)

theorem beatStored_state {dst : Nat} (hstate : d.dmaState c = 2) : (d.beatStored c dst w).dmaState c = 2 := by
  rw [dmaState, fld_of_word (beatStored_reg (by simp only [R.DMA_STAT, R.DMA_COUNT]; omega))]
  exact (beatBegun_state c d).trans hstate

section
variable (d c w) (dst : Nat)

theorem beatStored_word : (d.beatStored c dst w).memWord dst = w := by rw [beatStored, memWord_storeWord]

theorem beatStored_check : (d.beatStored c dst w).memCheck dst = checkBits w % 256 := by
  rw [beatStored, memCheck_storeWord, if_pos rfl]

theorem beatStored_byte (hb : b < dst ∨ dst + 4 ≤ b) :
    Cells.get zeroByte (d.beatStored c dst w).mem b = Cells.get zeroByte d.mem b := by
  rw [beatStored, storeWord_mem, mem_putWord, if_neg (by omega), setFld_mem, (beatBegun_mem c d).1]

theorem beatStored_books : (d.beatStored c dst w).eventBooks = (d.beatBegun c).eventBooks := by
  rw [beatStored, storeWord_eventBooks, setFld_eventBooks]

end

theorem dmaBeat_none (h : d.dmaBeatDue = none) : d.dmaBeat q = d := by rw [dmaBeat, h]

/-- A read that fails halts the channel where it was to read. -/
theorem dmaBeat_halts {src err : Nat} (hdue : d.dmaBeatDue = some c) (hsrc : (d.reg (R.DMA_SRC c)).toNat = src)
    (h : ((d.beatBegun c).beatRead q src).1 = .damaged ∧ err = 3 ∨
    ((d.beatBegun c).beatRead q src).1 = .domain ∧ err = 4) :
    d.dmaBeat q = ((d.beatBegun c).beatRead q src).2.dmaHalt c err src := by
  subst hsrc
  rw [dmaBeat, hdue]
  dsimp only
  rw [← beatBegun]
  generalize (d.beatBegun c).beatRead q (d.reg (R.DMA_SRC c)).toNat = r at *
  obtain ⟨_, e⟩ := r
  rcases h with ⟨h, rfl⟩ | ⟨h, rfl⟩ <;> cases h <;> rfl

/-- A beat between memories stores its word, and then moves its addresses. -/
theorem dmaBeat_moves (hdue : beatDue d c) (hsrc : (memOf (d.reg (R.DMA_SRC c)).toNat).isSome = true)
    (hdst : (memOf (d.reg (R.DMA_DST c)).toNat).isSome = true)
    (hclean : classifyWord (d.memWord (d.reg (R.DMA_SRC c)).toNat) (d.memCheck (d.reg (R.DMA_SRC c)).toNat) = .clean) :
    d.dmaBeat q = (d.beatStored c (d.reg (R.DMA_DST c)).toNat (d.memWord (d.reg (R.DMA_SRC c)).toNat)).dmaBeatDone c := by
  obtain ⟨hmem, hchk⟩ := beatBegun_mem c d
  have hread := beatRead_clean (d := d.beatBegun c) (q := q) hsrc (by rw [memWord_of_mem hmem, memCheck_of_chk hchk, hclean])
  rw [memWord_of_mem hmem] at hread
  have hstate := beatStored_state (dst := (d.reg (R.DMA_DST c)).toNat) (w := d.memWord (d.reg (R.DMA_SRC c)).toNat) hdue.2.1
  rw [dmaBeat, dmaBeatDue_of hdue]
  dsimp only
  rw [← beatBegun, hread]
  dsimp only
  rw [beatWrite_mem hdst]
  dsimp only
  rw [← beatStored, hstate]
  rfl

end Dev

end Sys2Proof.Machine

namespace Sys2Proof.Claims

open Sys2Proof.Machine Sys2Proof.Machine.Dev

variable {s : State} {c : Fin 8} {d : Dev}

/-- The queue of a block that a command raises nothing in. -/
theorem evq_unraised {b : Fin 32} (hpopped : d.popped = []) (hemptied : d.emptied = false) (h : ∀ r ∈ d.raised, r.blk ≠ b.val) :
    (commit s d).evq[b] = s.evq[b] := by
  have hnone : (sortRaises d.raised).filter (fun r => r.blk == b.val) = [] :=
    List.filter_eq_nil_iff.mpr fun r hr => by simpa using h r (mem_sortRaises.mp hr)
  rw [commit, finish_evq, queueAfter, hpopped, hemptied, hnone]
  rfl

/-- A beat that begins raises events of the counters alone. -/
theorem beatBegun_events (hs : d.settled = true) (c : Fin 8) : (d.beatBegun c).popped = [] ∧ (d.beatBegun c).emptied = false ∧
    ∀ r ∈ (d.beatBegun c).raised, r.blk = Blk.cnt := by
  have hburst := (dmaBurstStart_engages d c).books
  simp only [eventBooks, Prod.mk.injEq] at hburst
  obtain ⟨hraised, hpopped, hemptied⟩ := hburst
  obtain ⟨hnone, hpopped', hemptied'⟩ := books hs
  have hcounts := beatBegun_counts c d
  refine ⟨hcounts.popped.trans (hpopped.trans hpopped'), hcounts.emptied.trans (hemptied.trans hemptied'), fun r hr => ?_⟩
  refine (hcounts.raised r hr).resolve_left ?_
  rw [hraised, hnone]
  exact List.not_mem_nil

theorem dmaBeatMoved (hs : s.dev.settled = true) (c : Fin 8) : DmaBeatMoved s c := by
  unfold DmaBeatMoved
  intro src dst hdue hsrc hdst _ hclean
  have he : exec .dmaBeat s = .next (commit s ((s.dev.beatStored c dst (s.dev.memWord src)).dmaBeatDone c)) :=
    congrArg (fun d => Host.Outcome.next (commit s d)) (dmaBeat_moves hdue hsrc hdst hclean)
  have hword := beatStored_word s.dev c (s.dev.memWord src) dst
  have hcheck := beatStored_check s.dev c (s.dev.memWord src) dst
  have hbyte (b : Nat) := beatStored_byte (b := b) s.dev c (s.dev.memWord src) dst
  have hcount := beatStored_count (d := s.dev) (c := c) (w := s.dev.memWord src) (dst := dst)
  have hother (a : Nat) := beatStored_other (a := a) (c := c) (w := s.dev.memWord src) (dst := dst) s.dev
  have hchannel (a : Nat) := beatStored_channel (a := a) (c := c) (w := s.dev.memWord src) (dst := dst) s.dev
  obtain ⟨hpopped, hemptied, hraised⟩ := beatBegun_events hs c
  have hbooks := beatStored_books s.dev c (s.dev.memWord src) dst
  generalize s.dev.beatStored c dst (s.dev.memWord src) = e at *
  have hdone := dmaBeatDone_engages e c
  have hended := hdone.books.trans hbooks
  simp only [eventBooks, Prod.mk.injEq] at hended
  obtain ⟨hraised', hpopped', hemptied'⟩ := hended
  refine ⟨_, he, ?word, ?check, fun b hb => ?bytes, ?count, ?src, ?dst, fun a hcnt hmgt ha => ?words,
    fun b hb => ?queues, finish_pending ..⟩
  case word => exact (finish_keeps (fun d => d.memWord dst) fun _ => rfl).trans ((memWord_of_mem hdone.mem dst).trans hword)
  case check => exact (finish_keeps (fun d => d.memCheck dst) fun _ => rfl).trans ((memCheck_of_chk hdone.chk dst).trans hcheck)
  case bytes =>
    have hmem : (commit s (e.dmaBeatDone c)).dev.mem = e.mem := (finish_keeps Dev.mem fun _ => rfl).trans hdone.mem
    rw [hmem, hbyte b hb]
  case count =>
    rw [fld_of_word (reg_commit (by simp only [R.DMA_COUNT]; omega)), fld_of_word (hdone.reg _ ?_), hcount]
    simp only [List.mem_cons, List.not_mem_nil, or_false, R.DMA_COUNT, R.DMA_SRC, R.DMA_DST]
    omega
  case src =>
    rw [reg_commit (by simp only [R.DMA_SRC]; omega), dmaBeatDone_src, on_of_word (f := F.DMA_CFG_SFIX c) (hchannel _ (by simp)),
      hchannel _ (by simp)]
  case dst =>
    rw [reg_commit (by simp only [R.DMA_DST]; omega), dmaBeatDone_dst, on_of_word (f := F.DMA_CFG_DFIX c) (hchannel _ (by simp)),
      hchannel _ (by simp)]
  case words =>
    simp only [List.mem_cons, List.not_mem_nil, or_false, not_or] at ha
    obtain ⟨hstat, hcount', hsrc', hdst'⟩ := ha
    rw [commit, finish_reg _ _ _ hmgt, hdone.reg a (by simp [hsrc', hdst']), hother a hcnt hstat hcount']
  case queues =>
    refine evq_unraised (hpopped'.trans hpopped) (hemptied'.trans hemptied) fun r hr => ?_
    rw [hraised r (by rwa [← hraised'])]
    exact Ne.symm hb

theorem dmaBeatHalted (hs : s.dev.settled = true) : DmaBeatHalted s := by
  have hexec {d : Dev} (h : s.dev.dmaBeat s.evq = d) : exec .dmaBeat s = .next (commit s d) :=
    congrArg (fun d => Host.Outcome.next (commit s d)) h
  exact ⟨fun h => yields_same hs (hexec (dmaBeat_none h)), fun c hdue =>
    ⟨fun h => ⟨_, hexec (dmaBeat_halts hdue rfl (.inl ⟨h, rfl⟩)), rfl⟩,
      fun h => ⟨_, hexec (dmaBeat_halts hdue rfl (.inr ⟨h, rfl⟩)), rfl⟩⟩⟩

/-- Settles O45: a pulse by what each channel hears, arbitration by the channel found, a beat by its read and its write, and a hand-over
by the shadow that waits for it. -/
theorem dmaMoves : Obligations.DmaMoves := fun s hs =>
  ⟨dmaRequested hs, dmaActivated hs, fun c => ⟨dmaBeatMoved hs c, dmaCompleted hs c, dmaPulses s c⟩, dmaBeatHalted hs, dmaHalted⟩

end Sys2Proof.Claims
end
